-- ==== Sys2Proof/Word.lean ====
section
/-! DEFINITION. The machine's words (R5: every register is 32 bits wide and little-endian) and the plainest arithmetic on
them: taking a field out of a word, putting one in, and the bytes of a number. -/

namespace Sys2Proof

/-- One register word (R5). -/
abbrev Word := BitVec 32

/-- One byte of Basin, DRAM, flash or host memory. -/
abbrev Byte := BitVec 8

/-- Bits [hi:lo] of a number, as a number. -/
def bitsOf (w hi lo : Nat) : Nat := w / 2 ^ lo % 2 ^ (hi + 1 - lo)

/-- `w` with bits [hi:lo] replaced by the low bits of `v`. -/
def putBits (w hi lo v : Nat) : Nat :=
  w % 2 ^ lo + 2 ^ lo * (v % 2 ^ (hi + 1 - lo)) + 2 ^ (hi + 1) * (w / 2 ^ (hi + 1))

/-- 1 for true, 0 for false, as a bit of a register. -/
def b2n (b : Bool) : Nat := if b then 1 else 0

/-- The `n` bytes of `v`, lowest byte first (every multi-byte field is little-endian). -/
def leBytes : Nat → Nat → List Byte
  | 0, _ => []
  | n + 1, v => BitVec.ofNat 8 v :: leBytes n (v / 256)

/-- The number whose bytes, lowest first, are `bs`. -/
def ofLeBytes : List Byte → Nat
  | [] => 0
  | b :: bs => b.toNat + 256 * ofLeBytes bs

/-- `n` as a signed number of `w` bits in two's complement. -/
def signedOf (w n : Nat) : Int := if n % 2 ^ w < 2 ^ (w - 1) then (n % 2 ^ w : Nat) else (n % 2 ^ w : Nat) - (2 ^ w : Nat)

/-- The two's complement word of `w` bits for the integer `i`. -/
def toSigned (w : Nat) (i : Int) : Nat := (i % ((2 ^ w : Nat) : Int)).toNat

/-- `a` plus `b`, held at the largest `w`-bit value (a saturating counter). -/
def satAdd (w a b : Nat) : Nat := min (a + b) (2 ^ w - 1)

end Sys2Proof
end

