-- ==== Sys2Proof/Syntax.lean ====
section
/-! DEFINITION. The commands of the block: one constructor per row of the opcode table, with what the command brings from
outside the device as its operands. -/

namespace Sys2Proof

/-- The view through which a register is reached (Table 0.5). -/
inductive View
  | u (paddock : Fin 64)
  | p
  | s
  deriving DecidableEq, Repr

/-- A memory of the device: Basin or DRAM. -/
inductive MemSel
  | basin | dram
  deriving DecidableEq, Repr

/-- What the ECC decoder found in the words of an access (R169, R170). -/
inductive EccFind
  | clean | correctable | uncorrectable
  deriving DecidableEq, Repr

/-- The capabilities that Table 5.1 gives or denies. -/
inductive CfgCap
  | srIov | ari | msix | msi | flr | aer | aspmL1 | aspmL0s | l1Substates | ltr | ats | pri | pasid | acs | resizableBar
  deriving DecidableEq, Repr

/-- The fields of configuration space that Table 5.1, R114 and R119 give. -/
inductive CfgField
  | deviceId | revisionId | classCode | maxPayload | completionTimeout | busMaster | msixEnable | functionMask | d3hot
  | msixVectors | capability (c : CfgCap) | bar (n : Fin 3) | vfBar0 | vfEnable | numVfs | totalVfs | firstVfOffset
  | vfStride | ecrcGen | ecrcChk | aerUncorrectable | aerCorrectable
  deriving DecidableEq, Repr

/-- A configuration request to one function (R30, R113, R114, R118). The writes with a row of their own (Bus Master
Enable, FLR, VF Enable clear) are commands of their own. -/
inductive CfgOp
  | read (field : CfgField)
  | setMsixEnable (on : Bool)
  | setFunctionMask
  | setVfEnable (numVfs : Nat)
  | setCompletionTimeout (value : Nat)
  | setPowerState (d3hot : Bool)
  | setBar (bar : Fin 3) (value : Nat)
  | setVfBar0 (value : Nat)
  | setEcrc (gen chk : Bool)
  | clearAer (uncorrectable correctable : Nat)
  deriving DecidableEq, Repr

/-- What LOAD meets outside the device while it loads one slot: channels that fail to train, and the type of a section
that a block refuses (codes 0x18 and 0x19 of Table 3.8). -/
structure LoadFacts where
  trainFail : List Nat
  refuses : Option Nat
  deriving DecidableEq, Repr

/-- The masters of Table 4.5, and the debug fabric of NM8-X (R111). -/
inductive Master
  | job | fetch | trough | layer | safety | writeback | device (user : Fin 9) | aperture | koroft | debug
  deriving DecidableEq, Repr

/-- The job for which an access is made: its context, ring index, and the descriptor byte offset of the field that names
the buffer (Table 6.8). -/
structure JobRef where
  ctx : Fin 1024
  sq : Nat
  off : Nat
  deriving DecidableEq, Repr

/-- What the monitor of a rail of Table 2.5 (numbered in its order) sees: the rail stands at `mv` millivolts for `ns`
nanoseconds (R47). -/
structure RailSample where
  rail : Fin 9
  mv : Nat
  ns : Nat
  deriving DecidableEq, Repr

/-- Why a port is declared down (R115). -/
inductive DownCause
  | dlDown | hotReset | perst | timeout | fatal
  deriving DecidableEq, Repr

/-- What a host returns for a read (Table 5.2). -/
inductive HostReply
  | data (bytes : List Byte)
  | poisoned
  | urCa
  | ecrc (bytes : List Byte)
  deriving DecidableEq, Repr

/-- Who writes a context operation (R154): the paddock through CQ_U_DB_CMD, or the manager through CQ_CTX_CMD. -/
inductive CtxSource
  | paddock | manager
  deriving DecidableEq, Repr

/-- The context registers that R164 and R165 protect. -/
inductive CtxReg
  | sqBaseLo | sqBaseHi | cqBaseLo | cqBaseHi | cfg | cls | limit
  deriving DecidableEq, Repr

/-- A block's answer to a power handshake (R467). -/
inductive HsAnswer
  | accept
  | delay
  | refuse (reason : Fin 8)
  deriving DecidableEq, Repr

/-- The CVU registers that R350 protects while a job runs. -/
inductive CvuReg
  | ctrl | alive | period
  deriving DecidableEq, Repr

/-- A received E1.31 packet: kind 0 data, 1 synchronization, 2 discovery; CID, priority, sequence number, options, sACN
universe, START code and slots (R376). -/
structure SacnPacket where
  kind : Nat
  cid : Nat
  priority : Nat
  seq : Nat
  preview : Bool
  terminated : Bool
  sacn : Nat
  start : Nat
  slots : List Byte
  deriving DecidableEq, Repr

/-- What a listening DMX port receives (Table 14.14). -/
inductive RdmRx
  | byte (b : Byte)
  | brk
  | framing
  deriving DecidableEq, Repr

/-- What an Announce message says of its grandmaster (IEEE 1588-2019, R393). -/
structure PtpDs where
  identity : Nat
  priority1 : Nat
  clockClass : Nat
  accuracy : Nat
  variance : Nat
  priority2 : Nat
  steps : Nat
  deriving DecidableEq, Repr

/-- A received PTP message: `source` is its sender's port identity, times are ns of PTP time with corrections applied. -/
inductive PtpMsg
  | announce (source : Nat) (ds : PtpDs)
  | sync (source seq : Nat) (twoStep : Bool) (origin : Int)
  | followUp (source seq : Nat) (origin : Int)
  | delayReq (source seq : Nat)
  | delayResp (source seq : Nat) (received : Int)
  | pdelayReq (source seq : Nat)
  | pdelayResp (source seq : Nat) (received sent : Int)
  | management
  deriving DecidableEq, Repr

/-- The messages whose interval expires (R393). -/
inductive PtpSend
  | sync | announce | delayReq
  deriving DecidableEq, Repr

/-- Why a network port goes down (R391). -/
inductive NetFault
  | modabs | los | txflt | lock
  deriving DecidableEq, Repr

/-- To whom a received frame is addressed. -/
inductive EthDest
  | own
  | broadcast
  | group (ipv4 : Nat)
  | other
  deriving DecidableEq, Repr

/-- A received Ethernet frame as the checks of R387 and R388 see it. -/
structure EthFrame where
  fcsOk : Bool
  sumsOk : Bool
  vid : Option Nat
  dest : EthDest
  fragment : Bool
  known : Bool
  deriving DecidableEq, Repr

/-- A touch that R410 may release: a contact of a field, or a control. -/
inductive TouchId
  | contact (field : Fin 8) (ident : Fin 20)
  | control (m : Fin 256)
  deriving DecidableEq, Repr


/-- The commands: one constructor per row of the opcode table, in its order. The docstring of each names the row and its rule. -/
inductive Instr
  /-- REGISTER_WRITE (R10): A write to a register that has no row of its own acts as its access code states. -/
  | registerWrite (view : View) (offset value size hwSet hwClear : Nat)
  /-- APERTURE_ACCESS (R27): A P-view access in the Basin aperture is checked as a manager access and completes, or is refused with a record. -/
  | apertureAccess (offset : Nat) (write : Bool) (value : Nat) (ecc : EccFind)
  /-- BSN_APT_BASE_WRITE (R189): A write to BSN_APT_BASE moves the aperture, or is dropped with a record when out of range. -/
  | bsnAptBaseWrite (value : Nat)
  /-- ECC_CLEAR_WRITE (R190): A clear write to MEM_ECC_CLEAR or BSN_ECC_CLEAR clears the counters, keeping any error of the same cycle. -/
  | eccClearWrite (mem : MemSel) (value : Nat) (error : Option (Nat × Bool))
  /-- CONFIG_REQUEST (R30): A PCIe configuration request is answered with CRS until the device leaves LOAD, and normally after that. -/
  | configRequest (port : Fin 4) (fn : Fin 16) (op : CfgOp)
  /-- PORN_ASSERT (R29): PORn assertion takes the device from any state to OFF. -/
  | pornAssert
  /-- PORN_DEASSERT (R43): PORn deassertion with all rails good enters BOOT and samples BOOTSEL. -/
  | pornDeassert (bootsel : Fin 4 := 0)
  /-- ROM_CHECK_DONE (R29): The end of the ROM self-check and fuse read enters LOAD, RECOVERY, TEST or HALTED by BOOTSEL and outcome. -/
  | romCheckDone (romOk fuseOk : Bool)
  /-- WELLHEAD_LOAD (R67): Wellhead reads, verifies, admits, trains and applies a slot, and falls back to the other slot on failure. -/
  | wellheadLoad (sfdpOk : Bool) (slotA slotB : LoadFacts) (steps : List Nat := [])
  /-- RUN_ENTRY (R85): At the end of Wellhead's apply step, the device enters RUN and every block is released in the same fabric cycle. -/
  | runEntry
  /-- DIRECTORY_WRITE (R73): After LOAD, a directory write that Wellhead decided runs, sets flash_busy, and ends. -/
  | directoryWrite
  /-- SLOT_CONFIRM (R74): The confirm key marks the active slot GOOD and raises the rollback minimum when advance_rollback is set. -/
  | slotConfirm (value : Nat)
  /-- REBOOT_KEY (R88): The reboot key written in RECOVERY or TEST returns the device to BOOT with entry_cause 0x06. -/
  | rebootKey (value : Nat) (bootsel : Fin 4 := 0)
  /-- FLASH_READ (R89): The READ flash command copies up to 256 bytes into WH_FLASH_BUF, or is refused. -/
  | flashRead
  /-- FLASH_ERASE (R89): The ERASE flash command erases a 64 KiB sector of the inactive slot, or is refused. -/
  | flashErase
  /-- FLASH_PROGRAM (R89): The PROGRAM flash command writes within one page, or is refused. -/
  | flashProgram
  /-- SET_TRIAL (R74): SET_TRIAL verifies the inactive slot and, on success, writes the directory with that slot TRIAL and preferred. -/
  | setTrial
  /-- FLASH_CMD_END (R90): A flash command completes or fails, which sets done or refused, raises a manager interrupt and writes a record. -/
  | flashCmdEnd (error : Bool)
  /-- OWN_ASSIGN (R112): Koroft assigns or reassigns granules to a paddock after the ordered checks. -/
  | ownAssign (arg : Fin 64) (ro : Bool) (share : Fin 16)
  /-- OWN_RELEASE (R102): Koroft zeroes granules and frees them after the ordered checks. -/
  | ownRelease
  /-- OWN_SHARE (R112): Koroft changes the share group of granules. -/
  | ownShare (share : Fin 16)
  /-- REVOKE_KEY (R93): Koroft revokes a key slot, or refuses with KEY_IN_USE. -/
  | revokeKey (slot : Fin 64)
  /-- OTP_KEY (R93): In TEST the boot ROM programs a signing key hash into an OTP key slot. -/
  | otpKey (slot : Fin 64)
  /-- OTP_IMAGE_KEY (R93): In TEST the boot ROM programs the AES image key into OTP. -/
  | otpImageKey
  /-- SECREQ_END (R101): Once every access checked under the old entries has completed, the request sets done, raises an interrupt and writes a record. -/
  | secreqEnd
  /-- MEMORY_ACCESS (R96): A device master's access to DRAM or Basin is checked against the owner table and carried out or refused. -/
  | memoryAccess (master : Master) (actor : Fin 64) (mem : Option MemSel) (addr : Nat) (write : Bool) (data : List Byte) (len : Nat) (job : Option JobRef) (ecc : EccFind) (layer : Option (Fin 10 × Fin 16) := none)
  /-- OWNER_CACHE_MISS_FILL (R99): An owner-check cache miss completes with the entry read, and the held request proceeds. -/
  | ownerCacheMissFill (unit : Fin 12) (ecc : EccFind)
  /-- OWNER_ENTRY_REWRITE (R100): Koroft rewrites a failed owner entry from its own copy, which lifts the refusal. -/
  | ownerEntryRewrite (granule : Nat)
  /-- ECC_WRITEBACK (R169): A corrected word is written back to its bank, unless a write to it came first. -/
  | eccWriteback (mem : MemSel) (word : Nat)
  /-- PATROL_SCRUB (R172): Every 4,096 fabric cycles the scrubber reads one line per bank and writes back corrected lines. -/
  | patrolScrub (errors : List (Nat × Bool))
  /-- DRAM_INIT_SWEEP (R181): The initialiser zeroes DRAM upward from granule 0 within its bandwidth share. -/
  | dramInitSweep (granules : Nat)
  /-- DRAM_INIT_DONE (R181): The end of the sweep sets MEM_STATUS.init_done and writes a record. -/
  | dramInitDone
  /-- DRAM_REFRESH (R176): Per-bank refresh runs at the interval scaled by MR4. -/
  | dramRefresh (channel : Fin 8)
  /-- MR4_READ (R176): Every 16 ms the controller reads the MR4 refresh-rate field of each channel. -/
  | mr4Read (rates : List Nat)
  /-- ZQ_CALIBRATION (R176): ZQ calibration runs every 128 ms. -/
  | zqCalibration
  /-- WCK_TRACKING (R176): WCK2DQI and WCK2DQO oscillator tracking runs every 100 ms. -/
  | wckTracking
  /-- SHOW_TIME_ECHO_RELOAD (R24): Every 1,024 fabric cycles the master counter reloads each show-time echo. -/
  | showTimeEchoReload (reloads : Nat)
  /-- BROWN_OUT (R50): A detected brown-out drives every group to its reset state and holds all blocks in reset. -/
  | brownOut (rails : List RailSample)
  /-- BROWN_OUT_RECOVERY (R50): 2 ms after all monitored rails are good again, the device enters BOOT with entry_cause 0x01. -/
  | brownOutRecovery (bootsel : Fin 4 := 0)
  /-- VR_PGOOD_LOW (R51): VR_PGOOD held low for 2 µs in RUN, RECOVERY or TEST, when not masked, is treated as a brown-out. -/
  | vrPgoodLow
  /-- THERMAL_TRIP (R61): A junction above the trip threshold asserts THERMTRIPn and drives every haptic output low. -/
  | thermalTrip
  /-- TAP_BYPASS (R59): The BYPASS instruction selects the bypass register. -/
  | tapBypass
  /-- TAP_IDCODE (R59): The IDCODE instruction reads 0x1A8F_6D01 with the silicon version. -/
  | tapIdcode
  /-- TAP_EXTEST (R59): While PORn is low EXTEST drives the boundary-scan cells; otherwise it acts as BYPASS. -/
  | tapExtest (balls shifted : List Bool := [])
  /-- TAP_SAMPLE_PRELOAD (R59): While PORn is low SAMPLE/PRELOAD samples the balls; otherwise it acts as BYPASS. -/
  | tapSamplePreload (balls shifted : List Bool := [])
  /-- DEBUG_SEL (R111): On NM8-X DEBUG_SEL opens the debug fabric, and the first use removes the image key and writes a secure record. -/
  | debugSel
  /-- WDT_KICK (R106): Koroft writes 0x0000_C0DE to SEC_WDT_KICK and restarts the secure watchdog. -/
  | wdtKick (value : Nat)
  /-- WDT_EXPIRY (R107): Secure watchdog expiry holds Koroft in reset, sets restarting and begins the copy and hash of its code. -/
  | wdtExpiry
  /-- KOROFT_RESTARTED (R107): When the digest matches, Koroft leaves reset and restart_count increments. -/
  | koroftRestarted (ecc : EccFind)
  /-- SECURE_CLAIM_SET (R104): Setting a SEC_CLAIM bit refuses power transitions for the block and wakes it if it is down. -/
  | secureClaimSet (bit : Fin 16)
  /-- SECURE_CLAIM_CLEAR (R104): Clearing a SEC_CLAIM bit releases the claim and changes no power state. -/
  | secureClaimClear (bit : Fin 16)
  /-- SECURE_RECORD_WRITE (R463): Koroft or the hardware writes a record into the secure record area. -/
  | secureRecordWrite (code d0 d1 d2 : Nat)
  /-- PORT_DOWN (R115): DL_Down, hot reset, PERST#, a fatal error or a completion timeout declares a host port down and quiesces its active paddocks. -/
  | portDown (port : Fin 4) (cause : DownCause)
  /-- COMPLETION_TIMEOUT (R114): A request without a completion within the programmed timeout declares its port down. -/
  | completionTimeout (port : Fin 4) (tag : Nat)
  /-- LINK_RETRAIN (R116): A declared-down port trains again, and its functions return to their reset values. -/
  | linkRetrain (port : Fin 4) (gen width ltssm : Nat)
  /-- BUS_MASTER_ENABLE_SET (R116): Bus Master Enable set on the manager's function after its port retrains returns the manager paddock to ACTIVE. -/
  | busMasterEnableSet (paddock : Fin 64)
  /-- BME_CLEAR (R125): Clearing Bus Master Enable puts an ACTIVE non-manager paddock into QUIESCING, or reins the manager's contexts. -/
  | bmeClear (paddock : Fin 64)
  /-- FLR (R124): A function level reset resets the function's contexts and U window and quiesces an ACTIVE paddock. -/
  | flr (paddock : Fin 64)
  /-- VF_ENABLE_CLEAR (R124): Clearing VF Enable applies the FLR effects to every VF paddock of the port. -/
  | vfEnableClear (port : Fin 4)
  /-- HOST_COMPLETION_RECEIVED (R117): A completion for a device read arrives, supplies its data, or ends the job FAULT_ECC or FAULT_ACCESS, or is discarded for an orphaned read. -/
  | hostCompletionReceived (port : Fin 4) (tag : Nat) (reply : HostReply)
  /-- MALFORMED_TLP (R117): A malformed TLP or a protocol error is a fatal error that declares the port down. -/
  | malformedTlp (port : Fin 4)
  /-- POISONED_BAR_WRITE (R117): A poisoned memory write to BAR0 or BAR2 is discarded as a non-fatal error. -/
  | poisonedBarWrite (port : Fin 4) (ecrc : Bool := false)
  /-- MSIX_SEND (R123): A raised cause on an unmasked vector sends one MSI-X message. -/
  | msixSend (paddock : Fin 64) (vector : Fin 32)
  /-- MSIX_UNMASK (R123): Clearing a vector or function mask sends the pending message and clears its PBA bit. -/
  | msixUnmask (paddock : Fin 64) (vector : Option (Fin 32))
  /-- ACTIVATE (R134): PDK_CMD ACTIVATE moves an ASSIGNED paddock to ACTIVE, or is refused. -/
  | activate (paddock : Fin 64)
  /-- QUIESCE (R134): PDK_CMD QUIESCE reins the paddock's contexts and ends at QUIESCED, or is refused. -/
  | quiesce (paddock : Fin 64)
  /-- RESUME (R134): PDK_CMD RESUME returns a QUIESCED paddock to ACTIVE, or is refused. -/
  | resume (paddock : Fin 64)
  /-- REMOVE (R136): PDK_CMD REMOVE withdraws every grant and context of a QUIESCED paddock, which becomes ABSENT. -/
  | remove (paddock : Fin 64)
  /-- ASSIGN (R134): PDK_CMD ASSIGN moves an ABSENT paddock to ASSIGNED, or is refused. -/
  | assign (paddock : Fin 64)
  /-- ASSIGN_CTX (R135): PDK_CMD ASSIGN_CTX assigns an idle, unassigned context to a free slot of the paddock. -/
  | assignCtx (paddock : Fin 64) (arg : Nat)
  /-- UNASSIGN_CTX (R135): PDK_CMD UNASSIGN_CTX leaves a context IDLE and unassigned. -/
  | unassignCtx (paddock : Fin 64) (arg : Nat)
  /-- GRANT (R131): PDK_CMD GRANT gives a resource to a paddock, with layers latched at a frame boundary. -/
  | grant (paddock : Fin 64) (kind : Fin 16) (index : Nat)
  /-- REVOKE (R131): PDK_CMD REVOKE withdraws a resource from its holder, with layers latched at a frame boundary. -/
  | revoke (paddock : Fin 64) (kind : Fin 16) (index : Nat)
  /-- PDK_CMD_END (R134): A paddock command ends with done or refused, raises a manager interrupt and writes a record. -/
  | pdkCmdEnd
  /-- PADDOCK_QUIESCED (R127): Once every context of a QUIESCING paddock is IDLE, REINED or FAULTED, the paddock becomes QUIESCED. -/
  | paddockQuiesced (paddock : Fin 64)
  /-- SELF_QUIESCE (R130): A write of the key to PDK_U_QUIESCE quiesces the writing paddock, or is ignored on the manager. -/
  | selfQuiesce (paddock : Fin 64) (value : Nat)
  /-- DOORBELL_TAIL (R140): A write of CQ_U_DB_TAIL sets the submission tail and activates an idle context, or is discarded with a record. -/
  | doorbellTail (paddock : Fin 64) (slot : Fin 256) (value : Nat)
  /-- REIN (R155): A REIN operation moves the context to REINING and stops its fetching and its jobs. -/
  | rein (source : CtxSource) (ctx : Fin 1024)
  /-- REIN_COMPLETE (R155): Once the writes that passed the gate have drained, the rein writes its records and entries and enters REINED. -/
  | reinComplete (ctx : Fin 1024)
  /-- RESTART (R154): RESTART clears last_status and resumes fetching at CQ_U_SQ_HEAD. -/
  | restart (source : CtxSource) (ctx : Fin 1024)
  /-- RESTART_DISCARD (R154): RESTART_DISCARD sets CQ_U_SQ_HEAD to the last tail and then restarts. -/
  | restartDiscard (source : CtxSource) (ctx : Fin 1024)
  /-- RESET (R154): RESET reins if needed, zeroes the ring indices and phase, and enters IDLE. -/
  | reset (source : CtxSource) (ctx : Fin 1024)
  /-- DESCRIPTOR_FETCHED (R146): A fetched descriptor is admitted after its checks, or its job ends FAULT_DESCRIPTOR or FAULT_ACCESS. -/
  | descriptorFetched (ctx : Fin 1024) (reply : HostReply) (host : List (Nat × Byte))
  /-- RENDER_PASS (R209): A RENDER_PASS starts, takes a home string and begins its geometry phase. -/
  | renderPass (ctx : Fin 1024)
  /-- COMPUTE (R209): A COMPUTE starts, takes a home string and its feeder queues workgroups. -/
  | compute (ctx : Fin 1024)
  /-- COPY (R146): A COPY starts copying bytes in ascending address order. -/
  | copy (ctx : Fin 1024)
  /-- COPY_FILL (R146): A COPY with fill mode starts writing the pattern from dst. -/
  | copyFill (ctx : Fin 1024)
  /-- COPY_DONE (R148): A copy or fill completes, and its completion entry is written. -/
  | copyDone (ctx : Fin 1024) (host : List (Nat × Byte))
  /-- FENCE_WAIT (R150): A FENCE_WAIT starts, and the context waits until the fence reaches its value. -/
  | fenceWait (ctx : Fin 1024)
  /-- FENCE_WAIT_SATISFIED (R150): A fence write satisfies a waiting FENCE_WAIT, and its context resumes within 2 µs. -/
  | fenceWaitSatisfied (ctx : Fin 1024)
  /-- FENCE_SIGNAL (R150): A FENCE_SIGNAL writes the fence and its mirror, or ends FAULT_DESCRIPTOR on a lower value. -/
  | fenceSignal (ctx : Fin 1024)
  /-- LAYER_COMMIT (R147): A LAYER_COMMIT reaches its composer's commit port, and its covered shadows are copied to pending. -/
  | layerCommit (ctx : Fin 1024)
  /-- LIGHT_WRITE (R368): A LIGHT_WRITE starts feeding frames of channel data to its JOB merge source. -/
  | lightWrite (ctx : Fin 1024)
  /-- RDM_TRANSACTION (R384): An RDM_TRANSACTION is queued on its DMX port, and transactions run one at a time in start order. -/
  | rdmTransaction (ctx : Fin 1024) (host : List (Nat × Byte))
  /-- AUDIO_BUFFER_PLAY (R441): An AUDIO_BUFFER play fills its GUEST input's device buffer from memory. -/
  | audioBufferPlay (ctx : Fin 1024) (host : List (Nat × Byte))
  /-- AUDIO_BUFFER_PLAY_DONE (R441): A play job ends DONE when its last sample has entered the device buffer. -/
  | audioBufferPlayDone (ctx : Fin 1024)
  /-- AUDIO_BUFFER_CAPTURE (R442): An AUDIO_BUFFER capture writes bus samples from the next block onward. -/
  | audioBufferCapture (ctx : Fin 1024)
  /-- AUDIO_CAPTURE_DONE (R442): A capture ends DONE once its last sample is visible in memory. -/
  | audioCaptureDone (ctx : Fin 1024)
  /-- HAPTIC_PLAY (R432): A HAPTIC_PLAY delivers a trigger to its channel when it starts or at its target time. -/
  | hapticPlay (ctx : Fin 1024)
  /-- CVU_RUN (R351): A CVU_RUN restores or initialises the CVU and feeds it bytes from memory. -/
  | cvuRun (ctx : Fin 1024) (host : List (Nat × Byte))
  /-- CVU_RUN_DONE (R351): A CVU_RUN finishes feeding, writes the save area if asked, and completes. -/
  | cvuRunDone (ctx : Fin 1024) (host : List (Nat × Byte))
  /-- EVENT_MARK (R145): An EVENT_MARK writes its guest mark and data as a record and completes. -/
  | eventMark (ctx : Fin 1024)
  /-- COMPLETION_HEAD_WRITE (R142): A write of CQ_U_CQ_HEAD frees completion entries, and held entries and reports are written as room allows. -/
  | completionHeadWrite (paddock : Fin 64) (slot : Fin 256) (value : Nat)
  /-- RUN_LIMIT_EXPIRY (R152): A job running beyond its run limit ends FAULT_TIMEOUT. -/
  | runLimitExpiry (ctx : Fin 1024)
  /-- FENCE_SET (R165): A write of apply to CQ_FENCE_SEL loads CQ_FENCE_SET into the fence, or refuses a lower value with a record. -/
  | fenceSet (value : Nat)
  /-- CONTEXT_CFG_WRITE (R164): A write to a context ring or class register applies while IDLE, or is dropped with cfg_busy and CTX_CFG_BUSY. -/
  | contextCfgWrite (ctx : Fin 1024) (which : CtxReg) (value : Nat)
  /-- HOME_STRING_ASSIGN (R209): A jets job waiting for a home string takes one once a string comes free. -/
  | homeStringAssign
  /-- DRAW_RECORD_READ (R198): The binner reads and checks a draw record, or ends the job on a malformed record. -/
  | drawRecordRead (ctx : Fin 1024) (sq : Nat) (host : List (Nat × Byte))
  /-- VERTEX_BATCH (R199): A vertex batch runs the vertex entry on the home string's jets in draw order. -/
  | vertexBatch (ctx : Fin 1024) (sq : Nat) (host : List (Nat × Byte))
  /-- BIN_PRIMITIVE (R203): The binner clips, culls and appends a primitive to the trough, running a spill pass when it does not fit. -/
  | binPrimitive (ctx : Fin 1024) (sq : Nat)
  /-- GEOMETRY_PHASE_END (R206): At the end of a round's geometry phase the binner pushes its tiles, and empty tiles go to the write-out unit. -/
  | geometryPhaseEnd (ctx : Fin 1024) (sq : Nat) (host : List (Nat × Byte))
  /-- ROUND_END (R204): Once every tile of a spilled round is written, the binner empties the heads and starts the next round. -/
  | roundEnd (ctx : Fin 1024) (sq : Nat)
  /-- DISPATCH (R210): In each jet clock a string queue dispatches one item to its lowest idle jet, then serves pushes and steals. -/
  | dispatch (str : Fin 8) (host : List (Nat × Byte)) (tileBad : Bool := false)
  /-- SIPHON_STEAL (R211): An idle jet with an empty queue steals half of a victim queue's newest items and starts the oldest. -/
  | siphonSteal (jet : Fin 64) (host : List (Nat × Byte)) (tileBad : Bool := false)
  /-- TILE_RETIRE (R207): A jet finishes a tile's bin list and hands its buffer half to the write-out unit. -/
  | tileRetire (jet : Fin 64) (fail : Option Nat)
  /-- TILE_WRITTEN (R207): Once every data and header write of a tile is visible, the tile counts as written and the progress word advances. -/
  | tileWritten (str : Fin 8) (host : List (Nat × Byte)) (fail : Option Nat := none)
  /-- JA_CTRL_WRITE (R217): A write to JA_CTRL enables the array and brings accepted RL writes into force, or clears enable once no jets job runs. -/
  | jaCtrlWrite (value : Nat)
  /-- ICACHE_FILL (R228): An instruction-cache line fill completes, and check bits are computed from the received bytes. -/
  | icacheFill (jet : Fin 64) (ctx : Fin 1024) (sq line : Nat) (host : List (Nat × Byte))
  /-- LOAD_DATA_RETURN (R235): Data of a memory, texture or tile-buffer read in flight returns and writes its destination registers. -/
  | loadDataReturn (jet : Fin 64) (team : Fin 16) (idx : Fin 16)
  /-- NOP (R236): Instruction NOP does nothing. -/
  | jNop (jet : Fin 64) (team : Fin 16) (bad : Bool)
  /-- BRA (R237): Instruction BRA branches the whole team by its condition over present lanes. -/
  | jBra (jet : Fin 64) (team : Fin 16) (bad : Bool)
  /-- CALL (R237): Instruction CALL stores the return index in an s register and branches. -/
  | jCall (jet : Fin 64) (team : Fin 16) (bad : Bool)
  /-- RET (R237): Instruction RET branches to the index held in an s register. -/
  | jRet (jet : Fin 64) (team : Fin 16) (bad : Bool)
  /-- END (R237): Instruction END ends the team and delivers its stage's outputs. -/
  | jEnd (jet : Fin 64) (team : Fin 16) (bad : Bool) (tileBad : Bool := false)
  /-- DROP (R237): Instruction DROP discards guarded covered lanes. -/
  | jDrop (jet : Fin 64) (team : Fin 16) (bad : Bool)
  /-- WSYNC (R252): Instruction WSYNC holds the team until every team of the workgroup has arrived or ended. -/
  | jWsync (jet : Fin 64) (team : Fin 16) (bad : Bool)
  /-- MVIS (R244): Instruction MVIS makes the team's earlier global writes visible before any later memory instruction. -/
  | jMvis (jet : Fin 64) (team : Fin 16) (bad : Bool)
  /-- MOV (R236): Instruction MOV copies b to d. -/
  | jMov (jet : Fin 64) (team : Fin 16) (bad : Bool)
  /-- IADD (R238): Instruction IADD adds integers, optionally saturating. -/
  | jIadd (jet : Fin 64) (team : Fin 16) (bad : Bool)
  /-- ISUB (R238): Instruction ISUB subtracts integers, optionally saturating. -/
  | jIsub (jet : Fin 64) (team : Fin 16) (bad : Bool)
  /-- IMUL (R236): Instruction IMUL gives the low 32 bits of a product. -/
  | jImul (jet : Fin 64) (team : Fin 16) (bad : Bool)
  /-- IMULHI (R236): Instruction IMULHI gives the high 32 bits of the signed product. -/
  | jImulhi (jet : Fin 64) (team : Fin 16) (bad : Bool)
  /-- UMULHI (R236): Instruction UMULHI gives the high 32 bits of the unsigned product. -/
  | jUmulhi (jet : Fin 64) (team : Fin 16) (bad : Bool)
  /-- IMULA (R236): Instruction IMULA gives the low 32 bits of a × b + c. -/
  | jImula (jet : Fin 64) (team : Fin 16) (bad : Bool)
  /-- AND (R236): Instruction AND gives the bitwise AND. -/
  | jAnd (jet : Fin 64) (team : Fin 16) (bad : Bool)
  /-- OR (R236): Instruction OR gives the bitwise OR. -/
  | jOr (jet : Fin 64) (team : Fin 16) (bad : Bool)
  /-- XOR (R236): Instruction XOR gives the bitwise exclusive OR. -/
  | jXor (jet : Fin 64) (team : Fin 16) (bad : Bool)
  /-- SHL (R236): Instruction SHL shifts left. -/
  | jShl (jet : Fin 64) (team : Fin 16) (bad : Bool)
  /-- SHR (R236): Instruction SHR shifts right logically. -/
  | jShr (jet : Fin 64) (team : Fin 16) (bad : Bool)
  /-- SAR (R236): Instruction SAR shifts right arithmetically. -/
  | jSar (jet : Fin 64) (team : Fin 16) (bad : Bool)
  /-- MIN (R236): Instruction MIN gives the signed or unsigned integer minimum. -/
  | jMin (jet : Fin 64) (team : Fin 16) (bad : Bool)
  /-- MAX (R236): Instruction MAX gives the signed or unsigned integer maximum. -/
  | jMax (jet : Fin 64) (team : Fin 16) (bad : Bool)
  /-- BIT (R236): Instruction BIT gives POPC, CLZ, BREV or BFE, as mod selects. -/
  | jBit (jet : Fin 64) (team : Fin 16) (bad : Bool)
  /-- FADD (R239): Instruction FADD adds FP32 values. -/
  | jFadd (jet : Fin 64) (team : Fin 16) (bad : Bool)
  /-- FSUB (R239): Instruction FSUB subtracts FP32 values. -/
  | jFsub (jet : Fin 64) (team : Fin 16) (bad : Bool)
  /-- FMUL (R239): Instruction FMUL multiplies FP32 values. -/
  | jFmul (jet : Fin 64) (team : Fin 16) (bad : Bool)
  /-- FMA (R239): Instruction FMA gives an FP32 fused multiply-add, rounded once. -/
  | jFma (jet : Fin 64) (team : Fin 16) (bad : Bool)
  /-- FMIN (R239): Instruction FMIN gives the FP32 minimum. -/
  | jFmin (jet : Fin 64) (team : Fin 16) (bad : Bool)
  /-- FMAX (R239): Instruction FMAX gives the FP32 maximum. -/
  | jFmax (jet : Fin 64) (team : Fin 16) (bad : Bool)
  /-- FROUND (R239): Instruction FROUND rounds to an integral value. -/
  | jFround (jet : Fin 64) (team : Fin 16) (bad : Bool)
  /-- FFRAC (R239): Instruction FFRAC gives b − floor(b). -/
  | jFfrac (jet : Fin 64) (team : Fin 16) (bad : Bool)
  /-- HPADD (R239): Instruction HPADD adds each FP16 half. -/
  | jHpadd (jet : Fin 64) (team : Fin 16) (bad : Bool)
  /-- HPMUL (R239): Instruction HPMUL multiplies each FP16 half. -/
  | jHpmul (jet : Fin 64) (team : Fin 16) (bad : Bool)
  /-- HPFMA (R239): Instruction HPFMA gives a fused multiply-add on each FP16 half. -/
  | jHpfma (jet : Fin 64) (team : Fin 16) (bad : Bool)
  /-- HPMIN (R239): Instruction HPMIN gives the minimum of each FP16 half. -/
  | jHpmin (jet : Fin 64) (team : Fin 16) (bad : Bool)
  /-- HPMAX (R239): Instruction HPMAX gives the maximum of each FP16 half. -/
  | jHpmax (jet : Fin 64) (team : Fin 16) (bad : Bool)
  /-- RCP (R240): Instruction RCP gives the reciprocal. -/
  | jRcp (jet : Fin 64) (team : Fin 16) (bad : Bool)
  /-- RSQ (R240): Instruction RSQ gives the reciprocal square root. -/
  | jRsq (jet : Fin 64) (team : Fin 16) (bad : Bool)
  /-- SQRT (R240): Instruction SQRT gives the square root. -/
  | jSqrt (jet : Fin 64) (team : Fin 16) (bad : Bool)
  /-- EXP2 (R240): Instruction EXP2 gives 2 to the power b. -/
  | jExp2 (jet : Fin 64) (team : Fin 16) (bad : Bool)
  /-- LOG2 (R240): Instruction LOG2 gives the base-2 logarithm. -/
  | jLog2 (jet : Fin 64) (team : Fin 16) (bad : Bool)
  /-- SINPI (R240): Instruction SINPI gives sin(πb). -/
  | jSinpi (jet : Fin 64) (team : Fin 16) (bad : Bool)
  /-- COSPI (R240): Instruction COSPI gives cos(πb). -/
  | jCospi (jet : Fin 64) (team : Fin 16) (bad : Bool)
  /-- F2I (R240): Instruction F2I converts FP32 to a signed integer with saturation. -/
  | jF2i (jet : Fin 64) (team : Fin 16) (bad : Bool)
  /-- F2U (R240): Instruction F2U converts FP32 to an unsigned integer with saturation. -/
  | jF2u (jet : Fin 64) (team : Fin 16) (bad : Bool)
  /-- I2F (R240): Instruction I2F converts a signed integer to FP32. -/
  | jI2f (jet : Fin 64) (team : Fin 16) (bad : Bool)
  /-- U2F (R240): Instruction U2F converts an unsigned integer to FP32. -/
  | jU2f (jet : Fin 64) (team : Fin 16) (bad : Bool)
  /-- FPACKH (R240): Instruction FPACKH packs two values as FP16 halves. -/
  | jFpackh (jet : Fin 64) (team : Fin 16) (bad : Bool)
  /-- HUNPL (R236): Instruction HUNPL unpacks the low FP16 half to FP32. -/
  | jHunpl (jet : Fin 64) (team : Fin 16) (bad : Bool)
  /-- HUNPH (R236): Instruction HUNPH unpacks the high FP16 half to FP32. -/
  | jHunph (jet : Fin 64) (team : Fin 16) (bad : Bool)
  /-- FCMP (R241): Instruction FCMP writes a predicate from an FP32 compare. -/
  | jFcmp (jet : Fin 64) (team : Fin 16) (bad : Bool)
  /-- ICMP (R241): Instruction ICMP writes a predicate from a signed compare. -/
  | jIcmp (jet : Fin 64) (team : Fin 16) (bad : Bool)
  /-- UCMP (R241): Instruction UCMP writes a predicate from an unsigned compare. -/
  | jUcmp (jet : Fin 64) (team : Fin 16) (bad : Bool)
  /-- PAND (R236): Instruction PAND ANDs two predicates. -/
  | jPand (jet : Fin 64) (team : Fin 16) (bad : Bool)
  /-- POR (R236): Instruction POR ORs two predicates. -/
  | jPor (jet : Fin 64) (team : Fin 16) (bad : Bool)
  /-- PXOR (R236): Instruction PXOR exclusive-ORs two predicates. -/
  | jPxor (jet : Fin 64) (team : Fin 16) (bad : Bool)
  /-- PNOT (R236): Instruction PNOT inverts a predicate. -/
  | jPnot (jet : Fin 64) (team : Fin 16) (bad : Bool)
  /-- PICK (R236): Instruction PICK selects a or b per lane by a predicate. -/
  | jPick (jet : Fin 64) (team : Fin 16) (bad : Bool)
  /-- PGET (R236): Instruction PGET copies a predicate to an s register. -/
  | jPget (jet : Fin 64) (team : Fin 16) (bad : Bool)
  /-- PPUT (R236): Instruction PPUT sets a predicate from b. -/
  | jPput (jet : Fin 64) (team : Fin 16) (bad : Bool)
  /-- LXCH (R241): Instruction LXCH exchanges values between lanes. -/
  | jLxch (jet : Fin 64) (team : Fin 16) (bad : Bool)
  /-- QDX (R241): Instruction QDX gives the horizontal quad difference. -/
  | jQdx (jet : Fin 64) (team : Fin 16) (bad : Bool)
  /-- QDY (R241): Instruction QDY gives the vertical quad difference. -/
  | jQdy (jet : Fin 64) (team : Fin 16) (bad : Bool)
  /-- LRED (R241): Instruction LRED reduces a value over the present guarded lanes. -/
  | jLred (jet : Fin 64) (team : Fin 16) (bad : Bool)
  /-- LREAD (R236): Instruction LREAD reads one lane's value into an s register. -/
  | jLread (jet : Fin 64) (team : Fin 16) (bad : Bool)
  /-- SRG (R242): Instruction SRG reads a special register. -/
  | jSrg (jet : Fin 64) (team : Fin 16) (bad : Bool)
  /-- GLD (R243): Instruction GLD issues a global load through a buffer slot. -/
  | jGld (jet : Fin 64) (team : Fin 16) (bad : Bool) (host : List (Nat × Byte))
  /-- GST (R243): Instruction GST issues a global store through a buffer slot and sets the global write mark. -/
  | jGst (jet : Fin 64) (team : Fin 16) (bad : Bool)
  /-- GATOM (R245): Instruction GATOM performs a global atomic on aligned words. -/
  | jGatom (jet : Fin 64) (team : Fin 16) (bad : Bool) (host : List (Nat × Byte))
  /-- CLD (R243): Instruction CLD loads from the constant pool. -/
  | jCld (jet : Fin 64) (team : Fin 16) (bad : Bool) (host : List (Nat × Byte))
  /-- SHLD (R243): Instruction SHLD loads from shared memory. -/
  | jShld (jet : Fin 64) (team : Fin 16) (bad : Bool) (tileBad : Bool := false)
  /-- SHST (R243): Instruction SHST stores to shared memory. -/
  | jShst (jet : Fin 64) (team : Fin 16) (bad : Bool)
  /-- SHATOM (R245): Instruction SHATOM performs a shared-memory atomic. -/
  | jShatom (jet : Fin 64) (team : Fin 16) (bad : Bool) (tileBad : Bool := false)
  /-- SMP (R246): Instruction SMP samples a texture with implicit level of detail. -/
  | jSmp (jet : Fin 64) (team : Fin 16) (bad : Bool) (host : List (Nat × Byte))
  /-- SMPL (R246): Instruction SMPL samples at an explicit level of detail. -/
  | jSmpl (jet : Fin 64) (team : Fin 16) (bad : Bool) (host : List (Nat × Byte))
  /-- SMPB (R246): Instruction SMPB samples with implicit level of detail plus a bias. -/
  | jSmpb (jet : Fin 64) (team : Fin 16) (bad : Bool) (host : List (Nat × Byte))
  /-- SMPG (R246): Instruction SMPG samples with explicit gradients. -/
  | jSmpg (jet : Fin 64) (team : Fin 16) (bad : Bool) (host : List (Nat × Byte))
  /-- SMPC (R246): Instruction SMPC takes a depth-compare sample. -/
  | jSmpc (jet : Fin 64) (team : Fin 16) (bad : Bool) (host : List (Nat × Byte))
  /-- TFETCH (R246): Instruction TFETCH fetches one texel without filtering. -/
  | jTfetch (jet : Fin 64) (team : Fin 16) (bad : Bool) (host : List (Nat × Byte))
  /-- TDIM (R236): Instruction TDIM returns the size of a texture level and its level count. -/
  | jTdim (jet : Fin 64) (team : Fin 16) (bad : Bool)
  /-- TBLD (R247): Instruction TBLD reads the tile buffer, waiting for earlier primitives' teams. -/
  | jTbld (jet : Fin 64) (team : Fin 16) (bad tileBad : Bool)
  /-- TBST (R247): Instruction TBST writes the tile buffer, waiting for earlier primitives' teams. -/
  | jTbst (jet : Fin 64) (team : Fin 16) (bad : Bool) (tileBad : Bool := false)
  /-- VINT (R250): Instruction VINT interpolates a varying. -/
  | jVint (jet : Fin 64) (team : Fin 16) (bad : Bool)
  /-- OUT (R251): Instruction OUT writes a vertex output slot. -/
  | jOut (jet : Fin 64) (team : Fin 16) (bad : Bool)
  /-- ZOUT (R249): Instruction ZOUT writes the pixel depth for the late test. -/
  | jZout (jet : Fin 64) (team : Fin 16) (bad : Bool)
  /-- WORKGROUP_RETIRE (R254): A workgroup retires once its teams have ended and their writes are visible, and the job ends at its last. -/
  | workgroupRetire (jet : Fin 64) (group : Nat)
  /-- DEADLINE_ARBITER_TICK (R259): Every microsecond the arbiter computes slack, urgency and misses, and lends jets to the target job. -/
  | deadlineArbiterTick
  /-- PREEMPT_REQUEST_ARRIVE (R262): A preemption request reaches a jet, which starts no new workgroup and saves long-running ones. -/
  | preemptRequestArrive (jet : Fin 64)
  /-- GRACE_LIMIT (R262): 6 µs after the request, every workgroup still resident heads for an instruction boundary to be saved. -/
  | graceLimit (jet : Fin 64)
  /-- PREEMPT_SAVE (R262): The saves of a jet complete into its slot, and the jet is lent. -/
  | preemptSave (jet : Fin 64)
  /-- LENT_JET_RETURN (R261): A lent jet returns to its own string when its item retires and lending ends. -/
  | lentJetReturn (jet : Fin 64)
  /-- RESUME_RESTORE (R265): An idle jet takes the oldest resume entry, restores the saved state and frees the slot. -/
  | resumeRestore (jet : Fin 64)
  /-- JET_STALL_TIMEOUT (R271): A jet that neither retires work nor issues for 2 ms is declared failed with cause STALL. -/
  | jetStallTimeout (jet : Fin 64)
  /-- JET_CLOCK_GATE (R272): After the write-out unit releases both halves, the retired jet is clock-gated. -/
  | jetClockGate (jet : Fin 64)
  /-- HEAD_COMMIT (R295): A CMP_COMMIT write with group clear copies the head's shadows to pending, or is dropped when one is pending. -/
  | headCommit (composer : Fin 10) (atTime : Bool)
  /-- GROUP_COMMIT (R295): A CMP_COMMIT write with group set makes a head commit on every member of the group. -/
  | groupCommit (composer : Fin 10) (atTime : Bool)
  /-- CMP_HOLD_WRITE (R302): A write to CMP_HOLD sets the hold, or clears it and releases held commits. -/
  | cmpHoldWrite (composer : Fin 10) (value : Nat)
  /-- CMP_LUT_DATA_WRITE (R304): A write to CMP_LUT_DATA writes a curve entry and advances the address, or is dropped on the busy bank. -/
  | cmpLutDataWrite (composer : Fin 10) (value : Nat)
  /-- CMP_CTRL_WRITE (R312): A write to CMP_CTRL enables the composer, or disables it from the next frame start. -/
  | cmpCtrlWrite (composer : Fin 10) (value : Nat)
  /-- LAYER_FETCH_RETURN (R289): Layer fetch data returns, or a refused or poisoned fetch blanks its pixels for the frame. -/
  | layerFetchReturn (composer : Fin 10) (layer : Fin 17) (addr len : Nat)
  /-- CANVAS_LINE (R292): A composed canvas line with its frame number reaches the light output engine, and the cells it completes are sampled. -/
  | canvasLine (composer : Fin 10) (line : Nat)
  /-- WRITEBACK_FRAME_DONE (R291): The last writeback write of a frame becomes visible, which sets wb_done and updates CMP_WB_STATUS. -/
  | writebackFrameDone (composer : Fin 10)
  /-- FRAME_START (R310): At line 0 latched sets become active, grants apply, reactions take effect and commit entries follow. -/
  | frameStart (head : Fin 8)
  /-- LINE_MATCH (R310): At line HD_LINE_CMP the head sets line_match. -/
  | lineMatch (head : Fin 8)
  /-- LATCH_LINE (R301): At the latch line pending commits are latched and checked, and the set for the next frame is fixed. -/
  | latchLine (head : Fin 8)
  /-- FRAME_DONE (R310): The last active pixel leaves the timing generator, which sets frame_done. -/
  | frameDone (head : Fin 8)
  /-- VBLANK_START (R310): At line V_A the head sets vblank_start, stamps it, and writes any UNDERRUN record. -/
  | vblankStart (head : Fin 8)
  /-- UNDERRUN (R317): A group due while the pixel FIFO is empty fills the rest of the line with the underrun colour. -/
  | underrun (head : Fin 8) (line pixel : Nat)
  /-- SYNC_IN_EDGE (R318): A rising edge of SYNC_IN is stamped and gives a genlock target. -/
  | syncInEdge
  /-- GAIT_REQUEST (R322): A write to HD_GAIT_REQ starts a gait change, or is refused with a reason. -/
  | gaitRequest (head : Fin 8) (gait : Nat)
  /-- HEAD_PLL_LOCKED (R323): The head PLL relocks at the new pixel clock, and link training starts. -/
  | headPllLocked (head : Fin 8)
  /-- LINK_TRAINING_DONE (R326): Link training ends as LINK_TRAINED or LINK_FAIL. -/
  | linkTrainingDone (head : Fin 8) (locked : Bool) (rate lanes : Nat)
  /-- LINK_RETRY (R326): Every 1 s while HPD is high, a head in LINK_FAIL retrains. -/
  | linkRetry (head : Fin 8)
  /-- HPD_LOW (R327): The end of an HPD low pulse is classified as an unplug, an IRQ_HPD or nothing. -/
  | hpdLow (head : Fin 8) (ns irq lanes : Nat) (lost : Bool)
  /-- HPD_RISE (R327): 2 ms after HPD rises, the head starts training. -/
  | hpdRise (head : Fin 8)
  /-- AUX_NATIVE_WRITE (R329): HD_AUX_CMD native write sends a DPCD write over AUX. -/
  | auxNativeWrite (head : Fin 8) (len : Fin 16)
  /-- AUX_NATIVE_READ (R329): HD_AUX_CMD native read reads DPCD over AUX. -/
  | auxNativeRead (head : Fin 8) (len : Fin 16)
  /-- AUX_I2C_WRITE (R329): HD_AUX_CMD I2C write sends an I2C-over-AUX write. -/
  | auxI2cWrite (head : Fin 8) (len : Fin 16)
  /-- AUX_I2C_READ (R329): HD_AUX_CMD I2C read performs an I2C-over-AUX read. -/
  | auxI2cRead (head : Fin 8) (len : Fin 16)
  /-- AUX_I2C_WRITE_MOT (R329): HD_AUX_CMD I2C write with MOT keeps the I2C transaction open. -/
  | auxI2cWriteMot (head : Fin 8) (len : Fin 16)
  /-- AUX_I2C_READ_MOT (R329): HD_AUX_CMD I2C read with MOT keeps the I2C transaction open. -/
  | auxI2cReadMot (head : Fin 8) (len : Fin 16)
  /-- AUX_REPLY (R329): An AUX reply or reply timeout arrives, is retried on DEFER or timeout, or ends the transaction. -/
  | auxReply (head : Fin 8) (reply : Fin 4) (data : List Byte)
  /-- HD_CTRL_WRITE (R330): A write to HD_CTRL enables the head, or runs the power-off sequence and stops the timing generator. -/
  | hdCtrlWrite (head : Fin 8) (value : Nat)
  /-- PANEL_POWER_ON (R330): Setting HD_PANEL_CTRL.power runs the eDP power-on sequence. -/
  | panelPowerOn (head : Fin 8)
  /-- PANEL_POWER_OFF (R330): Clearing HD_PANEL_CTRL.power runs the power-off sequence. -/
  | panelPowerOff (head : Fin 8)
  /-- PANEL_HPD_TIMEOUT (R330): HPD not high within t_hpd_max drops VDDEN and enters FAULT. -/
  | panelHpdTimeout (head : Fin 8)
  /-- PANEL_BACKLIGHT_ON (R330): t_bl_on after video starts, BLEN goes high and BLPWM runs. -/
  | panelBacklightOn (head : Fin 8)
  /-- PANEL_BL_OFF_ELAPSED (R330): t_bl_off after the backlight goes off, the idle pattern starts. -/
  | panelBlOffElapsed (head : Fin 8)
  /-- PANEL_CYCLE_ELAPSED (R330): t_cycle after VDDEN falls, the panel leaves COOL for OFF. -/
  | panelCycleElapsed (head : Fin 8)
  /-- REGION_SIGNATURE_FINAL (R336): A region signature becomes final, is stored with the frame number and compared with its reference. -/
  | regionSignatureFinal (head : Fin 8) (region : Fin 16)
  /-- SAFETY_SIGNATURE_FINAL (R340): The fetch and head-input safety signatures become final and are compared. -/
  | safetySignatureFinal (head : Fin 8) (faults : List (Nat × Byte))
  /-- IM_CLEAR (R347): A write to IM_Hn_CLEAR clears the passing reactions at the next frame start and records CLEAR_REFUSED for the rest. -/
  | imClear (head : Fin 8) (value : Nat)
  /-- FALLBACK_CHECK (R346): Within 50 ms of RUN entry every fallback is read and checked, and a mismatch blanks its head. -/
  | fallbackCheck (head : Fin 8)
  /-- CVU_INIT (R350): A write to CVU_m_INIT resets the running value and count, feeding the alive word in alive mode. -/
  | cvuInit (cvu : Fin 16) (view : View) (value : Nat)
  /-- CVU_DATA (R350): A write to CVU_m_DATA feeds 4 bytes, or is dropped while a job runs. -/
  | cvuData (cvu : Fin 16) (view : View) (value : Nat)
  /-- CVU_DATA_B (R350): A write to CVU_m_DATA_B feeds 1 byte, or is dropped while a job runs. -/
  | cvuDataB (cvu : Fin 16) (view : View) (value : Nat)
  /-- CVU_CFG_WRITE (R350): A write to CVU_m_CTRL, _ALIVE or _PERIOD applies, or is dropped with cfg_busy while a job runs. -/
  | cvuCfgWrite (cvu : Fin 16) (view : View) (reg : CvuReg) (value : Nat)
  /-- CVU_STALE (R353): No alive feed for CVU_m_PERIOD ms sets stale and writes CVU_STALE. -/
  | cvuStale (cvu : Fin 16)
  /-- LIGHT_FRAME_START (R358): A light frame begins, applies the checked light commit and due LIGHT_WRITE frames, and begins sampling. -/
  | lightFrameStart
  /-- LIGHT_HOLDOVER (R357): No head frame start for twice its period puts light output into holdover on its own timer. -/
  | lightHoldover
  /-- LIGHT_DATA_ARRIVE (R368): A LIGHT_WRITE frame's data arrives from memory for the next light frame. -/
  | lightDataArrive (ctx : Fin 1024) (host : List (Nat × Byte))
  /-- MERGE_START (R369): 2 µs after the last canvas line, the staging set becomes canvas data and every enabled universe is merged. -/
  | mergeStart
  /-- EMISSION_START (R360): At E_N sACN packets are queued in LU order and idle DMX ports start packets. -/
  | emissionStart
  /-- SOURCE_TIMEOUT (R367): A merge source without new data for timeout_ms stops being live. -/
  | sourceTimeout (source : Fin 8)
  /-- LO_LOAD (R373): LO_LOAD_CMD LOAD copies elements into the inactive bank. -/
  | loLoad (kind : Fin 8)
  /-- LO_SYNC (R373): LO_LOAD_CMD SYNC copies the active bank into the inactive one. -/
  | loSync (kind : Fin 8)
  /-- LOAD_END (R373): A light load command ends as done, refused or failed, and raises an interrupt and a record. -/
  | loadEnd (host : List (Nat × Byte)) (hostError : Bool)
  /-- LIGHT_COMMIT (R374): A write of LO_COMMIT with go starts the checks of the shadows and, with switch, of the inactive bank. -/
  | lightCommit (switch atTime : Bool)
  /-- LIGHT_COMMIT_CHECKED (R374): The light-commit checks end with rejection, or with the commit pending its light frame. -/
  | lightCommitChecked
  /-- LO_CTRL_WRITE (R375): A write to LO_CTRL enables the engine, checking bank 0 at first enable, or disables it at the next light frame. -/
  | loCtrlWrite (value : Nat)
  /-- SACN_PACKET_RECEIVED (R380): A received sACN packet is accepted under the sender and sequence rules, or discarded and counted. -/
  | sacnPacketReceived (port : Fin 2) (packet : SacnPacket)
  /-- SACN_SENDER_TIMEOUT (R380): A sender with no packet for timeout_ms stops being live. -/
  | sacnSenderTimeout (input : Fin 256) (cid : Nat)
  /-- SACN_DISCOVERY_SEND (R376): Every 10 s universe discovery packets are sent. -/
  | sacnDiscoverySend
  /-- SACN_PACKET_SENT (R360): An sACN packet of the light frame leaves its port. -/
  | sacnPacketSent (port : Fin 2)
  /-- DMX_PACKET_END (R383): A DMX packet ends, and the port starts the next packet from the newest output buffer or runs an RDM transaction. -/
  | dmxPacketEnd (port : Fin 8)
  /-- RDM_RESPONSE_BYTE (R385): A response byte or break arrives while the port listens. -/
  | rdmResponseByte (port : Fin 8) (what : RdmRx)
  /-- RDM_RESPONSE_TIMEOUT (R385): No first byte within 2.8 ms, or 2.1 ms between bytes, ends listening. -/
  | rdmResponseTimeout (port : Fin 8)
  /-- RDM_TRANSACTION_END (R385): 176 µs after listening ends, the lines return and the job completes. -/
  | rdmTransactionEnd (port : Fin 8)
  /-- NET_LINK_DOWN (R391): MODABS, LOS, TXFLT or loss of lock declares a network port down. -/
  | netLinkDown (port : Fin 2) (cause : NetFault)
  /-- NET_LINK_UP (R391): 10 ms of continuous lock with every fault pin low brings a port up. -/
  | netLinkUp (port : Fin 2)
  /-- TXDIS_PULSE_END (R391): 100 ms after a TXFLT the device drives TXDIS low again. -/
  | txdisPulseEnd (port : Fin 2)
  /-- ETHERNET_FRAME_RECEIVED (R388): A received frame is delivered to its protocol, or discarded and counted. -/
  | ethernetFrameReceived (port : Fin 2) (frame : EthFrame)
  /-- ARP_REQUEST (R388): An ARP request for the port's address is answered. -/
  | arpRequest (port : Fin 2) (mac ipv4 target : Nat)
  /-- ICMP_ECHO_REQUEST (R388): An ICMP echo request is answered. -/
  | icmpEchoRequest (port : Fin 2) (source target : Nat) (data : List Byte)
  /-- IGMP_QUERY (R388): An IGMP query is answered with membership reports. -/
  | igmpQuery (port : Fin 2) (v2 : Bool) (group : Nat)
  /-- PTP_MESSAGE_RECEIVED (R393): A received PTP message is timestamped and feeds the BMCA and the servo. -/
  | ptpMessageReceived (port : Fin 2) (domain : Nat) (msg : PtpMsg)
  /-- PTP_MESSAGE_SEND (R393): A Sync, Announce or delay-request interval expires, and the message is sent. -/
  | ptpMessageSend (what : PtpSend)
  /-- PTP_RECEIPT_TIMEOUT (R396): An announce receipt timeout or missing Syncs move show time to HOLDOVER. -/
  | ptpReceiptTimeout (announce : Bool)
  /-- PPS_PULSE (R398): At each whole second of PTP time PPS_OUT rises for width_us. -/
  | ppsPulse
  /-- AES67_TX_PACKET (R400): At each packet time an AES67 transmit packet leaves its port. -/
  | aes67TxPacket (stream : Fin 8)
  /-- AES67_RX_PACKET (R400): A received AES67 packet is scheduled for playout, or discarded as lost. -/
  | aes67RxPacket (stream : Fin 8) (port : Fin 2) (seq stamp : Nat) (samples : List (List Int))
  /-- AES_RX_LOSS (R400): 100 ms without an accepted packet stops a receive stream. -/
  | aesRxLoss (stream : Fin 8)
  /-- SFP_I2C_TRANSACTION (R391): A go write to NET_n_I2C runs a one-byte I2C transaction with the module. -/
  | sfpI2cTransaction (port : Fin 2) (value : Nat) (ack : Bool) (data : Byte)
  /-- TOUCH_FRAME_END (R402): The end of integration stamps the touch frame, computes contacts and controls, and writes reports. -/
  | touchFrameEnd (raw : List (Nat × List Nat)) (noise : List (Nat × Nat × Nat))
  /-- STUCK_RELEASE (R410): A touch stationary for s seconds ends with reason STUCK and is recaptured. -/
  | stuckRelease (touch : TouchId)
  /-- KEY_HELD_LONG (R411): A privileged key held for hold_long_s seconds sets its long bit and sends HELD_LONG. -/
  | keyHeldLong (key : Fin 32)
  /-- TCH_CTRL_WRITE (R405): Setting a field or control-scan enable starts it, or is refused with CONFLICT; clearing it ends its touches. -/
  | tchCtrlWrite (value : Nat)
  /-- TOUCH_COMMIT (R422): A TCH_COMMIT write checks the touch shadows, which apply at the next frame start or are rejected. -/
  | touchCommit (scope : Nat)
  /-- TOUCH_RESYNC (R420): A write to TCH_U_RESYNC sends a resync set of entries in the next frame. -/
  | touchResync (paddock : Fin 64)
  /-- GRAZE_SCAN (R423): Every period_ms in GRAZE the AFE scans the wake zone and decides whether to wake. -/
  | grazeScan (raw : List Nat)
  /-- GRAZE_SLIDE_TIMEOUT (R423): 500 ms of slide scanning without the slide returns the AFE to sleep. -/
  | grazeSlideTimeout
  /-- HAPTIC_CONTROL_TICK (R428): Every 125 µs each channel computes its drive and advances its effect, brake and limits. -/
  | hapticControlTick (acc : List (List Nat))
  /-- HAP_FAULT_PIN (R434): HAPn_FLTn low for 1 µs puts the channel into FAULT and flushes it. -/
  | hapFaultPin (channel : Fin 16) (low : Bool)
  /-- SPUR_TRIGGER (R432): A filtered SPUR edge delivers a trigger to its channel. -/
  | spurTrigger (pin : Fin 4) (level : Bool)
  /-- HAP_CLEAR_FAULT (R434): HAP_n_CTRL.clear_fault returns the channel to IDLE and captures a new zero while FLTn is high. -/
  | hapClearFault (channel : Fin 16)
  /-- HAP_STOP (R434): HAP_n_CTRL.stop sends the playing effect to brake and flushes the FIFO. -/
  | hapStop (channel : Fin 16)
  /-- HAP_COMMIT (R435): A HAP_COMMIT write checks the channel shadows, which apply when each channel is idle. -/
  | hapCommit (scope : Nat)
  /-- HAP_CTRL_WRITE (R427): First enable of the haptic block captures zeros and starts the library check. -/
  | hapCtrlWrite (value : Nat)
  /-- HAP_LIBRARY_CHECK_DONE (R431): The library check ends, marks invalid effects and sets lib_checked. -/
  | hapLibraryCheckDone
  /-- AUDIO_BLOCK_START (R439): Each 64-sample block takes in, mixes and sends samples and applies due commits and voices. -/
  | audioBlockStart (tdm : List (Nat × List Int)) (slips : List (Fin 8 × Bool))
  /-- REALIGN (R438): A step of show time shortens or lengthens the current block so the next starts aligned. -/
  | realign (shift : Int)
  /-- AUD_COMMIT (R444): An AUD_COMMIT write checks the audio shadows, which apply at a block boundary. -/
  | audCommit (switch atTime : Bool)
  /-- AUD_XP_DATA_WRITE (R443): A write to AUD_XP_DATA sets an inactive crosspoint and advances the entry. -/
  | audXpDataWrite (value : Nat)
  /-- AUD_XP_SYNC (R443): AUD_XP_ADDR with sync copies the active bank into the inactive one. -/
  | audXpSync (value : Nat)
  /-- AUD_XP_SYNC_DONE (R443): The crosspoint bank copy completes. -/
  | audXpSyncDone
  /-- VOICE_START (R449): AUD_VOICE_v_CTRL start starts or restarts a voice at the next block. -/
  | voiceStart (voice : Fin 64)
  /-- VOICE_STOP (R449): AUD_VOICE_v_CTRL stop fades a voice out over one block. -/
  | voiceStop (voice : Fin 64)
  /-- TDM_LOST (R452): A slave with no FS for 1 ms is unlocked. -/
  | tdmLost (port : Fin 8)
  /-- AUD_CTRL_WRITE (R450): First enable of audio zeros the matrix banks and starts the clip check. -/
  | audCtrlWrite (value : Nat)
  /-- CLIP_CHECK_DONE (R450): The clip check ends and marks invalid clips. -/
  | clipCheckDone
  /-- RECORD_ACCEPT (R455): The recorder accepts offered records in order, numbers them and stores them in slots. -/
  | recordAccept
  /-- REARM (R459): EVR_CTRL rearm, or enable from disabled, starts a new log at EVR_NEXT. -/
  | rearm (value : Nat)
  /-- EVR_DISABLE (R459): Clearing EVR_CTRL.enable stops storing between two acceptances. -/
  | evrDisable (value : Nat)
  /-- EVR_ACK_WRITE (R464): A write to EVR_ACK rearms the level bit. -/
  | evrAckWrite (value : Nat)
  /-- RATE_LIMIT_INTERVAL_END (R488): A rate-limit interval ends and writes one record of its count, or closes. -/
  | rateLimitIntervalEnd (code unit : Nat)
  /-- POWER_STATE_REQUEST (R465): A PCR_REQ write starts a handshake with the affected blocks, or is refused. -/
  | powerStateRequest (value : Nat)
  /-- BLOCK_HANDSHAKE_ANSWER (R467): A block answers ACCEPT, DELAY or REFUSE, and the last acceptance enters the state. -/
  | blockHandshakeAnswer (block : Fin 23) (answer : HsAnswer)
  /-- HANDSHAKE_TIMEOUT (R467): A block still delaying at PCR_DELAY_MAX counts as REFUSE, and the transition is abandoned. -/
  | handshakeTimeout
  /-- PCR_GATE_WRITE (R469): A write to PCR_GATE gates disabled blocks, or is dropped for enabled or claimed ones. -/
  | pcrGateWrite (value : Nat)
  /-- WAKE_SOURCE (R472): An enabled wake source starts the wake sequence, or the reboot from STABLED. -/
  | wakeSource (source : Fin 3) (bootsel : Fin 4 := 0)
  /-- STABLED_TIMER_EXPIRY (R472): PCR_STABLED_TIMER expiry wakes the device from STABLED. -/
  | stabledTimerExpiry (bootsel : Fin 4 := 0)
  /-- WAKE_STEP_READY (R471): A wake step reports ready and the next step starts. -/
  | wakeStepReady
  /-- WAKE_STEP_TIMEOUT (R471): A wake step not ready within its timeout resets the chip with entry_cause 0x03. -/
  | wakeStepTimeout
  /-- PCR_JET_POINT_WRITE (R475): A write to PCR_JET_POINT requests a new jet DVFS point. -/
  | pcrJetPointWrite (value : Nat)
  /-- DVFS (R475): A jet point change runs in voltage and clock order once any urgency clears. -/
  | dvfs
  /-- THERMAL_SAMPLE (R477): Every 1 ms the controller reads temperature and VDD_JET current. -/
  | thermalSample (tj : Nat) (ma10 : Nat)
  /-- THROTTLE (R477): The jet cap steps down every 10 ms, or up every 100 ms, as the limits require. -/
  | throttle
  /-- AVS_TRANSACTION_END (R478): An AVSBus transaction is acknowledged, retried, or fails with AVS_FAIL. -/
  | avsTransactionEnd (ack : Bool)
  /-- PCR_RESET (R479): The key 0xC4A5 written to PCR_RESET in RUN or TEST resets the chip. -/
  | pcrReset (value : Nat)
  /-- CHIP_RESET_END (R479): After 1 ms of reset the device enters BOOT with the reset's entry_cause. -/
  | chipResetEnd (bootsel : Fin 4 := 0)
  /-- REGISTER_READ (R9): A register read through a view returns its value; a read of a _LO half captures the _HI half, and an unaligned or ungranted read returns zero and writes a record. -/
  | registerRead (view : View) (offset size : Nat)
  /-- ALL_RAILS_GOOD (R43): When every monitored rail becomes good after PORn has already deasserted, the device treats that instant as the PORn deassertion and leaves OFF. -/
  | allRailsGood (bootsel : Fin 4 := 0)
  /-- MODULE_FAULT_RETRY (R391): While NETn_TXFLT stays high, the device retries the TXDIS pulse at most once per second and writes MODULE_FAULT. -/
  | moduleFaultRetry (port : Fin 2)
  /-- DVFS_DEFERRAL_EXPIRY (R475): A jet point change that has been deferred for 2 ms because urgent is set proceeds even though urgent has not cleared. -/
  | dvfsDeferralExpiry
  /-- TDM_LOCKED (R452): A slave TDM port that was unlocked finds TDMn_FS within tolerance again and becomes locked, so its inputs are live and SDO sends data. -/
  | tdmLocked (port : Fin 8)
  /-- LINK_LOCK_LOST (R326): The head's own link-status check finds that the DisplayPort link has lost lock, and the head retrains. -/
  | linkLockLost (head : Fin 8) (lanes : Nat)
  /-- TEST_LOGIC_RESET (R59): TRSTn asserted (or left open) holds the TAP in Test-Logic-Reset. -/
  | testLogicReset
  deriving DecidableEq, Repr

end Sys2Proof
end

