-- ==== Sys2Proof/Decode.lean ====
section
/-! DEFINITION. The command that a word spells by the bits of the table. Every row of the table gives no bits, so no word
spells a command. -/

namespace Sys2Proof

/-- No row of the table has an encoding: a word spells no command. -/
def decodeTableWord (_nbits _w : Nat) : Option Instr := none

end Sys2Proof
end

