-- ==== Sys2Proof/Config.lean ====
section
/-! DEFINITION. What the spec leaves open, as constants without a body: free values, and the standard cryptographic
functions that the spec names and does not define. Nothing in Lean can evaluate them. -/

namespace Sys2Proof.Config

/-- The `n`-th value that the spec leaves open, `w` bits wide (assumption 1). The state's counter says which is next. -/
opaque freeBits (w n : Nat) : BitVec w

/-- The granule number that a fault names where the address matches no granule: `i` is the address divided by 64 KiB
(assumption 88). -/
opaque noGranule (i : Nat) : BitVec 21

/-- The contents of flash byte `a` in a sector left undefined by the `k`-th reset (R90; assumption 1). -/
opaque flashByte (k a : Nat) : Byte

/-- SHA-384 of a byte string, 48 bytes where it is used (R76, R86, R107; assumption 2). -/
opaque sha384 : List Byte → List Byte

/-- ECDSA P-384 verification of a digest under the key X‖Y and the signature r‖s (R76; assumption 2). -/
opaque ecdsaP384 : (key sig digest : List Byte) → Bool

/-- AES-256-GCM: the plaintext when the tag matches (R78; assumption 2). -/
opaque aesGcm : (key : Nat) → (nonce aad cipher tag : List Byte) → Option (List Byte)

/-- Threshold of the ordered dither at (x mod 4, y mod 4), in sixteenths of a step (R285; assumption 30). -/
opaque dither (x y : Nat) : BitVec 4

/-- The dark grey of the recovery pattern (R87; assumption 1). -/
opaque darkGrey : BitVec 30

/-- Word `k` of the picture parameter set for a gait, bits per colour code, bits per pixel × 16 and slice code (R328;
assumption 31). -/
opaque dscPps (gait bpc bpp slices k : Nat) : BitVec 32

/-- The number with which a record of event `code` says which of the alternatives that its table names without numbers it
carries: `i` counts them as the table lists them (assumption 35). -/
opaque recordChoice (code i : Nat) : BitVec 8

/-- The channel value of a composer stage whose rounded result is `n`, outside 0 to 1.0: R279 gives the format and no rule
states what it holds (assumption 40). -/
opaque beyond16 (n : Int) : BitVec 16

end Sys2Proof.Config
end

