-- ==== Sys2Proof/Machine/Fp.lean ====
section
/-! DEFINITION. Binary floating point as the jets carry it out (R239, R240): binary32 and binary16 words, exact values as
rationals, rounding, and the accuracy rule of the transcendental group (Table 9.12). -/

namespace Sys2Proof.Machine

/-- A binary format: fraction bits and exponent bits. -/
structure FpFmt where
  m : Nat
  e : Nat
  deriving DecidableEq, Repr

def f32 : FpFmt := ⟨23, 8⟩
def f16 : FpFmt := ⟨10, 5⟩

/-- A decoded word: a NaN, an infinity, or a sign and a magnitude. -/
inductive FpV
  | nan
  | inf (neg : Bool)
  | fin (neg : Bool) (mag : ℚ)
  deriving DecidableEq, Repr

/-- 2 to an integer power. -/
def pow2 (i : Int) : ℚ := if 0 ≤ i then ((2 ^ i.toNat : Nat) : ℚ) else 1 / ((2 ^ (-i).toNat : Nat) : ℚ)

/-- Exponent bias. -/
def FpFmt.bias (f : FpFmt) : Int := ((2 ^ (f.e - 1) : Nat) : Int) - 1

/-- The least exponent of a normal number. -/
def FpFmt.emin (f : FpFmt) : Int := 1 - f.bias

/-- The sign bit, the word of +∞, the one NaN of R239, and the largest finite magnitude. -/
def FpFmt.sign (f : FpFmt) : Nat := 2 ^ (f.m + f.e)
def FpFmt.inf (f : FpFmt) : Nat := (2 ^ f.e - 1) * 2 ^ f.m
def FpFmt.nan (f : FpFmt) : Nat := f.inf + 2 ^ (f.m - 1)
def FpFmt.maxFin (f : FpFmt) : Nat := f.inf - 1

/-- `w` with its sign set to `neg`. -/
def FpFmt.signed (f : FpFmt) (neg : Bool) (mag : Nat) : Nat := (if neg then f.sign else 0) + mag

/-- The magnitude that the low bits of a finite word stand for. -/
def FpFmt.magOf (f : FpFmt) (k : Nat) : ℚ :=
  let e := k / 2 ^ f.m
  if e = 0 then (k : ℚ) * pow2 (f.emin - f.m) else ((k % 2 ^ f.m + 2 ^ f.m : Nat) : ℚ) * pow2 ((e : Int) - f.bias - f.m)

/-- The value of a word. -/
def FpFmt.val (f : FpFmt) (w : Nat) : FpV :=
  let neg := w / f.sign % 2 == 1
  let k := w % f.sign
  if f.inf < k then .nan else if k = f.inf then .inf neg else .fin neg (f.magOf k)

/-- ⌊log2 q⌋ of a positive rational. -/
def log2Q (q : ℚ) : Int :=
  let e : Int := (Nat.log2 q.num.toNat : Int) - (Nat.log2 q.den : Int)
  if q < pow2 e then e - 1 else if pow2 (e + 1) ≤ q then e + 1 else e

/-- The word whose magnitude is the largest not above `q`, and whether it equals it and how the rest compares with half a
unit: 0 exact, 1 below half, 2 half, 3 above. -/
def FpFmt.floorMag (f : FpFmt) (q : ℚ) : Nat × Nat :=
  if q ≤ 0 then (0, 0)
  else
    let e := max (log2Q q) f.emin
    let u := pow2 (e - f.m)
    let k := (q / u).floor.toNat
    let r := q / u - (k : ℚ)
    ((e - f.emin).toNat * 2 ^ f.m + k, if r = 0 then 0 else if r < 1/2 then 1 else if r = 1/2 then 2 else 3)

/-- Round a magnitude: modes 0 to nearest even, 1 toward zero, 2 toward +∞, 3 toward −∞ (R239). -/
def FpFmt.round (f : FpFmt) (mode : Nat) (neg : Bool) (q : ℚ) : Nat :=
  let (k, r) := f.floorMag q
  let up := match mode with
    | 0 => r == 3 || (r == 2 && k % 2 == 1)
    | 1 => false
    | 2 => r != 0 && !neg
    | _ => r != 0 && neg
  let away := match mode with
    | 0 => true
    | 1 => false
    | 2 => !neg
    | _ => neg
  let k' := if up then k + 1 else k
  f.signed neg (if k < f.inf ∧ k' < f.inf then k' else if away then f.inf else f.maxFin)

/-- A number that stands for a rational, from which a free value of its own is taken. -/
def ratKey (q : ℚ) : Nat := 2 ^ 300 + Nat.pair q.num.natAbs q.den * 2 + b2n (decide (q < 0))

/-- A rounding that the spec does not state: the value itself where the format holds it, and otherwise one of its two
neighbours, by a free value of the exact number (assumption 26). -/
def FpFmt.roundFree (f : FpFmt) (q : ℚ) : Nat :=
  let neg := decide (q < 0)
  let (k, r) := f.floorMag |q|
  let k' := if r = 0 then k else k + (Config.freeBits 1 (ratKey q)).toNat
  f.signed neg (min k' f.inf)

/-- An integer near `q`: `q` itself, or one of its two neighbours by a free value of it (assumption 26). -/
def intFree (q : ℚ) : Int := if q.den = 1 then q.num else q.floor + (Config.freeBits 1 (ratKey q)).toNat

/-- To the nearest integer, a tie to the even one. -/
def intNearest (q : ℚ) : Int :=
  let f := q.floor
  let r := q - f
  if r < 1/2 then f else if 1/2 < r then f + 1 else if f % 2 = 0 then f else f + 1

/-- An integer from a rational in a rounding mode. -/
def intMode (mode : Nat) (q : ℚ) : Int :=
  match mode with
  | 0 => intNearest q
  | 1 => if q < 0 then -(-q).floor else q.floor
  | 2 => -(-q).floor
  | _ => q.floor

/-- The signed rational of a finite value. -/
def sgn (neg : Bool) (q : ℚ) : ℚ := if neg then -q else q

/-- The rational of a word, none for NaN and infinities. -/
def FpFmt.rat? (f : FpFmt) (w : Nat) : Option ℚ :=
  match f.val w with
  | .fin n q => some (sgn n q)
  | _ => none

/-- Round an exact sum; a zero sum of terms that are not all zeros of one sign is +0, or −0 rounding toward −∞. -/
def FpFmt.roundSum (f : FpFmt) (mode : Nat) (na nb : Bool) (x : ℚ) : Nat :=
  if x = 0 then f.signed (if na = nb then na else mode == 3) 0 else f.round mode (decide (x < 0)) |x|

/-- a + b (R239). -/
def FpFmt.add (f : FpFmt) (mode a b : Nat) : Nat :=
  match f.val a, f.val b with
  | .nan, _ | _, .nan => f.nan
  | .inf n, .inf n' => if n = n' then f.signed n f.inf else f.nan
  | .inf n, _ | _, .inf n => f.signed n f.inf
  | .fin n q, .fin n' q' => f.roundSum mode n n' (sgn n q + sgn n' q')

/-- The opposite of a word. -/
def FpFmt.neg (f : FpFmt) (a : Nat) : Nat := if a / f.sign % 2 = 1 then a - f.sign else a + f.sign

/-- The word without its sign. -/
def FpFmt.abs (f : FpFmt) (a : Nat) : Nat := if a / f.sign % 2 = 1 then a - f.sign else a

/-- a × b (R239). -/
def FpFmt.mul (f : FpFmt) (mode a b : Nat) : Nat :=
  match f.val a, f.val b with
  | .nan, _ | _, .nan => f.nan
  | .inf n, .inf n' => f.signed (n != n') f.inf
  | .inf n, .fin n' q | .fin n' q, .inf n => if q = 0 then f.nan else f.signed (n != n') f.inf
  | .fin n q, .fin n' q' => f.round mode (n != n') (q * q')

/-- a × b + c, rounded once (R239). -/
def FpFmt.fma (f : FpFmt) (mode a b c : Nat) : Nat :=
  match f.val a, f.val b, f.val c with
  | .fin n q, .fin n' q', .fin n'' q'' => f.roundSum mode (n != n') n'' (sgn (n != n') (q * q') + sgn n'' q'')
  | .fin _ _, .fin _ _, .inf n => f.signed n f.inf
  | _, _, _ => f.add mode (f.mul mode a b) c

/-- a < b for words that are not NaN, ordering −0 below +0. -/
def FpFmt.ltTotal (f : FpFmt) (a b : Nat) : Bool :=
  let key := fun w : Nat => if w / f.sign % 2 = 1 then -((w % f.sign : Nat) : Int) - 1 else ((w % f.sign : Nat) : Int)
  decide (key a < key b)

def FpFmt.isNan (f : FpFmt) (a : Nat) : Bool := f.val a == .nan

/-- FMIN and FMAX (R239). -/
def FpFmt.min (f : FpFmt) (a b : Nat) : Nat :=
  if f.isNan a then (if f.isNan b then f.nan else b) else if f.isNan b then a else if f.ltTotal a b then a else b
def FpFmt.max (f : FpFmt) (a b : Nat) : Nat :=
  if f.isNan a then (if f.isNan b then f.nan else b) else if f.isNan b then a else if f.ltTotal a b then b else a

/-- 1.0. -/
def FpFmt.one (f : FpFmt) : Nat := f.bias.toNat * 2 ^ f.m

/-- sat: clamp to [0, 1], NaN to 0 (R239). -/
def FpFmt.sat (f : FpFmt) (w : Nat) : Nat :=
  match f.val w with
  | .nan => 0
  | .inf n => if n then 0 else f.one
  | .fin n q => if n then 0 else if 1 ≤ q then f.one else w

/-- A comparison with the conditions of R241: 0 EQ, 1 NE, 2 LT, 3 LE, 4 GT, 5 GE, 6 ORD, 7 UNO. -/
def fpCmp (cond a b : Nat) : Bool :=
  let ord := fun (lt eq : Bool) => match cond with
    | 0 => eq
    | 1 => !eq
    | 2 => lt
    | 3 => lt || eq
    | 4 => !lt && !eq
    | 5 => !lt
    | 6 => true
    | _ => false
  match f32.val a, f32.val b with
  | .nan, _ | _, .nan => cond == 1 || cond == 7
  | .inf n, .inf n' => ord (n && !n') (n == n')
  | .inf n, .fin _ _ => ord n false
  | .fin _ _, .inf n => ord (!n) false
  | .fin n q, .fin n' q' => ord (decide (sgn n q < sgn n' q')) (decide (sgn n q = sgn n' q'))

/-- FROUND: to an integral value in the mode, keeping the sign of a zero result. -/
def fround (mode b : Nat) : Nat :=
  match f32.val b with
  | .nan => f32.nan
  | .inf _ => b
  | .fin n q => let i := intMode mode (sgn n q); f32.round 0 n |(i : ℚ)|

/-- FFRAC: b − floor(b), in the rounding mode of the instruction (Table 9.8). -/
def ffrac (mode b : Nat) : Nat :=
  match f32.val b with
  | .fin n q => let x := sgn n q; f32.roundSum mode false (mode == 3 || (n && decide (q = 0))) (x - (x.floor : ℚ))
  | _ => f32.nan

/-- F2I and F2U: round in the mode, saturate to [lo, hi], NaN to 0 (R240). -/
def f2int (mode : Nat) (lo hi : Int) (b : Nat) : Nat :=
  match f32.val b with
  | .nan => 0
  | .inf n => toSigned 32 (if n then lo else hi)
  | .fin n q => toSigned 32 (max lo (min hi (intMode mode (sgn n q))))

/-- I2F and U2F. -/
def int2f (mode : Nat) (i : Int) : Nat := f32.round mode (decide (i < 0)) |(i : ℚ)|

/-- A word of one format in another, rounded in the mode (FPACKH); exact from binary16 to binary32. -/
def fpConv (f g : FpFmt) (mode w : Nat) : Nat :=
  match f.val w with
  | .nan => g.nan
  | .inf n => g.signed n g.inf
  | .fin n q => g.round mode n q

/-- binary32 to binary16 as FPACKH states it: an out-of-range value becomes an infinity (R240). -/
def packHalf (mode w : Nat) : Nat :=
  match f32.val w with
  | .fin n q => if f16.magOf f16.maxFin + pow2 4 ≤ q then f16.signed n f16.inf else fpConv f32 f16 mode w
  | _ => fpConv f32 f16 mode w

/-! ### Transcendental functions (Table 9.12) -/

/-- The real function's value at a point, to well below the accuracy asked, in units of 2^−80. -/
def fixedBits : Nat := 80

/-- √q within 2^−80 relative, for q > 0. -/
def sqrtQ (q : ℚ) : ℚ :=
  let e := 2 * (log2Q q / 2)
  let n := (q * pow2 (-e) * pow2 200).floor.toNat
  (Nat.sqrt n : ℚ) * pow2 (e / 2 - 100)

/-- Bits of the logarithm of x in [1, 2), by squaring: `n` bits after the point, as an integer. -/
def log2Frac : Nat → (x acc : Nat) → Nat
  | 0, _, acc => acc
  | n + 1, x, acc =>
    let y := x * x / 2 ^ 100
    if 2 ^ 101 ≤ y then log2Frac n (y / 2) (2 * acc + 1) else log2Frac n y (2 * acc)

/-- log₂ q within 2^−60, for q > 0. -/
def log2R (q : ℚ) : ℚ :=
  let e := log2Q q
  (e : ℚ) + (log2Frac 60 (q * pow2 (100 - e)).floor.toNat 0 : ℚ) * pow2 (-60)

/-- Product of the roots 2^(2^−i) for the set bits of a 64-bit fraction, in units of 2^−100. -/
def exp2Frac : Nat → (root frac acc : Nat) → Nat
  | 0, _, _, acc => acc
  | n + 1, root, frac, acc =>
    let r := Nat.sqrt (root * 2 ^ 100)
    if 2 ^ 63 ≤ frac % 2 ^ 64 then exp2Frac n r (2 * frac) (acc * r / 2 ^ 100) else exp2Frac n r (2 * frac) acc

/-- 2^q, for |q| below 2^20. -/
def exp2R (q : ℚ) : ℚ :=
  let i := q.floor
  let fr := ((q - (i : ℚ)) * pow2 64).floor.toNat
  (exp2Frac 64 (2 ^ 101) fr (2 ^ 100) : ℚ) * pow2 (i - 100)

/-- π within 2^−80. -/
def piQ : ℚ := 3889103333003610706726905384 / 1237940039285380274899124224

/-- Terms of the sine series from the term `t` (in units of 2^−100) with the squared argument `x2`. -/
def sinSeries : Nat → (k x2 t : Int) → Int
  | 0, _, _, _ => 0
  | n + 1, k, x2, t => t + sinSeries n (k + 2) x2 (-(t * x2 / 2 ^ 100 / ((k + 1) * (k + 2))))

/-- sin(π q). -/
def sinPiR (q : ℚ) : ℚ :=
  let r := q - 2 * ((q / 2).floor : ℚ)
  let (y, flip) := if 1 ≤ r then (r - 1, true) else (r, false)
  let z := if 1/2 < y then 1 - y else y
  let x := (z * piQ * pow2 100).floor
  let v : ℚ := (sinSeries 24 1 (x * x / 2 ^ 100) x : ℚ) * pow2 (-100)
  if flip then -v else v

/-- A word within `bound` of `x`, by a free value of the function and its operand (assumption 27). -/
def pickNear (fn : Nat) (operand : Nat) (x bound : ℚ) : Nat :=
  let k := (Config.freeBits 24 (2 ^ 290 + fn * 2 ^ 32 + operand)).toNat
  let t := x + bound * ((k : ℚ) / 2 ^ 23 - 1)
  let w := f32.round 0 (decide (t < 0)) |t|
  match f32.rat? w with
  | some y => if |y - x| ≤ bound then w else f32.round (if t < x then 2 else 3) (decide (t < 0)) |t|
  | none => w

/-- A unit in the last place of binary32 at `x`. -/
def ulp32 (x : ℚ) : ℚ := if x = 0 then pow2 (-149) else pow2 (max (log2Q |x|) (-126) - 23)

/-- A result outside binary32's range, or the near word. -/
def nearOrInf (fn operand : Nat) (x : ℚ) (ulps : Nat) : Nat :=
  if f32.magOf f32.maxFin + ulp32 x / 2 ≤ |x| then f32.signed (decide (x < 0)) f32.inf
  else pickNear fn operand x (ulps * ulp32 x)

/-- The transcendental group; a subnormal input reads as zero of its sign (R239). -/
def transc (op b0 : Nat) : Nat :=
  let b := if b0 % f32.sign < 2 ^ 23 then b0 / f32.sign * f32.sign else b0
  match f32.val b with
  | .nan => f32.nan
  | .inf n =>
    if op = 0x40 then f32.signed n 0
    else if op = 0x41 then (if n then f32.nan else 0)
    else if op = 0x42 then (if n then f32.nan else f32.inf)
    else if op = 0x43 then (if n then 0 else f32.inf)
    else if op = 0x44 then (if n then f32.nan else f32.inf)
    else f32.nan
  | .fin n q =>
    let x := sgn n q
    if op = 0x40 then (if q = 0 then f32.signed n f32.inf else nearOrInf op b (1 / x) 1)
    else if op = 0x41 then
      (if q = 0 then f32.signed n f32.inf else if n then f32.nan else nearOrInf op b (1 / sqrtQ q) 2)
    else if op = 0x42 then (if q = 0 then b else if n then f32.nan else nearOrInf op b (sqrtQ q) 2)
    else if op = 0x43 then
      (if x < -200 then pickNear op b 0 (pow2 (-148)) else if 200 < x then f32.inf else nearOrInf op b (exp2R x) 2)
    else if op = 0x44 then
      (if q = 0 then f32.signed true f32.inf else if n then f32.nan
       else
         let y := log2R q
         if decide (1/2 ≤ q) && decide (q ≤ 2) then pickNear op b y (pow2 (-22)) else nearOrInf op b y 2)
    else if op = 0x45 then
      (if q.den = 1 then 0 else pickNear op b (sinPiR x) (pow2 (-21)))
    else pickNear op b (sinPiR (x + 1/2)) (pow2 (-21))

end Sys2Proof.Machine
end

