-- ==== Sys2Proof/Machine/Formats.lean ====
section
/-! DEFINITION. Pixel and depth formats (Tables 8.5 and 11.3): element sizes, channels, and the conversions of the jets
(R246, R247). -/

namespace Sys2Proof.Machine

/-- How a channel's bits stand for a value. -/
inductive Chan
  | unorm | half | single | uint
  deriving DecidableEq, Repr

/-- One channel: which of R, G, B, A (0 to 3), its bits [hi:lo] of the element, and its kind. -/
structure ChanAt where
  ch : Nat
  hi : Nat
  lo : Nat
  kind : Chan
  deriving DecidableEq, Repr

/-- Element size of a format, 0 where the code names none with one element per pixel. -/
def fmtE (f : Nat) : Nat :=
  if f = 0x01 then 1
  else if f = 0x02 || f = 0x03 || f = 0x04 || f = 0x05 || f = 0x80 then 2
  else if f = 0x08 || f = 0x09 || f = 0x0A || f = 0x0B || f = 0x0C || f = 0x0D || f = 0x81 || f = 0x82 then 4
  else if f = 0x10 || f = 0x11 || f = 0x12 || f = 0x83 then 8
  else 0

/-- Table 11.3 marks the format renderable. -/
def fmtRenderable (f : Nat) : Bool := decide (f < 0x80) && fmtE f != 0

/-- Table 11.3 marks the format composable. -/
def fmtComposable (f : Nat) : Bool :=
  [0x04, 0x05, 0x08, 0x09, 0x0A, 0x0B, 0x10, 0x11, 0x20, 0x21].contains f

/-- The format is a depth format of Table 8.5, and whether it has stencil. -/
def fmtDepth (f : Nat) : Bool := decide (0x80 ≤ f ∧ f ≤ 0x83)
def fmtStencil (f : Nat) : Bool := f == 0x81 || f == 0x83

/-- The format is an integer format. -/
def fmtInteger (f : Nat) : Bool := f == 0x0D

/-- The channels of a colour format (Table 11.3). -/
def fmtChans (f : Nat) : List ChanAt :=
  let u := Chan.unorm
  if f = 0x01 then [⟨0, 7, 0, u⟩]
  else if f = 0x02 then [⟨0, 7, 0, u⟩, ⟨1, 15, 8, u⟩]
  else if f = 0x03 then [⟨0, 15, 0, .half⟩]
  else if f = 0x04 then [⟨2, 4, 0, u⟩, ⟨1, 10, 5, u⟩, ⟨0, 15, 11, u⟩]
  else if f = 0x05 then [⟨0, 4, 0, u⟩, ⟨1, 9, 5, u⟩, ⟨2, 14, 10, u⟩, ⟨3, 15, 15, u⟩]
  else if f = 0x08 then [⟨0, 7, 0, u⟩, ⟨1, 15, 8, u⟩, ⟨2, 23, 16, u⟩, ⟨3, 31, 24, u⟩]
  else if f = 0x09 then [⟨2, 7, 0, u⟩, ⟨1, 15, 8, u⟩, ⟨0, 23, 16, u⟩, ⟨3, 31, 24, u⟩]
  else if f = 0x0A then [⟨0, 7, 0, u⟩, ⟨1, 15, 8, u⟩, ⟨2, 23, 16, u⟩]
  else if f = 0x0B then [⟨0, 9, 0, u⟩, ⟨1, 19, 10, u⟩, ⟨2, 29, 20, u⟩, ⟨3, 31, 30, u⟩]
  else if f = 0x0C then [⟨0, 31, 0, .single⟩]
  else if f = 0x0D then [⟨0, 31, 0, .uint⟩]
  else if f = 0x10 then [⟨0, 15, 0, .half⟩, ⟨1, 31, 16, .half⟩, ⟨2, 47, 32, .half⟩, ⟨3, 63, 48, .half⟩]
  else if f = 0x11 then [⟨0, 15, 0, u⟩, ⟨1, 31, 16, u⟩, ⟨2, 47, 32, u⟩, ⟨3, 63, 48, u⟩]
  else if f = 0x12 then [⟨0, 31, 0, .single⟩, ⟨1, 63, 32, .single⟩]
  else []

/-- The largest value of an n-bit channel. -/
def chanMax (c : ChanAt) : Nat := 2 ^ (c.hi + 1 - c.lo) - 1

/-- The exact value of a channel of an element, none where it is NaN or infinite; an integer channel's own number. -/
def chanRat (c : ChanAt) (e : Nat) : Option ℚ :=
  let v := bitsOf e c.hi c.lo
  match c.kind with
  | .unorm => some ((v : ℚ) / (chanMax c : ℚ))
  | .half => f16.rat? v
  | .single => f32.rat? v
  | .uint => some v

/-- A channel as a register word (R246, R247): normalised channels in [0, 1] and float channels as FP32, integers as they
are. -/
def chanWord (c : ChanAt) (e : Nat) : Nat :=
  let v := bitsOf e c.hi c.lo
  match c.kind with
  | .unorm => f32.roundFree ((v : ℚ) / (chanMax c : ℚ))
  | .half => fpConv f16 f32 0 v
  | .single | .uint => v

/-- The four words R, G, B, A of an element: a channel the format lacks reads 0, and a missing alpha 1.0 (R246). -/
def fmtWords (f e : Nat) : List Nat :=
  (List.range 4).map fun i =>
    match (fmtChans f).find? fun c => c.ch == i with
    | some c => chanWord c e
    | none => if i = 3 then f32.one else 0

/-- A register word as a channel's bits: rounding to nearest even, clamped to the format's range, NaN as 0 (R247). -/
def chanStore (c : ChanAt) (w : Nat) : Nat :=
  match c.kind with
  | .uint => w
  | .single => if f32.isNan w then 0 else w
  | .half =>
    match f32.val w with
    | .nan => 0
    | .inf n => f16.signed n f16.maxFin
    | .fin n q => f16.signed n (min (f16.round 0 false q) f16.maxFin)
  | .unorm =>
    match f32.val w with
    | .nan => 0
    | .inf n => if n then 0 else chanMax c
    | .fin n q => if n then 0 else (intNearest (min q 1 * (chanMax c : ℚ))).toNat

/-- Element `e` with the channels of `mask` (bit i: channel i) replaced by the words. -/
def fmtStore (f e mask : Nat) (ws : List Nat) : Nat :=
  (fmtChans f).foldl (fun e c => if mask.testBit c.ch then putBits e c.hi c.lo (chanStore c (ws.getD c.ch 0)) else e) e

/-- Depth of an element as FP32 (R247), exactly where the format is a float format. -/
def depthWord (f e : Nat) : Nat :=
  if f = 0x80 then f32.roundFree ((bitsOf e 15 0 : ℚ) / 65535)
  else if f = 0x81 then f32.roundFree ((bitsOf e 23 0 : ℚ) / 16777215)
  else bitsOf e 31 0

/-- An FP32 depth as the depth bits of a format: clamped to [0, 1] and rounded to nearest even in a normalised format, where
NaN reads as 0 (R249). -/
def depthBits (f w : Nat) : Nat :=
  let norm := fun (mx : Nat) => match f32.val w with
    | .nan => 0
    | .inf n => if n then 0 else mx
    | .fin n q => if n then 0 else (intNearest (min q 1 * (mx : ℚ))).toNat
  if f = 0x80 then norm 65535 else if f = 0x81 then norm 16777215 else w

/-- An element with its depth bits replaced. -/
def depthPut (f e d : Nat) : Nat :=
  if f = 0x80 then putBits e 15 0 d else if f = 0x81 then putBits e 23 0 d else putBits e 31 0 d

/-- Stencil byte of an element, and the element with it replaced. -/
def stencilOf (f e : Nat) : Nat := if f = 0x81 then bitsOf e 31 24 else bitsOf e 39 32
def stencilPut (f e v : Nat) : Nat := if f = 0x81 then putBits e 31 24 v else putBits e 39 32 v

/-- The depth test of a draw record (Table 8.7): the new depth bits against the stored ones. -/
def depthTest (f func new old : Nat) : Bool :=
  let cmp := fun c => if fmtDepth f && decide (0x82 ≤ f) then fpCmp c new old
    else match c with
      | 0 => new == old
      | 1 => new != old
      | 2 => decide (new < old)
      | 3 => decide (new ≤ old)
      | 4 => decide (old < new)
      | _ => decide (old ≤ new)
  match func with
  | 0 => false
  | 1 => cmp 2
  | 2 => cmp 0
  | 3 => cmp 3
  | 4 => cmp 4
  | 5 => cmp 1
  | 6 => cmp 5
  | _ => true

end Sys2Proof.Machine
end

