-- ==== Sys2Proof/Machine/Crc.lean ====
section
/-! DEFINITION. The check-value algorithms of Table 13.5, one byte at a time; algorithm 0 is the CRC-32C of records,
directories and images. -/

namespace Sys2Proof.Machine

/-- `n` steps of a reflected CRC register. -/
def crcReflStep (poly : Nat) : Nat → Nat → Nat
  | 0, c => c
  | n + 1, c => crcReflStep poly n (if c % 2 = 1 then (c / 2) ^^^ poly else c / 2)

/-- `n` steps of an unreflected CRC register of `w` bits. -/
def crcNormStep (w poly : Nat) : Nat → Nat → Nat
  | 0, c => c
  | n + 1, c => crcNormStep w poly n (if c / 2 ^ (w - 1) % 2 = 1 then (2 * c % 2 ^ w) ^^^ poly else 2 * c % 2 ^ w)

/-- Width of algorithm `poly` of Table 13.5. -/
def crcWidth (poly : Nat) : Nat := if poly = 3 then 64 else if poly = 2 then 16 else 32

/-- Initial running value of algorithm `poly`. -/
def crcInit (poly : Nat) : Nat := 2 ^ crcWidth poly - 1

/-- xorout of algorithm `poly`. -/
def crcXorout (poly : Nat) : Nat := if poly = 2 then 0 else 2 ^ crcWidth poly - 1

/-- Feed one byte to the running value of algorithm `poly` (R349: reflected polynomials of Table 13.5). -/
def crcFeed (poly run : Nat) (b : Byte) : Nat :=
  match poly with
  | 0 => crcReflStep 0x82F63B78 8 (run ^^^ b.toNat)
  | 1 => crcReflStep 0xEDB88320 8 (run ^^^ b.toNat)
  | 2 => crcNormStep 16 0x1021 8 (run ^^^ (b.toNat * 256))
  | _ => crcReflStep 0xC96C5795D7870F42 8 (run ^^^ b.toNat)

/-- Feed bytes in order. -/
def crcFeedAll (poly : Nat) : Nat → List Byte → Nat
  | run, [] => run
  | run, b :: bs => crcFeedAll poly (crcFeed poly run b) bs

/-- CRC-32C of a byte string (Table 13.5, algorithm 0). -/
def crc32c (bs : List Byte) : Nat := crcFeedAll 0 (crcInit 0) bs ^^^ crcXorout 0

end Sys2Proof.Machine
end

