-- ==== Sys2Proof/Machine/AudState.lean ====
section
/-! DEFINITION. The plain data of the audio block (spec/18) that is not a register: blocks in the mixer, guest and capture
buffers, voices, fades, meters and commits. Samples are binary32 words (R441). -/

namespace Sys2Proof.Machine

/-- The device buffer of a GUEST input: samples, the earliest show time of the first, whether it plays, and whether a rein
discards it at the next block boundary. -/
structure GuestBuf where
  samples : List Nat := []
  notBefore : Option Nat := none
  playing : Bool := false
  discard : Bool := false
  deriving DecidableEq, Repr

/-- A running play job: its input, samples entered so far, and the host bytes brought for it. -/
structure PlayJob where
  ctx : Nat
  sq : Nat
  input : Nat
  entered : Nat := 0
  host : List (Nat × BitVec 8) := []
  deriving DecidableEq, Repr

/-- A running capture job: its bus, samples written, and whether its first block has started. -/
structure CaptJob where
  ctx : Nat
  sq : Nat
  bus : Nat
  written : Nat := 0
  begun : Bool := false
  deriving DecidableEq, Repr

/-- A bus's capture buffer: a capture has run on it, the newest 256 samples since the last one ended, and samples lost. -/
structure CaptBuf where
  primed : Bool := false
  samples : List Nat := []
  lost : Nat := 0
  deriving DecidableEq, Repr

/-- A voice: sample index of its clip while it plays, and whether it fades out across the block. -/
structure Voice where
  pos : Option Nat := none
  fade : Bool := false
  deriving DecidableEq, Repr

/-- The settings that the block in progress moves away from (R445): the old active words that differ, and the old gains that
differ, by crosspoint entry. -/
structure AudFade where
  words : List (Nat × Nat) := []
  gains : List (Nat × Nat) := []
  deriving DecidableEq, Repr

/-- A bus between blocks (R447, R448): the factor its last block ended at and the one its next block ramps to, each as law and
n_b (0 mute, 1 one over n_b, 2 one over its root, 3 one), and the duck_db its last block ended at, none while not ducked. -/
structure BusScale where
  scale : Option (Nat × Nat) := none
  next : Option (Nat × Nat) := none
  duck : Option Nat := none
  deriving DecidableEq, Repr

/-- An audio commit: bank switch, target, words. -/
structure AudCommit where
  switch : Bool
  target : Option Nat
  words : List (Nat × Nat)
  deriving DecidableEq, Repr

/-- The audio block. -/
structure Aud where
  enabledOnce : Bool := false
  /-- Guest and voice samples taken in during the block in progress: by input, and by voice. -/
  guest : List (Nat × List Nat) := []
  voice : List (Nat × List Nat) := []
  /-- Media-clock index of the first sample of the block in progress. -/
  media : Int := 0
  /-- A block is in progress; sink samples and bus samples of the block mixed and not yet sent, and the bus samples that leave
  the mixer during the block in progress. -/
  inBlock : Bool := false
  ready : List (Nat × List Int) := []
  buses : List (Nat × List Nat) := []
  leaving : List (Nat × List Nat) := []
  bufs : List (Nat × GuestBuf) := []
  plays : List PlayJob := []
  caps : List CaptJob := []
  kept : List (Nat × CaptBuf) := []
  voices : List (Nat × Voice) := []
  /-- Voice starts and stops that wait for the next block: voice, start. -/
  asks : List (Nat × Bool) := []
  fade : AudFade := {}
  scales : List (Nat × BusScale) := []
  /-- When a held peak was last raised, by meter register key. -/
  holdT : List (Nat × Nat) := []
  /-- Clips once checked: 0 empty, 1 valid, 2 range, 3 CRC, 4 reserved. -/
  clips : List Nat := []
  sync : Option Nat := none
  commit : Option AudCommit := none
  deriving DecidableEq, Repr

end Sys2Proof.Machine
end

