-- ==== Sys2Proof/Machine/DisplayState.lean ====
section
/-! DEFINITION. The plain data of composition, display heads, integrity services and check-value units (spec/11 to spec/13)
that is not a register: commits at the commit ports, holds, curve banks, frames in progress, gait changes, links, panels,
check counts and running values. -/

namespace Sys2Proof.Machine

/-- A commit at a commit port (R295, R297). kind: 0 paddock, 1 head, 2 group. -/
structure Commit where
  kind : Nat
  /-- The composer of the job or of the CMP_COMMIT write, and every composer it acts on. -/
  comp : Nat
  members : List Nat
  paddock : Nat := 0
  /-- Its job, while the job has not ended. -/
  job : Option (Nat × Nat) := none
  /-- Arrival as it counts (the end of a hold, R302), and at the port. -/
  arrival : Nat
  stamped : Nat
  target : Option Nat := none
  /-- The pending copy: shadow key and word. -/
  words : List (Nat × Nat) := []
  /-- Layers in its scope, and whether the safety layer is. -/
  layers : List Nat := []
  safety : Bool := false
  held : Bool := false
  /-- It waits for a head that is stopped or changes its gait, and is not late for the wait (R312, R323). -/
  waits : Bool := false
  /-- Requested frame at each head of its members once known: head and frame-start number (R314), and whether the target lay
  before the arrival. -/
  req : List (Nat × Nat) := []
  past : Bool := false
  /-- Frame starts of its composer's head when it was first held or made to wait. -/
  frozen : Nat := 0
  latched : Bool := false
  /-- Outcome of the checks (Table 11.6; 0 passes), with the layer and the sequence number of its record. -/
  code : Nat := 0
  layer : Nat := 31
  seq : Nat := 0
  late : Nat := 0
  deriving DecidableEq, Repr

/-- One composer. -/
structure Composer where
  /-- Latch lines begun since hold was set. -/
  holdLines : Nat := 0
  /-- Byte ranges whose fetch was refused or poisoned in this frame: layer (16 safety), address, bytes (R289). -/
  blanked : List (Nat × Nat × Nat) := []
  /-- Layers that read a malformed block in this frame (R186). -/
  malformed : List Nat := []
  /-- A writeback frame is in progress: its frame number, and whether its pixels have been written. -/
  wb : Option (Nat × Bool) := none
  /-- C8, C9: the frame in composition, the frame starts since its own, canvas lines sent, and whether it ended. -/
  frame : Option (Nat × Nat) := none
  lines : Nat := 0
  /-- CMP_OUT, the canvas and the writeback registers of the frame in composition: offset and word (R291, R293). -/
  frameSet : List (Nat × Nat) := []
  /-- A head commit applied since the writeback frame in progress began. -/
  wbFresh : Bool := false
  /-- Composed pixels of the frame that have gone to an output: 2^14 × line + pixel, and R, G, B, A (R16). -/
  shown : List (Nat × List Nat) := []
  deriving DecidableEq, Repr

/-- The composers' commit ports and curves. -/
structure Cmp where
  comps : List Composer := List.replicate 10 {}
  /-- Commits at the ports, in order of arrival. -/
  commits : List Commit := []
  /-- LAYER_COMMIT jobs that have not reached their port: composer, paddock, context, ring index (R297). -/
  waiting : List (Nat × Nat × Nat × Nat) := []
  /-- Curve entries of R285: key 2^16 × composer + 2^14 × bank + 2^12 × channel + entry; unwritten entries are 0. -/
  lut : List (Nat × Nat) := []
  deriving DecidableEq, Repr

/-- One display head. -/
structure Head where
  /-- Frame starts so far, and whether one has come since the timing generator started. -/
  starts : Nat := 0
  begun : Bool := false
  /-- Video goes off: 1 waits for t_bl_off, 2 idle pattern from the next frame start, 3 idle, and what follows one frame
  later (Table 12.9). -/
  off : Nat := 0
  /-- Show time of the last latch-line start. -/
  latchAt : Option Nat := none
  /-- Whole lines by which the frame in progress is lengthened (R319). -/
  extra : Nat := 0
  /-- Underrun fills of the frame: line and first pixel (R317). -/
  fills : List (Nat × Nat) := []
  /-- A commit of the composer applied at the last frame start. -/
  applied : Bool := false
  /-- A gait change: the gait before it, the show time of the request, whether it returns to the old gait, and whether
  link training at the new gait has ended. -/
  oldGait : Nat := 0
  reqTime : Nat := 0
  returning : Bool := false
  linkDone : Bool := false
  /-- Genlock: consecutive frames within 1 µs, consecutive frames off by more than 10 µs (R320). -/
  good : Nat := 0
  bad : Nat := 0
  /-- The SYNC_IN interval was out of tolerance (R320). -/
  syncBad : Bool := false
  /-- The AUX transaction in progress: retries so far. -/
  auxRetries : Nat := 0
  /-- HDn_VDDEN, HDn_BLEN and HDn_BLPWM. -/
  vdden : Bool := false
  blen : Bool := false
  /-- Show time of the last fall of HDn_VDDEN, until t_cycle has passed, and whether the panel waits for it to power on. -/
  vddFall : Option Nat := none
  wantOn : Bool := false
  deriving DecidableEq, Repr

/-- The heads and the SYNC_IN edges they follow. -/
structure Hd where
  heads : List Head := List.replicate 8 {}
  /-- Show times of the last two rising edges of SYNC_IN. -/
  sync : Option Nat := none
  sync0 : Option Nat := none
  deriving DecidableEq, Repr

/-- One check of a head (R343): regions 0–15, 16 safety, 17 staleness, 18 fallback. -/
structure Check where
  /-- Consecutive failing and passing frames, and the outcome of the last frame evaluated. -/
  fails : Nat := 0
  passes : Nat := 0
  /-- A tripped reaction that takes effect at the next frame start. -/
  trip : Option Nat := none
  /-- The reaction in force. -/
  force : Option Nat := none
  deriving DecidableEq, Repr

/-- Integrity services of one head. -/
structure ImHead where
  checks : List Check := List.replicate 19 {}
  /-- Staleness count (R341), and whether its check has tripped since the last alive change. -/
  stale : Nat := 0
  staleTripped : Bool := false
  /-- The alive value changed at the frame start now. -/
  fresh : Bool := false
  /-- IM_Hn_CLEAR waits for the next frame start (R347). -/
  clear : Bool := false
  deriving DecidableEq, Repr

/-- A CVU_RUN: context, ring index, whether it runs (else it waits for its CVU), bytes fed. -/
structure CvuJob where
  cvu : Nat
  ctx : Nat
  sq : Nat
  running : Bool := false
  fed : Nat := 0
  deriving DecidableEq, Repr

/-- One CVU (R349): the algorithm in force, running value, bytes fed and show time of the last alive feed. -/
structure Cvu where
  poly : Nat := 0
  run : Nat := 0
  count : Nat := 0
  lastAlive : Nat := 0
  deriving DecidableEq, Repr

/-- Integrity services and check-value units. -/
structure Im where
  heads : List ImHead := List.replicate 8 {}
  cvus : List Cvu := List.replicate 16 {}
  /-- CVU_RUN jobs in the order in which they became ready to start. -/
  jobs : List CvuJob := []
  deriving DecidableEq, Repr

end Sys2Proof.Machine
end

