-- ==== Sys2Proof/Machine/HapState.lean ====
section
/-! DEFINITION. The plain data of the haptic block (spec/17) that is not a register: triggers, the playing effect of each
channel, its FIFO, limits and zero, and commits in progress. -/

namespace Sys2Proof.Machine

/-- A trigger (R432): effect, CUT policy, job gain, and the job it came from. -/
structure Trig where
  effect : Nat
  cut : Bool
  gain : Nat
  job : Option (Nat × Nat)
  deriving DecidableEq, Repr

/-- Where the triggers of one tick stand in their order (R432): SPUR0–SPUR3, touch in control order, jobs in order of start. -/
structure Arrival where
  /-- 0 SPUR, 1 touch, 2 job. -/
  source : Nat
  rank : Nat
  channel : Nat
  trig : Trig
  deriving DecidableEq, Repr

/-- A HAPTIC_PLAY that has started and whose trigger waits for its target time. -/
structure HapWait where
  ctx : Nat
  sq : Nat
  channel : Nat
  target : Option Nat
  trig : Trig
  deriving DecidableEq, Repr

/-- The playing effect: its trigger, samples driven, brake ticks, ticks in a row below settle, and whether a limit has tripped
it. -/
structure Play where
  trig : Trig
  i : Nat := 0
  brake : Option Nat := none
  quiet : Nat := 0
  tripped : Bool := false
  deriving DecidableEq, Repr

/-- A channel: its playing effect, FIFO, integrator, drive ticks since drive restarted, ticks in a row without drive, tick
numbers of the drive ticks within the last 8,000, rest ticks left, zero as a sum of 256 samples in µV (or the sum and ticks of
its capture), ticks in a row at a range end, whether HAPn_FLTn is low, the drive value, and shadows of a commit that wait for
it. -/
structure HapCh where
  play : Option Play := none
  fifo : List Trig := []
  integ : Int := 0
  on : Nat := 0
  off : Nat := 8
  driven : List Nat := []
  rest : Nat := 0
  zero : Option Nat := none
  zeroSum : Nat := 0
  zeroTicks : Nat := 64
  rail : Nat := 0
  fltLow : Bool := false
  drive : Int := 0
  words : List (Nat × Nat) := []
  deriving DecidableEq, Repr

/-- The haptic block. `lib` says of each effect once checked: 0 empty, 1 valid, 2 range, 3 CRC, 4 reserved. -/
structure Hap where
  chans : List HapCh := List.replicate 16 {}
  tick : Nat := 0
  arrivals : List Arrival := []
  waits : List HapWait := []
  enabledOnce : Bool := false
  lib : List Nat := []
  deriving DecidableEq, Repr

end Sys2Proof.Machine
end

