-- ==== Sys2Proof/Machine/JetState.lean ====
section
/-! DEFINITION. The plain data of the jet array (spec/08 to spec/10): the parsed structures of a jets job, the binner's
state, teams, workgroups, jets, string queues, the write-out units, saved state and the deadline arbiter. -/

namespace Sys2Proof.Machine

/-- An attachment record (Table 8.4). -/
structure Att where
  surf : Nat := 0
  data : Nat := 0
  clear : Nat := 0
  resolve : Nat := 0
  width : Nat := 0
  height : Nat := 0
  stride : Nat := 0
  fmt : Nat := 0
  layout : Nat := 0
  load : Nat := 0
  store : Nat := 0
  rstride : Nat := 0
  deriving DecidableEq, Repr

/-- A render pass structure (Table 8.3, R192). -/
structure Pass where
  ax : Nat := 0
  ay : Nat := 0
  aw : Nat := 0
  ah : Nat := 0
  samples : Nat := 1
  varyings : Nat := 0
  draws : Nat := 0
  prog : Nat := 0
  bind : Nat := 0
  draw : Nat := 0
  depth : Option Att := none
  colours : List Att := []
  deriving DecidableEq, Repr

/-- An entry record of a program container (Table 9.4). -/
structure Entry where
  stage : Nat := 0
  vregs : Nat := 8
  teams : Nat := 0
  flags : Nat := 0
  start : Nat := 0
  shared : Nat := 0
  deriving DecidableEq, Repr

/-- A program container (Table 9.3). -/
structure Prog where
  addr : Nat := 0
  kind : Nat := 0
  codeOff : Nat := 0
  codeBytes : Nat := 0
  constOff : Nat := 0
  constBytes : Nat := 0
  entries : List Entry := []
  deriving DecidableEq, Repr

/-- A texture slot (Table 9.6). -/
structure Tex where
  fmt : Nat := 0
  layout : Nat := 0
  levels : Nat := 1
  width : Nat := 1
  height : Nat := 1
  surf : Nat := 0
  data : Nat := 0
  clear : Nat := 0
  stride : Nat := 0
  filter : Nat := 0
  address : Nat := 0
  aniso : Nat := 1
  func : Nat := 0
  bias : Nat := 0
  lodMin : Nat := 0
  lodMax : Nat := 0
  border : Nat := 0
  deriving DecidableEq, Repr

/-- A slot of a resource binding table (R229). -/
inductive Slot
  | buffer (writable : Bool) (size base : Nat)
  | texture (t : Tex)
  deriving DecidableEq, Repr

/-- A draw record (Table 8.7). -/
structure Draw where
  topology : Nat := 0
  flags : Nat := 0
  func : Nat := 0
  entry : Nat := 0
  count : Nat := 0
  index : Nat := 0
  first : Nat := 0
  voff : Nat := 0
  x0 : Nat := 0
  y0 : Nat := 0
  x1 : Nat := 0
  y1 : Nat := 0
  deriving DecidableEq, Repr

/-- What a vertex program delivers (R251): clip position and varyings as FP32 words. -/
structure VOut where
  pos : List Nat := [0, 0, 0, 0]
  vary : List Nat := []
  deriving DecidableEq, Repr

/-- A vertex of a placed primitive (R199, Table 8.8): screen x and y, depth and 1/w as FP32 words, the snapped position in
1/256 pixel (R200), and its varyings. -/
structure PVert where
  x : Nat := 0
  y : Nat := 0
  z : Nat := 0
  iw : Nat := 0
  sx : Int := 0
  sy : Int := 0
  vary : List Nat := []
  deriving DecidableEq, Repr

/-- A primitive: kind 0 triangle, 1 line, 2 point. -/
structure Prim where
  kind : Nat := 0
  vs : List PVert := []
  /-- Index of its draw record, and of the primitive within the draw. -/
  drawNo : Nat := 0
  id : Nat := 0
  draw : Draw := {}
  front : Bool := true
  deriving DecidableEq, Repr

/-- A primitive that the binner has not placed: as assembled, or already clipped and mapped. -/
inductive Pend
  | raw (vs : List VOut) (drawNo id : Nat) (draw : Draw)
  | ready (p : Prim)
  deriving DecidableEq, Repr

/-- A vertex batch (R199): the positions it covers (none for a strip restart), its jet, and its outputs once delivered. -/
structure Batch where
  ids : List (Option Nat)
  jet : Option Nat := none
  outs : Option (List VOut) := none
  deriving DecidableEq, Repr

/-- A tile head (Table 8.8): its entries in bin order, and its chunks in 64-byte units from the slice base. -/
structure TroughHead where
  entries : List (Nat × Bool) := []
  chunks : List Nat := []
  deriving DecidableEq, Repr

/-- A jets job from its admission on: phase 0 admitted, 1 waiting for a home string, 2 geometry, 3 tiles, 4 compute feed,
5 wholly queued. -/
structure JetJob where
  ctx : Nat
  sq : Nat
  render : Bool
  pass : Pass := {}
  prog : Prog := {}
  slots : List Slot := []
  gx : Nat := 1
  gy : Nat := 1
  gz : Nat := 1
  phase : Nat := 0
  home : Option Nat := none
  arrival : Nat := 0
  suspended : Bool := false
  /-- Binner (R199–R204). -/
  drawNo : Nat := 0
  drw : Option Draw := none
  vpos : Nat := 0
  batches : List Batch := []
  /-- Vertices of the primitive being assembled, and the count assembled in this draw. -/
  strip : List VOut := []
  stripN : Nat := 0
  primId : Nat := 0
  pend : List Pend := []
  prims : List Prim := []
  heads : List (Nat × TroughHead) := []
  /-- Next free byte of the dynamic area from below and first used byte from above, from the slice base. -/
  low : Nat := 0
  high : Nat := 0
  spilling : Bool := false
  round : Nat := 0
  spills : Nat := 0
  /-- Items not yet pushed: tiles of the round in order, or for compute the next workgroup. -/
  todo : List Nat := []
  next : Nat := 0
  /-- Tiles of this round written, or workgroups retired. -/
  written : List Nat := []
  torn : List Nat := []
  /-- Tiles torn in this round. -/
  tornNow : List Nat := []
  /-- Workgroups lost by a retirement with their global write mark set. -/
  lost : List Nat := []
  unitRetired : Bool := false
  rangeDone : Bool := false
  malformed : List Nat := []
  /-- Sequence of its last SPILL_PASS, first JET_RETIRED and first TILE_TORN record (Table 21.1). -/
  spillSeq : Nat := 0
  retiredSeq : Option Nat := none
  tornSeq : Option Nat := none
  /-- Deadline arbiter (R257–R259): D, urgent, miss recorded. -/
  dl : Option Nat := none
  urgent : Bool := false
  missed : Bool := false
  deriving DecidableEq, Repr

/-- A work item of a string queue (R210): tile or workgroup `idx` of a job; a tile carries its round. -/
structure Item where
  ctx : Nat
  sq : Nat
  tile : Bool
  idx : Nat
  round : Nat := 0
  deriving DecidableEq, Repr

/-- Quad of a pixel team: its top-left pixel, its sample in a per_sample entry, and the covered samples of its pixels. -/
structure Quad where
  x : Nat
  y : Nat
  sample : Nat := 0
  cov : List Nat
  /-- Covered samples of its pixels after an early depth test, whichever sample the quad is for (COVERAGE, Table 9.13). -/
  all : List Nat := []
  deriving DecidableEq, Repr

/-- An instruction in flight (R235): the register codes it will write and the writes themselves. -/
structure Flight where
  codes : List Nat
  writes : List (Nat × Nat)
  deriving DecidableEq, Repr

/-- A team (R220–R224). Register keys: v register r of lane l at 16 r + l, s register r at 2048 + r, p register r at
2112 + r; an unlisted register is zero. -/
structure Team where
  stage : Nat
  entry : Nat
  pc : Nat
  present : Nat
  regs : List (Nat × Nat) := []
  flights : List Flight := []
  waiting : Bool := false
  ended : Bool := false
  /-- The count that a read of CLOCK_LO captured for the next read of CLOCK_HI (R242). -/
  clockHi : Option Nat := none
  /-- Team number in its batch or workgroup. -/
  no : Nat := 0
  /-- Vertex: VERTEX_ID of each lane, and the outputs written (slot × 16 + lane). -/
  ids : List Nat := []
  outs : List (Nat × Nat) := []
  /-- Pixel: primitive index in the round, quads, depth values given by ZOUT, and held tile-buffer writes. -/
  prim : Nat := 0
  quads : List Quad := []
  zout : List (Nat × Nat) := []
  held : List (Nat × Nat) := []
  /-- Compute: linear index of its workgroup. -/
  wg : Nat := 0
  deriving DecidableEq, Repr

/-- A resident workgroup (R222, R253, R262). -/
structure Wg where
  idx : Nat
  start : Nat
  wrote : Bool := false
  shared : List Host.Cell := []
  saving : Bool := false
  /-- Nanoseconds it had run when it was last saved (R262). -/
  ran : Nat := 0
  deriving DecidableEq, Repr

/-- A tile being rendered: its bin entries not yet taken, the quads of the current primitive not yet launched, and the tile
buffer half, key to element. -/
structure TileRun where
  item : Item
  prims : List Nat := []
  cur : Nat := 0
  quads : List Quad := []
  buf : List (Nat × Nat) := []
  /-- Keys of elements that something has rendered into (R185). -/
  dirty : List Nat := []
  deriving DecidableEq, Repr

/-- What a jet holds. -/
inductive Holds
  | nothing
  | tile (t : TileRun)
  | batch (ctx sq : Nat)
  | groups (ctx sq : Nat) (wgs : List Wg)
  deriving DecidableEq, Repr

/-- A preemption request (R262): its slot, the decision, its arrival at the jet, and whether the grace limit has passed. -/
structure Preempt where
  slot : Nat
  decided : Nat
  arrived : Option Nat := none
  grace : Bool := false
  deriving DecidableEq, Repr

/-- One jet. -/
structure Jet where
  retired : Bool := false
  gated : Bool := false
  holds : Holds := .nothing
  /-- The string whose queue its items came from. -/
  origin : Nat := 0
  teams : List (Nat × Team) := []
  /-- Instruction-cache lines: context, ring index, line of 64 bytes of code (R228). -/
  icache : List (Nat × Nat × Nat × List Byte) := []
  /-- The job to which it is lent (R261). -/
  lent : Option (Nat × Nat) := none
  preempt : Option Preempt := none
  /-- Show time of its last issue or retirement (R271). -/
  last : Nat := 0
  deriving DecidableEq, Repr

/-- A half held by a write-out unit (R207). -/
structure TileOut where
  jet : Nat
  item : Item
  buf : List (Nat × Nat)
  dirty : List Nat
  /-- The string whose queue the tile came from. -/
  origin : Nat := 0
  deriving DecidableEq, Repr

/-- A saved jet (R262, R265): its slot and what it held. -/
structure Saved where
  slot : Nat
  ctx : Nat
  sq : Nat
  wgs : List Wg
  teams : List (Nat × Team)
  deriving DecidableEq, Repr

/-- One string. -/
structure Str where
  queue : List Item := []
  out : List TileOut := []
  resume : List Saved := []
  dry : Bool := false
  deriving DecidableEq, Repr

/-- The RL values in force since the last setting of enable (R217). -/
structure JaForce where
  held : Nat := 0
  maxW : Nat := 0
  maxH : Nat := 0
  base : List Nat := [0, 0, 0, 0, 0, 0, 0, 0]
  size : List Nat := [0, 0, 0, 0, 0, 0, 0, 0]
  maxJets : Nat := 0
  saveBase : Nat := 0
  saveSlots : Nat := 0
  deriving DecidableEq, Repr

/-- The jet array. -/
structure Ja where
  jets : List Jet := List.replicate 64 {}
  strs : List Str := List.replicate 8 {}
  jobs : List JetJob := []
  force : JaForce := {}
  arrivals : Nat := 0
  /-- Target job of the deadline arbiter (R259). -/
  target : Option (Nat × Nat) := none
  /-- Jet clocks counted up to show time `clkAt`, in units of MHz × ns, and the clock in MHz since (R242). -/
  clkAcc : Nat := 0
  clkAt : Nat := 0
  clkMhz : Nat := 0
  deriving DecidableEq, Repr

end Sys2Proof.Machine
end

