-- ==== Sys2Proof/Machine/LightState.lean ====
section
/-! DEFINITION. The plain data of the light output engine (spec/14) that is not a register and not in the configuration banks
of Basin: the light frame in progress, canvas lines and staging, source data, merge state, emission, sACN senders, DMX ports
and commands in progress. -/

namespace Sys2Proof.Machine

/-- A canvas in the light frame in progress: the last 17 lines as R, G, B of each pixel, the lines that have arrived, and
whether the last one has (R359, R363). -/
structure LoCanvas where
  lines : List (Nat × List (List Nat)) := []
  next : Nat := 0
  done : Bool := false
  deriving DecidableEq, Repr

/-- A merge source (R366–R368): per universe the slots it supplies, when they last changed hands, the universes for which it
is live, and those for which the last record said so. -/
structure LoSrc where
  data : List (Nat × List (Option Nat)) := []
  changed : List (Nat × Nat) := []
  live : List Nat := []
  shown : List Nat := []
  deriving DecidableEq, Repr

/-- Merge state of one slot of an output universe (R369, R370): ltp, the candidates of the last merge with their values, and
when it last had one. -/
structure LoSlot where
  ltp : Option Nat := none
  cand : List (Nat × Nat) := []
  lastCand : Nat := 0
  deriving DecidableEq, Repr

/-- An output universe: its output buffer, slots, whether a slot had a candidate in the last merge, light frames that still
go out as terminated (STOP), sequence count, show time of its last packet, light frames since its output changed. -/
structure LoUni where
  out : List Nat := []
  slots : List LoSlot := []
  had : Bool := false
  stop : Nat := 0
  seq : Nat := 0
  lastSent : Nat := 0
  since : Nat := 0
  deriving DecidableEq, Repr

/-- What one universe sends in a light frame: its slots, whether sACN packets go out, whether they are terminated, and
whether DMX ports hold at mark. -/
structure LoSend where
  uni : Nat
  slots : List Nat
  send : Bool
  term : Bool
  held : Bool
  deriving DecidableEq, Repr

/-- A queued sACN packet: port, local universe, destination and UDP payload. -/
structure LoPacket where
  port : Nat
  uni : Nat
  dest : Nat
  payload : List Byte
  deriving DecidableEq, Repr

/-- A sender of an input universe (R380): identity, last accepted packet, and when it became live. -/
structure Sender where
  cid : Nat
  prio : Nat
  seq : Nat
  port : Nat
  slots : List Nat
  since : Nat
  deriving DecidableEq, Repr

/-- A LIGHT_WRITE: its source, whether it runs (else it waits for its source), frames applied, data of the next frame once
it has arrived, and whether that frame is due in the light frame in progress. -/
structure LoJob where
  src : Nat
  ctx : Nat
  sq : Nat
  running : Bool := false
  applied : Nat := 0
  next : Option (List Byte) := none
  due : Bool := false
  deriving DecidableEq, Repr

/-- An RDM transaction on its port: its request, response bytes so far, bits [18:16] of its progress word, and whether the
port listens. -/
structure Rdm where
  ctx : Nat
  sq : Nat
  req : List Byte
  got : Nat := 0
  none : Bool := false
  collision : Bool := false
  sent : Bool := false
  listening : Bool := false
  deriving DecidableEq, Repr

/-- A DMX port: an emission started while it was busy, a DMX packet is owed before the next RDM transaction, waiting
transactions, and the one in progress. -/
structure DmxPort where
  due : Bool := false
  owed : Bool := false
  queue : List Rdm := []
  rdm : Option Rdm := none
  deriving DecidableEq, Repr

/-- A light commit: bank switch, target, whether its checks have passed, and the shadows it covers. -/
structure LoCommit where
  switch : Bool
  target : Option Nat
  checked : Bool := false
  words : List (Nat × Nat) := []
  deriving DecidableEq, Repr

/-- The light output engine. -/
structure Lo where
  /-- Frame starts of the timing head already taken, and its last frame period while it sends frame starts. -/
  taken : Nat := 0
  /-- A light frame is in progress; its start, and whether it has been merged. -/
  isOpen : Bool := false
  start : Nat := 0
  merged : Bool := false
  canv : List LoCanvas := [{}, {}, {}]
  /-- Staging set: 512 × universe + slot, index of the cell that wrote it, value. -/
  staging : List (Nat × Nat × Nat) := []
  srcs : List LoSrc := List.replicate 8 {}
  unis : List (Nat × LoUni) := []
  /-- Merged light frames that have not been emitted: start and what each universe sends. -/
  ready : List (Nat × List LoSend) := []
  /-- The newest output buffers whose emission has started. -/
  sent : List LoSend := []
  tx : List LoPacket := []
  rx : List (Nat × List Sender) := []
  dmx : List DmxPort := List.replicate 8 {}
  jobs : List LoJob := []
  commit : Option LoCommit := none
  /-- The engine has been enabled before; every universe is disabled because the first check failed (R375). -/
  checkedOnce : Bool := false
  allOff : Bool := false
  /-- LO_LOAD_CMD in progress: op, kind, first, count, source address. -/
  load : Option (List Nat) := none
  deriving DecidableEq, Repr

end Sys2Proof.Machine
end

