-- ==== Sys2Proof/Machine/NetState.lean ====
section
/-! DEFINITION. The plain data of the network ports, PTP and AES67 (spec/15) that is not a register. -/

namespace Sys2Proof.Machine

/-- A clock heard in Announce messages: its port identity, data set, messages heard and the show time of the last. -/
structure Foreign where
  source : Nat
  ds : PtpDs
  heard : Nat
  last : Nat
  deriving DecidableEq, Repr

/-- An AES67 transmit stream: RTP sequence number and the samples that wait, each a frame of 8 channels. -/
structure AesTx where
  seq : Nat := 0
  fifo : List (List Int) := []
  deriving DecidableEq, Repr

/-- An AES67 receive stream: the newest sequence number; packets that have lately arrived, each with its port, and those counted
lost, with port 2; packets still missing, each with the media-clock index at which its first sample plays; and samples by the
index of their playout. -/
structure AesRx where
  last : Option Nat := none
  seen : List (Nat × Nat) := []
  missing : List (Nat × Nat) := []
  buf : List (Nat × List Int) := []
  deriving DecidableEq, Repr

/-- A frame that waits for its port (R389): its kind (`netSend`), what it carries, and when it was queued. -/
structure TxFrame where
  port : Nat
  kind : Nat
  data : List Nat
  since : Nat
  deriving DecidableEq, Repr

/-- Network ports and show time. -/
structure Net where
  /-- Frames that wait for their port's next frame boundary, oldest first, and the show time at which each port's wire is free
  of the frame in progress (R389). -/
  waiting : List TxFrame := []
  wire : List Nat := [0, 0]
  /-- A v2 querier is heard on the port (R388). -/
  igmpV2 : List Bool := [false, false]
  /-- Clocks heard, and the leader in force. -/
  foreign : List Foreign := []
  leader : Option Foreign := none
  /-- A Sync of the leader has been accepted since it was chosen. -/
  synced : Bool := false
  /-- A two-step Sync that waits for its follow-up: sequence number and receipt time. -/
  sync : Option (Nat × Nat) := none
  /-- Origin and receipt time of the last complete Sync. -/
  pair : Option (Int × Nat) := none
  /-- The delay request sent last: sequence number and departure time. -/
  req : Option (Nat × Nat) := none
  /-- Consecutive measurements within 1 µs (Table 15.3). -/
  good : Nat := 0
  /-- The last disciplined rate in ppb. -/
  rate : Option Int := none
  /-- Sequence numbers of the Sync, Announce and delay request sent next. -/
  seqs : List Nat := [0, 0, 0]
  tx : List AesTx := List.replicate 8 {}
  rx : List AesRx := List.replicate 8 {}
  deriving DecidableEq, Repr

end Sys2Proof.Machine
end

