-- ==== Sys2Proof/Machine/RegMap.lean ====
section
/-! DEFINITION. The register map (Tables 1.10 to 20.10 of spec/01 to spec/20): one named key per register and one row per register array with the
masks of its access codes (Table 0.4) and its reset word (R13). A P-view register has its P-view offset as key; a
U-view register of paddock p has the key 0x1000_0000 + 0x1_0000 * p + offset; an S-view one 0x2000_0000 + offset. -/

namespace Sys2Proof.Reg

abbrev SYS_STATE : Nat := 0x10
abbrev WH_STATUS : Nat := 0x110000
abbrev WH_FAIL_A : Nat := 0x110004
abbrev WH_FAIL_B : Nat := 0x110008
abbrev WH_SLOT : Nat := 0x11000C
abbrev WH_IMAGE_VER : Nat := 0x110010
abbrev WH_SEC_VER : Nat := 0x110014
abbrev WH_LOAD_TIME : Nat := 0x110018
abbrev WH_CONFIRM : Nat := 0x110020
abbrev WH_FLASH_CMD : Nat := 0x110080
abbrev WH_FLASH_ADDR : Nat := 0x110084
abbrev WH_FLASH_LEN : Nat := 0x110088
abbrev WH_FLASH_STATUS : Nat := 0x11008C
abbrev WH_MEASURE (i : Nat) : Nat := 0x110040 + 0x4 * i
abbrev WH_FLASH_BUF (i : Nat) : Nat := 0x110100 + 0x4 * i
abbrev SYS_SECREQ_CMD : Nat := 0x200
abbrev SYS_SECREQ_FIRST : Nat := 0x204
abbrev SYS_SECREQ_COUNT : Nat := 0x208
abbrev SYS_SECREQ_STATUS : Nat := 0x20C
abbrev SYS_SECREQ_DATA (i : Nat) : Nat := 0x220 + 0x4 * i
abbrev SEC_STATUS : Nat := 0x120000
abbrev SEC_CLAIM : Nat := 0x120004
abbrev SEC_CVU_MASK : Nat := 0x120008
abbrev SEC_WDT_PERIOD : Nat := 0x120010
abbrev SEC_WDT_STATUS : Nat := 0x120018
abbrev SEC_RESET_INFO : Nat := 0x12001C
abbrev SEC_OTP_STATUS : Nat := 0x120020
abbrev SEC_ANCHOR (i : Nat) : Nat := 0x120040 + 0x4 * i
abbrev SEC_SHARE_LO (i : Nat) : Nat := 0x120080 + 0x8 * i
abbrev SEC_SHARE_HI (i : Nat) : Nat := 0x120084 + 0x8 * i
abbrev S_SEC_STATUS : Nat := 0x20000000
abbrev S_SEC_CLAIM : Nat := 0x20000004
abbrev S_SEC_CVU_MASK : Nat := 0x20000008
abbrev S_SEC_WDT_PERIOD : Nat := 0x20000010
abbrev S_SEC_WDT_KICK : Nat := 0x20000014
abbrev S_SEC_WDT_STATUS : Nat := 0x20000018
abbrev S_SEC_RESET_INFO : Nat := 0x2000001C
abbrev S_SEC_OTP_STATUS : Nat := 0x20000020
abbrev S_SEC_ANCHOR (i : Nat) : Nat := 0x20000040 + 0x4 * i
abbrev S_SEC_SHARE_LO (i : Nat) : Nat := 0x20000080 + 0x8 * i
abbrev S_SEC_SHARE_HI (i : Nat) : Nat := 0x20000084 + 0x8 * i
abbrev HP_LINK (i : Nat) : Nat := 0x40000 + 0x10 * i
abbrev HP_ERR (i : Nat) : Nat := 0x40004 + 0x10 * i
abbrev HP_DOWN_COUNT (i : Nat) : Nat := 0x40008 + 0x10 * i
abbrev PDK_MANAGER : Nat := 0x40100
abbrev PDK_CMD : Nat := 0x40110
abbrev PDK_CMD_ARG : Nat := 0x40114
abbrev PDK_CMD_STATUS : Nat := 0x40118
abbrev PDK_STATE (i : Nat) : Nat := 0x42000 + 0x40 * i
abbrev PDK_LIMIT (i : Nat) : Nat := 0x42004 + 0x40 * i
abbrev PDK_MISC (i : Nat) : Nat := 0x42008 + 0x40 * i
abbrev PDK_LAYERS (i : Nat) (j : Nat) : Nat := 0x4200C + 0x40 * i + 0x4 * j
abbrev PDK_CTRL (i : Nat) (j : Nat) : Nat := 0x42020 + 0x40 * i + 0x4 * j
abbrev PDK_U_ID (i : Nat) : Nat := 0x10000000 + 0x10000 * i
abbrev PDK_U_STATE (i : Nat) : Nat := 0x10000004 + 0x10000 * i
abbrev PDK_U_CAUSE (i : Nat) : Nat := 0x10000008 + 0x10000 * i
abbrev PDK_U_QUIESCE (i : Nat) : Nat := 0x1000000C + 0x10000 * i
abbrev PDK_U_LAYERS (i : Nat) (j : Nat) : Nat := 0x10000010 + 0x10000 * i + 0x4 * j
abbrev PDK_U_MISC (i : Nat) : Nat := 0x10000024 + 0x10000 * i
abbrev PDK_U_CTRL (i : Nat) (j : Nat) : Nat := 0x10000030 + 0x10000 * i + 0x4 * j
abbrev MSIX_TABLE (i : Nat) (j : Nat) : Nat := 0x10000800 + 0x10000 * i + 0x4 * j
abbrev MSIX_PBA (i : Nat) : Nat := 0x10000A00 + 0x10000 * i
abbrev CQ_U_DB_TAIL (i : Nat) (j : Nat) : Nat := 0x10001000 + 0x10000 * i + 0x8 * j
abbrev CQ_U_DB_CMD (i : Nat) (j : Nat) : Nat := 0x10001004 + 0x10000 * i + 0x8 * j
abbrev CQ_U_SQ_BASE_LO (i : Nat) (j : Nat) : Nat := 0x10002000 + 0x10000 * i + 0x20 * j
abbrev CQ_U_SQ_BASE_HI (i : Nat) (j : Nat) : Nat := 0x10002004 + 0x10000 * i + 0x20 * j
abbrev CQ_U_CQ_BASE_LO (i : Nat) (j : Nat) : Nat := 0x10002008 + 0x10000 * i + 0x20 * j
abbrev CQ_U_CQ_BASE_HI (i : Nat) (j : Nat) : Nat := 0x1000200C + 0x10000 * i + 0x20 * j
abbrev CQ_U_CFG (i : Nat) (j : Nat) : Nat := 0x10002010 + 0x10000 * i + 0x20 * j
abbrev CQ_U_STATUS (i : Nat) (j : Nat) : Nat := 0x10002014 + 0x10000 * i + 0x20 * j
abbrev CQ_U_SQ_HEAD (i : Nat) (j : Nat) : Nat := 0x10002018 + 0x10000 * i + 0x20 * j
abbrev CQ_U_CQ_HEAD (i : Nat) (j : Nat) : Nat := 0x1000201C + 0x10000 * i + 0x20 * j
abbrev CQ_CTX_CMD : Nat := 0x50000
abbrev CQ_FENCE_SEL : Nat := 0x50010
abbrev CQ_FENCE_CUR_LO : Nat := 0x50018
abbrev CQ_FENCE_CUR_HI : Nat := 0x5001C
abbrev CQ_FENCE_SET_LO : Nat := 0x50020
abbrev CQ_FENCE_SET_HI : Nat := 0x50024
abbrev CQ_RUNLIMIT_BULK : Nat := 0x50030
abbrev CQ_RUNLIMIT_INTERACTIVE : Nat := 0x50034
abbrev CQ_RUNLIMIT_DEADLINE : Nat := 0x50038
abbrev CQ_CTX_STATUS (i : Nat) : Nat := 0x54000 + 0x10 * i
abbrev CQ_CTX_OWNER (i : Nat) : Nat := 0x54004 + 0x10 * i
abbrev CQ_CTX_CLASS (i : Nat) : Nat := 0x54008 + 0x10 * i
abbrev CQ_CTX_LIMIT (i : Nat) : Nat := 0x5400C + 0x10 * i
abbrev CQ_FENCE_CFG (i : Nat) : Nat := 0x58000 + 0x4 * i
abbrev MEM_STATUS : Nat := 0x60000
abbrev MEM_CAPACITY : Nat := 0x60004
abbrev MEM_ECC_CORR : Nat := 0x60010
abbrev MEM_ECC_UNCORR : Nat := 0x60014
abbrev MEM_ECC_ADDR_LO : Nat := 0x60018
abbrev MEM_ECC_ADDR_HI : Nat := 0x6001C
abbrev MEM_ECC_CLEAR : Nat := 0x60020
abbrev BSN_APT_BASE : Nat := 0x60800
abbrev BSN_STATUS : Nat := 0x60804
abbrev BSN_ECC_CORR : Nat := 0x60810
abbrev BSN_ECC_UNCORR : Nat := 0x60814
abbrev BSN_ECC_ADDR : Nat := 0x60818
abbrev BSN_ECC_CLEAR : Nat := 0x6081C
abbrev MEM_CH_STATUS (i : Nat) : Nat := 0x60100 + 0x4 * i
abbrev BSN_PART_BASE (i : Nat) : Nat := 0x60900 + 0x8 * i
abbrev BSN_PART_SIZE (i : Nat) : Nat := 0x60904 + 0x8 * i
abbrev BSN_SAFETY (i : Nat) : Nat := 0x60980 + 0x4 * i
abbrev JA_CTRL : Nat := 0x70000
abbrev JA_STATUS : Nat := 0x70004
abbrev JA_HELD : Nat := 0x70008
abbrev JA_SLACK_MIN : Nat := 0x7000C
abbrev JA_MAX_TARGET : Nat := 0x70010
abbrev JA_SIPHON : Nat := 0x70014
abbrev JA_FREQ : Nat := 0x70018
abbrev JA_HEALTH_LO : Nat := 0x70020
abbrev JA_HEALTH_HI : Nat := 0x70024
abbrev JA_PRERETIRE_LO : Nat := 0x70028
abbrev JA_PRERETIRE_HI : Nat := 0x7002C
abbrev JA_EVENT : Nat := 0x70030
abbrev JA_EVENT_EN : Nat := 0x70034
abbrev JA_PREEMPT : Nat := 0x70040
abbrev JA_SAVE : Nat := 0x70044
abbrev JA_PREEMPT_STATUS : Nat := 0x70048
abbrev JA_PREEMPT_COUNT : Nat := 0x7004C
abbrev JA_PREEMPT_MAXLAT : Nat := 0x70050
abbrev JA_FAIL : Nat := 0x70054
abbrev JA_DL_EVENT : Nat := 0x70058
abbrev JA_DL_EVENT_EN : Nat := 0x7005C
abbrev JA_STR_TROUGH (i : Nat) : Nat := 0x70100 + 0x20 * i
abbrev JA_STR_STATUS (i : Nat) : Nat := 0x70104 + 0x20 * i
abbrev JA_STR_SPILLS (i : Nat) : Nat := 0x70108 + 0x20 * i
abbrev JA_STR_STEALS_IN (i : Nat) : Nat := 0x7010C + 0x20 * i
abbrev JA_STR_STEALS_OUT (i : Nat) : Nat := 0x70110 + 0x20 * i
abbrev JA_STR_ITEMS (i : Nat) : Nat := 0x70114 + 0x20 * i
abbrev JA_DL_MISSES (i : Nat) : Nat := 0x70200 + 0x10 * i
abbrev JA_DL_LAST_SLACK (i : Nat) : Nat := 0x70204 + 0x10 * i
abbrev JA_DL_MIN_SLACK (i : Nat) : Nat := 0x70208 + 0x10 * i
abbrev CMP_CTRL (i : Nat) : Nat := 0x80000 + 0x2000 * i
abbrev CMP_CFG (i : Nat) : Nat := 0x80004 + 0x2000 * i
abbrev CMP_STATUS (i : Nat) : Nat := 0x8000C + 0x2000 * i
abbrev CMP_EVENT (i : Nat) : Nat := 0x80010 + 0x2000 * i
abbrev CMP_EVENT_EN (i : Nat) : Nat := 0x80014 + 0x2000 * i
abbrev CMP_REJECT (i : Nat) : Nat := 0x80018 + 0x2000 * i
abbrev CMP_COMMIT (i : Nat) : Nat := 0x80020 + 0x2000 * i
abbrev CMP_COMMIT_TIME_LO (i : Nat) : Nat := 0x80024 + 0x2000 * i
abbrev CMP_COMMIT_TIME_HI (i : Nat) : Nat := 0x80028 + 0x2000 * i
abbrev CMP_COMMIT_STATUS (i : Nat) : Nat := 0x8002C + 0x2000 * i
abbrev CMP_HOLD (i : Nat) : Nat := 0x80030 + 0x2000 * i
abbrev CMP_GROUP (i : Nat) : Nat := 0x80034 + 0x2000 * i
abbrev CMP_SAFE_OWNER (i : Nat) : Nat := 0x80038 + 0x2000 * i
abbrev CMP_BG (i : Nat) : Nat := 0x80040 + 0x2000 * i
abbrev CMP_OUT (i : Nat) : Nat := 0x80044 + 0x2000 * i
abbrev CMP_CANVAS_XY (i : Nat) : Nat := 0x80048 + 0x2000 * i
abbrev CMP_CANVAS_WH (i : Nat) : Nat := 0x8004C + 0x2000 * i
abbrev CMP_WB_CTRL (i : Nat) : Nat := 0x80050 + 0x2000 * i
abbrev CMP_WB_ADDR_LO (i : Nat) : Nat := 0x80054 + 0x2000 * i
abbrev CMP_WB_ADDR_HI (i : Nat) : Nat := 0x80058 + 0x2000 * i
abbrev CMP_WB_DATA_LO (i : Nat) : Nat := 0x8005C + 0x2000 * i
abbrev CMP_WB_DATA_HI (i : Nat) : Nat := 0x80060 + 0x2000 * i
abbrev CMP_WB_STRIDE (i : Nat) : Nat := 0x80064 + 0x2000 * i
abbrev CMP_LUT_ADDR (i : Nat) : Nat := 0x80088 + 0x2000 * i
abbrev CMP_LUT_DATA (i : Nat) : Nat := 0x8008C + 0x2000 * i
abbrev CMP_WB_STATUS (i : Nat) : Nat := 0x80090 + 0x2000 * i
abbrev CMP_SIZE (i : Nat) : Nat := 0x80008 + 0x2000 * i
abbrev CMP_MATRIX (i : Nat) (j : Nat) : Nat := 0x80070 + 0x2000 * i + 0x4 * j
abbrev CMP_ACT (i : Nat) (j : Nat) : Nat := 0x80140 + 0x2000 * i + 0x4 * j
abbrev CMP_L_CTRL (i : Nat) (j : Nat) : Nat := 0x80400 + 0x2000 * i + 0x40 * j
abbrev CMP_L_CTRL_ACT (i : Nat) (j : Nat) : Nat := 0x80800 + 0x2000 * i + 0x40 * j
abbrev CMP_U_L_CTRL (i : Nat) (j : Nat) : Nat := 0x10004000 + 0x10000 * i + 0x40 * j
abbrev CMP_L_ALPHA (i : Nat) (j : Nat) : Nat := 0x80404 + 0x2000 * i + 0x40 * j
abbrev CMP_L_ALPHA_ACT (i : Nat) (j : Nat) : Nat := 0x80804 + 0x2000 * i + 0x40 * j
abbrev CMP_U_L_ALPHA (i : Nat) (j : Nat) : Nat := 0x10004004 + 0x10000 * i + 0x40 * j
abbrev CMP_L_SRC_LO (i : Nat) (j : Nat) : Nat := 0x80408 + 0x2000 * i + 0x40 * j
abbrev CMP_L_SRC_LO_ACT (i : Nat) (j : Nat) : Nat := 0x80808 + 0x2000 * i + 0x40 * j
abbrev CMP_U_L_SRC_LO (i : Nat) (j : Nat) : Nat := 0x10004008 + 0x10000 * i + 0x40 * j
abbrev CMP_L_SRC_HI (i : Nat) (j : Nat) : Nat := 0x8040C + 0x2000 * i + 0x40 * j
abbrev CMP_L_SRC_HI_ACT (i : Nat) (j : Nat) : Nat := 0x8080C + 0x2000 * i + 0x40 * j
abbrev CMP_U_L_SRC_HI (i : Nat) (j : Nat) : Nat := 0x1000400C + 0x10000 * i + 0x40 * j
abbrev CMP_L_DATA_LO (i : Nat) (j : Nat) : Nat := 0x80410 + 0x2000 * i + 0x40 * j
abbrev CMP_L_DATA_LO_ACT (i : Nat) (j : Nat) : Nat := 0x80810 + 0x2000 * i + 0x40 * j
abbrev CMP_U_L_DATA_LO (i : Nat) (j : Nat) : Nat := 0x10004010 + 0x10000 * i + 0x40 * j
abbrev CMP_L_DATA_HI (i : Nat) (j : Nat) : Nat := 0x80414 + 0x2000 * i + 0x40 * j
abbrev CMP_L_DATA_HI_ACT (i : Nat) (j : Nat) : Nat := 0x80814 + 0x2000 * i + 0x40 * j
abbrev CMP_U_L_DATA_HI (i : Nat) (j : Nat) : Nat := 0x10004014 + 0x10000 * i + 0x40 * j
abbrev CMP_L_STRIDE (i : Nat) (j : Nat) : Nat := 0x80418 + 0x2000 * i + 0x40 * j
abbrev CMP_L_STRIDE_ACT (i : Nat) (j : Nat) : Nat := 0x80818 + 0x2000 * i + 0x40 * j
abbrev CMP_U_L_STRIDE (i : Nat) (j : Nat) : Nat := 0x10004018 + 0x10000 * i + 0x40 * j
abbrev CMP_L_SIZE (i : Nat) (j : Nat) : Nat := 0x8041C + 0x2000 * i + 0x40 * j
abbrev CMP_L_SIZE_ACT (i : Nat) (j : Nat) : Nat := 0x8081C + 0x2000 * i + 0x40 * j
abbrev CMP_U_L_SIZE (i : Nat) (j : Nat) : Nat := 0x1000401C + 0x10000 * i + 0x40 * j
abbrev CMP_L_CROP_XY (i : Nat) (j : Nat) : Nat := 0x80420 + 0x2000 * i + 0x40 * j
abbrev CMP_L_CROP_XY_ACT (i : Nat) (j : Nat) : Nat := 0x80820 + 0x2000 * i + 0x40 * j
abbrev CMP_U_L_CROP_XY (i : Nat) (j : Nat) : Nat := 0x10004020 + 0x10000 * i + 0x40 * j
abbrev CMP_L_CROP_WH (i : Nat) (j : Nat) : Nat := 0x80424 + 0x2000 * i + 0x40 * j
abbrev CMP_L_CROP_WH_ACT (i : Nat) (j : Nat) : Nat := 0x80824 + 0x2000 * i + 0x40 * j
abbrev CMP_U_L_CROP_WH (i : Nat) (j : Nat) : Nat := 0x10004024 + 0x10000 * i + 0x40 * j
abbrev CMP_L_DST_XY (i : Nat) (j : Nat) : Nat := 0x80428 + 0x2000 * i + 0x40 * j
abbrev CMP_L_DST_XY_ACT (i : Nat) (j : Nat) : Nat := 0x80828 + 0x2000 * i + 0x40 * j
abbrev CMP_U_L_DST_XY (i : Nat) (j : Nat) : Nat := 0x10004028 + 0x10000 * i + 0x40 * j
abbrev CMP_L_DST_WH (i : Nat) (j : Nat) : Nat := 0x8042C + 0x2000 * i + 0x40 * j
abbrev CMP_L_DST_WH_ACT (i : Nat) (j : Nat) : Nat := 0x8082C + 0x2000 * i + 0x40 * j
abbrev CMP_U_L_DST_WH (i : Nat) (j : Nat) : Nat := 0x1000402C + 0x10000 * i + 0x40 * j
abbrev CMP_L_CLEAR_LO (i : Nat) (j : Nat) : Nat := 0x80430 + 0x2000 * i + 0x40 * j
abbrev CMP_L_CLEAR_LO_ACT (i : Nat) (j : Nat) : Nat := 0x80830 + 0x2000 * i + 0x40 * j
abbrev CMP_U_L_CLEAR_LO (i : Nat) (j : Nat) : Nat := 0x10004030 + 0x10000 * i + 0x40 * j
abbrev CMP_L_CLEAR_HI (i : Nat) (j : Nat) : Nat := 0x80434 + 0x2000 * i + 0x40 * j
abbrev CMP_L_CLEAR_HI_ACT (i : Nat) (j : Nat) : Nat := 0x80834 + 0x2000 * i + 0x40 * j
abbrev CMP_U_L_CLEAR_HI (i : Nat) (j : Nat) : Nat := 0x10004034 + 0x10000 * i + 0x40 * j
abbrev CMP_L_DECL (i : Nat) (j : Nat) : Nat := 0x80438 + 0x2000 * i + 0x40 * j
abbrev CMP_U_L_DECL (i : Nat) (j : Nat) : Nat := 0x10004038 + 0x10000 * i + 0x40 * j
abbrev CMP_L_STATUS (i : Nat) (j : Nat) : Nat := 0x8043C + 0x2000 * i + 0x40 * j
abbrev CMP_U_L_STATUS (i : Nat) (j : Nat) : Nat := 0x1000403C + 0x10000 * i + 0x40 * j
abbrev CMP_S_CTRL (i : Nat) : Nat := 0x80C00 + 0x2000 * i
abbrev CMP_S_CTRL_ACT (i : Nat) : Nat := 0x80C40 + 0x2000 * i
abbrev CMP_U_S_CTRL (i : Nat) (j : Nat) : Nat := 0x10006800 + 0x10000 * i + 0x40 * j
abbrev CMP_S_OFFSET (i : Nat) : Nat := 0x80C04 + 0x2000 * i
abbrev CMP_S_OFFSET_ACT (i : Nat) : Nat := 0x80C44 + 0x2000 * i
abbrev CMP_U_S_OFFSET (i : Nat) (j : Nat) : Nat := 0x10006804 + 0x10000 * i + 0x40 * j
abbrev CMP_S_SIZE (i : Nat) : Nat := 0x80C08 + 0x2000 * i
abbrev CMP_S_SIZE_ACT (i : Nat) : Nat := 0x80C48 + 0x2000 * i
abbrev CMP_U_S_SIZE (i : Nat) (j : Nat) : Nat := 0x10006808 + 0x10000 * i + 0x40 * j
abbrev CMP_S_DST_XY (i : Nat) : Nat := 0x80C0C + 0x2000 * i
abbrev CMP_S_DST_XY_ACT (i : Nat) : Nat := 0x80C4C + 0x2000 * i
abbrev CMP_U_S_DST_XY (i : Nat) (j : Nat) : Nat := 0x1000680C + 0x10000 * i + 0x40 * j
abbrev CMP_U_STATUS (i : Nat) (j : Nat) : Nat := 0x10006C00 + 0x10000 * i + 0x4 * j
abbrev HD_CTRL (i : Nat) : Nat := 0xA0000 + 0x2000 * i
abbrev HD_STATUS (i : Nat) : Nat := 0xA0004 + 0x2000 * i
abbrev HD_EVENT (i : Nat) : Nat := 0xA0008 + 0x2000 * i
abbrev HD_EVENT_EN (i : Nat) : Nat := 0xA000C + 0x2000 * i
abbrev HD_GAITS (i : Nat) : Nat := 0xA0010 + 0x2000 * i
abbrev HD_GAIT (i : Nat) : Nat := 0xA0014 + 0x2000 * i
abbrev HD_GAIT_REQ (i : Nat) : Nat := 0xA0018 + 0x2000 * i
abbrev HD_GAIT_STATUS (i : Nat) : Nat := 0xA001C + 0x2000 * i
abbrev HD_LATCH_GUARD (i : Nat) : Nat := 0xA0020 + 0x2000 * i
abbrev HD_LINE_CMP (i : Nat) : Nat := 0xA0024 + 0x2000 * i
abbrev HD_UNDERRUN_COLOUR (i : Nat) : Nat := 0xA0028 + 0x2000 * i
abbrev HD_BL_PWM (i : Nat) : Nat := 0xA002C + 0x2000 * i
abbrev HD_FRAME (i : Nat) : Nat := 0xA0030 + 0x2000 * i
abbrev HD_FRAME_TIME_LO (i : Nat) : Nat := 0xA0034 + 0x2000 * i
abbrev HD_FRAME_TIME_HI (i : Nat) : Nat := 0xA0038 + 0x2000 * i
abbrev HD_VBLANK_TIME_LO (i : Nat) : Nat := 0xA003C + 0x2000 * i
abbrev HD_VBLANK_TIME_HI (i : Nat) : Nat := 0xA0040 + 0x2000 * i
abbrev HD_LATCH_TIME_LO (i : Nat) : Nat := 0xA0044 + 0x2000 * i
abbrev HD_LATCH_TIME_HI (i : Nat) : Nat := 0xA0048 + 0x2000 * i
abbrev HD_UNDERRUN_COUNT (i : Nat) : Nat := 0xA004C + 0x2000 * i
abbrev HD_UNDERRUN_LAST (i : Nat) : Nat := 0xA0050 + 0x2000 * i
abbrev HD_REPEAT_COUNT (i : Nat) : Nat := 0xA0054 + 0x2000 * i
abbrev HD_LATE_COUNT (i : Nat) : Nat := 0xA0058 + 0x2000 * i
abbrev HD_GENLOCK (i : Nat) : Nat := 0xA0060 + 0x2000 * i
abbrev HD_GENLOCK_PHASE (i : Nat) : Nat := 0xA0064 + 0x2000 * i
abbrev HD_GENLOCK_STATUS (i : Nat) : Nat := 0xA0068 + 0x2000 * i
abbrev HD_LINK_CFG (i : Nat) : Nat := 0xA0080 + 0x2000 * i
abbrev HD_DSC_CFG (i : Nat) : Nat := 0xA0084 + 0x2000 * i
abbrev HD_LINK_STATUS (i : Nat) : Nat := 0xA0088 + 0x2000 * i
abbrev HD_LINK_LAT (i : Nat) : Nat := 0xA008C + 0x2000 * i
abbrev HD_LINK_RETRAINS (i : Nat) : Nat := 0xA0090 + 0x2000 * i
abbrev HD_PANEL_CFG (i : Nat) : Nat := 0xA00A0 + 0x2000 * i
abbrev HD_PANEL_CTRL (i : Nat) : Nat := 0xA00A4 + 0x2000 * i
abbrev HD_PANEL_STATUS (i : Nat) : Nat := 0xA00A8 + 0x2000 * i
abbrev HD_AUX_CMD (i : Nat) : Nat := 0xA00C0 + 0x2000 * i
abbrev HD_AUX_ADDR (i : Nat) : Nat := 0xA00C4 + 0x2000 * i
abbrev HD_AUX_STATUS (i : Nat) : Nat := 0xA00C8 + 0x2000 * i
abbrev HD_AUX_DATA (i : Nat) (j : Nat) : Nat := 0xA00D0 + 0x2000 * i + 0x4 * j
abbrev HD_LATCH_GUARD_ACT (i : Nat) : Nat := 0xA0120 + 0x2000 * i
abbrev HD_UNDERRUN_COLOUR_ACT (i : Nat) : Nat := 0xA0128 + 0x2000 * i
abbrev HD_BL_PWM_ACT (i : Nat) : Nat := 0xA012C + 0x2000 * i
abbrev HD_DSC_PPS (i : Nat) (j : Nat) : Nat := 0xA0400 + 0x2000 * i + 0x4 * j
abbrev HD_U_EVENT (i : Nat) (j : Nat) : Nat := 0x10000100 + 0x10000 * i + 0x20 * j
abbrev HD_U_EVENT_EN (i : Nat) (j : Nat) : Nat := 0x10000104 + 0x10000 * i + 0x20 * j
abbrev HD_U_FRAME (i : Nat) (j : Nat) : Nat := 0x10000108 + 0x10000 * i + 0x20 * j
abbrev HD_U_GAIT (i : Nat) (j : Nat) : Nat := 0x1000010C + 0x10000 * i + 0x20 * j
abbrev HD_U_FRAME_TIME_LO (i : Nat) (j : Nat) : Nat := 0x10000110 + 0x10000 * i + 0x20 * j
abbrev HD_U_FRAME_TIME_HI (i : Nat) (j : Nat) : Nat := 0x10000114 + 0x10000 * i + 0x20 * j
abbrev HD_U_LATCH_TIME_LO (i : Nat) (j : Nat) : Nat := 0x10000118 + 0x10000 * i + 0x20 * j
abbrev HD_U_LATCH_TIME_HI (i : Nat) (j : Nat) : Nat := 0x1000011C + 0x10000 * i + 0x20 * j
abbrev IM_EVENT : Nat := 0x30000
abbrev IM_EVENT_EN : Nat := 0x30004
abbrev IM_HEADS : Nat := 0x30008
abbrev IM_STATUS (i : Nat) : Nat := 0x31000 + 0x800 * i
abbrev IM_CLEAR (i : Nat) : Nat := 0x31004 + 0x800 * i
abbrev IM_S_CFG (i : Nat) : Nat := 0x31008 + 0x800 * i
abbrev IM_OWNER (i : Nat) : Nat := 0x3100C + 0x800 * i
abbrev IM_S_SIG (i : Nat) : Nat := 0x31010 + 0x800 * i
abbrev IM_S_ALIVE (i : Nat) : Nat := 0x31014 + 0x800 * i
abbrev IM_S_FETCH_SIG (i : Nat) : Nat := 0x31018 + 0x800 * i
abbrev IM_S_HEAD_SIG (i : Nat) : Nat := 0x3101C + 0x800 * i
abbrev IM_S_FB (i : Nat) : Nat := 0x31020 + 0x800 * i
abbrev IM_S_FB_XY (i : Nat) : Nat := 0x31024 + 0x800 * i
abbrev IM_S_FB_WH (i : Nat) : Nat := 0x31028 + 0x800 * i
abbrev IM_S_FB_SIG (i : Nat) : Nat := 0x3102C + 0x800 * i
abbrev IM_FAIL_COUNT (i : Nat) : Nat := 0x31030 + 0x800 * i
abbrev IM_S_SIG_ACT (i : Nat) : Nat := 0x31110 + 0x800 * i
abbrev IM_S_ALIVE_ACT (i : Nat) : Nat := 0x31114 + 0x800 * i
abbrev IM_R_CTRL (i : Nat) (j : Nat) : Nat := 0x31200 + 0x800 * i + 0x20 * j
abbrev IM_R_XY (i : Nat) (j : Nat) : Nat := 0x31204 + 0x800 * i + 0x20 * j
abbrev IM_R_WH (i : Nat) (j : Nat) : Nat := 0x31208 + 0x800 * i + 0x20 * j
abbrev IM_R_REF (i : Nat) (j : Nat) : Nat := 0x3120C + 0x800 * i + 0x20 * j
abbrev IM_R_SIG (i : Nat) (j : Nat) : Nat := 0x31210 + 0x800 * i + 0x20 * j
abbrev IM_R_FRAME (i : Nat) (j : Nat) : Nat := 0x31214 + 0x800 * i + 0x20 * j
abbrev IM_R_FB (i : Nat) (j : Nat) : Nat := 0x31218 + 0x800 * i + 0x20 * j
abbrev IM_R_FB_SIG (i : Nat) (j : Nat) : Nat := 0x3121C + 0x800 * i + 0x20 * j
abbrev IM_R_CTRL_ACT (i : Nat) (j : Nat) : Nat := 0x31400 + 0x800 * i + 0x20 * j
abbrev IM_R_XY_ACT (i : Nat) (j : Nat) : Nat := 0x31404 + 0x800 * i + 0x20 * j
abbrev IM_R_WH_ACT (i : Nat) (j : Nat) : Nat := 0x31408 + 0x800 * i + 0x20 * j
abbrev IM_R_REF_ACT (i : Nat) (j : Nat) : Nat := 0x3140C + 0x800 * i + 0x20 * j
abbrev IM_U_R_CTRL (i : Nat) (j : Nat) (k : Nat) : Nat := 0x10007000 + 0x10000 * i + 0x100 * j + 0x10 * k
abbrev IM_U_R_XY (i : Nat) (j : Nat) (k : Nat) : Nat := 0x10007004 + 0x10000 * i + 0x100 * j + 0x10 * k
abbrev IM_U_R_WH (i : Nat) (j : Nat) (k : Nat) : Nat := 0x10007008 + 0x10000 * i + 0x100 * j + 0x10 * k
abbrev IM_U_R_REF (i : Nat) (j : Nat) (k : Nat) : Nat := 0x1000700C + 0x10000 * i + 0x100 * j + 0x10 * k
abbrev IM_U_S_SIG (i : Nat) (j : Nat) : Nat := 0x10007800 + 0x10000 * i + 0x20 * j
abbrev IM_U_S_ALIVE (i : Nat) (j : Nat) : Nat := 0x10007804 + 0x10000 * i + 0x20 * j
abbrev IM_U_STATUS (i : Nat) (j : Nat) : Nat := 0x10007808 + 0x10000 * i + 0x20 * j
abbrev IM_U_EVENT (i : Nat) (j : Nat) : Nat := 0x1000780C + 0x10000 * i + 0x20 * j
abbrev IM_U_EVENT_EN (i : Nat) (j : Nat) : Nat := 0x10007810 + 0x10000 * i + 0x20 * j
abbrev CVU_CTRL (i : Nat) : Nat := 0x38000 + 0x400 * i
abbrev CVU_U_CTRL (i : Nat) (j : Nat) : Nat := 0x10008000 + 0x10000 * i + 0x400 * j
abbrev S_CVU_CTRL (i : Nat) : Nat := 0x20008000 + 0x400 * i
abbrev CVU_STATUS (i : Nat) : Nat := 0x38004 + 0x400 * i
abbrev CVU_U_STATUS (i : Nat) (j : Nat) : Nat := 0x10008004 + 0x10000 * i + 0x400 * j
abbrev S_CVU_STATUS (i : Nat) : Nat := 0x20008004 + 0x400 * i
abbrev CVU_U_INIT (i : Nat) (j : Nat) : Nat := 0x10008008 + 0x10000 * i + 0x400 * j
abbrev S_CVU_INIT (i : Nat) : Nat := 0x20008008 + 0x400 * i
abbrev CVU_U_DATA (i : Nat) (j : Nat) : Nat := 0x1000800C + 0x10000 * i + 0x400 * j
abbrev S_CVU_DATA (i : Nat) : Nat := 0x2000800C + 0x400 * i
abbrev CVU_U_DATA_B (i : Nat) (j : Nat) : Nat := 0x10008010 + 0x10000 * i + 0x400 * j
abbrev S_CVU_DATA_B (i : Nat) : Nat := 0x20008010 + 0x400 * i
abbrev CVU_ALIVE (i : Nat) : Nat := 0x38014 + 0x400 * i
abbrev CVU_U_ALIVE (i : Nat) (j : Nat) : Nat := 0x10008014 + 0x10000 * i + 0x400 * j
abbrev S_CVU_ALIVE (i : Nat) : Nat := 0x20008014 + 0x400 * i
abbrev CVU_PERIOD (i : Nat) : Nat := 0x38018 + 0x400 * i
abbrev CVU_U_PERIOD (i : Nat) (j : Nat) : Nat := 0x10008018 + 0x10000 * i + 0x400 * j
abbrev S_CVU_PERIOD (i : Nat) : Nat := 0x20008018 + 0x400 * i
abbrev CVU_RUNNING_LO (i : Nat) : Nat := 0x38020 + 0x400 * i
abbrev CVU_U_RUNNING_LO (i : Nat) (j : Nat) : Nat := 0x10008020 + 0x10000 * i + 0x400 * j
abbrev S_CVU_RUNNING_LO (i : Nat) : Nat := 0x20008020 + 0x400 * i
abbrev CVU_RUNNING_HI (i : Nat) : Nat := 0x38024 + 0x400 * i
abbrev CVU_U_RUNNING_HI (i : Nat) (j : Nat) : Nat := 0x10008024 + 0x10000 * i + 0x400 * j
abbrev S_CVU_RUNNING_HI (i : Nat) : Nat := 0x20008024 + 0x400 * i
abbrev CVU_RESULT_LO (i : Nat) : Nat := 0x38028 + 0x400 * i
abbrev CVU_U_RESULT_LO (i : Nat) (j : Nat) : Nat := 0x10008028 + 0x10000 * i + 0x400 * j
abbrev S_CVU_RESULT_LO (i : Nat) : Nat := 0x20008028 + 0x400 * i
abbrev CVU_RESULT_HI (i : Nat) : Nat := 0x3802C + 0x400 * i
abbrev CVU_U_RESULT_HI (i : Nat) (j : Nat) : Nat := 0x1000802C + 0x10000 * i + 0x400 * j
abbrev S_CVU_RESULT_HI (i : Nat) : Nat := 0x2000802C + 0x400 * i
abbrev CVU_COUNT_LO (i : Nat) : Nat := 0x38030 + 0x400 * i
abbrev CVU_U_COUNT_LO (i : Nat) (j : Nat) : Nat := 0x10008030 + 0x10000 * i + 0x400 * j
abbrev S_CVU_COUNT_LO (i : Nat) : Nat := 0x20008030 + 0x400 * i
abbrev CVU_COUNT_HI (i : Nat) : Nat := 0x38034 + 0x400 * i
abbrev CVU_U_COUNT_HI (i : Nat) (j : Nat) : Nat := 0x10008034 + 0x10000 * i + 0x400 * j
abbrev S_CVU_COUNT_HI (i : Nat) : Nat := 0x20008034 + 0x400 * i
abbrev LO_CTRL : Nat := 0xC0000
abbrev LO_CFG : Nat := 0xC0004
abbrev LO_STATUS : Nat := 0xC0008
abbrev LO_EVENT : Nat := 0xC000C
abbrev LO_EVENT_EN : Nat := 0xC0010
abbrev LO_LAYOUT : Nat := 0xC0014
abbrev LO_EMIT : Nat := 0xC0018
abbrev LO_COMMIT : Nat := 0xC0020
abbrev LO_COMMIT_TIME_LO : Nat := 0xC0024
abbrev LO_COMMIT_TIME_HI : Nat := 0xC0028
abbrev LO_COMMIT_STATUS : Nat := 0xC002C
abbrev LO_FRAME : Nat := 0xC0030
abbrev LO_FRAME_TIME_LO : Nat := 0xC0034
abbrev LO_FRAME_TIME_HI : Nat := 0xC0038
abbrev LO_MERGE_LAT : Nat := 0xC003C
abbrev LO_LOAD_CMD : Nat := 0xC0040
abbrev LO_LOAD_FIRST : Nat := 0xC0044
abbrev LO_LOAD_COUNT : Nat := 0xC0048
abbrev LO_LOAD_SRC_LO : Nat := 0xC004C
abbrev LO_LOAD_SRC_HI : Nat := 0xC0050
abbrev LO_LOAD_STATUS : Nat := 0xC0054
abbrev LO_TX_CFG : Nat := 0xC0060
abbrev LO_RX_CFG : Nat := 0xC0064
abbrev LO_TX_PACKETS : Nat := 0xC0068
abbrev LO_TX_DROPPED : Nat := 0xC006C
abbrev LO_CID (i : Nat) : Nat := 0xC0070 + 0x4 * i
abbrev LO_NAME (i : Nat) : Nat := 0xC0080 + 0x4 * i
abbrev LO_DEST (i : Nat) : Nat := 0xC00C0 + 0x4 * i
abbrev LO_EMIT_ACT : Nat := 0xC0118
abbrev LO_SRC_CFG (i : Nat) : Nat := 0xC0200 + 0x10 * i
abbrev LO_SRC_STATUS (i : Nat) : Nat := 0xC0204 + 0x10 * i
abbrev LO_SRC_CFG_ACT (i : Nat) : Nat := 0xC0300 + 0x10 * i
abbrev LO_DMX_CFG (i : Nat) : Nat := 0xC0400 + 0x20 * i
abbrev LO_DMX_TIME (i : Nat) : Nat := 0xC0404 + 0x20 * i
abbrev LO_DMX_STATUS (i : Nat) : Nat := 0xC0408 + 0x20 * i
abbrev LO_RX_STATUS (i : Nat) : Nat := 0xC0600 + 0x4 * i
abbrev NET_CTRL : Nat := 0xD0000
abbrev NET_CFG : Nat := 0xD0004
abbrev NET_EVENT : Nat := 0xD0008
abbrev NET_EVENT_EN : Nat := 0xD000C
abbrev NET_PTP_CFG : Nat := 0xD0200
abbrev NET_PTP_DS : Nat := 0xD0204
abbrev NET_PTP_STATUS : Nat := 0xD0208
abbrev NET_PTP_OFFSET : Nat := 0xD020C
abbrev NET_PTP_DELAY : Nat := 0xD0210
abbrev NET_PTP_LEADER_LO : Nat := 0xD0214
abbrev NET_PTP_LEADER_HI : Nat := 0xD0218
abbrev STM_TIME_LO : Nat := 0xD8000
abbrev STM_TIME_HI : Nat := 0xD8004
abbrev STM_OFS_LO : Nat := 0xD8008
abbrev STM_OFS_HI : Nat := 0xD800C
abbrev STM_STATUS : Nat := 0xD8010
abbrev STM_CFG : Nat := 0xD8014
abbrev STM_PPS : Nat := 0xD8018
abbrev NETP_CFG (i : Nat) : Nat := 0xD0100 + 0x80 * i
abbrev NETP_MAC_LO (i : Nat) : Nat := 0xD0104 + 0x80 * i
abbrev NETP_MAC_HI (i : Nat) : Nat := 0xD0108 + 0x80 * i
abbrev NETP_IP (i : Nat) : Nat := 0xD010C + 0x80 * i
abbrev NETP_PREFIX (i : Nat) : Nat := 0xD0110 + 0x80 * i
abbrev NETP_GW (i : Nat) : Nat := 0xD0114 + 0x80 * i
abbrev NETP_STATUS (i : Nat) : Nat := 0xD0118 + 0x80 * i
abbrev NETP_I2C (i : Nat) : Nat := 0xD011C + 0x80 * i
abbrev NETP_RX_FRAMES (i : Nat) : Nat := 0xD0120 + 0x80 * i
abbrev NETP_RX_DISCARDS (i : Nat) : Nat := 0xD0124 + 0x80 * i
abbrev NETP_RX_ERRORS (i : Nat) : Nat := 0xD0128 + 0x80 * i
abbrev NETP_TX_FRAMES (i : Nat) : Nat := 0xD012C + 0x80 * i
abbrev NETP_TX_DROPPED (i : Nat) : Nat := 0xD0130 + 0x80 * i
abbrev NETP_ASYM (i : Nat) : Nat := 0xD0134 + 0x80 * i
abbrev NET_AES_TX_CFG (i : Nat) : Nat := 0xD0400 + 0x20 * i
abbrev NET_AES_TX_DEST (i : Nat) : Nat := 0xD0404 + 0x20 * i
abbrev NET_AES_TX_STATUS (i : Nat) : Nat := 0xD0408 + 0x20 * i
abbrev NET_AES_RX_CFG (i : Nat) : Nat := 0xD0600 + 0x20 * i
abbrev NET_AES_RX_GROUP (i : Nat) : Nat := 0xD0604 + 0x20 * i
abbrev NET_AES_RX_STATUS (i : Nat) : Nat := 0xD0608 + 0x20 * i
abbrev NET_AES_RX_DELAY (i : Nat) : Nat := 0xD060C + 0x20 * i
abbrev TCH_CTRL : Nat := 0xE0000
abbrev TCH_STATUS : Nat := 0xE0004
abbrev TCH_EVENT : Nat := 0xE0008
abbrev TCH_EVENT_EN : Nat := 0xE000C
abbrev TCH_SCAN : Nat := 0xE0010
abbrev TCH_AMP : Nat := 0xE0014
abbrev TCH_STUCK_TIMEOUT : Nat := 0xE0018
abbrev TCH_NEG_THRESH : Nat := 0xE001C
abbrev TCH_HOP : Nat := 0xE0020
abbrev TCH_COMMIT : Nat := 0xE0024
abbrev TCH_COMMIT_STATUS : Nat := 0xE0028
abbrev TCH_FRAME : Nat := 0xE002C
abbrev TCH_GRAZE : Nat := 0xE0030
abbrev TCH_GRAZE_ZONE : Nat := 0xE0034
abbrev TCH_PK_STATE : Nat := 0xE0038
abbrev TCH_PK_LONG : Nat := 0xE003C
abbrev TCH_CS_BASE : Nat := 0xE0400
abbrev TCH_CS_CFG : Nat := 0xE0404
abbrev TCH_CS_STATUS : Nat := 0xE0408
abbrev TCH_CS_NOISE : Nat := 0xE040C
abbrev TCH_STUCK_TIMEOUT_ACT : Nat := 0xE0118
abbrev TCH_NEG_THRESH_ACT : Nat := 0xE011C
abbrev TCH_HOP_ACT : Nat := 0xE0120
abbrev TCH_F_LINES (i : Nat) : Nat := 0xE0200 + 0x20 * i
abbrev TCH_F_CFG (i : Nat) : Nat := 0xE0204 + 0x20 * i
abbrev TCH_F_THRESH (i : Nat) : Nat := 0xE0208 + 0x20 * i
abbrev TCH_F_MAP (i : Nat) : Nat := 0xE020C + 0x20 * i
abbrev TCH_F_STATUS (i : Nat) : Nat := 0xE0210 + 0x20 * i
abbrev TCH_F_NOISE (i : Nat) : Nat := 0xE0214 + 0x20 * i
abbrev TCH_F_BASE (i : Nat) : Nat := 0xE0218 + 0x20 * i
abbrev TCH_F_THRESH_ACT (i : Nat) : Nat := 0xE0308 + 0x20 * i
abbrev TCH_F_MAP_ACT (i : Nat) : Nat := 0xE030C + 0x20 * i
abbrev TCH_CTL_CFG (i : Nat) : Nat := 0xE1000 + 0x10 * i
abbrev TCH_CTL_THRESH (i : Nat) : Nat := 0xE1004 + 0x10 * i
abbrev TCH_CTL_KEY (i : Nat) : Nat := 0xE1008 + 0x10 * i
abbrev TCH_CTL_ACT (i : Nat) : Nat := 0xE100C + 0x10 * i
abbrev TCH_CTL_THRESH_ACT (i : Nat) : Nat := 0xE2004 + 0x10 * i
abbrev TCH_CTL_KEY_ACT (i : Nat) : Nat := 0xE2008 + 0x10 * i
abbrev TCH_CTL_ACT_ACT (i : Nat) : Nat := 0xE200C + 0x10 * i
abbrev TCH_U_REPORT (i : Nat) : Nat := 0x10000200 + 0x10000 * i
abbrev TCH_U_STATUS (i : Nat) : Nat := 0x10000204 + 0x10000 * i
abbrev TCH_U_RESYNC (i : Nat) : Nat := 0x10000208 + 0x10000 * i
abbrev TCH_U_PK_STATE (i : Nat) : Nat := 0x1000020C + 0x10000 * i
abbrev HAP_CTRL : Nat := 0xF0000
abbrev HAP_STATUS : Nat := 0xF0004
abbrev HAP_EVENT : Nat := 0xF0008
abbrev HAP_EVENT_EN : Nat := 0xF000C
abbrev HAP_COMMIT : Nat := 0xF0010
abbrev HAP_COMMIT_STATUS : Nat := 0xF0014
abbrev HAP_LIB : Nat := 0xF0018
abbrev HAP_SPUR_CFG (i : Nat) : Nat := 0xF0020 + 0x4 * i
abbrev HAPC_CTRL (i : Nat) : Nat := 0xF0100 + 0x40 * i
abbrev HAPC_STATUS (i : Nat) : Nat := 0xF0104 + 0x40 * i
abbrev HAPC_CFG (i : Nat) : Nat := 0xF0108 + 0x40 * i
abbrev HAPC_LOOP (i : Nat) : Nat := 0xF010C + 0x40 * i
abbrev HAPC_DRIVE (i : Nat) : Nat := 0xF0110 + 0x40 * i
abbrev HAPC_LIMIT (i : Nat) : Nat := 0xF0114 + 0x40 * i
abbrev HAPC_SETTLE (i : Nat) : Nat := 0xF0118 + 0x40 * i
abbrev HAPC_ACC (i : Nat) : Nat := 0xF011C + 0x40 * i
abbrev HAPC_COUNT (i : Nat) : Nat := 0xF0120 + 0x40 * i
abbrev HAPC_CFG_ACT (i : Nat) : Nat := 0xF1108 + 0x40 * i
abbrev HAPC_LOOP_ACT (i : Nat) : Nat := 0xF110C + 0x40 * i
abbrev HAPC_LIMIT_ACT (i : Nat) : Nat := 0xF1114 + 0x40 * i
abbrev HAPC_SETTLE_ACT (i : Nat) : Nat := 0xF1118 + 0x40 * i
abbrev AUD_CTRL : Nat := 0x100000
abbrev AUD_CFG : Nat := 0x100004
abbrev AUD_STATUS : Nat := 0x100008
abbrev AUD_EVENT : Nat := 0x10000C
abbrev AUD_EVENT_EN : Nat := 0x100010
abbrev AUD_COMMIT : Nat := 0x100014
abbrev AUD_COMMIT_TIME_LO : Nat := 0x100018
abbrev AUD_COMMIT_TIME_HI : Nat := 0x10001C
abbrev AUD_COMMIT_STATUS : Nat := 0x100020
abbrev AUD_BLOCK : Nat := 0x100024
abbrev AUD_BLOCK_TIME_LO : Nat := 0x100028
abbrev AUD_BLOCK_TIME_HI : Nat := 0x10002C
abbrev AUD_XP_ADDR : Nat := 0x100030
abbrev AUD_XP_DATA : Nat := 0x100034
abbrev AUD_METER_CFG : Nat := 0x100038
abbrev AUD_UNDERRUNS : Nat := 0x10003C
abbrev AUD_ALARM_LO : Nat := 0x100040
abbrev AUD_ALARM_HI : Nat := 0x100044
abbrev AUD_TDM_CFG (i : Nat) : Nat := 0x100200 + 0x10 * i
abbrev AUD_TDM_STATUS (i : Nat) : Nat := 0x100204 + 0x10 * i
abbrev AUD_IN_CFG (i : Nat) : Nat := 0x101000 + 0x10 * i
abbrev AUD_IN_METER (i : Nat) : Nat := 0x101004 + 0x10 * i
abbrev AUD_IN_HOLD (i : Nat) : Nat := 0x101008 + 0x10 * i
abbrev AUD_BUS_CFG (i : Nat) : Nat := 0x102000 + 0x10 * i
abbrev AUD_BUS_METER (i : Nat) : Nat := 0x102004 + 0x10 * i
abbrev AUD_BUS_HOLD (i : Nat) : Nat := 0x102008 + 0x10 * i
abbrev AUD_BUS_STATUS (i : Nat) : Nat := 0x10200C + 0x10 * i
abbrev AUD_SINK (i : Nat) : Nat := 0x103000 + 0x4 * i
abbrev AUD_VOICE_CFG (i : Nat) : Nat := 0x104000 + 0x10 * i
abbrev AUD_VOICE_CTRL (i : Nat) : Nat := 0x104004 + 0x10 * i
abbrev AUD_VOICE_STATUS (i : Nat) : Nat := 0x104008 + 0x10 * i
abbrev AUD_IN_CFG_ACT (i : Nat) : Nat := 0x109000 + 0x10 * i
abbrev AUD_BUS_CFG_ACT (i : Nat) : Nat := 0x10A000 + 0x10 * i
abbrev AUD_SINK_ACT (i : Nat) : Nat := 0x10B000 + 0x4 * i
abbrev AUD_VOICE_CFG_ACT (i : Nat) : Nat := 0x10C000 + 0x10 * i
abbrev EVR_CTRL : Nat := 0x20000
abbrev EVR_CFG : Nat := 0x20004
abbrev EVR_STATUS : Nat := 0x20008
abbrev EVR_EVENT : Nat := 0x2000C
abbrev EVR_EVENT_EN : Nat := 0x20010
abbrev EVR_THRESH : Nat := 0x20014
abbrev EVR_ACK : Nat := 0x20018
abbrev EVR_WIN : Nat := 0x2001C
abbrev EVR_NEXT_LO : Nat := 0x20020
abbrev EVR_NEXT_HI : Nat := 0x20024
abbrev EVR_OLDEST_LO : Nat := 0x20028
abbrev EVR_OLDEST_HI : Nat := 0x2002C
abbrev EVR_BASE_LO : Nat := 0x20030
abbrev EVR_BASE_HI : Nat := 0x20034
abbrev EVR_DROPPED : Nat := 0x20038
abbrev EVR_SEC_NEXT : Nat := 0x2003C
abbrev EVR_U_CFG (i : Nat) : Nat := 0x1000C000 + 0x10000 * i
abbrev EVR_U_STATUS (i : Nat) : Nat := 0x1000C004 + 0x10000 * i
abbrev EVR_U_WIN (i : Nat) : Nat := 0x1000C008 + 0x10000 * i
abbrev EVR_U_NEXT_LO (i : Nat) : Nat := 0x1000C010 + 0x10000 * i
abbrev EVR_U_NEXT_HI (i : Nat) : Nat := 0x1000C014 + 0x10000 * i
abbrev EVR_U_OLDEST_LO (i : Nat) : Nat := 0x1000C018 + 0x10000 * i
abbrev EVR_U_OLDEST_HI (i : Nat) : Nat := 0x1000C01C + 0x10000 * i
abbrev EVR_U_BASE_LO (i : Nat) : Nat := 0x1000C020 + 0x10000 * i
abbrev EVR_U_BASE_HI (i : Nat) : Nat := 0x1000C024 + 0x10000 * i
abbrev PCR_REQ : Nat := 0x10000
abbrev PCR_STATUS : Nat := 0x10004
abbrev PCR_EVENT : Nat := 0x10008
abbrev PCR_EVENT_EN : Nat := 0x1000C
abbrev PCR_CFG : Nat := 0x10010
abbrev PCR_DELAY_MAX : Nat := 0x10014
abbrev PCR_JET_POINT : Nat := 0x10018
abbrev PCR_JET_STATE : Nat := 0x1001C
abbrev PCR_CORE : Nat := 0x10020
abbrev PCR_THERMAL : Nat := 0x10024
abbrev PCR_TEMP : Nat := 0x10028
abbrev PCR_GATE : Nat := 0x1002C
abbrev PCR_DENIED : Nat := 0x10030
abbrev PCR_AVS_CFG : Nat := 0x10034
abbrev PCR_AVS_STATUS : Nat := 0x10038
abbrev PCR_WAKE_CFG : Nat := 0x1003C
abbrev PCR_WAKE_INFO : Nat := 0x10040
abbrev PCR_STABLED_TIMER : Nat := 0x10044
abbrev PCR_RESET : Nat := 0x10048

end Sys2Proof.Reg

namespace Sys2Proof.Machine

/-- One row of the register map: a register or an array of them (base, strides and counts), the bits of each access code of
Table 0.4 (`roi` are RO bits whose reset column reads Image, which Wellhead may set, R80) and the reset word (R13). -/
structure RegRow where
  name : String
  base : Nat
  dims : List (Nat × Nat)
  rw : Nat := 0
  rl : Nat := 0
  img : Nat := 0
  w1c : Nat := 0
  rs : Nat := 0
  wo : Nat := 0
  ro : Nat := 0
  roi : Nat := 0
  rst : Nat := 0
  /-- The low half of a read-only 64-bit quantity; its high half stands 4 above (R9). -/
  pair : Bool := false
  deriving DecidableEq, Repr

/-- Rows of the registers of chapter 1. -/
def regRows01_0 : List RegRow := [
  { name := "SYS_STATE", base := 0x10, dims := [], ro := 0xFF0707, rst := 0x1 }]

/-- Rows of the registers of chapter 3. -/
def regRows03_0 : List RegRow := [
  { name := "WH_STATUS", base := 0x110000, dims := [], ro := 0xF0F, rst := 0x3 },
  { name := "WH_FAIL_A", base := 0x110004, dims := [], ro := 0xFFFFFFFF, rst := 0xFF00 },
  { name := "WH_FAIL_B", base := 0x110008, dims := [], ro := 0xFFFFFFFF, rst := 0xFF00 },
  { name := "WH_SLOT", base := 0x11000C, dims := [], ro := 0x10FF1 },
  { name := "WH_IMAGE_VER", base := 0x110010, dims := [], ro := 0xFFFFFFFF },
  { name := "WH_SEC_VER", base := 0x110014, dims := [], ro := 0x1FFFF },
  { name := "WH_LOAD_TIME", base := 0x110018, dims := [], ro := 0xFFFF },
  { name := "WH_CONFIRM", base := 0x110020, dims := [], wo := 0xFFFF },
  { name := "WH_FLASH_CMD", base := 0x110080, dims := [], rw := 0xF },
  { name := "WH_FLASH_ADDR", base := 0x110084, dims := [], rw := 0xFFFFFFFF },
  { name := "WH_FLASH_LEN", base := 0x110088, dims := [], rw := 0x1FF },
  { name := "WH_FLASH_STATUS", base := 0x11008C, dims := [], w1c := 0x6, ro := 0xFFFF01 },
  { name := "WH_MEASURE", base := 0x110040, dims := [(0x4, 12)], ro := 0xFFFFFFFF },
  { name := "WH_FLASH_BUF", base := 0x110100, dims := [(0x4, 64)], rw := 0xFFFFFFFF }]

/-- Rows of the registers of chapter 4. -/
def regRows04_0 : List RegRow := [
  { name := "SYS_SECREQ_CMD", base := 0x200, dims := [], rw := 0xFBF0F },
  { name := "SYS_SECREQ_FIRST", base := 0x204, dims := [], rw := 0x1FFFFF },
  { name := "SYS_SECREQ_COUNT", base := 0x208, dims := [], rw := 0x7FFF },
  { name := "SYS_SECREQ_STATUS", base := 0x20C, dims := [], w1c := 0x6, ro := 0xFF01 },
  { name := "SYS_SECREQ_DATA", base := 0x220, dims := [(0x4, 12)], wo := 0xFFFFFFFF },
  { name := "SEC_STATUS", base := 0x120000, dims := [], ro := 0xF },
  { name := "SEC_CLAIM", base := 0x120004, dims := [], ro := 0xFFFF, roi := 0xFFFF },
  { name := "SEC_CVU_MASK", base := 0x120008, dims := [], ro := 0xFFFF, roi := 0xFFFF },
  { name := "SEC_WDT_PERIOD", base := 0x120010, dims := [], ro := 0x3FF, roi := 0x3FF },
  { name := "SEC_WDT_STATUS", base := 0x120018, dims := [], ro := 0x103FF },
  { name := "SEC_RESET_INFO", base := 0x12001C, dims := [], ro := 0x3 },
  { name := "SEC_OTP_STATUS", base := 0x120020, dims := [], ro := 0x77F0FF },
  { name := "SEC_ANCHOR", base := 0x120040, dims := [(0x4, 12)], ro := 0xFFFFFFFF },
  { name := "SEC_SHARE_LO", base := 0x120088, dims := [(0x8, 15)], ro := 0xFFFFFFFF, roi := 0xFFFFFFFF, pair := true },
  { name := "SEC_SHARE_HI", base := 0x12008C, dims := [(0x8, 15)], ro := 0xFFFFFFFF, roi := 0xFFFFFFFF },
  { name := "S_SEC_STATUS", base := 0x20000000, dims := [], ro := 0xF },
  { name := "S_SEC_CLAIM", base := 0x20000004, dims := [], rw := 0xFFFF },
  { name := "S_SEC_CVU_MASK", base := 0x20000008, dims := [], rl := 0xFFFF },
  { name := "S_SEC_WDT_PERIOD", base := 0x20000010, dims := [], rl := 0x3FF },
  { name := "S_SEC_WDT_KICK", base := 0x20000014, dims := [], wo := 0xFFFFFFFF },
  { name := "S_SEC_WDT_STATUS", base := 0x20000018, dims := [], ro := 0x103FF },
  { name := "S_SEC_RESET_INFO", base := 0x2000001C, dims := [], ro := 0x3 },
  { name := "S_SEC_OTP_STATUS", base := 0x20000020, dims := [], ro := 0x77F0FF },
  { name := "S_SEC_ANCHOR", base := 0x20000040, dims := [(0x4, 12)], ro := 0xFFFFFFFF },
  { name := "S_SEC_SHARE_LO", base := 0x20000088, dims := [(0x8, 15)], rl := 0xFFFFFFFF },
  { name := "S_SEC_SHARE_HI", base := 0x2000008C, dims := [(0x8, 15)], rl := 0xFFFFFFFF }]

/-- Rows of the registers of chapter 5. -/
def regRows05_0 : List RegRow := [
  { name := "HP_LINK", base := 0x40000, dims := [(0x10, 4)], ro := 0x9F77 },
  { name := "HP_ERR", base := 0x40004, dims := [(0x10, 4)], w1c := 0x3F },
  { name := "HP_DOWN_COUNT", base := 0x40008, dims := [(0x10, 4)], ro := 0xFFFF },
  { name := "PDK_MANAGER", base := 0x40100, dims := [], ro := 0xBF3F, roi := 0xBF3F },
  { name := "PDK_CMD", base := 0x40110, dims := [], rw := 0xF3F0F },
  { name := "PDK_CMD_ARG", base := 0x40114, dims := [], rw := 0xFFFFFFFF },
  { name := "PDK_CMD_STATUS", base := 0x40118, dims := [], w1c := 0x6, ro := 0xFF01 },
  { name := "PDK_STATE", base := 0x42000, dims := [(0x40, 64)], ro := 0x7FFFF77 },
  { name := "PDK_LIMIT", base := 0x42004, dims := [(0x40, 64)], ro := 0x1FFF07FF, roi := 0x1FFF07FF },
  { name := "PDK_MISC", base := 0x42008, dims := [(0x40, 64)], ro := 0x1FFFFFF, roi := 0x1FFFFFF },
  { name := "PDK_LAYERS", base := 0x4200C, dims := [(0x40, 64), (0x4, 5)], ro := 0xFFFFFFFF, roi := 0xFFFFFFFF },
  { name := "PDK_CTRL", base := 0x42020, dims := [(0x40, 64), (0x4, 8)], ro := 0xFFFFFFFF, roi := 0xFFFFFFFF },
  { name := "PDK_U_ID", base := 0x10000000, dims := [(0x10000, 64)], ro := 0xF0003FFF, roi := 0x3FFF },
  { name := "PDK_U_STATE", base := 0x10000004, dims := [(0x10000, 64)], ro := 0x7FFFF07 },
  { name := "PDK_U_CAUSE", base := 0x10000008, dims := [(0x10000, 64)], w1c := 0x3 },
  { name := "PDK_U_QUIESCE", base := 0x1000000C, dims := [(0x10000, 64)], wo := 0xFFFFFFFF },
  { name := "PDK_U_LAYERS", base := 0x10000010, dims := [(0x10000, 64), (0x4, 5)], ro := 0xFFFFFFFF },
  { name := "PDK_U_MISC", base := 0x10000024, dims := [(0x10000, 64)], ro := 0xFFFFFFFF },
  { name := "PDK_U_CTRL", base := 0x10000030, dims := [(0x10000, 64), (0x4, 8)], ro := 0xFFFFFFFF },
  { name := "MSIX_TABLE", base := 0x10000800, dims := [(0x10000, 64), (0x4, 128)], rw := 0xFFFFFFFF },
  { name := "MSIX_PBA", base := 0x10000A00, dims := [(0x10000, 64)], ro := 0xFFFFFFFF }]

/-- Rows of the registers of chapter 6. -/
def regRows06_0 : List RegRow := [
  { name := "CQ_U_DB_TAIL", base := 0x10001000, dims := [(0x10000, 64), (0x8, 256)], wo := 0xFFFF },
  { name := "CQ_U_DB_CMD", base := 0x10001004, dims := [(0x10000, 64), (0x8, 256)], wo := 0xF },
  { name := "CQ_U_SQ_BASE_LO", base := 0x10002000, dims := [(0x10000, 64), (0x20, 256)], rl := 0xFFFFFFFF },
  { name := "CQ_U_SQ_BASE_HI", base := 0x10002004, dims := [(0x10000, 64), (0x20, 256)], rl := 0xFFFFFFFF },
  { name := "CQ_U_CQ_BASE_LO", base := 0x10002008, dims := [(0x10000, 64), (0x20, 256)], rl := 0xFFFFFFFF },
  { name := "CQ_U_CQ_BASE_HI", base := 0x1000200C, dims := [(0x10000, 64), (0x20, 256)], rl := 0xFFFFFFFF },
  { name := "CQ_U_CFG", base := 0x10002010, dims := [(0x10000, 64), (0x20, 256)], rl := 0x1F1F1F },
  { name := "CQ_U_STATUS", base := 0x10002014, dims := [(0x10000, 64), (0x20, 256)], w1c := 0x10, ro := 0x3FFFF2F },
  { name := "CQ_U_SQ_HEAD", base := 0x10002018, dims := [(0x10000, 64), (0x20, 256)], ro := 0xFFFF },
  { name := "CQ_U_CQ_HEAD", base := 0x1000201C, dims := [(0x10000, 64), (0x20, 256)], rw := 0xFFFF },
  { name := "CQ_CTX_CMD", base := 0x50000, dims := [], wo := 0xF03FF },
  { name := "CQ_FENCE_SEL", base := 0x50010, dims := [], rw := 0xFFF, wo := 0x80000000 },
  { name := "CQ_FENCE_CUR_LO", base := 0x50018, dims := [], ro := 0xFFFFFFFF, pair := true },
  { name := "CQ_FENCE_CUR_HI", base := 0x5001C, dims := [], ro := 0xFFFFFFFF },
  { name := "CQ_FENCE_SET_LO", base := 0x50020, dims := [], rw := 0xFFFFFFFF },
  { name := "CQ_FENCE_SET_HI", base := 0x50024, dims := [], rw := 0xFFFFFFFF },
  { name := "CQ_RUNLIMIT_BULK", base := 0x50030, dims := [], rw := 0xFFFF, rst := 0x7530 },
  { name := "CQ_RUNLIMIT_INTERACTIVE", base := 0x50034, dims := [], rw := 0xFFFF, rst := 0x3E8 },
  { name := "CQ_RUNLIMIT_DEADLINE", base := 0x50038, dims := [], rw := 0xFFFF, rst := 0x64 },
  { name := "CQ_CTX_STATUS", base := 0x54000, dims := [(0x10, 1024)], w1c := 0x10, ro := 0x3FFFF2F },
  { name := "CQ_CTX_OWNER", base := 0x54004, dims := [(0x10, 1024)], ro := 0x1FF3F, roi := 0x1FF3F },
  { name := "CQ_CTX_CLASS", base := 0x54008, dims := [(0x10, 1024)], rl := 0xFFFF0F73 },
  { name := "CQ_CTX_LIMIT", base := 0x5400C, dims := [(0x10, 1024)], rl := 0xFFFF },
  { name := "CQ_FENCE_CFG", base := 0x58000, dims := [(0x4, 4096)], rw := 0x33F }]

/-- Rows of the registers of chapter 7. -/
def regRows07_0 : List RegRow := [
  { name := "MEM_STATUS", base := 0x60000, dims := [], ro := 0xFFFF7110 },
  { name := "MEM_CAPACITY", base := 0x60004, dims := [], ro := 0x1FFFFF },
  { name := "MEM_ECC_CORR", base := 0x60010, dims := [], ro := 0xFFFFFFFF },
  { name := "MEM_ECC_UNCORR", base := 0x60014, dims := [], ro := 0xFFFFFFFF },
  { name := "MEM_ECC_ADDR_LO", base := 0x60018, dims := [], ro := 0xFFFFFFF8, pair := true },
  { name := "MEM_ECC_ADDR_HI", base := 0x6001C, dims := [], ro := 0x8000000F },
  { name := "MEM_ECC_CLEAR", base := 0x60020, dims := [], wo := 0x1 },
  { name := "BSN_APT_BASE", base := 0x60800, dims := [], rw := 0x7FF, rst := 0x40 },
  { name := "BSN_STATUS", base := 0x60804, dims := [], ro := 0x10001 },
  { name := "BSN_ECC_CORR", base := 0x60810, dims := [], ro := 0xFFFFFFFF },
  { name := "BSN_ECC_UNCORR", base := 0x60814, dims := [], ro := 0xFFFFFFFF },
  { name := "BSN_ECC_ADDR", base := 0x60818, dims := [], ro := 0x87FFFFF8 },
  { name := "BSN_ECC_CLEAR", base := 0x6081C, dims := [], wo := 0x1 },
  { name := "MEM_CH_STATUS", base := 0x60100, dims := [(0x4, 8)], ro := 0x117 },
  { name := "BSN_PART_BASE", base := 0x60900, dims := [(0x8, 9)], ro := 0x7FF, roi := 0x7FF },
  { name := "BSN_PART_SIZE", base := 0x60904, dims := [(0x8, 9)], ro := 0x7FF, roi := 0x7FF },
  { name := "BSN_SAFETY", base := 0x60980, dims := [(0x4, 8)], ro := 0x7F, roi := 0x7F }]

/-- Rows of the registers of chapter 8. -/
def regRows08_0 : List RegRow := [
  { name := "JA_CTRL", base := 0x70000, dims := [], rw := 0x1 },
  { name := "JA_STATUS", base := 0x70004, dims := [], ro := 0xC07FFFFF },
  { name := "JA_HELD", base := 0x70008, dims := [], rl := 0x7 },
  { name := "JA_SLACK_MIN", base := 0x7000C, dims := [], rw := 0xFFFF },
  { name := "JA_MAX_TARGET", base := 0x70010, dims := [], rl := 0xFFFFFFFF },
  { name := "JA_SIPHON", base := 0x70014, dims := [], rw := 0x1, rst := 0x1 },
  { name := "JA_FREQ", base := 0x70018, dims := [], ro := 0x707FF },
  { name := "JA_HEALTH_LO", base := 0x70020, dims := [], ro := 0xFFFFFFFF, pair := true },
  { name := "JA_HEALTH_HI", base := 0x70024, dims := [], ro := 0xFFFFFFFF },
  { name := "JA_PRERETIRE_LO", base := 0x70028, dims := [], rl := 0xFFFFFFFF },
  { name := "JA_PRERETIRE_HI", base := 0x7002C, dims := [], rl := 0xFFFFFFFF },
  { name := "JA_EVENT", base := 0x70030, dims := [], w1c := 0x1F },
  { name := "JA_EVENT_EN", base := 0x70034, dims := [], rw := 0x1F, rst := 0x1F },
  { name := "JA_PREEMPT", base := 0x70040, dims := [], rl := 0x1F },
  { name := "JA_SAVE", base := 0x70044, dims := [], rl := 0x7FF07FF },
  { name := "JA_PREEMPT_STATUS", base := 0x70048, dims := [], ro := 0xFFE703FF },
  { name := "JA_PREEMPT_COUNT", base := 0x7004C, dims := [], ro := 0xFFFFFFFF },
  { name := "JA_PREEMPT_MAXLAT", base := 0x70050, dims := [], rw := 0xFFFF },
  { name := "JA_FAIL", base := 0x70054, dims := [], ro := 0x7F03003F },
  { name := "JA_DL_EVENT", base := 0x70058, dims := [], w1c := 0xF },
  { name := "JA_DL_EVENT_EN", base := 0x7005C, dims := [], rw := 0xF, rst := 0x3 },
  { name := "JA_STR_TROUGH", base := 0x70100, dims := [(0x20, 8)], rl := 0x7FF07FF },
  { name := "JA_STR_STATUS", base := 0x70104, dims := [(0x20, 8)], ro := 0xF3FF01FF },
  { name := "JA_STR_SPILLS", base := 0x70108, dims := [(0x20, 8)], ro := 0xFFFFFFFF },
  { name := "JA_STR_STEALS_IN", base := 0x7010C, dims := [(0x20, 8)], ro := 0xFFFFFFFF },
  { name := "JA_STR_STEALS_OUT", base := 0x70110, dims := [(0x20, 8)], ro := 0xFFFFFFFF },
  { name := "JA_STR_ITEMS", base := 0x70114, dims := [(0x20, 8)], ro := 0xFFFFFFFF }]

/-- Rows of the registers of chapter 10. -/
def regRows10_0 : List RegRow := [
  { name := "JA_DL_MISSES", base := 0x70200, dims := [(0x10, 8)], ro := 0xFFFFFFFF },
  { name := "JA_DL_LAST_SLACK", base := 0x70204, dims := [(0x10, 8)], ro := 0xFFFFFFFF },
  { name := "JA_DL_MIN_SLACK", base := 0x70208, dims := [(0x10, 8)], rw := 0xFFFFFFFF, rst := 0x7FFFFFFF }]

/-- Rows of the registers of chapter 11. -/
def regRows11_0 : List RegRow := [
  { name := "CMP_CTRL", base := 0x80000, dims := [(0x2000, 10)], rw := 0x1 },
  { name := "CMP_CFG", base := 0x80004, dims := [(0x2000, 10)], rl := 0x70 },
  { name := "CMP_STATUS", base := 0x8000C, dims := [(0x2000, 10)], ro := 0xE000FFFF },
  { name := "CMP_EVENT", base := 0x80010, dims := [(0x2000, 10)], w1c := 0xFF },
  { name := "CMP_EVENT_EN", base := 0x80014, dims := [(0x2000, 10)], rw := 0xFF, rst := 0x7 },
  { name := "CMP_REJECT", base := 0x80018, dims := [(0x2000, 10)], ro := 0x80FF3F1F },
  { name := "CMP_COMMIT", base := 0x80020, dims := [(0x2000, 10)], wo := 0x7 },
  { name := "CMP_COMMIT_TIME_LO", base := 0x80024, dims := [(0x2000, 10)], rw := 0xFFFFFFFF },
  { name := "CMP_COMMIT_TIME_HI", base := 0x80028, dims := [(0x2000, 10)], rw := 0xFFFFFFFF },
  { name := "CMP_COMMIT_STATUS", base := 0x8002C, dims := [(0x2000, 10)], w1c := 0x1E, ro := 0xFFFF01 },
  { name := "CMP_HOLD", base := 0x80030, dims := [(0x2000, 10)], rw := 0xF01, rst := 0x100 },
  { name := "CMP_GROUP", base := 0x80034, dims := [(0x2000, 10)], rl := 0xB },
  { name := "CMP_SAFE_OWNER", base := 0x80038, dims := [(0x2000, 10)], img := 0x13F },
  { name := "CMP_BG", base := 0x80040, dims := [(0x2000, 10)], rs := 0xBFFFFFFF },
  { name := "CMP_OUT", base := 0x80044, dims := [(0x2000, 10)], rs := 0x377 },
  { name := "CMP_CANVAS_XY", base := 0x80048, dims := [(0x2000, 10)], rs := 0x3FFF3FFF },
  { name := "CMP_CANVAS_WH", base := 0x8004C, dims := [(0x2000, 10)], rs := 0x3FFF3FFF },
  { name := "CMP_WB_CTRL", base := 0x80050, dims := [(0x2000, 10)], rs := 0x7F800003 },
  { name := "CMP_WB_ADDR_LO", base := 0x80054, dims := [(0x2000, 10)], rs := 0xFFFFFFFF },
  { name := "CMP_WB_ADDR_HI", base := 0x80058, dims := [(0x2000, 10)], rs := 0xFFFFFFFF },
  { name := "CMP_WB_DATA_LO", base := 0x8005C, dims := [(0x2000, 10)], rs := 0xFFFFFFFF },
  { name := "CMP_WB_DATA_HI", base := 0x80060, dims := [(0x2000, 10)], rs := 0xFFFFFFFF },
  { name := "CMP_WB_STRIDE", base := 0x80064, dims := [(0x2000, 10)], rs := 0xFFFFFF },
  { name := "CMP_LUT_ADDR", base := 0x80088, dims := [(0x2000, 10)], rw := 0x137FF },
  { name := "CMP_LUT_DATA", base := 0x8008C, dims := [(0x2000, 10)], rw := 0xFFF },
  { name := "CMP_WB_STATUS", base := 0x80090, dims := [(0x2000, 10)], ro := 0xFFFF0001 },
  { name := "CMP_SIZE", base := 0x80008, dims := [(0x2000, 8)], ro := 0x3FFF3FFF, roi := 0x3FFF3FFF },
  { name := "CMP_SIZE", base := 0x90008, dims := [(0x2000, 2)], rl := 0x3FFF3FFF },
  { name := "CMP_MATRIX", base := 0x80070, dims := [(0x2000, 10), (0x4, 6)], rs := 0xFFFFFFFF },
  { name := "CMP_ACT", base := 0x80140, dims := [(0x2000, 10), (0x4, 5)], ro := 0xFFFFFFFF },
  { name := "CMP_ACT", base := 0x80154, dims := [(0x2000, 10)], ro := 0xFFFFFFFF, pair := true },
  { name := "CMP_ACT", base := 0x80158, dims := [(0x2000, 10)], ro := 0xFFFFFFFF },
  { name := "CMP_ACT", base := 0x8015C, dims := [(0x2000, 10)], ro := 0xFFFFFFFF, pair := true },
  { name := "CMP_ACT", base := 0x80160, dims := [(0x2000, 10), (0x4, 10)], ro := 0xFFFFFFFF },
  { name := "CMP_L_CTRL", base := 0x80400, dims := [(0x2000, 10), (0x40, 16)], ro := 0x7FFFF801 },
  { name := "CMP_L_CTRL_ACT", base := 0x80800, dims := [(0x2000, 10), (0x40, 16)], ro := 0xFFFFFFFF },
  { name := "CMP_U_L_CTRL", base := 0x10004000, dims := [(0x10000, 64), (0x40, 160)], rs := 0x7FFFF801 },
  { name := "CMP_L_ALPHA", base := 0x80404, dims := [(0x2000, 10), (0x40, 16)], ro := 0xFFFF },
  { name := "CMP_L_ALPHA_ACT", base := 0x80804, dims := [(0x2000, 10), (0x40, 16)], ro := 0xFFFFFFFF },
  { name := "CMP_U_L_ALPHA", base := 0x10004004, dims := [(0x10000, 64), (0x40, 160)], rs := 0xFFFF },
  { name := "CMP_L_SRC_LO", base := 0x80408, dims := [(0x2000, 10), (0x40, 16)], ro := 0xFFFFFFFF, pair := true },
  { name := "CMP_L_SRC_LO_ACT", base := 0x80808, dims := [(0x2000, 10), (0x40, 16)], ro := 0xFFFFFFFF, pair := true },
  { name := "CMP_U_L_SRC_LO", base := 0x10004008, dims := [(0x10000, 64), (0x40, 160)], rs := 0xFFFFFFFF },
  { name := "CMP_L_SRC_HI", base := 0x8040C, dims := [(0x2000, 10), (0x40, 16)], ro := 0xFFFFFFFF },
  { name := "CMP_L_SRC_HI_ACT", base := 0x8080C, dims := [(0x2000, 10), (0x40, 16)], ro := 0xFFFFFFFF }]

/-- Rows of the registers of chapter 11. -/
def regRows11_1 : List RegRow := [
  { name := "CMP_U_L_SRC_HI", base := 0x1000400C, dims := [(0x10000, 64), (0x40, 160)], rs := 0xFFFFFFFF },
  { name := "CMP_L_DATA_LO", base := 0x80410, dims := [(0x2000, 10), (0x40, 16)], ro := 0xFFFFFFFF, pair := true },
  { name := "CMP_L_DATA_LO_ACT", base := 0x80810, dims := [(0x2000, 10), (0x40, 16)], ro := 0xFFFFFFFF, pair := true },
  { name := "CMP_U_L_DATA_LO", base := 0x10004010, dims := [(0x10000, 64), (0x40, 160)], rs := 0xFFFFFFFF },
  { name := "CMP_L_DATA_HI", base := 0x80414, dims := [(0x2000, 10), (0x40, 16)], ro := 0xFFFFFFFF },
  { name := "CMP_L_DATA_HI_ACT", base := 0x80814, dims := [(0x2000, 10), (0x40, 16)], ro := 0xFFFFFFFF },
  { name := "CMP_U_L_DATA_HI", base := 0x10004014, dims := [(0x10000, 64), (0x40, 160)], rs := 0xFFFFFFFF },
  { name := "CMP_L_STRIDE", base := 0x80418, dims := [(0x2000, 10), (0x40, 16)], ro := 0xFFFFFF },
  { name := "CMP_L_STRIDE_ACT", base := 0x80818, dims := [(0x2000, 10), (0x40, 16)], ro := 0xFFFFFFFF },
  { name := "CMP_U_L_STRIDE", base := 0x10004018, dims := [(0x10000, 64), (0x40, 160)], rs := 0xFFFFFF },
  { name := "CMP_L_SIZE", base := 0x8041C, dims := [(0x2000, 10), (0x40, 16)], ro := 0x3FFF3FFF },
  { name := "CMP_L_SIZE_ACT", base := 0x8081C, dims := [(0x2000, 10), (0x40, 16)], ro := 0xFFFFFFFF },
  { name := "CMP_U_L_SIZE", base := 0x1000401C, dims := [(0x10000, 64), (0x40, 160)], rs := 0x3FFF3FFF },
  { name := "CMP_L_CROP_XY", base := 0x80420, dims := [(0x2000, 10), (0x40, 16)], ro := 0x3FFF3FFF },
  { name := "CMP_L_CROP_XY_ACT", base := 0x80820, dims := [(0x2000, 10), (0x40, 16)], ro := 0xFFFFFFFF },
  { name := "CMP_U_L_CROP_XY", base := 0x10004020, dims := [(0x10000, 64), (0x40, 160)], rs := 0x3FFF3FFF },
  { name := "CMP_L_CROP_WH", base := 0x80424, dims := [(0x2000, 10), (0x40, 16)], ro := 0x3FFF3FFF },
  { name := "CMP_L_CROP_WH_ACT", base := 0x80824, dims := [(0x2000, 10), (0x40, 16)], ro := 0xFFFFFFFF },
  { name := "CMP_U_L_CROP_WH", base := 0x10004024, dims := [(0x10000, 64), (0x40, 160)], rs := 0x3FFF3FFF },
  { name := "CMP_L_DST_XY", base := 0x80428, dims := [(0x2000, 10), (0x40, 16)], ro := 0x3FFF3FFF },
  { name := "CMP_L_DST_XY_ACT", base := 0x80828, dims := [(0x2000, 10), (0x40, 16)], ro := 0xFFFFFFFF },
  { name := "CMP_U_L_DST_XY", base := 0x10004028, dims := [(0x10000, 64), (0x40, 160)], rs := 0x3FFF3FFF },
  { name := "CMP_L_DST_WH", base := 0x8042C, dims := [(0x2000, 10), (0x40, 16)], ro := 0x3FFF3FFF },
  { name := "CMP_L_DST_WH_ACT", base := 0x8082C, dims := [(0x2000, 10), (0x40, 16)], ro := 0xFFFFFFFF },
  { name := "CMP_U_L_DST_WH", base := 0x1000402C, dims := [(0x10000, 64), (0x40, 160)], rs := 0x3FFF3FFF },
  { name := "CMP_L_CLEAR_LO", base := 0x80430, dims := [(0x2000, 10), (0x40, 16)], ro := 0xFFFFFFFF, pair := true },
  { name := "CMP_L_CLEAR_LO_ACT", base := 0x80830, dims := [(0x2000, 10), (0x40, 16)], ro := 0xFFFFFFFF, pair := true },
  { name := "CMP_U_L_CLEAR_LO", base := 0x10004030, dims := [(0x10000, 64), (0x40, 160)], rs := 0xFFFFFFFF },
  { name := "CMP_L_CLEAR_HI", base := 0x80434, dims := [(0x2000, 10), (0x40, 16)], ro := 0xFFFFFFFF },
  { name := "CMP_L_CLEAR_HI_ACT", base := 0x80834, dims := [(0x2000, 10), (0x40, 16)], ro := 0xFFFFFFFF },
  { name := "CMP_U_L_CLEAR_HI", base := 0x10004034, dims := [(0x10000, 64), (0x40, 160)], rs := 0xFFFFFFFF },
  { name := "CMP_L_DECL", base := 0x80438, dims := [(0x2000, 10), (0x40, 16)], ro := 0xFFFFFFFF, roi := 0xFFFFFFFF },
  { name := "CMP_U_L_DECL", base := 0x10004038, dims := [(0x10000, 64), (0x40, 160)], ro := 0xFFFFFFFF, roi := 0xFFFFFFFF },
  { name := "CMP_L_STATUS", base := 0x8043C, dims := [(0x2000, 10), (0x40, 16)], ro := 0x7 },
  { name := "CMP_U_L_STATUS", base := 0x1000403C, dims := [(0x10000, 64), (0x40, 160)], ro := 0x7 },
  { name := "CMP_S_CTRL", base := 0x80C00, dims := [(0x2000, 10)], ro := 0x7F000301, roi := 0x7F000301 },
  { name := "CMP_S_CTRL_ACT", base := 0x80C40, dims := [(0x2000, 10)], ro := 0xFFFFFFFF },
  { name := "CMP_U_S_CTRL", base := 0x10006800, dims := [(0x10000, 64), (0x40, 8)], rs := 0x7F000301 },
  { name := "CMP_S_OFFSET", base := 0x80C04, dims := [(0x2000, 10)], ro := 0x3FFFFF, roi := 0x3FFFFF },
  { name := "CMP_S_OFFSET_ACT", base := 0x80C44, dims := [(0x2000, 10)], ro := 0xFFFFFFFF }]

/-- Rows of the registers of chapter 11. -/
def regRows11_2 : List RegRow := [
  { name := "CMP_U_S_OFFSET", base := 0x10006804, dims := [(0x10000, 64), (0x40, 8)], rs := 0x3FFFFF },
  { name := "CMP_S_SIZE", base := 0x80C08, dims := [(0x2000, 10)], ro := 0x3FFF3FFF, roi := 0x3FFF3FFF },
  { name := "CMP_S_SIZE_ACT", base := 0x80C48, dims := [(0x2000, 10)], ro := 0xFFFFFFFF },
  { name := "CMP_U_S_SIZE", base := 0x10006808, dims := [(0x10000, 64), (0x40, 8)], rs := 0x3FFF3FFF },
  { name := "CMP_S_DST_XY", base := 0x80C0C, dims := [(0x2000, 10)], ro := 0x3FFF3FFF, roi := 0x3FFF3FFF },
  { name := "CMP_S_DST_XY_ACT", base := 0x80C4C, dims := [(0x2000, 10)], ro := 0xFFFFFFFF },
  { name := "CMP_U_S_DST_XY", base := 0x1000680C, dims := [(0x10000, 64), (0x40, 8)], rs := 0x3FFF3FFF },
  { name := "CMP_U_STATUS", base := 0x10006C00, dims := [(0x10000, 64), (0x4, 10)], ro := 0xFFFF0300 }]

/-- Rows of the registers of chapter 12. -/
def regRows12_0 : List RegRow := [
  { name := "HD_CTRL", base := 0xA0000, dims := [(0x2000, 8)], rw := 0x1 },
  { name := "HD_STATUS", base := 0xA0004, dims := [(0x2000, 8)], w1c := 0x700, ro := 0xF8000000 },
  { name := "HD_EVENT", base := 0xA0008, dims := [(0x2000, 8)], w1c := 0x1FFFF },
  { name := "HD_EVENT_EN", base := 0xA000C, dims := [(0x2000, 8)], rw := 0x1FFFF, rst := 0x17D08 },
  { name := "HD_GAITS", base := 0xA0010, dims := [(0x2000, 8)], ro := 0x3FFFFFFF, roi := 0x3FFFFFFF },
  { name := "HD_GAIT", base := 0xA0014, dims := [(0x2000, 8)], ro := 0x80071F1F, roi := 0x1F },
  { name := "HD_GAIT_REQ", base := 0xA0018, dims := [(0x2000, 8)], wo := 0x8000001F },
  { name := "HD_GAIT_STATUS", base := 0xA001C, dims := [(0x2000, 8)], w1c := 0xE, ro := 0xFF1FFF01 },
  { name := "HD_LATCH_GUARD", base := 0xA0020, dims := [(0x2000, 8)], rs := 0xF, rst := 0x2 },
  { name := "HD_LINE_CMP", base := 0xA0024, dims := [(0x2000, 8)], rw := 0x3FFF },
  { name := "HD_UNDERRUN_COLOUR", base := 0xA0028, dims := [(0x2000, 8)], rs := 0x3FFFFFFF },
  { name := "HD_BL_PWM", base := 0xA002C, dims := [(0x2000, 8)], rs := 0xFFF0FFFF },
  { name := "HD_FRAME", base := 0xA0030, dims := [(0x2000, 8)], ro := 0xFFFF3FFF },
  { name := "HD_FRAME_TIME_LO", base := 0xA0034, dims := [(0x2000, 8)], ro := 0xFFFFFFFF, pair := true },
  { name := "HD_FRAME_TIME_HI", base := 0xA0038, dims := [(0x2000, 8)], ro := 0xFFFFFFFF },
  { name := "HD_VBLANK_TIME_LO", base := 0xA003C, dims := [(0x2000, 8)], ro := 0xFFFFFFFF, pair := true },
  { name := "HD_VBLANK_TIME_HI", base := 0xA0040, dims := [(0x2000, 8)], ro := 0xFFFFFFFF },
  { name := "HD_LATCH_TIME_LO", base := 0xA0044, dims := [(0x2000, 8)], ro := 0xFFFFFFFF, pair := true },
  { name := "HD_LATCH_TIME_HI", base := 0xA0048, dims := [(0x2000, 8)], ro := 0xFFFFFFFF },
  { name := "HD_UNDERRUN_COUNT", base := 0xA004C, dims := [(0x2000, 8)], ro := 0xFFFFFFFF },
  { name := "HD_UNDERRUN_LAST", base := 0xA0050, dims := [(0x2000, 8)], ro := 0xFFFF3FFF },
  { name := "HD_REPEAT_COUNT", base := 0xA0054, dims := [(0x2000, 8)], ro := 0xFFFFFFFF },
  { name := "HD_LATE_COUNT", base := 0xA0058, dims := [(0x2000, 8)], ro := 0xFFFFFFFF },
  { name := "HD_GENLOCK", base := 0xA0060, dims := [(0x2000, 8)], rl := 0xF3FF0173 },
  { name := "HD_GENLOCK_PHASE", base := 0xA0064, dims := [(0x2000, 8)], rw := 0xFFFFFFFF },
  { name := "HD_GENLOCK_STATUS", base := 0xA0068, dims := [(0x2000, 8)], ro := 0xEFFFFFFF },
  { name := "HD_LINK_CFG", base := 0xA0080, dims := [(0x2000, 8)], rl := 0x1F7F },
  { name := "HD_DSC_CFG", base := 0xA0084, dims := [(0x2000, 8)], rl := 0x3FF0003 },
  { name := "HD_LINK_STATUS", base := 0xA0088, dims := [(0x2000, 8)], ro := 0xF7F },
  { name := "HD_LINK_LAT", base := 0xA008C, dims := [(0x2000, 8)], ro := 0xFFFFF },
  { name := "HD_LINK_RETRAINS", base := 0xA0090, dims := [(0x2000, 8)], ro := 0xFFFFFFFF },
  { name := "HD_PANEL_CFG", base := 0xA00A0, dims := [(0x2000, 8)], rl := 0xFFFFFFFF },
  { name := "HD_PANEL_CTRL", base := 0xA00A4, dims := [(0x2000, 8)], rw := 0x3 },
  { name := "HD_PANEL_STATUS", base := 0xA00A8, dims := [(0x2000, 8)], ro := 0x7 },
  { name := "HD_AUX_CMD", base := 0xA00C0, dims := [(0x2000, 8)], rw := 0xF0F },
  { name := "HD_AUX_ADDR", base := 0xA00C4, dims := [(0x2000, 8)], rw := 0xFFFFF },
  { name := "HD_AUX_STATUS", base := 0xA00C8, dims := [(0x2000, 8)], w1c := 0x6, ro := 0x301 },
  { name := "HD_AUX_DATA", base := 0xA00D0, dims := [(0x2000, 8), (0x4, 4)], rw := 0xFFFFFFFF },
  { name := "HD_LATCH_GUARD_ACT", base := 0xA0120, dims := [(0x2000, 8)], ro := 0xFFFFFFFF, rst := 0x2 },
  { name := "HD_UNDERRUN_COLOUR_ACT", base := 0xA0128, dims := [(0x2000, 8)], ro := 0xFFFFFFFF }]

/-- Rows of the registers of chapter 12. -/
def regRows12_1 : List RegRow := [
  { name := "HD_BL_PWM_ACT", base := 0xA012C, dims := [(0x2000, 8)], ro := 0xFFFFFFFF },
  { name := "HD_DSC_PPS", base := 0xA0400, dims := [(0x2000, 8), (0x4, 32)], ro := 0xFFFFFFFF },
  { name := "HD_U_EVENT", base := 0x10000100, dims := [(0x10000, 64), (0x20, 8)], w1c := 0x7F },
  { name := "HD_U_EVENT_EN", base := 0x10000104, dims := [(0x10000, 64), (0x20, 8)], rw := 0x7F },
  { name := "HD_U_FRAME", base := 0x10000108, dims := [(0x10000, 64), (0x20, 8)], ro := 0xFFFF3FFF },
  { name := "HD_U_GAIT", base := 0x1000010C, dims := [(0x10000, 64), (0x20, 8)], ro := 0x8000001F },
  { name := "HD_U_FRAME_TIME_LO", base := 0x10000110, dims := [(0x10000, 64), (0x20, 8)], ro := 0xFFFFFFFF, pair := true },
  { name := "HD_U_FRAME_TIME_HI", base := 0x10000114, dims := [(0x10000, 64), (0x20, 8)], ro := 0xFFFFFFFF },
  { name := "HD_U_LATCH_TIME_LO", base := 0x10000118, dims := [(0x10000, 64), (0x20, 8)], ro := 0xFFFFFFFF, pair := true },
  { name := "HD_U_LATCH_TIME_HI", base := 0x1000011C, dims := [(0x10000, 64), (0x20, 8)], ro := 0xFFFFFFFF }]

/-- Rows of the registers of chapter 13. -/
def regRows13_0 : List RegRow := [
  { name := "IM_EVENT", base := 0x30000, dims := [], w1c := 0x3FF },
  { name := "IM_EVENT_EN", base := 0x30004, dims := [], rw := 0x3FF, rst := 0x3F },
  { name := "IM_HEADS", base := 0x30008, dims := [], ro := 0xFFFF },
  { name := "IM_STATUS", base := 0x31000, dims := [(0x800, 8)], ro := 0xFFFF1EFF },
  { name := "IM_CLEAR", base := 0x31004, dims := [(0x800, 8)], wo := 0x1 },
  { name := "IM_S_CFG", base := 0x31008, dims := [(0x800, 8)], rl := 0x80FF3CFF },
  { name := "IM_OWNER", base := 0x3100C, dims := [(0x800, 8)], img := 0xFFFF },
  { name := "IM_S_SIG", base := 0x31010, dims := [(0x800, 8)], ro := 0xFFFFFFFF, roi := 0xFFFFFFFF },
  { name := "IM_S_ALIVE", base := 0x31014, dims := [(0x800, 8)], ro := 0xFFFF, roi := 0xFFFF },
  { name := "IM_S_FETCH_SIG", base := 0x31018, dims := [(0x800, 8)], ro := 0xFFFFFFFF },
  { name := "IM_S_HEAD_SIG", base := 0x3101C, dims := [(0x800, 8)], ro := 0xFFFFFFFF },
  { name := "IM_S_FB", base := 0x31020, dims := [(0x800, 8)], rl := 0x3101FFFF },
  { name := "IM_S_FB_XY", base := 0x31024, dims := [(0x800, 8)], rl := 0x3FFF3FFF },
  { name := "IM_S_FB_WH", base := 0x31028, dims := [(0x800, 8)], rl := 0x3FFF3FFF },
  { name := "IM_S_FB_SIG", base := 0x3102C, dims := [(0x800, 8)], rl := 0xFFFFFFFF },
  { name := "IM_FAIL_COUNT", base := 0x31030, dims := [(0x800, 8)], ro := 0xFFFFFFFF },
  { name := "IM_S_SIG_ACT", base := 0x31110, dims := [(0x800, 8)], ro := 0xFFFFFFFF },
  { name := "IM_S_ALIVE_ACT", base := 0x31114, dims := [(0x800, 8)], ro := 0xFFFFFFFF },
  { name := "IM_R_CTRL", base := 0x31200, dims := [(0x800, 8), (0x20, 16)], rs := 0x3FF3 },
  { name := "IM_R_XY", base := 0x31204, dims := [(0x800, 8), (0x20, 16)], rs := 0x3FFF3FFF },
  { name := "IM_R_WH", base := 0x31208, dims := [(0x800, 8), (0x20, 16)], rs := 0x3FFF3FFF },
  { name := "IM_R_REF", base := 0x3120C, dims := [(0x800, 8), (0x20, 16)], rs := 0xFFFFFFFF },
  { name := "IM_R_SIG", base := 0x31210, dims := [(0x800, 8), (0x20, 16)], ro := 0xFFFFFFFF },
  { name := "IM_R_FRAME", base := 0x31214, dims := [(0x800, 8), (0x20, 16)], ro := 0xFFFF010F },
  { name := "IM_R_FB", base := 0x31218, dims := [(0x800, 8), (0x20, 16)], rl := 0x3101FFFF },
  { name := "IM_R_FB_SIG", base := 0x3121C, dims := [(0x800, 8), (0x20, 16)], rl := 0xFFFFFFFF },
  { name := "IM_R_CTRL_ACT", base := 0x31400, dims := [(0x800, 8), (0x20, 16)], ro := 0xFFFFFFFF },
  { name := "IM_R_XY_ACT", base := 0x31404, dims := [(0x800, 8), (0x20, 16)], ro := 0xFFFFFFFF },
  { name := "IM_R_WH_ACT", base := 0x31408, dims := [(0x800, 8), (0x20, 16)], ro := 0xFFFFFFFF },
  { name := "IM_R_REF_ACT", base := 0x3140C, dims := [(0x800, 8), (0x20, 16)], ro := 0xFFFFFFFF },
  { name := "IM_U_R_CTRL", base := 0x10007000, dims := [(0x10000, 64), (0x100, 8), (0x10, 16)], rs := 0x3FF3 },
  { name := "IM_U_R_XY", base := 0x10007004, dims := [(0x10000, 64), (0x100, 8), (0x10, 16)], rs := 0x3FFF3FFF },
  { name := "IM_U_R_WH", base := 0x10007008, dims := [(0x10000, 64), (0x100, 8), (0x10, 16)], rs := 0x3FFF3FFF },
  { name := "IM_U_R_REF", base := 0x1000700C, dims := [(0x10000, 64), (0x100, 8), (0x10, 16)], rs := 0xFFFFFFFF },
  { name := "IM_U_S_SIG", base := 0x10007800, dims := [(0x10000, 64), (0x20, 8)], rs := 0xFFFFFFFF },
  { name := "IM_U_S_ALIVE", base := 0x10007804, dims := [(0x10000, 64), (0x20, 8)], rs := 0xFFFF },
  { name := "IM_U_STATUS", base := 0x10007808, dims := [(0x10000, 64), (0x20, 8)], ro := 0xFFFFFFFF },
  { name := "IM_U_EVENT", base := 0x1000780C, dims := [(0x10000, 64), (0x20, 8)], w1c := 0xF },
  { name := "IM_U_EVENT_EN", base := 0x10007810, dims := [(0x10000, 64), (0x20, 8)], rw := 0xF },
  { name := "CVU_CTRL", base := 0x38000, dims := [(0x400, 16)], ro := 0xFF13 }]

/-- Rows of the registers of chapter 13. -/
def regRows13_1 : List RegRow := [
  { name := "CVU_U_CTRL", base := 0x10008000, dims := [(0x10000, 64), (0x400, 16)], rw := 0xFF13 },
  { name := "S_CVU_CTRL", base := 0x20008000, dims := [(0x400, 16)], rw := 0xFF13 },
  { name := "CVU_STATUS", base := 0x38004, dims := [(0x400, 16)], ro := 0xFFFF001F },
  { name := "CVU_U_STATUS", base := 0x10008004, dims := [(0x10000, 64), (0x400, 16)], w1c := 0xC, ro := 0xFFFF0013 },
  { name := "S_CVU_STATUS", base := 0x20008004, dims := [(0x400, 16)], w1c := 0xC, ro := 0xFFFF0013 },
  { name := "CVU_U_INIT", base := 0x10008008, dims := [(0x10000, 64), (0x400, 16)], wo := 0x1 },
  { name := "S_CVU_INIT", base := 0x20008008, dims := [(0x400, 16)], wo := 0x1 },
  { name := "CVU_U_DATA", base := 0x1000800C, dims := [(0x10000, 64), (0x400, 16)], wo := 0xFFFFFFFF },
  { name := "S_CVU_DATA", base := 0x2000800C, dims := [(0x400, 16)], wo := 0xFFFFFFFF },
  { name := "CVU_U_DATA_B", base := 0x10008010, dims := [(0x10000, 64), (0x400, 16)], wo := 0xFF },
  { name := "S_CVU_DATA_B", base := 0x20008010, dims := [(0x400, 16)], wo := 0xFF },
  { name := "CVU_ALIVE", base := 0x38014, dims := [(0x400, 16)], ro := 0xFFFF },
  { name := "CVU_U_ALIVE", base := 0x10008014, dims := [(0x10000, 64), (0x400, 16)], rw := 0xFFFF },
  { name := "S_CVU_ALIVE", base := 0x20008014, dims := [(0x400, 16)], rw := 0xFFFF },
  { name := "CVU_PERIOD", base := 0x38018, dims := [(0x400, 16)], ro := 0xFFFF },
  { name := "CVU_U_PERIOD", base := 0x10008018, dims := [(0x10000, 64), (0x400, 16)], rw := 0xFFFF },
  { name := "S_CVU_PERIOD", base := 0x20008018, dims := [(0x400, 16)], rw := 0xFFFF },
  { name := "CVU_RUNNING_LO", base := 0x38020, dims := [(0x400, 16)], ro := 0xFFFFFFFF, pair := true },
  { name := "CVU_U_RUNNING_LO", base := 0x10008020, dims := [(0x10000, 64), (0x400, 16)], ro := 0xFFFFFFFF, pair := true },
  { name := "S_CVU_RUNNING_LO", base := 0x20008020, dims := [(0x400, 16)], ro := 0xFFFFFFFF, pair := true },
  { name := "CVU_RUNNING_HI", base := 0x38024, dims := [(0x400, 16)], ro := 0xFFFFFFFF },
  { name := "CVU_U_RUNNING_HI", base := 0x10008024, dims := [(0x10000, 64), (0x400, 16)], ro := 0xFFFFFFFF },
  { name := "S_CVU_RUNNING_HI", base := 0x20008024, dims := [(0x400, 16)], ro := 0xFFFFFFFF },
  { name := "CVU_RESULT_LO", base := 0x38028, dims := [(0x400, 16)], ro := 0xFFFFFFFF, pair := true },
  { name := "CVU_U_RESULT_LO", base := 0x10008028, dims := [(0x10000, 64), (0x400, 16)], ro := 0xFFFFFFFF, pair := true },
  { name := "S_CVU_RESULT_LO", base := 0x20008028, dims := [(0x400, 16)], ro := 0xFFFFFFFF, pair := true },
  { name := "CVU_RESULT_HI", base := 0x3802C, dims := [(0x400, 16)], ro := 0xFFFFFFFF },
  { name := "CVU_U_RESULT_HI", base := 0x1000802C, dims := [(0x10000, 64), (0x400, 16)], ro := 0xFFFFFFFF },
  { name := "S_CVU_RESULT_HI", base := 0x2000802C, dims := [(0x400, 16)], ro := 0xFFFFFFFF },
  { name := "CVU_COUNT_LO", base := 0x38030, dims := [(0x400, 16)], ro := 0xFFFFFFFF, pair := true },
  { name := "CVU_U_COUNT_LO", base := 0x10008030, dims := [(0x10000, 64), (0x400, 16)], ro := 0xFFFFFFFF, pair := true },
  { name := "S_CVU_COUNT_LO", base := 0x20008030, dims := [(0x400, 16)], ro := 0xFFFFFFFF, pair := true },
  { name := "CVU_COUNT_HI", base := 0x38034, dims := [(0x400, 16)], ro := 0xFFFFFFFF },
  { name := "CVU_U_COUNT_HI", base := 0x10008034, dims := [(0x10000, 64), (0x400, 16)], ro := 0xFFFFFFFF },
  { name := "S_CVU_COUNT_HI", base := 0x20008034, dims := [(0x400, 16)], ro := 0xFFFFFFFF }]

/-- Rows of the registers of chapter 14. -/
def regRows14_0 : List RegRow := [
  { name := "LO_CTRL", base := 0xC0000, dims := [], rw := 0x1 },
  { name := "LO_CFG", base := 0xC0004, dims := [], rl := 0xFFFF00D7 },
  { name := "LO_STATUS", base := 0xC0008, dims := [], ro := 0xE00107FF },
  { name := "LO_EVENT", base := 0xC000C, dims := [], w1c := 0x3F },
  { name := "LO_EVENT_EN", base := 0xC0010, dims := [], rw := 0x3F, rst := 0x13 },
  { name := "LO_LAYOUT", base := 0xC0014, dims := [], ro := 0xFFFF007F, roi := 0xFFFF007F },
  { name := "LO_EMIT", base := 0xC0018, dims := [], rs := 0xFFFF },
  { name := "LO_COMMIT", base := 0xC0020, dims := [], wo := 0x7 },
  { name := "LO_COMMIT_TIME_LO", base := 0xC0024, dims := [], rw := 0xFFFFFFFF },
  { name := "LO_COMMIT_TIME_HI", base := 0xC0028, dims := [], rw := 0xFFFFFFFF },
  { name := "LO_COMMIT_STATUS", base := 0xC002C, dims := [], w1c := 0x7, ro := 0xFFFFFF00 },
  { name := "LO_FRAME", base := 0xC0030, dims := [], ro := 0xFFFFFFFF },
  { name := "LO_FRAME_TIME_LO", base := 0xC0034, dims := [], ro := 0xFFFFFFFF, pair := true },
  { name := "LO_FRAME_TIME_HI", base := 0xC0038, dims := [], ro := 0xFFFFFFFF },
  { name := "LO_MERGE_LAT", base := 0xC003C, dims := [], ro := 0xFFFFFF },
  { name := "LO_LOAD_CMD", base := 0xC0040, dims := [], rw := 0x73 },
  { name := "LO_LOAD_FIRST", base := 0xC0044, dims := [], rw := 0x7FFFF },
  { name := "LO_LOAD_COUNT", base := 0xC0048, dims := [], rw := 0x7FFFF },
  { name := "LO_LOAD_SRC_LO", base := 0xC004C, dims := [], rw := 0xFFFFFFFF },
  { name := "LO_LOAD_SRC_HI", base := 0xC0050, dims := [], rw := 0xFFFFFFFF },
  { name := "LO_LOAD_STATUS", base := 0xC0054, dims := [], w1c := 0xE, ro := 0xFF01 },
  { name := "LO_TX_CFG", base := 0xC0060, dims := [], rl := 0x1 },
  { name := "LO_RX_CFG", base := 0xC0064, dims := [], rl := 0xFFFF0001 },
  { name := "LO_TX_PACKETS", base := 0xC0068, dims := [], ro := 0xFFFFFFFF },
  { name := "LO_TX_DROPPED", base := 0xC006C, dims := [], ro := 0xFFFFFFFF },
  { name := "LO_CID", base := 0xC0070, dims := [(0x4, 4)], rl := 0xFFFFFFFF },
  { name := "LO_NAME", base := 0xC0080, dims := [(0x4, 16)], rl := 0xFFFFFFFF },
  { name := "LO_DEST", base := 0xC00C0, dims := [(0x4, 16)], rl := 0xFFFFFFFF },
  { name := "LO_EMIT_ACT", base := 0xC0118, dims := [], ro := 0xFFFFFFFF },
  { name := "LO_SRC_CFG", base := 0xC0200, dims := [(0x10, 8)], rs := 0xFFFF3F03 },
  { name := "LO_SRC_STATUS", base := 0xC0204, dims := [(0x10, 8)], ro := 0xFFFF07FF },
  { name := "LO_SRC_CFG_ACT", base := 0xC0300, dims := [(0x10, 8)], ro := 0xFFFFFFFF },
  { name := "LO_DMX_CFG", base := 0xC0400, dims := [(0x20, 8)], rw := 0x2, rl := 0xFFFF3F80 },
  { name := "LO_DMX_TIME", base := 0xC0404, dims := [(0x20, 8)], rl := 0x3FFFFFFF },
  { name := "LO_DMX_STATUS", base := 0xC0408, dims := [(0x20, 8)], ro := 0xFFFF0007 },
  { name := "LO_RX_STATUS", base := 0xC0600, dims := [(0x4, 256)], ro := 0x7FFFFFFF }]

/-- Rows of the registers of chapter 15. -/
def regRows15_0 : List RegRow := [
  { name := "NET_CTRL", base := 0xD0000, dims := [], rw := 0x3 },
  { name := "NET_CFG", base := 0xD0004, dims := [], rl := 0x110 },
  { name := "NET_EVENT", base := 0xD0008, dims := [], w1c := 0x3F },
  { name := "NET_EVENT_EN", base := 0xD000C, dims := [], rw := 0x3F, rst := 0x1F },
  { name := "NET_PTP_CFG", base := 0xD0200, dims := [], rl := 0xFF318FFF },
  { name := "NET_PTP_DS", base := 0xD0204, dims := [], rl := 0xFFFFFFFF },
  { name := "NET_PTP_STATUS", base := 0xD0208, dims := [], ro := 0xF10FFFF },
  { name := "NET_PTP_OFFSET", base := 0xD020C, dims := [], ro := 0xFFFFFFFF },
  { name := "NET_PTP_DELAY", base := 0xD0210, dims := [], ro := 0xFFFFFFFF },
  { name := "NET_PTP_LEADER_LO", base := 0xD0214, dims := [], ro := 0xFFFFFFFF, pair := true },
  { name := "NET_PTP_LEADER_HI", base := 0xD0218, dims := [], ro := 0xFFFFFFFF },
  { name := "STM_TIME_LO", base := 0xD8000, dims := [], ro := 0xFFFFFFFF, pair := true },
  { name := "STM_TIME_HI", base := 0xD8004, dims := [], ro := 0xFFFFFFFF },
  { name := "STM_OFS_LO", base := 0xD8008, dims := [], ro := 0xFFFFFFFF, pair := true },
  { name := "STM_OFS_HI", base := 0xD800C, dims := [], ro := 0xFFFFFFFF },
  { name := "STM_STATUS", base := 0xD8010, dims := [], ro := 0xFFFFF307 },
  { name := "STM_CFG", base := 0xD8014, dims := [], rl := 0x1FFFFFF },
  { name := "STM_PPS", base := 0xD8018, dims := [], rw := 0xFFFF0001 },
  { name := "NETP_CFG", base := 0xD0100, dims := [(0x80, 2)], rl := 0xFFF10011 },
  { name := "NETP_MAC_LO", base := 0xD0104, dims := [(0x80, 2)], rl := 0xFFFFFFFF },
  { name := "NETP_MAC_HI", base := 0xD0108, dims := [(0x80, 2)], rl := 0xFFFF },
  { name := "NETP_IP", base := 0xD010C, dims := [(0x80, 2)], rl := 0xFFFFFFFF },
  { name := "NETP_PREFIX", base := 0xD0110, dims := [(0x80, 2)], rl := 0x1F },
  { name := "NETP_GW", base := 0xD0114, dims := [(0x80, 2)], rl := 0xFFFFFFFF },
  { name := "NETP_STATUS", base := 0xD0118, dims := [(0x80, 2)], ro := 0xF801FFFF },
  { name := "NETP_I2C", base := 0xD011C, dims := [(0x80, 2)], rw := 0x17FFFFF, wo := 0x80000000, ro := 0x60000000 },
  { name := "NETP_RX_FRAMES", base := 0xD0120, dims := [(0x80, 2)], ro := 0xFFFFFFFF },
  { name := "NETP_RX_DISCARDS", base := 0xD0124, dims := [(0x80, 2)], ro := 0xFFFFFFFF },
  { name := "NETP_RX_ERRORS", base := 0xD0128, dims := [(0x80, 2)], ro := 0xFFFFFFFF },
  { name := "NETP_TX_FRAMES", base := 0xD012C, dims := [(0x80, 2)], ro := 0xFFFFFFFF },
  { name := "NETP_TX_DROPPED", base := 0xD0130, dims := [(0x80, 2)], ro := 0xFFFFFFFF },
  { name := "NETP_ASYM", base := 0xD0134, dims := [(0x80, 2)], rl := 0xFFFFFFFF },
  { name := "NET_AES_TX_CFG", base := 0xD0400, dims := [(0x20, 8)], rw := 0x80000000, rl := 0x707FFFFF },
  { name := "NET_AES_TX_DEST", base := 0xD0404, dims := [(0x20, 8)], rl := 0xFFFFFFFF },
  { name := "NET_AES_TX_STATUS", base := 0xD0408, dims := [(0x20, 8)], ro := 0xFFFFFFFF },
  { name := "NET_AES_RX_CFG", base := 0xD0600, dims := [(0x20, 8)], rw := 0x80000000, rl := 0x707FFFFF },
  { name := "NET_AES_RX_GROUP", base := 0xD0604, dims := [(0x20, 8)], rl := 0xFFFFFFFF },
  { name := "NET_AES_RX_STATUS", base := 0xD0608, dims := [(0x20, 8)], ro := 0x8000FFFF },
  { name := "NET_AES_RX_DELAY", base := 0xD060C, dims := [(0x20, 8)], rl := 0x3FF }]

/-- Rows of the registers of chapter 16. -/
def regRows16_0 : List RegRow := [
  { name := "TCH_CTRL", base := 0xE0000, dims := [], rw := 0x1FF },
  { name := "TCH_STATUS", base := 0xE0004, dims := [], ro := 0x81FF01FF },
  { name := "TCH_EVENT", base := 0xE0008, dims := [], w1c := 0x7FF },
  { name := "TCH_EVENT_EN", base := 0xE000C, dims := [], rw := 0x7FF, rst := 0x130 },
  { name := "TCH_SCAN", base := 0xE0010, dims := [], rl := 0x3FF },
  { name := "TCH_AMP", base := 0xE0014, dims := [], rl := 0x1FF },
  { name := "TCH_STUCK_TIMEOUT", base := 0xE0018, dims := [], rs := 0xFFFF },
  { name := "TCH_NEG_THRESH", base := 0xE001C, dims := [], rs := 0xFFFFFFFF },
  { name := "TCH_HOP", base := 0xE0020, dims := [], rs := 0xFFFF },
  { name := "TCH_COMMIT", base := 0xE0024, dims := [], wo := 0x800001FF },
  { name := "TCH_COMMIT_STATUS", base := 0xE0028, dims := [], w1c := 0x1A, ro := 0xFF01 },
  { name := "TCH_FRAME", base := 0xE002C, dims := [], ro := 0xFFFFFFFF },
  { name := "TCH_GRAZE", base := 0xE0030, dims := [], rl := 0xFFFF1FFF },
  { name := "TCH_GRAZE_ZONE", base := 0xE0034, dims := [], rl := 0x1FFFFFFF },
  { name := "TCH_PK_STATE", base := 0xE0038, dims := [], ro := 0xFFFFFFFF },
  { name := "TCH_PK_LONG", base := 0xE003C, dims := [], ro := 0xFFFFFFFF },
  { name := "TCH_CS_BASE", base := 0xE0400, dims := [], rl := 0xFFFF },
  { name := "TCH_CS_CFG", base := 0xE0404, dims := [], rl := 0xF000F },
  { name := "TCH_CS_STATUS", base := 0xE0408, dims := [], ro := 0xFF000000 },
  { name := "TCH_CS_NOISE", base := 0xE040C, dims := [], ro := 0xFFFFFFFF },
  { name := "TCH_STUCK_TIMEOUT_ACT", base := 0xE0118, dims := [], ro := 0xFFFFFFFF },
  { name := "TCH_NEG_THRESH_ACT", base := 0xE011C, dims := [], ro := 0xFFFFFFFF },
  { name := "TCH_HOP_ACT", base := 0xE0120, dims := [], ro := 0xFFFFFFFF },
  { name := "TCH_F_LINES", base := 0xE0200, dims := [(0x20, 8)], rl := 0xFFFF7F7F },
  { name := "TCH_F_CFG", base := 0xE0204, dims := [(0x20, 8)], rl := 0xF1FFF },
  { name := "TCH_F_THRESH", base := 0xE0208, dims := [(0x20, 8)], rs := 0xFFFFFFFF },
  { name := "TCH_F_MAP", base := 0xE020C, dims := [(0x20, 8)], rs := 0x7FFFFFFF },
  { name := "TCH_F_STATUS", base := 0xE0210, dims := [(0x20, 8)], ro := 0xFF1FFFFF },
  { name := "TCH_F_NOISE", base := 0xE0214, dims := [(0x20, 8)], ro := 0xFFFFFFFF },
  { name := "TCH_F_BASE", base := 0xE0218, dims := [(0x20, 8)], rl := 0xFFFF },
  { name := "TCH_F_THRESH_ACT", base := 0xE0308, dims := [(0x20, 8)], ro := 0xFFFFFFFF },
  { name := "TCH_F_MAP_ACT", base := 0xE030C, dims := [(0x20, 8)], ro := 0xFFFFFFFF },
  { name := "TCH_CTL_CFG", base := 0xE1000, dims := [(0x10, 256)], rl := 0xFFF7FFF },
  { name := "TCH_CTL_THRESH", base := 0xE1004, dims := [(0x10, 256)], rs := 0xFFFFFFFF },
  { name := "TCH_CTL_KEY", base := 0xE1008, dims := [(0x10, 256)], rs := 0xFFFFFFFF },
  { name := "TCH_CTL_ACT", base := 0xE100C, dims := [(0x10, 256)], rs := 0x7F3FFF },
  { name := "TCH_CTL_THRESH_ACT", base := 0xE2004, dims := [(0x10, 256)], ro := 0xFFFFFFFF },
  { name := "TCH_CTL_KEY_ACT", base := 0xE2008, dims := [(0x10, 256)], ro := 0xFFFFFFFF },
  { name := "TCH_CTL_ACT_ACT", base := 0xE200C, dims := [(0x10, 256)], ro := 0xFFFFFFFF },
  { name := "TCH_U_REPORT", base := 0x10000200, dims := [(0x10000, 64)], rw := 0x1FF }]

/-- Rows of the registers of chapter 16. -/
def regRows16_1 : List RegRow := [
  { name := "TCH_U_STATUS", base := 0x10000204, dims := [(0x10000, 64)], w1c := 0x1 },
  { name := "TCH_U_RESYNC", base := 0x10000208, dims := [(0x10000, 64)], wo := 0x1 },
  { name := "TCH_U_PK_STATE", base := 0x1000020C, dims := [(0x10000, 64)], ro := 0xFFFFFFFF }]

/-- Rows of the registers of chapter 17. -/
def regRows17_0 : List RegRow := [
  { name := "HAP_CTRL", base := 0xF0000, dims := [], rw := 0x1 },
  { name := "HAP_STATUS", base := 0xF0004, dims := [], ro := 0x8001FFFF },
  { name := "HAP_EVENT", base := 0xF0008, dims := [], w1c := 0x7F },
  { name := "HAP_EVENT_EN", base := 0xF000C, dims := [], rw := 0x7F, rst := 0x1E },
  { name := "HAP_COMMIT", base := 0xF0010, dims := [], wo := 0x8000FFFF },
  { name := "HAP_COMMIT_STATUS", base := 0xF0014, dims := [], w1c := 0x1A, ro := 0xFF01 },
  { name := "HAP_LIB", base := 0xF0018, dims := [], ro := 0x1FF01FF },
  { name := "HAP_SPUR_CFG", base := 0xF0020, dims := [(0x4, 4)], rl := 0xFF1FF00F },
  { name := "HAPC_CTRL", base := 0xF0100, dims := [(0x40, 16)], wo := 0x3 },
  { name := "HAPC_STATUS", base := 0xF0104, dims := [(0x40, 16)], w1c := 0x1, ro := 0xF0FF0700 },
  { name := "HAPC_CFG", base := 0xF0108, dims := [(0x40, 16)], rs := 0x3F810001 },
  { name := "HAPC_LOOP", base := 0xF010C, dims := [(0x40, 16)], rs := 0xFFFFFF00 },
  { name := "HAPC_DRIVE", base := 0xF0110, dims := [(0x40, 16)], rl := 0xFFFF03FF },
  { name := "HAPC_LIMIT", base := 0xF0114, dims := [(0x40, 16)], rs := 0xFFFFFFFF },
  { name := "HAPC_SETTLE", base := 0xF0118, dims := [(0x40, 16)], rs := 0xFFFF },
  { name := "HAPC_ACC", base := 0xF011C, dims := [(0x40, 16)], ro := 0xFFFF },
  { name := "HAPC_COUNT", base := 0xF0120, dims := [(0x40, 16)], ro := 0xFFFFFFFF },
  { name := "HAPC_CFG_ACT", base := 0xF1108, dims := [(0x40, 16)], ro := 0xFFFFFFFF },
  { name := "HAPC_LOOP_ACT", base := 0xF110C, dims := [(0x40, 16)], ro := 0xFFFFFFFF },
  { name := "HAPC_LIMIT_ACT", base := 0xF1114, dims := [(0x40, 16)], ro := 0xFFFFFFFF },
  { name := "HAPC_SETTLE_ACT", base := 0xF1118, dims := [(0x40, 16)], ro := 0xFFFFFFFF }]

/-- Rows of the registers of chapter 18. -/
def regRows18_0 : List RegRow := [
  { name := "AUD_CTRL", base := 0x100000, dims := [], rw := 0x1 },
  { name := "AUD_CFG", base := 0x100004, dims := [], rl := 0x11 },
  { name := "AUD_STATUS", base := 0x100008, dims := [], ro := 0xF0010000 },
  { name := "AUD_EVENT", base := 0x10000C, dims := [], w1c := 0x7F },
  { name := "AUD_EVENT_EN", base := 0x100010, dims := [], rw := 0x7F, rst := 0x61 },
  { name := "AUD_COMMIT", base := 0x100014, dims := [], wo := 0x80000006 },
  { name := "AUD_COMMIT_TIME_LO", base := 0x100018, dims := [], rw := 0xFFFFFFFF },
  { name := "AUD_COMMIT_TIME_HI", base := 0x10001C, dims := [], rw := 0xFFFFFFFF },
  { name := "AUD_COMMIT_STATUS", base := 0x100020, dims := [], w1c := 0x1A, ro := 0xFF01 },
  { name := "AUD_BLOCK", base := 0x100024, dims := [], ro := 0xFFFFFFFF },
  { name := "AUD_BLOCK_TIME_LO", base := 0x100028, dims := [], ro := 0xFFFFFFFF, pair := true },
  { name := "AUD_BLOCK_TIME_HI", base := 0x10002C, dims := [], ro := 0xFFFFFFFF },
  { name := "AUD_XP_ADDR", base := 0x100030, dims := [], rw := 0x1FFF, wo := 0x80000000 },
  { name := "AUD_XP_DATA", base := 0x100034, dims := [], rw := 0xFFFF },
  { name := "AUD_METER_CFG", base := 0x100038, dims := [], rw := 0xFFFF, rst := 0x5DC },
  { name := "AUD_UNDERRUNS", base := 0x10003C, dims := [], ro := 0xFFFFFFFF },
  { name := "AUD_ALARM_LO", base := 0x100040, dims := [], ro := 0xFFFFFFFF, pair := true },
  { name := "AUD_ALARM_HI", base := 0x100044, dims := [], ro := 0xFFFFFFFF },
  { name := "AUD_TDM_CFG", base := 0x100200, dims := [(0x10, 8)], rl := 0x37F },
  { name := "AUD_TDM_STATUS", base := 0x100204, dims := [(0x10, 8)], ro := 0x8000FFFF },
  { name := "AUD_IN_CFG", base := 0x101000, dims := [(0x10, 128)], rs := 0x77FBF80 },
  { name := "AUD_IN_METER", base := 0x101004, dims := [(0x10, 128)], w1c := 0xC0000000, ro := 0xFFFFFF },
  { name := "AUD_IN_HOLD", base := 0x101008, dims := [(0x10, 128)], ro := 0xFFFFFF },
  { name := "AUD_BUS_CFG", base := 0x102000, dims := [(0x10, 64)], rs := 0xFF0F },
  { name := "AUD_BUS_METER", base := 0x102004, dims := [(0x10, 64)], w1c := 0x80000000, ro := 0xFFFFFF },
  { name := "AUD_BUS_HOLD", base := 0x102008, dims := [(0x10, 64)], ro := 0xFFFFFF },
  { name := "AUD_BUS_STATUS", base := 0x10200C, dims := [(0x10, 64)], ro := 0xFFFF00FF },
  { name := "AUD_SINK", base := 0x103000, dims := [(0x4, 192)], rs := 0x13F },
  { name := "AUD_VOICE_CFG", base := 0x104000, dims := [(0x10, 64)], rs := 0x3FF },
  { name := "AUD_VOICE_CTRL", base := 0x104004, dims := [(0x10, 64)], wo := 0x3 },
  { name := "AUD_VOICE_STATUS", base := 0x104008, dims := [(0x10, 64)], ro := 0x3 },
  { name := "AUD_IN_CFG_ACT", base := 0x109000, dims := [(0x10, 128)], ro := 0xFFFFFFFF },
  { name := "AUD_BUS_CFG_ACT", base := 0x10A000, dims := [(0x10, 64)], ro := 0xFFFFFFFF },
  { name := "AUD_SINK_ACT", base := 0x10B000, dims := [(0x4, 192)], ro := 0xFFFFFFFF },
  { name := "AUD_VOICE_CFG_ACT", base := 0x10C000, dims := [(0x10, 64)], ro := 0xFFFFFFFF }]

/-- Rows of the registers of chapter 19. -/
def regRows19_0 : List RegRow := [
  { name := "EVR_CTRL", base := 0x20000, dims := [], rw := 0x1, wo := 0x2 },
  { name := "EVR_CFG", base := 0x20004, dims := [], rl := 0x800003FF },
  { name := "EVR_STATUS", base := 0x20008, dims := [], ro := 0xC007FFFF },
  { name := "EVR_EVENT", base := 0x2000C, dims := [], w1c := 0xF },
  { name := "EVR_EVENT_EN", base := 0x20010, dims := [], rw := 0xF, rst := 0x3 },
  { name := "EVR_THRESH", base := 0x20014, dims := [], rw := 0x3FFFF, rst := 0x400 },
  { name := "EVR_ACK", base := 0x20018, dims := [], rw := 0xFFFFFFFF },
  { name := "EVR_WIN", base := 0x2001C, dims := [], rw := 0x3FF },
  { name := "EVR_NEXT_LO", base := 0x20020, dims := [], ro := 0xFFFFFFFF, pair := true },
  { name := "EVR_NEXT_HI", base := 0x20024, dims := [], ro := 0xFFFF },
  { name := "EVR_OLDEST_LO", base := 0x20028, dims := [], ro := 0xFFFFFFFF, pair := true },
  { name := "EVR_OLDEST_HI", base := 0x2002C, dims := [], ro := 0xFFFF },
  { name := "EVR_BASE_LO", base := 0x20030, dims := [], ro := 0xFFFFFFFF, pair := true },
  { name := "EVR_BASE_HI", base := 0x20034, dims := [], ro := 0xFFFF },
  { name := "EVR_DROPPED", base := 0x20038, dims := [], ro := 0xFFFFFFFF },
  { name := "EVR_SEC_NEXT", base := 0x2003C, dims := [], ro := 0xFFFFFFFF },
  { name := "EVR_U_CFG", base := 0x1000C000, dims := [(0x10000, 64)], ro := 0xFFFFFFFF },
  { name := "EVR_U_STATUS", base := 0x1000C004, dims := [(0x10000, 64)], ro := 0xFFFFFFFF },
  { name := "EVR_U_WIN", base := 0x1000C008, dims := [(0x10000, 64)], rw := 0x3FF },
  { name := "EVR_U_NEXT_LO", base := 0x1000C010, dims := [(0x10000, 64)], ro := 0xFFFFFFFF, pair := true },
  { name := "EVR_U_NEXT_HI", base := 0x1000C014, dims := [(0x10000, 64)], ro := 0xFFFF },
  { name := "EVR_U_OLDEST_LO", base := 0x1000C018, dims := [(0x10000, 64)], ro := 0xFFFFFFFF, pair := true },
  { name := "EVR_U_OLDEST_HI", base := 0x1000C01C, dims := [(0x10000, 64)], ro := 0xFFFF },
  { name := "EVR_U_BASE_LO", base := 0x1000C020, dims := [(0x10000, 64)], ro := 0xFFFFFFFF, pair := true },
  { name := "EVR_U_BASE_HI", base := 0x1000C024, dims := [(0x10000, 64)], ro := 0xFFFF }]

/-- Rows of the registers of chapter 20. -/
def regRows20_0 : List RegRow := [
  { name := "PCR_REQ", base := 0x10000, dims := [], wo := 0x80000007 },
  { name := "PCR_STATUS", base := 0x10004, dims := [], w1c := 0x6, ro := 0xE79FFF00 },
  { name := "PCR_EVENT", base := 0x10008, dims := [], w1c := 0x3F },
  { name := "PCR_EVENT_EN", base := 0x1000C, dims := [], rw := 0x3F, rst := 0x16 },
  { name := "PCR_CFG", base := 0x10010, dims := [], rl := 0xC0070000 },
  { name := "PCR_DELAY_MAX", base := 0x10014, dims := [], rw := 0xFFFF, rst := 0x1388 },
  { name := "PCR_JET_POINT", base := 0x10018, dims := [], rw := 0x7 },
  { name := "PCR_JET_STATE", base := 0x1001C, dims := [], ro := 0x70707FF },
  { name := "PCR_CORE", base := 0x10020, dims := [], ro := 0x7FF },
  { name := "PCR_THERMAL", base := 0x10024, dims := [], rl := 0xFFFF },
  { name := "PCR_TEMP", base := 0x10028, dims := [], ro := 0xFFFFFFFF },
  { name := "PCR_GATE", base := 0x1002C, dims := [], rw := 0x7FFFFF },
  { name := "PCR_DENIED", base := 0x10030, dims := [], ro := 0x1F },
  { name := "PCR_AVS_CFG", base := 0x10034, dims := [], rl := 0x3F },
  { name := "PCR_AVS_STATUS", base := 0x10038, dims := [], w1c := 0x100, ro := 0x7 },
  { name := "PCR_WAKE_CFG", base := 0x1003C, dims := [], rl := 0xF },
  { name := "PCR_WAKE_INFO", base := 0x10040, dims := [], ro := 0xFF071FFF },
  { name := "PCR_STABLED_TIMER", base := 0x10044, dims := [], rw := 0xFFFFFFFF },
  { name := "PCR_RESET", base := 0x10048, dims := [], wo := 0xFFFF }]

/-- Every register of the spec. -/
def regRows : List (List RegRow) := [regRows01_0, regRows03_0, regRows04_0, regRows05_0, regRows06_0, regRows07_0, regRows08_0, regRows10_0, regRows11_0, regRows11_1, regRows11_2, regRows12_0, regRows12_1, regRows13_0, regRows13_1, regRows14_0, regRows15_0, regRows16_0, regRows16_1, regRows17_0, regRows18_0, regRows19_0, regRows20_0]

end Sys2Proof.Machine
end

