-- ==== Sys2Proof/Machine/Sparse.lean ====
section
/-! DEFINITION. A sparse map in one canonical form: pairs sorted by strictly rising key, none equal to what an unlisted
key reads as. Memories (Host.Cell lists), the register file and the large arrays of the device are held this way. -/

namespace Sys2Proof.Machine

/-- Read key `k`; an unlisted key reads as `d k`. -/
def spGet {α : Type} (d : Nat → α) : List (Nat × α) → Nat → α
  | [], k => d k
  | (j, v) :: l, k => if k = j then v else spGet d l k

/-- Insert `v` at key `k` in a sorted list, replacing what stands there. -/
def spIns {α : Type} : List (Nat × α) → Nat → α → List (Nat × α)
  | [], k, v => [(k, v)]
  | (j, u) :: l, k, v =>
    if k < j then (k, v) :: (j, u) :: l
    else if k = j then (k, v) :: l
    else (j, u) :: spIns l k v

/-- Remove every entry of key `k`. -/
def spDel {α : Type} : List (Nat × α) → Nat → List (Nat × α)
  | [], _ => []
  | (j, u) :: l, k => if k = j then spDel l k else (j, u) :: spDel l k

/-- Write `v` at key `k`: the entry is removed where `v` is what an unlisted key reads as. -/
def spSet {α : Type} [DecidableEq α] (d : Nat → α) (l : List (Nat × α)) (k : Nat) (v : α) : List (Nat × α) :=
  if v = d k then spDel l k else spIns l k v

/-- Every key of the list is above `b`. -/
def spAbove {α : Type} (b : Nat) : List (Nat × α) → Bool
  | [] => true
  | (j, _) :: _ => b < j

/-- The canonical form: keys strictly rising, and no entry equal to what an unlisted key reads as. -/
def spWf {α : Type} [DecidableEq α] (d : Nat → α) : List (Nat × α) → Bool
  | [] => true
  | (j, v) :: l => decide (v ≠ d j) && spAbove j l && spWf d l

end Sys2Proof.Machine
end

