-- ==== Sys2Proof/Machine/StateCore.lean ====
section
/-! DEFINITION. The plain data of the device's common parts: clocks, pins, fuses, flash, memory and ownership, host ports,
contexts, recorder and power (spec/01 to spec/07, spec/19, spec/20). -/

namespace Sys2Proof.Machine

/-- The reset word of every register whose reset word is not zero (R13, the reset columns of the summary tables; the MSI-X
vector-control mask bit is PRESUMED from PCIe, assumption 9). -/
def regReset (k : Nat) : Word :=
  let arr := fun (b s n : Nat) => decide (b ≤ k) && decide ((k - b) % s = 0) && decide ((k - b) / s < n)
  if k = Reg.SYS_STATE then 0x1
  else if k = Reg.WH_STATUS then 0x3
  else if k = Reg.WH_FAIL_A || k = Reg.WH_FAIL_B then 0xFF00
  else if k = Reg.CQ_RUNLIMIT_BULK then 0x7530
  else if k = Reg.CQ_RUNLIMIT_INTERACTIVE then 0x3E8
  else if k = Reg.CQ_RUNLIMIT_DEADLINE then 0x64
  else if k = Reg.BSN_APT_BASE then 0x40
  else if k = Reg.JA_SIPHON then 0x1
  else if k = Reg.JA_EVENT_EN then 0x1F
  else if k = Reg.JA_DL_EVENT_EN then 0x3
  else if arr (Reg.JA_DL_MIN_SLACK 0) 0x10 8 then 0x7FFFFFFF
  else if arr (Reg.CMP_EVENT_EN 0) 0x2000 10 then 0x7
  else if arr (Reg.CMP_HOLD 0) 0x2000 10 then 0x100
  else if arr (Reg.HD_EVENT_EN 0) 0x2000 8 then 0x17D08
  else if arr (Reg.HD_LATCH_GUARD 0) 0x2000 8 || arr (Reg.HD_LATCH_GUARD_ACT 0) 0x2000 8 then 0x2
  else if k = Reg.IM_EVENT_EN then 0x3F
  else if k = Reg.LO_EVENT_EN then 0x13
  else if k = Reg.NET_EVENT_EN then 0x1F
  else if k = Reg.TCH_EVENT_EN then 0x130
  else if k = Reg.HAP_EVENT_EN then 0x1E
  else if k = Reg.AUD_EVENT_EN then 0x61
  else if k = Reg.AUD_METER_CFG then 0x5DC
  else if k = Reg.EVR_EVENT_EN then 0x3
  else if k = Reg.EVR_THRESH then 0x400
  else if k = Reg.PCR_EVENT_EN then 0x16
  else if k = Reg.PCR_DELAY_MAX then 0x1388
  else if 0x10000000 ≤ k && k < 0x10400000 && decide (0x80C ≤ k % 0x10000) && decide (k % 0x10000 < 0xA00)
    && decide (k % 16 = 12) then 0x1
  else 0

/-- What a byte nothing has written reads as: zero (R173, R181 make it so at RUN entry; before RUN a design choice,
assumption 3). Erased flash reads 0xFF (assumption 3). -/
def zeroByte (_ : Nat) : Byte := 0
def erasedByte (_ : Nat) : Byte := 0xFF

/-- Clocks and show time (R23, R24). -/
structure Clk where
  /-- STM_TIME in ns. -/
  stm : Nat := 0
  /-- Sub-nanosecond part of STM_TIME, in units of 1/(6 × 10^9) ns: a fabric cycle at 1.2 GHz is 5/6 ns at nominal rate. -/
  frac : Nat := 0
  /-- Fabric cycles since the last entry to BOOT. -/
  cycle : Nat := 0
  /-- The show-time echo of each other domain of Table 1.3. -/
  echo : List Nat := [0, 0, 0, 0, 0, 0, 0, 0, 0, 0]
  /-- STM_TIME at RUN entry (R181 counts from it). -/
  runEntry : Nat := 0
  /-- A numbered count of free values already taken (the model's own field, assumption 1). -/
  free : Nat := 0
  deriving DecidableEq, Repr

/-- Pins and supply monitors (R36, R43–R51, R59, R61). -/
structure Pins where
  /-- PORn high. -/
  porn : Bool := true
  /-- Monitored rails that are not good, by the rail numbers of Table 2.5 in its order. -/
  railsLow : List Nat := []
  /-- Rails whose monitor is masked, and whether VR_PGOOD is (R49). -/
  maskedRails : List Nat := []
  pgoodMasked : Bool := false
  /-- Levels of BOOTSEL[1:0] at the balls, and the value last sampled (R44). -/
  bootsel : Nat := 0
  bootSample : Nat := 0
  /-- THERMTRIPn asserted (R61). -/
  thermtrip : Bool := false
  /-- Which signal groups hold their state of Table 2.4 (R36), in that table's order. -/
  groupsSafe : List Bool := [false, true, true, true, true, true, true, true, true, true]
  /-- Setpoints of VDD_JET and VDD_CORE at the regulator, in mV; 0 is off (R39, R48, R479). -/
  jetMv : Nat := 750
  coreMv : Nat := 800
  /-- The boundary-scan register (R59). -/
  scan : List Bool := []
  /-- Levels of SPUR3–SPUR0. -/
  spur : Nat := 0
  deriving DecidableEq, Repr

/-- The test access port (R59, R110, R111). -/
inductive TapInstr
  | reset | bypass | idcode | extest | sample | debugSel
  deriving DecidableEq, Repr

/-- OTP fuses (Table 4.2) and the crypto engine's image key. -/
structure Fuses where
  keyHash : List (List Byte) := [[], [], [], []]
  keyProg : Nat := 0
  keyRevoked : Nat := 0
  imageKey : Nat := 0
  imageKeyProg : Bool := false
  minSec : Nat := 0
  partCode : Nat := 1
  debugOff : Bool := true
  uniqueId : Nat := 0
  silicon : Nat := 1
  coreMv : Nat := 800
  deriving DecidableEq, Repr

/-- A slot directory copy (Table 3.3). -/
structure Dir where
  sequence : Nat
  preferred : Nat
  stateA : Nat
  stateB : Nat
  tries : Nat
  deriving DecidableEq, Repr

/-- An event record offered to the recorder (Table 19.1 less its number and CRC). -/
structure Rec where
  code : Nat
  time : Nat
  d0 : Nat
  d1 : Nat
  d2 : Nat
  deriving DecidableEq, Repr

/-- Start-up state (spec/03): pending directory write, deferred confirm, running flash command. -/
structure Boot where
  /-- Flash contents; an unlisted byte is erased. -/
  flash : List (Nat × Byte) := []
  /-- The directory in force, as Wellhead read it. -/
  dir : Option Dir := none
  /-- Directory writes decided and not yet carried out, oldest first: the copy (0 or 1) each rewrites, and its content (R73). -/
  dirWrites : List (Nat × Dir) := []
  /-- Sectors left undefined by a reset during ERASE or PROGRAM, with the number of the free contents they hold (R90). -/
  undef : List (Nat × Nat) := []
  /-- The slot that Wellhead has loaded and applied, when RUN_ENTRY is due. -/
  loaded : Option Nat := none
  runPower : Nat := 0
  /-- The running flash command: op, address, length. -/
  cmd : Option (Nat × Nat × Nat) := none
  /-- A confirm that waits for flash_busy to clear (Table 3.15). -/
  confirmWaits : Bool := false
  /-- advance_rollback of the active slot's header (R86). -/
  advance : Bool := false
  /-- Header key_index of the active slot (R93). -/
  keyIndex : Nat := 0
  /-- run_power_state, hp_vfs, hp_width of PLATFORM (Table 3.7), and image_key removed until PORn (R111). -/
  hpWidth : List Nat := [0, 0, 0, 0]
  hpVfs : List Nat := [0, 0, 0, 0]
  hpGen : List Nat := [0, 0, 0, 0]
  /-- Ports that use SRIS, one bit each (Table 3.7). -/
  hpSris : Nat := 0
  imageKeyRemoved : Bool := false
  /-- Which section types of Table 3.6 the image holds (R85). -/
  sections : List Nat := []
  /-- Length of KOROFT_CODE in the secure region. -/
  codeLen : Nat := 0
  /-- Show time of each step of Table 3.1 in the start-up log: step, slot, time. -/
  log : List Rec := []
  /-- What waits after a reset: the entry_cause with which BOOT is entered (R50, R479). -/
  resetCause : Option Nat := none
  /-- Declared paddocks (R85). -/
  declared : List Nat := []
  deriving DecidableEq, Repr


/-- A request held at an owner check unit after a cache miss (R99). -/
structure HeldReq where
  unit : Nat
  granule : Nat
  master : Master
  actor : Nat
  mem : MemSel
  addr : Nat
  write : Bool
  data : List Byte
  len : Nat
  job : Option JobRef
  ecc : EccFind
  deriving DecidableEq, Repr

/-- Memory, ECC and ownership (spec/04, spec/07). -/
structure Mem where
  basin : List Host.Cell := []
  dram : List Host.Cell := []
  /-- 8-byte words that hold an uncorrectable error (R170). -/
  bad : List (MemSel × Nat) := []
  /-- Corrected words waiting for their write-back (R169). -/
  writeback : List (MemSel × Nat) := []
  /-- Patrol scrubber: the line index within every bank that is read next (R172). -/
  scrub : Nat := 0
  /-- The initialiser: granules below `swept` are zeroed, and granules listed are initialised (R181). -/
  swept : Nat := 0
  inited : List Nat := []
  /-- Owner entries that differ from those of RUN entry, granule to entry (R94). -/
  owner : List (Nat × Nat) := []
  /-- The entry of a general granule that no OWNER_TABLE names: FREE, or the manager's (Table 3.9). -/
  ownerDflt : Nat := 0
  /-- Granules whose owner entry failed ECC (R100). -/
  ownerFailed : List Nat := []
  /-- Owner check units: cached granules and held misses (R99). -/
  ownerCache : List (Nat × Nat) := []
  ownerHeld : List HeldReq := []
  /-- Requests that wait at a unit whose 8 misses are outstanding, oldest first (R99). -/
  ownerWait : List HeldReq := []
  deriving DecidableEq, Repr

/-- Secure world (spec/04): the request in progress, watchdog and secure records. -/
structure Sec where
  /-- The request in progress: op, first granule and count. -/
  req : Option (List Nat) := none
  data : List Nat := [0, 0, 0, 0, 0, 0, 0, 0, 0, 0, 0, 0]
  lastKick : Nat := 0
  paused : Bool := false
  /-- Expiry times of the restarts within the last 60 s (R109), oldest first. -/
  expiries : List Nat := []
  restartAt : Nat := 0
  /-- Secure record area: sequence of the next record and the slots stored (R463). -/
  secNext : Nat := 0
  secSlots : List (Nat × List Nat) := []
  deriving DecidableEq, Repr

/-- One PCIe function (R113–R126). present, bme and msix_en stand in PDK_m_STATE. -/
structure Fn where
  fnMask : Bool := false
  d3hot : Bool := false
  bar0 : Nat := 0
  bar2 : Nat := 0
  /-- A reset of the function has been asked and its paddock has yet to quiesce (R124). -/
  resetting : Bool := false
  deriving DecidableEq, Repr

/-- A read of host memory in flight: its tag, context, job ring index, descriptor byte offset of the buffer, and whether a
rein has orphaned it (R157). -/
structure HostRead where
  tag : Nat
  ctx : Nat
  sq : Nat
  off : Nat
  orphaned : Bool := false
  deriving DecidableEq, Repr

/-- A read of host memory that waits for a credit: its context, job ring index, descriptor byte offset, address and length
(R143, Table 5.1). -/
structure ReadWait where
  ctx : Nat
  sq : Nat
  off : Nat
  addr : Nat
  len : Nat
  deriving DecidableEq, Repr

/-- One host port. -/
structure Port where
  down : Bool := false
  /-- HPn_WAKEn is driven low (R473). -/
  wakeLow : Bool := false
  vfEnable : Bool := false
  numVfs : Nat := 0
  ctoValue : Nat := 0
  vfBar0 : Nat := 0
  /-- ECRC generation and checking, and the error status of AER (R113, R117). -/
  ecrcGen : Bool := false
  ecrcChk : Bool := false
  aerUnc : Nat := 0
  aerCor : Nat := 0
  /-- Reads in flight, by tag. -/
  reads : List HostRead := []
  deriving DecidableEq, Repr

/-- A layer grant or revoke that waits for a frame start of its composer's timing head; `latched` once a latch line has
begun since it arrived, `applied` from that frame start on (R132). -/
structure LayerChange where
  comp : Nat
  layer : Nat
  paddock : Nat
  grant : Bool
  latched : Bool := false
  applied : Bool := false
  deriving DecidableEq, Repr

/-- Host side (spec/05). -/
structure Hp where
  ports : List Port := [{}, {}, {}, {}]
  fns : List (Nat × Fn) := []
  /-- MSI-X messages raised on an unmasked vector and not yet sent: paddock, vector (R123). -/
  msix : List (Nat × Nat) := []
  /-- The running PDK_CMD: op, kind, paddock, arg (R134). -/
  cmd : Option (List Nat) := none
  /-- Layer grants and revokes waiting for their frame (R132). -/
  layerChanges : List LayerChange := []
  /-- Paddock and vector of messages that stay pending until sent: a manager interrupt without a cause register (R123,
  Table 21.5), and a message whose vector was masked before it left. -/
  sticky : List (Nat × Nat) := []
  /-- Cause bits that raised a masked vector 0 or 1: paddock, vector, cause register, bit (R123). -/
  masked : List (Nat × Nat × Nat × Nat) := []
  /-- Reads that wait for a credit, oldest first (R143). -/
  readWaits : List ReadWait := []
  deriving DecidableEq, Repr

/-- A job admitted by the context engine (R141). -/
structure Job where
  sq : Nat
  raw : List Byte
  started : Bool := false
  startT : Nat := 0
  /-- Count of Table 6.11 and a second word of it. -/
  count : Nat := 0
  aux : Nat := 0
  /-- Of the progress record: its variable part in 32-bit words, list_count and extent (Table 6.11). -/
  vari : List Nat := []
  listCount : Nat := 0
  extent : Nat := 0
  /-- Nanoseconds of ring-full waits of the context before the job started (R152). -/
  full0 : Nat := 0
  /-- Bytes that a host read returned for the job (R117). -/
  data : List Byte := []
  deriving DecidableEq, Repr

/-- A context (spec/06). Its state, cq_full, rein_pending_cq, cfg_busy and last_status stand in CQ_CTX_STATUS. -/
structure Ctx where
  sqBase : Nat := 0
  cqBase : Nat := 0
  cfg : Nat := 0
  tail : Nat := 0
  sqHead : Nat := 0
  cqHead : Nat := 0
  cqTail : Nat := 0
  /-- Entries in the completion ring that the guest has not freed. -/
  cqUsed : Nat := 0
  phase : Bool := true
  jobs : List Job := []
  /-- Finished entries that wait for ring space (R142), and whether each asks for a message. -/
  held : List (List Byte × Bool) := []
  /-- Rein: source 0 paddock, 1 manager, 2 quiesce; RESET to follow; UNASSIGN or FLR to follow. -/
  reinSrc : Nat := 0
  /-- The rein found the context IDLE (R161). -/
  reinIdle : Bool := false
  resetAfter : Bool := false
  idleAfter : Bool := false
  /-- A fault is decided and running jobs of other classes finish (R153, R491): its status. -/
  faulting : Option Nat := none
  /-- Nanoseconds of ring-full waits ended so far, and when a wait now running began (R142, R152). -/
  fullNs : Nat := 0
  fullSince : Option Nat := none
  deriving DecidableEq, Repr

/-- An open rate-limit interval (R488). -/
structure RateIv where
  code : Nat
  unit : Nat
  len : Nat
  ends : Nat
  count : Nat
  /-- Items before and after the count, of the first event counted, and its time. -/
  pre : List (Nat × Nat)
  post : List (Nat × Nat)
  time : Nat
  deriving DecidableEq, Repr

/-- The recorder (spec/19). EVR_NEXT, EVR_OLDEST and EVR_BASE are 48-bit numbers held here. -/
structure Evr where
  next : Nat := 0
  oldest : Nat := 0
  base : Nat := 0
  /-- Mode and keep_k in force since the last rearm (R459). -/
  mode : Nat := 0
  keepK : Nat := 0
  /-- Records offered and not yet accepted, in the order in which they were offered. -/
  offered : List Rec := []
  /-- How many of them, counted from the front, were offered before the present fabric cycle, and stand in their order (R454). -/
  settled : Nat := 0
  droppedSince : Nat := 0
  levelArmed : Bool := true
  rate : List RateIv := []
  deriving DecidableEq, Repr

/-- Power controller (spec/20). -/
structure Pwr where
  /-- A transition in progress: target, blocks asked that have not accepted (R467). -/
  trans : Option (Nat × List Nat) := none
  /-- The state GRAZE returns to (R471). -/
  back : Nat := 0
  /-- A wake in progress: source, step, ticks since the source (R471). -/
  wake : Option (Nat × Nat × Nat) := none
  /-- A jet point change not yet begun: its target point (R475). -/
  dvfs : Option Nat := none
  /-- The change begun and not ended: its target point. -/
  moving : Option Nat := none
  /-- AVSBus transactions, the one in flight first: rail, command, value, failures so far (R478). -/
  avs : List (Nat × Nat × Nat × Nat) := []
  /-- Fabric-cycle lengths spent in GRAZE, from which the always-on count is taken (R470). -/
  grazeTicks : Nat := 0
  deriving DecidableEq, Repr

/-- What has left the device, newest first: the observable traffic of a command. -/
inductive Emit
  | crs (port fn : Nat)
  | cfgReply (port fn value : Nat)
  | regRead (view paddock offset value : Nat)
  | memRead (addr : Nat) (data : List Byte) (poisoned : Bool)
  | hostWrite (paddock addr : Nat) (data : List Byte)
  | hostRead (paddock addr len tag : Nat)
  | msix (paddock vector addr data : Nat)
  | tapShift (value : Nat)
  | tapScan (cells : List Bool)
  | boundary (cells : List Bool)
  /-- A frame with its DSCP and its 802.1Q tag (PCP and VLAN identifier), if it has one (R387, Table 15.1). -/
  | frame (port kind dscp : Nat) (tag : Option (Nat × Nat)) (data : List Nat)
  | aux (head cmd addr : Nat) (data : List Byte)
  | dmx (port univ : Nat) (slots : List Nat)
  | rdm (port : Nat) (data : List Byte)
  | pixels (composer frame line : Nat)
  | audio (sink : Nat) (samples : List Int)
  | avs (rail cmd value : Nat)
  | pin (name : String) (level : Nat)
  | blPwm (head hz duty : Nat)
  | i2c (port dev reg data : Nat)
  | refresh (channel kind : Nat)
  deriving DecidableEq, Repr

end Sys2Proof.Machine
end

