-- ==== Sys2Proof/Machine/TouchState.lean ====
section
/-! DEFINITION. The plain data of the touch block (spec/16) that is not a register: frames, baseline captures, contacts,
controls, the privileged-key path, reports that are owed, and the GRAZE sequencer. A unit is a field 0–7, or 8 for the
control scan. -/

namespace Sys2Proof.Machine

/-- A baseline capture in progress at one plan (R407, R409): its nodes with the sums of their raw values, frames summed, and
whether it is the plan's first capture (else a recapture). -/
structure Capt where
  plan : Nat
  sums : List (Nat × Nat)
  frames : Nat
  first : Bool
  deriving DecidableEq, Repr

/-- When a touch began to be stationary, its position in node pitches and its peak delta then (R410). -/
structure Still where
  since : Nat
  x : ℚ
  y : ℚ
  peak : Int
  deriving DecidableEq, Repr

/-- A contact of a field (R412): identity, position in node pitches, reported position, position last reported, peak delta,
size, its nodes, and how long it has been stationary. -/
structure Contact where
  ident : Nat
  px : ℚ
  py : ℚ
  x : Nat
  y : Nat
  told : Nat × Nat
  peak : Int
  size : Nat
  nodes : List Nat
  still : Still
  deriving DecidableEq, Repr

/-- A control (R413): pressed, frames in a row toward the other state, value, value last reported, t_F of the press, peak
delta, size, and how long it has been stationary. -/
structure Ctl where
  pressed : Bool := false
  run : Nat := 0
  value : Nat := 0
  told : Nat := 0
  pressT : Nat := 0
  peak : Int := 0
  size : Nat := 0
  still : Option Still := none
  /-- The ALARM source that its press raised (R415). -/
  alarm : Option Nat := none
  deriving DecidableEq, Repr

/-- The path of a privileged key (R416): transitions kept while the safety paddock's ring has no room. -/
structure PkPath where
  kept : Nat := 0
  deriving DecidableEq, Repr

/-- A field or the control scan: frames have begun for it; ordinary frames since its start; captures in progress; nodes with
their frames in a row below −thresh; frozen nodes of the last ordinary frame; noise of each plan in the last quiet frame, none
before the first; the plan refreshed last; its contacts. -/
structure TchUnit where
  begun : Bool := false
  frames : Nat := 0
  caps : List Capt := []
  neg : List (Nat × Nat) := []
  frozen : List Nat := []
  noise : Option (List Nat) := none
  refreshed : Nat := 0
  contacts : List Contact := []
  deriving DecidableEq, Repr

/-- A touch commit that waits for the next frame start: its words (R422). -/
structure TchCommit where
  words : List (Nat × Nat)
  deriving DecidableEq, Repr

/-- The GRAZE sequencer (R423): the sums of the baseline capture and its frames, the baseline once captured, the slide being
watched as start and last position of each contact, the mode and node of a wake whose record waits. -/
structure Graze where
  sums : List Nat := []
  frames : Nat := 0
  base : List Nat := []
  slide : Option (List ((ℚ × ℚ) × (ℚ × ℚ))) := none
  woke : Option (Nat × Nat) := none
  deriving DecidableEq, Repr

/-- The touch block. -/
structure Tch where
  units : List TchUnit := List.replicate 9 {}
  ctls : List (Nat × Ctl) := []
  pk : List (Nat × PkPath) := []
  /-- t_F and number of the last frame that ended. -/
  tF : Nat := 0
  nF : Nat := 0
  /-- TCH_U_REPORT as each paddock's frame in progress uses it (Table 16.5: applies from the next frame). -/
  report : List (Nat × Nat) := []
  /-- Paddocks whose reports could not all be written (R420). -/
  lost : List Nat := []
  /-- Paddocks that asked for a resync set: the next frame's, and those asked during the frame in progress (R420, R421). -/
  resync : List Nat := []
  asked : List Nat := []
  commit : Option TchCommit := none
  graze : Graze := {}
  deriving DecidableEq, Repr

end Sys2Proof.Machine
end

