-- ==== Sys2Proof/Machine/State.lean ====
section
/-! DEFINITION. The whole state of the device as plain data, the reasons a step can stop, and the state after reset. -/

namespace Sys2Proof.Machine

/-- The state of the NM8. Every register of the map has its home in `regs` unless a field here says otherwise. -/
structure State where
  /-- The register file: register key to word; an unlisted key reads as its reset word. -/
  regs : List (Nat × Word) := []
  /-- Captured _HI words of R9: (view tag, key of the _HI register, value). -/
  hic : List (Nat × Nat × Nat) := []
  clk : Clk := {}
  pins : Pins := {}
  tap : TapInstr := .reset
  fuses : Fuses := {}
  boot : Boot := {}
  mem : Mem := {}
  sec : Sec := {}
  hp : Hp := {}
  ctxs : List (Nat × Ctx) := []
  /-- Fence values (R149, R150); an unlisted fence is 0. -/
  fences : List (Nat × Nat) := []
  ja : Ja := {}
  cmp : Cmp := {}
  hd : Hd := {}
  im : Im := {}
  lo : Lo := {}
  net : Net := {}
  tch : Tch := {}
  hap : Hap := {}
  aud : Aud := {}
  evr : Evr := {}
  pwr : Pwr := {}
  /-- What has left the device, newest first. -/
  out : List Emit := []
  /-- Commands that wait, oldest first. -/
  pending : List Instr := []
  deriving DecidableEq, Repr

/-- Why a step stops with a fault. No meaning of this model raises one: the spec gives every command of the table an
effect (NOTES.md, Stops). Safe. -/
inductive Fault
  /-- Raised by nothing. Safe. -/
  | none
  deriving DecidableEq, Repr

/-- Why a step is refused. -/
inductive Refusal
  /-- Raised by an arm of `exec` whose command has no meaning yet. Safe. -/
  | notModelled (mnemonic : String)
  deriving DecidableEq, Repr

/-- The device right after PORn deassertion (R13: the reset columns hold then): state BOOT, every register at its reset
word, the two whose reset column reads Fuses as the fuses of `Fuses` show them (Tables 4.10, 20.10), memories empty, no
command waiting. -/
def State.reset : State := { regs := [(Reg.PCR_CORE, 0x320), (Reg.SEC_OTP_STATUS, 0x300000)] }

end Sys2Proof.Machine
end

