-- ==== Sys2Proof/Machine/Ops.lean ====
section
/-! DEFINITION. The shared operations: registers and fields, free values, records, interrupts, memories and the owner
table. -/

namespace Sys2Proof.Machine

/-! ### Registers -/

/-- The word of register `k`. -/
def State.reg (s : State) (k : Nat) : Nat := (spGet regReset s.regs k).toNat

/-- `s` with the word of register `k` set. -/
def State.setReg (s : State) (k v : Nat) : State :=
  { s with regs := spSet regReset s.regs k (BitVec.ofNat 32 v) }

/-- Field [hi:lo] of register `k`. -/
def State.fld (s : State) (k hi lo : Nat) : Nat := bitsOf (s.reg k) hi lo

/-- `s` with field [hi:lo] of register `k` set. -/
def State.setFld (s : State) (k hi lo v : Nat) : State := s.setReg k (putBits (s.reg k) hi lo v)

/-- Bit `i` of register `k`. -/
def State.bit (s : State) (k i : Nat) : Bool := (s.reg k).testBit i

/-- `s` with bit `i` of register `k` set to `b`. -/
def State.setBit (s : State) (k i : Nat) (b : Bool) : State := s.setFld k i i (b2n b)

/-- Register `k` counts up by `n`, saturating at its `w` bits from bit `lo`. -/
def State.count (s : State) (k hi lo n : Nat) : State := s.setFld k hi lo (satAdd (hi + 1 - lo) (s.fld k hi lo) n)

/-- A 64-bit value held in a register pair. -/
def State.reg64 (s : State) (klo khi : Nat) : Nat := s.reg klo + 2 ^ 32 * s.reg khi

/-- Set a register pair. -/
def State.setReg64 (s : State) (klo khi v : Nat) : State := (s.setReg klo (v % 2 ^ 32)).setReg khi (v / 2 ^ 32)

/-- The device state of Table 1.8 as SYS_STATE shows it. -/
def State.sysState (s : State) : Nat := s.fld Reg.SYS_STATE 2 0

/-- The device state in which the blocks work: 7, a code that Table 1.8 does not use, while a brown-out or a chip reset
holds them in reset (R50, R479). -/
def State.devState (s : State) : Nat := if s.boot.resetCause.isSome then 7 else s.sysState

/-- Apply `f` to the state once for each element of a list, in order. -/
def State.each {α : Type} (f : α → State → State) : List α → State → State
  | [], s => s
  | a :: as, s => State.each f as (f a s)

/-- Something leaves the device. -/
def State.emit (s : State) (e : Emit) : State := { s with out := e :: s.out }

/-- Signal group `g` of Table 2.4, numbered in its order, holds its state of that table (R36). -/
def State.held (s : State) (g : Nat) : Bool := s.pins.groupsSafe.getD g true

/-- Something leaves through the balls of group `g`, which carry nothing while the group holds its state (R36). -/
def State.emitOn (s : State) (g : Nat) (e : Emit) : State := if s.held g then s else s.emit e

/-- Every group but those of the list holds its state of Table 2.4. -/
def State.holdGroups (s : State) (live : List Nat) : State :=
  { s with pins := { s.pins with groupsSafe := (List.range 10).map fun g => !live.contains g } }

/-- The balls `pre`0`suf`, `pre`1`suf`, … at a level. -/
def pinsOf (pre suf : String) (n level : Nat) : List Emit := (List.range n).map fun i => .pin (pre ++ toString i ++ suf) level

/-- HAPn_PWMA and HAPn_PWMB low on every channel. -/
def hapLow : List Emit := pinsOf "HAP" "_PWMA" 16 0 ++ pinsOf "HAP" "_PWMB" 16 0

/-- The levels that Table 2.4 drives before programming. -/
def safeLevels : List Emit :=
  pinsOf "NET" "_TXDIS" 2 1 ++ pinsOf "HD" "_VDDEN" 8 0 ++ pinsOf "HD" "_BLEN" 8 0 ++ pinsOf "HD" "_BLPWM" 8 0
    ++ pinsOf "DDR" "_RESETn" 8 0 ++ [.pin "XSPI_RSTn" 0] ++ hapLow ++ pinsOf "DMX" "_DE" 8 0 ++ pinsOf "DMX" "_REn" 8 1

/-! ### Free values -/

/-- The next free value, `w` bits wide, and the state that has taken it (assumption 1). -/
def State.free (s : State) (w : Nat) : Nat := (Config.freeBits w s.clk.free).toNat

/-- `s` with one free value taken. -/
def State.took (s : State) : State := { s with clk := { s.clk with free := s.clk.free + 1 } }

/-! ### Small shared effects of register writes -/

/-- Key of a curve entry. -/
def lutKey (c bank ch e : Nat) : Nat := c * 65536 + bank * 16384 + ch * 4096 + e

/-- CMP_LUT_DATA takes a value: it goes into the entry that CMP_LUT_ADDR names, and the entry advances (R304). -/
def State.lutStore (s : State) (c value : Nat) : State :=
  let a := Reg.CMP_LUT_ADDR c
  let e := s.fld a 10 0
  let v := value % 4096
  let s1 := { s with cmp := { s.cmp with
    lut := if e ≤ 1024 ∧ s.fld a 13 12 < 3 then
        spSet (fun _ => 0) s.cmp.lut (lutKey c (s.fld a 16 16) (s.fld a 13 12) e) v
      else s.cmp.lut } }
  (s1.setReg (Reg.CMP_LUT_DATA c) v).setFld a 10 0 (e + 1)

/-- Basin offset of the audio partition, and its bytes. -/
def State.audBase (s : State) : Nat := s.fld (Reg.BSN_PART_BASE 6) 10 0 * 65536

/-- The active crosspoint bank, and the Basin offset of bank `b` (R443). -/
def State.audBank (s : State) : Nat := s.fld Reg.AUD_STATUS 16 16
def State.xpAt (s : State) (b : Nat) : Nat := s.audBase + 4096 + 16384 * b

/-- AUD_XP_DATA takes a value and the entry that AUD_XP_ADDR names advances (R443). -/
def State.xpStep (s : State) (value : Nat) : State :=
  (s.setReg Reg.AUD_XP_DATA (value % 65536)).setFld Reg.AUD_XP_ADDR 12 0 (s.fld Reg.AUD_XP_ADDR 12 0 + 1)

/-- A write that enables power block `b` (Table 20.2) ungates it, with no record (R469). -/
def State.ungate (s : State) (b : Nat) : State := s.setBit Reg.PCR_GATE b false

/-! ### Records (R454–R459, R484, R488) -/

/-- Pack items (width, value) into words d0, d1, d2 from bit 0 of d0 upward; an item that does not fit in the rest of the
word starts the next, and a 64-bit item takes two whole words (R484). `w` is the word being filled, `b` its next bit. -/
def packFrom : List (Nat × Nat) → (done : List Nat) → (w b : Nat) → List Nat
  | [], done, w, _ => done ++ [w]
  | (n, v) :: is, done, w, b =>
    if n = 64 then
      let done' := if b = 0 then done else done ++ [w]
      packFrom is (done' ++ [v % 2 ^ 32, v / 2 ^ 32 % 2 ^ 32]) 0 0
    else if b + n ≤ 32 then packFrom is done (w + 2 ^ b * (v % 2 ^ n)) (b + n)
    else packFrom is (done ++ [w]) (v % 2 ^ n) n

/-- The record of event `code` with its items, at show time `t`. -/
def mkRec (code : Nat) (items : List (Nat × Nat)) (t : Nat) : Rec :=
  let ws := packFrom items [] 0 0
  { code := code, time := t, d0 := ws.getD 0 0, d1 := ws.getD 1 0, d2 := ws.getD 2 0 }

/-- Offer the record of an event that happens now (R24: stamped with STM_TIME). -/
def State.offer (s : State) (code : Nat) (items : List (Nat × Nat)) : State :=
  { s with evr := { s.evr with offered := s.evr.offered ++ [mkRec code items s.clk.stm] } }

/-- An alternative that the table of event `code` lists at place `i` without a number (assumption 35). -/
def choice (code i : Nat) : Nat := (Config.recordChoice code i).toNat

/-- The order among records offered in one cycle (R454): code, then d0, d1, d2. -/
def Rec.before (a b : Rec) : Bool :=
  if a.code = b.code then if a.d0 = b.d0 then if a.d1 = b.d1 then decide (a.d2 ≤ b.d2) else decide (a.d1 < b.d1)
    else decide (a.d0 < b.d0) else decide (a.code < b.code)

/-- Insert a record among those of its cycle. -/
def Rec.insert (r : Rec) : List Rec → List Rec
  | [] => [r]
  | q :: qs => if r.before q then r :: q :: qs else q :: Rec.insert r qs

/-- The records of one cycle in their order. -/
def Rec.order (rs : List Rec) : List Rec := rs.foldr Rec.insert []

/-- The offered records in the order of their acceptance (R454): those of earlier cycles, then those of the present one. -/
def State.inOrder (s : State) : List Rec :=
  s.evr.offered.take s.evr.settled ++ Rec.order (s.evr.offered.drop s.evr.settled)

/-- A fabric cycle is over: the records offered in it stand in their order, and no later record comes before one of them. -/
def State.endCycle (s : State) : State :=
  { s with evr := { s.evr with offered := s.inOrder, settled := s.evr.offered.length } }

/-- Record slots C of the recorder partition. -/
def State.evrSlots (s : State) : Nat := s.fld (Reg.BSN_PART_SIZE 5) 10 0 * 2048

/-- slot_of (R456): the slot of sequence number `q`, or none. -/
def State.slotOf (s : State) (q : Nat) : Option Nat :=
  let c := s.evrSlots
  let k := 256 * s.evr.keepK
  if q < s.evr.base then none
  else
    let r := q - s.evr.base
    if s.evr.mode = 1 then (if r < c then some r else none)
    else if r < k then (if r < c then some r else none)
    else if c ≤ k then none
    else some (k + (r - k) % (c - k))

/-- The 32 bytes of Table 19.1. -/
def Rec.bytes (r : Rec) (q : Nat) : List Byte :=
  let body := leBytes 4 (q % 2 ^ 32) ++ leBytes 2 (q / 2 ^ 32) ++ leBytes 2 r.code ++ leBytes 8 r.time
    ++ leBytes 4 r.d0 ++ leBytes 4 r.d1 ++ leBytes 4 r.d2
  body ++ leBytes 4 (crc32c body)

/-- Plain write of bytes to a memory image, no check. -/
def putBytes (m : List Host.Cell) (a : Nat) : List Byte → List Host.Cell
  | [] => m
  | b :: bs => putBytes (spSet zeroByte m a b) (a + 1) bs

/-- Plain read of `n` bytes of a memory image. -/
def getBytes (m : List Host.Cell) (a : Nat) : Nat → List Byte
  | 0 => []
  | n + 1 => spGet zeroByte m a :: getBytes m (a + 1) n

/-- Bring EVR_NEXT, EVR_OLDEST and EVR_BASE of the register map to the recorder's numbers. -/
def State.evrSync (s : State) : State :=
  ((s.setReg64 Reg.EVR_NEXT_LO Reg.EVR_NEXT_HI s.evr.next).setReg64 Reg.EVR_OLDEST_LO Reg.EVR_OLDEST_HI
    s.evr.oldest).setReg64 Reg.EVR_BASE_LO Reg.EVR_BASE_HI s.evr.base

/-- EVR_OLDEST once `next` is the next number (R457); it never falls. -/
def State.oldestFor (s : State) (next : Nat) : Nat :=
  let c := s.evrSlots
  let k := 256 * s.evr.keepK
  if s.evr.mode = 1 then max s.evr.oldest s.evr.base
  else max s.evr.oldest (max (s.evr.base + k) (next - (c - k)))

/-! ### Interrupts (R122, R123, R487) -/

/-- The manager paddock. -/
def State.manager (s : State) : Nat := s.fld Reg.PDK_MANAGER 5 0

/-- The function of paddock `p`. -/
def State.fn (s : State) (p : Nat) : Fn := spGet (fun _ => {}) s.hp.fns p

/-- `s` with the function of paddock `p` replaced. -/
def State.setFn (s : State) (p : Nat) (f : Fn) : State :=
  { s with hp := { s.hp with fns := spSet (fun _ => {}) s.hp.fns p f } }

/-- Port of a paddock (R118). -/
def portOf (p : Nat) : Nat := p / 16

/-- Vector `v` of paddock `p` and its function are unmasked, with MSI-X enabled (R123). -/
def State.unmasked (s : State) (p v : Nat) : Bool :=
  s.bit (Reg.PDK_STATE p) 6 && !(s.fn p).fnMask && !(s.bit (Reg.MSIX_TABLE p (4 * v + 3)) 0)

/-- A cause is raised on vector `v` of paddock `p`: a message is due, or the PBA bit sets (R123). -/
def State.raiseVec (s : State) (p v : Nat) : State :=
  if s.unmasked p v then { s with hp := { s.hp with msix := s.hp.msix ++ [(p, v)] } }
  else s.setBit (Reg.MSIX_PBA p) v true

/-- The message of a vector stays pending until it is sent (R123). -/
def State.stick (s : State) (p v : Nat) : State :=
  { s with hp := { s.hp with sticky := if s.hp.sticky.contains (p, v) then s.hp.sticky else (p, v) :: s.hp.sticky } }

/-- Bit `b` of cause register `k` no longer stands for a raise of its vector. -/
def State.forgetCause (s : State) (k b : Nat) : State :=
  { s with hp := { s.hp with masked := s.hp.masked.filter fun m => m.2.2 != (k, b) } }

/-- Bit `b` of cause register `k` raises vector `v` of paddock `p`; while the vector is masked the bit is kept as what
raised it (R123). -/
def State.raiseFor (s : State) (p v k b : Nat) : State :=
  if s.unmasked p v then s.raiseVec p v
  else
    let s1 := (s.forgetCause k b).raiseVec p v
    { s1 with hp := { s1.hp with masked := (p, v, k, b) :: s1.hp.masked } }

/-- A manager interrupt of bit `b` of register `k` that is always sent (Table 21.5). -/
def State.mgrIrq (s : State) (k b : Nat) : State := s.raiseFor s.manager 1 k b

/-- A manager interrupt that is always sent and has no cause register: while masked it stays pending until sent. -/
def State.mgrIrqSticky (s : State) : State :=
  (if s.unmasked s.manager 1 then s else s.stick s.manager 1).raiseVec s.manager 1

/-- Bit `b` of a block's event register is set by hardware, and raises a manager interrupt when its enable bit is set
(R218, R487). -/
def State.setEvent (s : State) (ev en b : Nat) : State :=
  let s1 := if s.bit ev b then s else s.forgetCause ev b
  let s' := s1.setBit ev b true
  if s'.bit en b then s'.mgrIrq ev b else s'

/-- A paddock cause (PDK_U_CAUSE): bit `b` set and vector 0 raised (R122). -/
def State.pdkCause (s : State) (p b : Nat) : State :=
  (s.setBit (Reg.PDK_U_CAUSE p) b true).raiseFor p 0 (Reg.PDK_U_CAUSE p) b

/-- The write of [a, a + n) covers word `w` whole. -/
def covers (a n w : Nat) : Bool := decide (a ≤ 8 * w) && decide (8 * w + 8 ≤ a + n)

/-- Words that the write of [a, a + n) covers whole lose their uncorrectable error (R170), and a pending write-back of
any word written is void (R169). -/
def State.heal (s : State) (m : MemSel) (a n : Nat) : State :=
  { s with mem := { s.mem with
      bad := s.mem.bad.filter fun p => !(p.1 == m && covers a n p.2)
      writeback := s.mem.writeback.filter fun p =>
        !(p.1 == m && decide (a < 8 * (p.2 + 1)) && decide (8 * p.2 < a + n)) } }

/-! ### Acceptance of records -/

/-- One record accepted under the next number, stored in its slot where it has one and the recorder stores (R455–R458). -/
def State.accept1 (s : State) (r : Rec) : State :=
  let q := s.evr.next
  let stored := s.bit Reg.EVR_CTRL 0 && !(s.bit Reg.EVR_STATUS 30)
  let s1 := { s with evr := { s.evr with next := q + 1 } }
  let s2 := match stored, s.slotOf q with
    | true, some n =>
      let s' := { s1 with evr := { s1.evr with oldest := s.oldestFor (q + 1) } }
      let a := s.fld (Reg.BSN_PART_BASE 5) 10 0 * 65536 + 32 * n
      State.heal { s' with mem := { s'.mem with basin := putBytes s'.mem.basin a (r.bytes q) } } .basin a 32
    | _, _ =>
      let s' := { s1 with evr := { s1.evr with droppedSince := s1.evr.droppedSince + 1 } }
      (s'.count Reg.EVR_DROPPED 31 0 1).setEvent Reg.EVR_EVENT Reg.EVR_EVENT_EN 2
  s2.evrSync

/-- EVR_EVENT.level: set when (EVR_NEXT_LO − EVR_ACK) modulo 2^32 first reaches EVR_THRESH (R464). -/
def State.levelCheck (s : State) : State :=
  let d := (s.evr.next + 2 ^ 32 - s.reg Reg.EVR_ACK) % 2 ^ 32
  if s.evr.levelArmed && decide (s.fld Reg.EVR_THRESH 17 0 ≤ d) then
    let s1 := { s with evr := { s.evr with levelArmed := false } }
    (s1.setEvent Reg.EVR_EVENT Reg.EVR_EVENT_EN 0).offer 0x0F04
      [(32, s.evr.next % 2 ^ 32), (32, s.reg Reg.EVR_ACK)]
  else s

/-- Accept a record. In HALT the record that would take r = C − 1 is displaced by FULL, after which the recorder is
halted (R458). -/
def State.accept (s : State) (r : Rec) : State :=
  if s.evr.mode = 1 && s.bit Reg.EVR_CTRL 0 && !(s.bit Reg.EVR_STATUS 30)
      && decide (s.evr.next = s.evr.base + s.evrSlots - 1) then
    let full := mkRec 0x0F02 [(32, s.evr.base % 2 ^ 32), (32, s.evrSlots)] s.clk.stm
    let s1 := (s.accept1 full).setBit Reg.EVR_STATUS 30 true
    ((s1.setEvent Reg.EVR_EVENT Reg.EVR_EVENT_EN 1).accept1 r).levelCheck
  else (s.accept1 r).levelCheck

/-- Accept up to `n` of the offered records from the front (R455). -/
def State.acceptN (s : State) : Nat → State
  | 0 => s
  | n + 1 =>
    match s.evr.offered with
    | [] => s
    | r :: rs =>
      State.acceptN (State.accept { s with evr := { s.evr with offered := rs, settled := s.evr.settled - 1 } } r) n

/-- Accept the first `n` of the offered records in the order of R454. -/
def State.acceptFirst (s : State) (n : Nat) : State :=
  State.acceptN { s with evr := { s.evr with offered := s.inOrder } } n

/-- Every record offered so far is accepted in its order. -/
def State.acceptAll (s : State) : State := s.acceptFirst s.evr.offered.length

/-- The recorder accepts the record of this event before anything that names its number follows (R19): the offered records
that come before it (R454) first, then it. -/
def State.recordNow (s : State) (code : Nat) (items : List (Nat × Nat)) : State :=
  let r := mkRec code items s.clk.stm
  let s1 := s.acceptFirst (s.evr.settled + (s.evr.offered.drop s.evr.settled).countP fun q => q.before r)
  s1.accept r

/-- Bits [31:0] of the number of the record accepted last, as event_seq holds them (R454). -/
def State.lastSeq (s : State) : Nat := (s.evr.next - 1) % 2 ^ 32

/-- Whether an interval of this code and unit is open (R488). -/
def rateOpen (code unit : Nat) (l : List RateIv) : Bool := l.any fun r => r.code == code && r.unit == unit

/-- `k` more events of a rate-limited code within its open interval. -/
def rateCount (code unit k : Nat) (pre post : List (Nat × Nat)) (t : Nat) : List RateIv → List RateIv
  | [] => []
  | r :: rs =>
    if r.code = code ∧ r.unit = unit then
      (if r.count = 0 then { r with count := k, pre := pre, post := post, time := t }
       else { r with count := r.count + k }) :: rs
    else r :: rateCount code unit k pre post t rs

/-- `k` events of a rate-limited code: recorded at once with their count, or counted in its open interval (R488). `len` is
the interval in ns; `pre` and `post` are the items before and after the count. -/
def State.offerRateN (s : State) (code unit len k : Nat) (pre post : List (Nat × Nat)) : State :=
  if rateOpen code unit s.evr.rate then
    { s with evr := { s.evr with rate := rateCount code unit k pre post s.clk.stm s.evr.rate } }
  else
    let s1 := s.offer code (pre ++ [(32, k)] ++ post)
    let iv : RateIv := ⟨code, unit, len, s.clk.stm + len, 0, [], [], 0⟩
    { s1 with evr := { s1.evr with rate := s1.evr.rate ++ [iv] } }

/-- One event of a rate-limited code. -/
def State.offerRate (s : State) (code unit len : Nat) (pre post : List (Nat × Nat)) : State :=
  s.offerRateN code unit len 1 pre post

/-! ### Memories (R138, R166–R171) -/

/-- Where a 64-bit buffer address lies (Table 6.3). -/
inductive Space
  | host | dram | basin | reserved
  deriving DecidableEq, Repr

/-- The space of a buffer address. -/
def spaceOf (a : Nat) : Space :=
  match a / 2 ^ 62 % 4 with
  | 0 => .host
  | 1 => .dram
  | 2 => .basin
  | _ => .reserved

/-- Bits [61:0] of a buffer address. -/
def localOf (a : Nat) : Nat := a % 2 ^ 62

/-- The granule of a byte (spec/04): none outside DRAM's 64 GiB and Basin's 96 MiB. -/
def granuleOf (m : MemSel) (a : Nat) : Option Nat :=
  match m with
  | .dram => if a < 2 ^ 36 then some (a / 65536) else none
  | .basin => if a < 96 * 2 ^ 20 then some (0x100000 + a / 65536) else none

/-- The memory image of a side. -/
def State.img (s : State) : MemSel → List Host.Cell
  | .basin => s.mem.basin
  | .dram => s.mem.dram

/-- One byte of a memory. -/
def State.byte (s : State) (m : MemSel) (a : Nat) : Byte := spGet zeroByte (s.img m) a

/-- `n` bytes of a memory from `a`. -/
def State.bytes (s : State) (m : MemSel) (a n : Nat) : List Byte := getBytes (s.img m) a n

/-- Some word of [a, a + n) holds an uncorrectable error (R170). -/
def State.poisoned (s : State) (m : MemSel) (a n : Nat) : Bool :=
  s.mem.bad.any fun p => p.1 == m && decide (a < 8 * (p.2 + 1)) && decide (8 * p.2 < a + n)

/-- One byte stored. -/
def State.putByte (s : State) (m : MemSel) (a : Nat) (b : Byte) : State :=
  match m with
  | .basin => { s with mem := { s.mem with basin := spSet zeroByte s.mem.basin a b } }
  | .dram => { s with mem := { s.mem with dram := spSet zeroByte s.mem.dram a b } }

/-- Store the bytes from `a` on; `a0` and `n0` are the whole write's. A byte of a word that holds an uncorrectable error
and that the write covers only in part is discarded (R171). -/
def State.store (s : State) (m : MemSel) (a0 n0 a : Nat) : List Byte → State
  | [] => s
  | b :: bs =>
    let w := a / 8
    let s' := if s.mem.bad.contains (m, w) && !covers a0 n0 w then s else s.putByte m a b
    State.store s' m a0 n0 (a + 1) bs

/-- The granule of DRAM is zeroed before its first access (R181): with memory reading zero it only sets its bit. -/
def State.initGranule (s : State) (m : MemSel) (a : Nat) : State :=
  match m with
  | .basin => s
  | .dram =>
    let g := a / 65536
    if g < s.mem.swept || s.mem.inited.contains g then s
    else { s with mem := { s.mem with inited := g :: s.mem.inited } }

/-- Every granule of [a, a + n) is initialised before its first access (R181). -/
def State.initRange (s : State) (m : MemSel) (a n : Nat) : State :=
  s.each (fun i s => s.initGranule m (65536 * i)) ((List.range ((a + n - 1) / 65536 + 1 - a / 65536)).map (· + a / 65536))

/-- A write of bytes to a memory, with the read-modify-write rule of R171, after the granules it meets are initialised
(R181). -/
def State.write (s : State) (m : MemSel) (a : Nat) (bs : List Byte) : State :=
  let s0 := s.initRange m a bs.length
  (s0.store m a bs.length a bs).heal m a bs.length

/-! ### The owner table (R94–R98) -/

/-- Byte offset in secure Basin of the entry of granule `g` (R94). -/
def ownerAt (g : Nat) : Nat := if g < 0x100000 then 2 * g else 0x200000 + 2 * (g - 0x100000)

/-- The granule whose owner entry holds byte `a` of Basin, if the byte lies in the table (R94). -/
def entryAt (a : Nat) : Option Nat :=
  if a < 0x200000 then some (a / 2) else if a < 0x200C00 then some (0x100000 + (a - 0x200000) / 2) else none

/-- Secure offset of the measured copy of KOROFT_CODE (assumption 12). -/
def codeBase : Nat := 0x210000

/-- Secure offset of the execution area: the granule after a measured copy of `len` bytes (assumption 12). -/
def execBase (len : Nat) : Nat := codeBase + (len + 65535) / 65536 * 65536

/-- Word `n` of a digest: its bytes 4n to 4n + 3, byte 4n lowest. -/
def digestWord (d : List Byte) (n : Nat) : Nat := ofLeBytes ((d.drop (4 * n)).take 4) % 2 ^ 32

/-- Partition u holds Basin granule index `i`. -/
def State.inPart (s : State) (u i : Nat) : Bool :=
  decide (s.fld (Reg.BSN_PART_BASE u) 10 0 ≤ i) &&
    decide (i < s.fld (Reg.BSN_PART_BASE u) 10 0 + s.fld (Reg.BSN_PART_SIZE u) 10 0)

/-- The entry of granule `g` as Wellhead wrote it: SECURE in the secure region (ro over the measured copy), DEVICE in a
partition (R95), and otherwise `ownerDflt` below the DRAM capacity or in the general pool. -/
def State.ownerInit (s : State) (g : Nat) : Nat :=
  if g < 0x100000 then (if g < s.fld Reg.MEM_CAPACITY 20 0 then s.mem.ownerDflt else 0)
  else if g < 0x100040 then
    (if codeBase ≤ 65536 * (g - 0x100000) && decide (65536 * (g - 0x100000) < codeBase + s.boot.codeLen)
      then 0xE000 else 0xC000)
  else if g < 0x100600 then
    match (List.range 9).find? fun u => s.inPart u (g - 0x100000) with
    | some u => 0x8000 + u
    | none => s.mem.ownerDflt
  else 0

/-- The entry of granule `g` (R94). -/
def State.owner (s : State) (g : Nat) : Nat := spGet s.ownerInit s.mem.owner g

/-- Koroft writes an entry (R94). -/
def State.setOwner (s : State) (g e : Nat) : State :=
  { s with mem := { s.mem with owner := spSet s.ownerInit s.mem.owner g e } }

/-- Write the entry of a granule and invalidate it in every check unit (R101). -/
def State.newEntry (s : State) (g e : Nat) : State :=
  let s1 := s.setOwner g e
  { s1 with mem := { s1.mem with
    ownerCache := s1.mem.ownerCache.filter fun p => p.2 != g
    ownerFailed := s1.mem.ownerFailed.filter (· ≠ g) } }

/-- `n` bytes of a memory as a bus access reads them: the owner table stands in the first bytes of Basin (R94). -/
def State.busBytes (s : State) (m : MemSel) (a : Nat) : Nat → List Byte
  | 0 => []
  | n + 1 =>
    (match m, entryAt a with
      | .basin, some g => BitVec.ofNat 8 (s.owner g / 2 ^ (8 * (a % 2)))
      | _, _ => s.byte m a) :: State.busBytes s m (a + 1) n

/-- The owner entries under the bytes of a bus write to Basin (R94). -/
def State.writeEntries (s : State) (a : Nat) : List Byte → State
  | [] => s
  | b :: bs =>
    let s1 := match entryAt a with
      | some g => s.newEntry g (putBits (s.owner g) (8 * (a % 2) + 7) (8 * (a % 2)) b.toNat)
      | none => s
    State.writeEntries s1 (a + 1) bs

/-- A bus write to a memory. A write that lies in the owner table writes its entries (R94). -/
def State.busWrite (s : State) (m : MemSel) (a : Nat) (bs : List Byte) : State :=
  if m = .basin ∧ a < 0x200C00 then (s.writeEntries a bs).heal .basin a bs.length else s.write m a bs

/-- Class, ro, share and owner of an entry (Table 4.3). -/
def entClass (e : Nat) : Nat := bitsOf e 15 14
def entRo (e : Nat) : Bool := e.testBit 13
def entShare (e : Nat) : Nat := bitsOf e 11 8
def entOwner (e : Nat) : Nat := bitsOf e 5 0

/-- An entry from its fields. -/
def mkEnt (cls : Nat) (ro : Bool) (share owner : Nat) : Nat :=
  cls % 4 * 2 ^ 14 + b2n ro * 2 ^ 13 + share % 16 * 2 ^ 8 + owner % 64

/-- Paddock `p` is a member of share group `n` (R98). -/
def State.inShare (s : State) (n p : Nat) : Bool :=
  n != 0 && (s.reg64 (Reg.SEC_SHARE_LO n) (Reg.SEC_SHARE_HI n)).testBit p

/-- DEVICE granules of user `u` back a resource granted to paddock `p`: the recorder area with the read port, the touch
baselines with a field (Tables 4.4, 4.5, 5.5; assumption 11). -/
def State.backs (s : State) (u p : Nat) : Bool :=
  (u == 5 && s.bit (Reg.PDK_MISC p) 24) || (u == 8 && s.fld (Reg.PDK_MISC p) 23 16 != 0)

/-- The rule of Table 4.5 for a paddock's own accesses. -/
def State.paddockMay (s : State) (p : Nat) (write : Bool) (e : Nat) : Bool :=
  match entClass e with
  | 1 => if entOwner e = p then !(write && entRo e) else !write && s.inShare (entShare e) p
  | 2 => s.backs (entOwner e) p
  | _ => false

/-- Table 4.5: whether the master may access a granule with entry `e`. -/
def State.may (s : State) (m : Master) (p : Nat) (write : Bool) (e : Nat) : Bool :=
  match m with
  | .job | .fetch => s.paddockMay p write e
  | .layer => !write && s.paddockMay p false e
  | .trough => entClass e == 2 && entOwner e == 0
  | .safety => entClass e == 2 && entOwner e == 1
  | .device u => entClass e == 2 && entOwner e == u.val
  | .writeback => write && entClass e == 1 && entOwner e == s.manager && !entRo e
  | .aperture => entClass e != 3 && s.paddockMay s.manager write e
  | .koroft => !(write && entClass e == 3 && entRo e)
  | .debug => decide (s.tap = .debugSel)

/-- The safety area of head `n`: its first Basin granule index and its granules (Table 7.2). -/
def State.safetyArea (s : State) (n : Nat) : Nat × Nat :=
  (s.fld (Reg.BSN_PART_BASE 1) 10 0 + ((List.range n).map fun i => s.fld (Reg.BSN_SAFETY i) 6 0).sum,
    s.fld (Reg.BSN_SAFETY n) 6 0)

/-- The paddock that owns the safety layer of composer `c` (R287). -/
def State.safetyOwner (s : State) (c : Nat) : Option Nat :=
  if c < 8 && s.bit (Reg.CMP_SAFE_OWNER c) 8 then some (s.fld (Reg.CMP_SAFE_OWNER c) 5 0) else none

/-- Granule `g` lies in the safety area of a head whose safety layer paddock `p` owns (R287). -/
def State.safetyBacks (s : State) (p g : Nat) : Bool :=
  (List.range 8).any fun n => s.safetyOwner n == some p &&
    decide (0x100000 + (s.safetyArea n).1 ≤ g) && decide (g < 0x100000 + (s.safetyArea n).1 + (s.safetyArea n).2)

/-- Table 4.5 for granule `g`: its entry, and for a paddock the safety areas that back its safety layers (R287). -/
def State.mayAt (s : State) (m : Master) (p : Nat) (write : Bool) (g : Nat) : Bool :=
  s.may m p write (s.owner g) ||
    ((m == .job || m == .fetch || m == .aperture || (m == .layer && !write)) && entClass (s.owner g) == 2
      && entOwner (s.owner g) == 1 && s.safetyBacks (if m = .aperture then s.manager else p) g)

/-- The paddock that PDK_m_LAYERS names for layer `l` of composer `c`, once the grant changes that `f` picks have applied. -/
def State.holderAfter (s : State) (f : LayerChange → Bool) (c l : Nat) : Option Nat :=
  s.hp.layerChanges.foldl (fun h g =>
      if f g && g.comp == c && g.layer == l then (if g.grant then some g.paddock else none) else h)
    ((List.range 64).find? fun p => s.bit (Reg.PDK_LAYERS p ((16 * c + l) / 32)) ((16 * c + l) % 32))

/-- The paddock that holds layer `l` of composer `c` in the frame in progress (R132). -/
def State.layerHolder (s : State) (c l : Nat) : Option Nat := s.holderAfter (·.applied) c l

/-- The granules from byte `a` to byte `a + n − 1` of a memory. -/
def granules (a n : Nat) : List Nat := (List.range ((a + n - 1) / 65536 + 1 - a / 65536)).map (· + a / 65536)

/-- The granule number of memory-granule index `i`. -/
def granNo (m : MemSel) (i : Nat) : Nat := match m with | .dram => i | .basin => 0x100000 + i

/-- The granule number that a fault shows for memory-granule index `i`: a free value where it is no granule (assumption 88). -/
def granShown (m : MemSel) (i : Nat) : Nat :=
  match granuleOf m (i * 65536) with
  | some g => g
  | none => (Config.noGranule i).toNat

/-- The entry of granule `g` cannot be read: it failed ECC, or its word is known to hold an uncorrectable error (R100). -/
def State.entryFailed (s : State) (g : Nat) : Bool :=
  s.mem.ownerFailed.contains g || s.mem.bad.contains (.basin, ownerAt g / 8)

/-- The first granule of [a, a + n) that the owner table refuses to the master, as 21-bit number; a granule outside the
memory, or one whose entry failed ECC (R100), is refused. The debug fabric has no owner checks (R111). -/
def State.refusedIn (s : State) (m : Master) (p : Nat) (write : Bool) (sel : MemSel) (a n : Nat) : Option Nat :=
  ((granules a n).find? fun i =>
    match granuleOf sel (i * 65536) with
    | none => true
    | some g => (m != .debug && s.entryFailed g) || !(s.mayAt m p write g)).map (granShown sel)

/-- The device user of a master that is no job's (Table 4.4); for the others the spec names none: a free value
(assumption 23). -/
def State.userOf (s : State) : Master → Nat × State
  | .trough => (0, s)
  | .safety => (1, s)
  | .device u => (u.val, s)
  | _ => (s.free 8, s.took)

/-- Number of a master, the unit of its rate limit (R97). -/
def masterNo : Master → Nat
  | .job => 0
  | .fetch => 1
  | .trough => 2
  | .layer => 3
  | .safety => 4
  | .writeback => 5
  | .aperture => 6
  | .koroft => 7
  | .debug => 8
  | .device u => 16 + u.val

/-- The refused access of a master that acts for no job is recorded at most once per ms (R97). -/
def State.noteRefusal (s : State) (ms : Master) (gran : Nat) : State :=
  let (u, s1) := s.userOf ms
  s1.offerRate 0x0305 (masterNo ms) 1000000 [(8, u)] [(32, gran)]

/-! ### Uncorrectable words (R170, R180) -/

/-- Errors of this memory are detected: always in Basin, in DRAM with inline ECC (R180). -/
def State.hasEcc (s : State) : MemSel → Bool
  | .basin => true
  | .dram => s.bit Reg.MEM_STATUS 8

/-- The last error word of a memory (Table 7.8). -/
def State.eccAddr (s : State) (m : MemSel) (word : Nat) (uncorr : Bool) : State :=
  match m with
  | .basin => s.setReg Reg.BSN_ECC_ADDR (b2n uncorr * 2 ^ 31 + 8 * word % 2 ^ 27)
  | .dram => (s.setReg Reg.MEM_ECC_ADDR_LO (8 * word % 2 ^ 32)).setReg Reg.MEM_ECC_ADDR_HI
      (b2n uncorr * 2 ^ 31 + 8 * word / 2 ^ 32 % 16)

/-- An uncorrectable error is counted and recorded, and the word stays uncorrectable (R170). -/
def State.eccUncorr (s : State) (m : MemSel) (word : Nat) : State :=
  let s1 := s.count (match m with | .basin => Reg.BSN_ECC_UNCORR | .dram => Reg.MEM_ECC_UNCORR) 31 0 1
  let s2 := (s1.eccAddr m word true).offer 0x0502 (match m with
    | .basin => [(8, 0), (32, 8 * word)]
    | .dram => [(8, 1), (64, 8 * word)])
  { s2 with mem := { s2.mem with
    bad := if s2.mem.bad.contains (m, word) then s2.mem.bad else (m, word) :: s2.mem.bad } }

/-- The words that hold an uncorrectable error and that a write of [a, a + n) covers only in part (R171). -/
def State.edgeWords (s : State) (m : MemSel) (a n : Nat) : List Nat :=
  (s.mem.bad.filter fun q => q.1 == m && decide (a < 8 * (q.2 + 1)) && decide (8 * q.2 < a + n) && !covers a n q.2).map (·.2)

/-- A write to a memory that counts and records each uncorrectable word it covers only in part (R171). -/
def State.mergeWrite (s : State) (m : MemSel) (a : Nat) (bs : List Byte) : State :=
  ((s.edgeWords m a bs.length).foldl (fun s w => s.eccUncorr m w) s).write m a bs

/-- Number of an uncorrectable word: its granule and its place there. -/
def eccWord (m : MemSel) (w : Nat) : Nat := granNo m (w / 8192) * 8192 + w % 8192

/-- Granule of a word number. -/
def eccGran (n : Nat) : Nat := n / 8192 % 2 ^ 21

/-- A read that finds the uncorrectable word of this number counts and records the error (R170). -/
def State.eccSeen (s : State) (n : Nat) : State :=
  if n < 0x100000 * 8192 then s.eccUncorr .dram n else s.eccUncorr .basin (n - 0x100000 * 8192)

end Sys2Proof.Machine
end

