-- ==== Sys2Proof/Machine/Bbc.lean ====
section
/-! DEFINITION. Basin block compression (R182–R188): where a block lies, its decoder and the device's encoder. -/

namespace Sys2Proof.Machine

/-- Block shape by element size (Table 7.5): width and height in elements. -/
def bbcW (e : Nat) : Nat := if e = 1 ∨ e = 2 then 16 else 8
def bbcH (e : Nat) : Nat := if e = 1 then 16 else if e = 8 then 4 else 8

/-- Blocks per row and rows of blocks of a surface. -/
def bbcBW (e w : Nat) : Nat := (w + bbcW e - 1) / bbcW e
def bbcBH (e h : Nat) : Nat := (h + bbcH e - 1) / bbcH e

/-- Number of the block that holds element (x, y), and the element's number in it. -/
def bbcBlock (e w x y : Nat) : Nat := y / bbcH e * bbcBW e w + x / bbcW e
def bbcElem (e x y : Nat) : Nat := y % bbcH e * bbcW e + x % bbcW e

/-- Width of byte plane p in a header. -/
def bbcWidth (hdr : List Byte) (p : Nat) : Nat := bitsOf (ofLeBytes ((hdr.drop 4).take 4)) (4 * p + 3) (4 * p)

/-- Bits of one plane row sum up to plane p. -/
def bbcSum (hdr : List Byte) (p : Nat) : Nat := ((List.range p).map (bbcWidth hdr)).sum

/-- A malformed header (R186); what R184 says of sectors concerns PACKED blocks. -/
def bbcMalformed (e : Nat) (hdr : List Byte) : Bool :=
  let b0 := (hdr.getD 0 0).toNat
  let n := 256 / e
  decide (2 ≤ b0 % 4) || b0.testBit 7 || !((hdr.drop 1).take 3).all (· == 0)
    || (List.range e).any (fun p => decide (8 < bbcWidth hdr p))
    || (List.range 8).any (fun p => decide (e ≤ p) && (bbcWidth hdr p != 0 || hdr.getD (8 + p) 0 != 0))
    || (b0 % 4 == 1 && bitsOf b0 6 3 != (n * bbcSum hdr e + 255) / 256)

/-- Element `n` of a block from its header and the 256 bytes of the slot it names (R184); CLEAR and malformed blocks read as
the clear value (R183, R186). -/
def bbcDecode (e clear : Nat) (hdr slot : List Byte) (n : Nat) : Nat :=
  if bbcMalformed e hdr || (hdr.getD 0 0).toNat % 4 == 0 then clear % 2 ^ (8 * e)
  else
    let stream := ofLeBytes slot
    let byte := fun p =>
      let w := bbcWidth hdr p
      let off := 256 / e * bbcSum hdr p + n * w
      ((hdr.getD (8 + p) 0).toNat + stream / 2 ^ off % 2 ^ w) % 256
    ((List.range e).map fun p => byte p * 256 ^ p).sum

/-- Bits needed for a number. -/
def bitLen (n : Nat) : Nat := if n = 0 then 0 else Nat.log2 n + 1

/-- The device's encoder (R185): the header with slot bit 0 and the data bytes of the elements of a block. -/
def bbcEncode (e : Nat) (elems : List Nat) : List Byte × List Byte :=
  let plane := fun p => elems.map fun v => v / 256 ^ p % 256
  let lo := fun p => (plane p).foldl min 255
  let width := fun p => bitLen ((plane p).foldl max 0 - lo p)
  let bits := ((List.range e).map width).sum
  let n := 256 / e
  let stream := (List.range e).foldl (fun (acc : Nat × Nat) p =>
    (plane p).foldl (fun a v => (a.1 + (v - lo p) * 2 ^ a.2, a.2 + width p)) acc) (0, 0)
  let sectors := (n * bits + 255) / 256
  let hdr := [BitVec.ofNat 8 (1 + 8 * sectors), 0, 0, 0]
    ++ leBytes 4 ((List.range e).map (fun p => width p * 16 ^ p)).sum
    ++ ((List.range 8).map fun p => if p < e then BitVec.ofNat 8 (lo p) else 0)
  (hdr, leBytes (32 * sectors) stream.1)

/-- A CLEAR header (R183). -/
def bbcClear : List Byte := List.replicate 16 0

end Sys2Proof.Machine
end

