-- ==== Sys2Proof/Machine/Gaits.lean ====
section
/-! DEFINITION. The gait table (Tables 12.1 and 12.2): active and total size, pixel clock in kHz, whether DSC is required,
and the blanking of each gait. -/

namespace Sys2Proof.Machine

/-- Blanking and sync of a gait (Table 12.2): front porch, sync and back porch of each axis, and whether its sync is positive. -/
structure Blanking where
  hFront : Nat
  hSync : Nat
  hBack : Nat
  vFront : Nat
  vSync : Nat
  vBack : Nat
  hPos : Bool
  vPos : Bool
  deriving DecidableEq, Repr

/-- One gait of Tables 12.1 and 12.2. -/
structure Gait where
  ha : Nat
  va : Nat
  ht : Nat
  vt : Nat
  khz : Nat
  dsc : Bool
  blanking : Blanking
  deriving DecidableEq, Repr

/-- Gaits G00 to G23. -/
def gaits : List Gait := [
  ⟨640, 480, 800, 525, 25175, false, ⟨16, 96, 48, 10, 2, 33, false, false⟩⟩,
  ⟨1024, 768, 1344, 806, 65000, false, ⟨24, 136, 160, 3, 6, 29, false, false⟩⟩,
  ⟨1280, 720, 1650, 750, 74250, false, ⟨110, 40, 220, 5, 5, 20, true, true⟩⟩,
  ⟨1280, 800, 1440, 823, 71000, false, ⟨48, 32, 80, 3, 6, 14, true, false⟩⟩,
  ⟨1920, 1080, 2750, 1125, 74250, false, ⟨638, 44, 148, 4, 5, 36, true, true⟩⟩,
  ⟨1920, 1080, 2640, 1125, 148500, false, ⟨528, 44, 148, 4, 5, 36, true, true⟩⟩,
  ⟨1920, 1080, 2200, 1125, 148500, false, ⟨88, 44, 148, 4, 5, 36, true, true⟩⟩,
  ⟨1920, 1080, 2200, 1125, 297000, false, ⟨88, 44, 148, 4, 5, 36, true, true⟩⟩,
  ⟨1920, 1200, 2080, 1235, 154000, false, ⟨48, 32, 80, 3, 6, 26, true, false⟩⟩,
  ⟨2560, 1080, 3000, 1100, 198000, false, ⟨248, 44, 148, 4, 5, 11, true, true⟩⟩,
  ⟨2560, 1440, 2720, 1481, 241500, false, ⟨48, 32, 80, 3, 5, 33, true, false⟩⟩,
  ⟨2560, 1600, 2720, 1646, 268500, false, ⟨48, 32, 80, 3, 6, 37, true, false⟩⟩,
  ⟨2560, 1440, 2640, 1525, 483120, false, ⟨8, 32, 40, 71, 8, 6, true, false⟩⟩,
  ⟨3440, 1440, 3520, 1481, 312787, false, ⟨8, 32, 40, 27, 8, 6, true, false⟩⟩,
  ⟨3840, 2160, 5500, 2250, 297000, false, ⟨1276, 88, 296, 8, 10, 72, true, true⟩⟩,
  ⟨3840, 2160, 5280, 2250, 297000, false, ⟨1056, 88, 296, 8, 10, 72, true, true⟩⟩,
  ⟨3840, 2160, 4400, 2250, 297000, false, ⟨176, 88, 296, 8, 10, 72, true, true⟩⟩,
  ⟨3840, 2160, 5280, 2250, 594000, false, ⟨1056, 88, 296, 8, 10, 72, true, true⟩⟩,
  ⟨3840, 2160, 4400, 2250, 594000, false, ⟨176, 88, 296, 8, 10, 72, true, true⟩⟩,
  ⟨4096, 2160, 4400, 2250, 594000, false, ⟨88, 88, 128, 8, 10, 72, true, true⟩⟩,
  ⟨5120, 2160, 5500, 2250, 742500, false, ⟨164, 88, 128, 8, 10, 72, true, true⟩⟩,
  ⟨3840, 2160, 5280, 2250, 1188000, true, ⟨1056, 88, 296, 8, 10, 72, true, true⟩⟩,
  ⟨3840, 2160, 4400, 2250, 1188000, true, ⟨176, 88, 296, 8, 10, 72, true, true⟩⟩,
  ⟨7680, 4320, 9000, 4400, 1188000, true, ⟨552, 176, 592, 16, 20, 44, true, true⟩⟩]

/-- Gait `g`; a number above 23 is no gait. -/
def gaitOf (g : Nat) : Gait := gaits.getD g ⟨1, 1, 1, 1, 1, false, ⟨0, 0, 0, 0, 0, 0, false, false⟩⟩

end Sys2Proof.Machine
end

