-- ==== Sys2Proof/Machine/JaCore.lean ====
section
/-! DEFINITION. The jet array's accessors: jets, strings, jobs and queues, the registers that follow them, deadlines of heads,
and what a jets job leaves behind when it ends (R208, R213, R270). -/

namespace Sys2Proof.Machine

/-! ### Accessors -/

def State.jet (s : State) (n : Nat) : Jet := s.ja.jets.getD n {}
def State.setJet (s : State) (n : Nat) (j : Jet) : State := { s with ja := { s.ja with jets := s.ja.jets.set n j } }
def State.str (s : State) (n : Nat) : Str := s.ja.strs.getD n {}
def State.setStr (s : State) (n : Nat) (t : Str) : State := { s with ja := { s.ja with strs := s.ja.strs.set n t } }

/-- The jets job of context `c` at ring index `sq`. -/
def State.jjob (s : State) (c sq : Nat) : Option JetJob := s.ja.jobs.find? fun j => j.ctx == c && j.sq == sq

/-- Change a jets job. -/
def State.modJjob (s : State) (c sq : Nat) (f : JetJob → JetJob) : State :=
  { s with ja := { s.ja with jobs := s.ja.jobs.map fun j => if j.ctx = c ∧ j.sq = sq then f j else j } }

/-- Change every jet, or every string. -/
def State.mapJets (s : State) (f : Jet → Jet) : State := { s with ja := { s.ja with jets := s.ja.jets.map f } }
def State.mapStrs (s : State) (f : Str → Str) : State := { s with ja := { s.ja with strs := s.ja.strs.map f } }

/-- The job whose work a jet holds. -/
def Holds.job : Holds → Option (Nat × Nat)
  | .nothing => none
  | .tile t => some (t.item.ctx, t.item.sq)
  | .batch c sq => some (c, sq)
  | .groups c sq _ => some (c, sq)

/-- A string is held (JA_HELD in force): strings 8 − count to 7. -/
def State.heldStr (s : State) (n : Nat) : Bool := decide (8 - s.ja.force.held ≤ n)

/-- Halves of a jet that its string's write-out unit holds. -/
def State.halves (s : State) (n : Nat) : Nat := ((s.str (n / 8)).out.filter fun o => o.jet == n).length

/-- The jet holds no work, and waits for no half of its buffer (R207). -/
def State.jetIdle (s : State) (n : Nat) : Bool :=
  let j := s.jet n
  !j.retired && (j.holds == .nothing) && j.preempt.isNone && decide (s.halves n < 2)

/-- Live jets of the array, and of a string. -/
def State.liveJets (s : State) : Nat := (s.ja.jets.filter fun j => !j.retired).length
def State.liveIn (s : State) (n : Nat) : Nat := ((List.range 8).filter fun i => !(s.jet (8 * n + i)).retired).length

/-- Class of a context: 0 BULK, 1 INTERACTIVE, 2 DEADLINE (Table 6.1). -/
def State.ctxClass (s : State) (c : Nat) : Nat := s.fld (Reg.CQ_CTX_CLASS c) 1 0

/-- The string from whose jets a home string's work is dispatched: itself, or while it is dry the next string that is not
dry and is held as it is, or else the next that is not dry (R212). -/
def State.serves (s : State) (n : Nat) : Nat :=
  if !(s.str n).dry then n
  else
    let order := (List.range 7).map fun i => (n + 1 + i) % 8
    ((order.find? fun m => !(s.str m).dry && s.heldStr m == s.heldStr n).orElse
      fun _ => order.find? fun m => !(s.str m).dry).getD n

/-! ### Registers that follow the array -/

/-- The home job of a string. -/
def State.homeJob (s : State) (n : Nat) : Option JetJob := s.ja.jobs.find? fun j => j.home == some n

/-- JA_STR_n_STATUS.phase (Table 8.12). -/
def JetJob.phaseNo (j : JetJob) : Nat := if j.phase = 2 then 1 else if j.phase = 3 then 2 else if j.phase = 4 then 3 else 0

/-- JA_STR_n_STATUS follows its string. -/
def State.strStatus (s : State) (n : Nat) : Nat :=
  let h := s.homeJob n
  b2n (s.heldStr n) * 2 ^ 31 + b2n (s.str n).dry * 2 ^ 30 + (h.map (·.phaseNo)).getD 0 * 2 ^ 28
    + (h.map (·.ctx)).getD 0 * 2 ^ 16 + (s.str n).queue.length

/-- JA_STATUS but for enabled and degraded, JA_STR_n_STATUS, JA_PREEMPT_STATUS and JA_FAIL.retired follow the array. -/
def State.jaSync (s : State) : State :=
  let n8 := List.range 8
  let dry := (n8.map fun n => b2n (s.str n).dry * 2 ^ n).sum
  let busy := (n8.map fun n => b2n ((s.homeJob n).isSome || !(s.str n).queue.isEmpty) * 2 ^ n).sum
  let s1 := ((s.setFld Reg.JA_STATUS 22 16 s.liveJets).setFld Reg.JA_STATUS 15 8 dry).setFld Reg.JA_STATUS 7 0 busy
  let s2 := s1.each (fun n t => t.setReg (Reg.JA_STR_STATUS n) (s.strStatus n)) n8
  let lent := (s.ja.jets.filter fun j => j.lent.isSome).length
  let slots := (s.ja.jets.filter fun j => j.preempt.isSome).length + (s.ja.strs.map fun t => t.resume.length).sum
  let s3 := ((s2.setFld Reg.JA_PREEMPT_STATUS 30 26 lent).setFld Reg.JA_PREEMPT_STATUS 25 21 slots).setFld Reg.JA_FAIL 30 24
    (64 - s.liveJets)
  match s.ja.target with
  | some (c, _) =>
    ((s3.setBit Reg.JA_PREEMPT_STATUS 31 true).setFld Reg.JA_PREEMPT_STATUS 18 16
      (s.fld (Reg.CQ_CTX_CLASS c) 6 4)).setFld Reg.JA_PREEMPT_STATUS 9 0 c
  | none => ((s3.setBit Reg.JA_PREEMPT_STATUS 31 false).setFld Reg.JA_PREEMPT_STATUS 18 16 0).setFld Reg.JA_PREEMPT_STATUS 9 0 0

/-- The array is enabled and its clock runs: JA_STATUS.enabled in CANTER or GALLOP or TROT, not WALK (R466). -/
def State.jaOn (s : State) : Bool := s.bit Reg.JA_STATUS 31

/-- A JA_EVENT or JA_DL_EVENT bit is set by hardware (R218). -/
def State.jaEvent (s : State) (b : Nat) : State := s.setEvent Reg.JA_EVENT Reg.JA_EVENT_EN b
def State.dlEvent (s : State) (b : Nat) : State := s.setEvent Reg.JA_DL_EVENT Reg.JA_DL_EVENT_EN b

/-! ### Jet clock count (R242) -/

/-- The jet clocks since enable, at the show time of now. -/
def State.jetClocks (s : State) : Nat := (s.ja.clkAcc + (s.clk.stm - s.ja.clkAt) * s.ja.clkMhz) / 1000

/-- From now on the jet clock runs at `mhz`. -/
def State.jetClockAt (s : State) (mhz : Nat) : State :=
  { s with ja := { s.ja with
      clkAcc := s.ja.clkAcc + (s.clk.stm - s.ja.clkAt) * s.ja.clkMhz, clkAt := s.clk.stm, clkMhz := mhz } }

/-! ### Deadlines (R257, R258) -/

/-- A time held to 2^-32 ns, to the nearest with ties upward (R318; assumption 97). -/
def toTick (x : ℚ) : ℚ := ((x * 2 ^ 32 + 1 / 2).floor : ℚ) / 2 ^ 32

/-- Frame period of head `n` in ns (R318). -/
def State.framePeriod (s : State) (n : Nat) : ℚ :=
  let g := gaitOf (s.fld (Reg.HD_GAIT n) 4 0)
  toTick ((g.ht * g.vt * 1000000 : ℚ) / (g.khz : ℚ))

/-- The first latch-line start of head `n` at or after `t`, from the predictions the head sends: HD_LATCH_TIME and one
period each later; none while the head sends none. -/
def State.latchFrom (s : State) (n t : Nat) : Option Nat :=
  let l := s.reg64 (Reg.HD_LATCH_TIME_LO n) (Reg.HD_LATCH_TIME_HI n)
  if l = 0 then none
  else if t ≤ l then some l
  else
    let p := s.framePeriod n
    let k := (((t - l : Nat) : ℚ) / p).ceil
    some (l + ((k : ℚ) * p).floor.toNat)

/-- D of a job that starts now in context `c` (R257). -/
def State.deadlineOf (s : State) (c : Nat) : Option Nat :=
  let lead := s.fld (Reg.CQ_CTX_CLASS c) 31 16 * 1000
  if s.ctxClass c = 2 then (s.latchFrom (s.fld (Reg.CQ_CTX_CLASS c) 6 4) (s.clk.stm + lead)).map (· - lead) else none

/-! ### Progress and end of a jets job (R208, R213, R265, R270) -/

/-- Tiles of the render area across and down, and in all. -/
def Pass.tw (p : Pass) : Nat := (p.aw + 31) / 32
def Pass.th (p : Pass) : Nat := (p.ah + 31) / 32
def Pass.tiles (p : Pass) : Nat := p.tw * p.th
def JetJob.total (j : JetJob) : Nat := if j.render then j.pass.tiles else j.gx * j.gy * j.gz

/-- Workgroups of a job that are on a jet, being restored, or saved: index and global write mark. -/
def State.residents (s : State) (c sq : Nat) : List (Nat × Bool) :=
  (s.ja.jets.flatMap fun j => match j.holds with
    | .groups c' sq' ws => if c' = c ∧ sq' = sq then ws.map fun w => (w.idx, w.wrote) else []
    | _ => [])
  ++ s.ja.strs.flatMap fun t => t.resume.flatMap fun v =>
    if v.ctx = c ∧ v.sq = sq then v.wgs.map fun w => (w.idx, w.wrote) else []

/-- Insert in an ascending list. -/
def insertNat (n : Nat × Bool) : List (Nat × Bool) → List (Nat × Bool)
  | [] => [n]
  | m :: ms => if n.1 ≤ m.1 then n :: m :: ms else m :: insertNat n ms

/-- The lowest number from `k` not in the list. -/
def lowestMissing (l : List Nat) : (fuel k : Nat) → Nat
  | 0, k => k
  | n + 1, k => if l.contains k then lowestMissing l n (k + 1) else k

/-- The 32-bit words of a bitmap of `n` bits. -/
def bitmap (l : List Nat) (n : Nat) : List Nat :=
  (List.range ((n + 31) / 32)).map fun w => ((List.range 32).map fun b => b2n (l.contains (32 * w + b)) * 2 ^ b).sum

/-- Tiles of a job that a jet renders or a write-out unit holds. -/
def State.tilesHeld (s : State) (c sq : Nat) : List Nat :=
  let mine := fun (i : Item) => if i.ctx = c ∧ i.sq = sq then some i.idx else none
  (s.ja.jets.filterMap fun j => match j.holds with
    | .tile t => mine t.item
    | _ => none)
  ++ s.ja.strs.flatMap fun t => t.out.filterMap fun o => mine o.item

/-- Count, extent, list_count and variable part of a jets job's progress (Table 6.11): the tiles that a rein abandons are
listed after the torn ones, at most 64 in all (R163, assumption 98). -/
def State.jetProgress (s : State) (j : JetJob) : Nat × Nat × Nat × List Nat :=
  if j.render then
    let l := (j.torn ++ (s.tilesHeld j.ctx j.sq).filter fun t => !j.torn.contains t).take 64
    (j.round * j.total + j.written.length, j.total, l.length, bitmap j.written j.total ++ l)
  else
    let l := ((s.residents j.ctx j.sq ++ j.lost.map fun i => (i, true)).foldr insertNat []).take 1024
    (j.written.length, lowestMissing j.written j.written.length 0, l.length,
      l.map fun p => b2n p.2 * 2 ^ 31 + p.1)

/-- Nothing of the job is queued, running, being written out or saved (R213, R265). -/
def State.jetsForget (s : State) (c sq : Nat) : State :=
  let mine := fun (i : Item) => i.ctx == c && i.sq == sq
  let s1 := s.mapStrs fun t => { t with
    queue := t.queue.filter fun i => !mine i
    out := t.out.filter fun o => !mine o.item
    resume := t.resume.filter fun v => !(v.ctx == c && v.sq == sq) }
  let s2 := s1.mapJets fun j =>
    let j1 := { j with icache := j.icache.filter fun l => !(l.1 == c && l.2.1 == sq) }
    let j2 := if j.holds.job = some (c, sq) then { j1 with holds := .nothing, teams := [], last := s.clk.stm } else j1
    if j.lent = some (c, sq) then { j2 with lent := none } else j2
  { s2 with ja := { s2.ja with
      jobs := s2.ja.jobs.filter fun j => !(j.ctx == c && j.sq == sq)
      target := if s2.ja.target = some (c, sq) then none else s2.ja.target } }

/-- A preempted jet that no longer holds the compute it was to save is lent to the target, or released (R262, R265). -/
def State.freePreempts (s : State) : State :=
  s.mapJets fun j =>
    if j.preempt.isSome && (j.holds == .nothing) then { j with preempt := none, lent := if j.retired then none else s.ja.target }
    else j

/-- A rein of a context ends the urgency of its jobs (R270), and they are no longer the target. -/
def State.jetsCalm (s : State) (c : Nat) : State :=
  if s.ja.jobs.any fun j => j.ctx == c then
    ({ s with ja := { s.ja with
        jobs := s.ja.jobs.map fun j => if j.ctx = c then { j with urgent := false } else j
        target := if (s.ja.target.map (·.1)) = some c then none else s.ja.target } } : State).jaSync
  else s

/-- JA_STATUS.enabled clears once no jets job runs (Table 8.12). -/
def State.jaDisable (s : State) : State :=
  if s.bit Reg.JA_STATUS 31 && !(s.bit Reg.JA_CTRL 0) && (s.ja.jobs.all fun j => decide (j.phase < 2)) then
    (s.setBit Reg.JA_STATUS 31 false).jetClockAt 0
  else s

/-- LAST_SLACK and MIN_SLACK at the end of a DEADLINE jets job (R270). -/
def State.slackOut (s : State) (j : JetJob) : State :=
  match j.dl with
  | some d =>
    let n := s.fld (Reg.CQ_CTX_CLASS j.ctx) 6 4
    let us : Int := ((d : Int) - (s.clk.stm : Int)) / 1000
    let s1 := s.setReg (Reg.JA_DL_LAST_SLACK n) (toSigned 32 us)
    if us < signedOf 32 (s.reg (Reg.JA_DL_MIN_SLACK n)) then s1.setReg (Reg.JA_DL_MIN_SLACK n) (toSigned 32 us) else s1
  | none => s

/-- A jets job ends: its work leaves the array, and its slack is written. -/
def State.jetsEnd (s : State) (c sq : Nat) : State :=
  match s.jjob c sq with
  | none => s
  | some j => (((s.slackOut j).jetsForget c sq).freePreempts.jaDisable).jaSync

end Sys2Proof.Machine
end

