-- ==== Sys2Proof/Machine/Release.lean ====
section
/-! DEFINITION. What every block lets go of when a job ends (R142, R153, R158, R159), and the reset of a CVU. -/

namespace Sys2Proof.Machine

/-- The commit ports let go of a LAYER_COMMIT: a latched one stays without its job, any other is withdrawn (R159). -/
def Cmp.drop (m : Cmp) (c sq : Nat) : Cmp :=
  { m with
    commits := m.commits.filterMap fun (x : Commit) =>
      if x.job = some (c, sq) then (if x.latched then some { x with job := none } else none) else some x
    waiting := m.waiting.filter fun w => !(w.2.2.1 == c && w.2.2.2 == sq) }

/-- The CVUs let go of a CVU_RUN: its CVU is idle. -/
def State.cvuDrop (s : State) (c sq : Nat) : State :=
  let mine := fun (j : CvuJob) => j.ctx == c && j.sq == sq
  let s1 := match s.im.jobs.find? fun j => mine j && j.running with
    | some j => s.setBit (Reg.CVU_STATUS j.cvu) 0 false
    | none => s
  { s1 with im := { s1.im with jobs := s1.im.jobs.filter fun j => !mine j } }

/-- Registers of a CVU, by offset. -/
def cvuRegs : List Nat := [0x00, 0x04, 0x14, 0x18, 0x20, 0x24, 0x28, 0x2C, 0x30, 0x34]

/-- A grant or revoke resets every register of CVU `m` and stops its timer (R354). -/
def State.resetCvu (s : State) (m : Nat) : State :=
  let s1 := s.each (fun o t => t.setReg (Reg.CVU_CTRL m + o) 0) cvuRegs
  { s1 with im := { s1.im with cvus := s1.im.cvus.set m {} } }

/-- A DMX port lets go of an RDM transaction: the line returns as step 5 of Table 14.14 states, and a DMX packet is owed. -/
def State.rdmDrop (s : State) (c sq : Nat) : State :=
  let mine := fun (r : Rdm) => r.ctx == c && r.sq == sq
  s.each (fun p t =>
    let x := t.lo.dmx.getD p {}
    let y := { x with queue := x.queue.filter fun r => !mine r }
    let z := if x.rdm.any mine then { y with rdm := none, owed := true } else y
    let t1 := { t with lo := { t.lo with dmx := t.lo.dmx.set p z } }
    if x.rdm.any mine then
      ((t1.setBit (Reg.LO_DMX_STATUS p) 2 false).emitOn 8 (.pin ("DMX" ++ toString p ++ "_DE") 1)).emitOn 8
        (.pin ("DMX" ++ toString p ++ "_REn") 1)
    else t1) (List.range 8)

/-- The light engine lets go of a LIGHT_WRITE: it applies no further frame (R159). -/
def State.lightDrop (s : State) (c sq : Nat) : State :=
  { s with lo := { s.lo with jobs := s.lo.jobs.filter fun j => !(j.ctx == c && j.sq == sq) } }

/-- HAP_n_STATUS.state, queued and HAP_STATUS.busy. -/
def State.hapState (s : State) (n : Nat) : Nat := s.fld (Reg.HAPC_STATUS n) 31 29
def State.setHapState (s : State) (n st : Nat) : State :=
  (s.setFld (Reg.HAPC_STATUS n) 31 29 st).setBit Reg.HAP_STATUS n (decide (st ≠ 0))

def State.hapCh (s : State) (n : Nat) : HapCh := s.hap.chans.getD n {}

/-- `s` with channel `n` replaced and its FIFO count shown. -/
def State.setHapCh (s : State) (n : Nat) (x : HapCh) : State :=
  State.setFld { s with hap := { s.hap with chans := s.hap.chans.set n x } } (Reg.HAPC_STATUS n) 10 8 x.fifo.length

/-- The haptic block lets go of a HAPTIC_PLAY: a started effect plays on without its job, any other is withdrawn (R159, R432). -/
def State.hapDrop (s : State) (c sq : Nat) : State :=
  let free := fun (t : Trig) => if t.job = some (c, sq) then { t with job := none } else t
  let s1 := s.each (fun n t =>
    let x := t.hapCh n
    t.setHapCh n { x with
      play := x.play.map fun p => { p with trig := free p.trig }
      fifo := x.fifo.filter fun q => q.job != some (c, sq) }) (List.range 16)
  { s1 with hap := { s1.hap with waits := s1.hap.waits.filter fun w => !(w.ctx == c && w.sq == sq) } }

/-- The audio block lets go of an AUDIO_BUFFER: a play's input discards its buffer at the next block boundary (R441), a
capture stops. -/
def State.audDrop (s : State) (c sq : Nat) : State :=
  let ins := (s.aud.plays.filter fun j => j.ctx == c && j.sq == sq).map (·.input)
  let bufs := ins.foldl (fun (l : List (Nat × GuestBuf)) i =>
    spSet (fun _ => {}) l i { spGet (fun _ => {}) l i with discard := true, notBefore := none }) s.aud.bufs
  { s with aud := { s.aud with
      bufs := bufs
      plays := s.aud.plays.filter fun j => !(j.ctx == c && j.sq == sq)
      caps := s.aud.caps.filter fun j => !(j.ctx == c && j.sq == sq) } }

/-- The blocks let go of a job: nothing of it is queued, running or pending any more. -/
def State.dropRefs (s : State) (c sq : Nat) : State :=
  let s1 := s.jetsEnd c sq
  ((((({ s1 with cmp := s1.cmp.drop c sq }).cvuDrop c sq).lightDrop c sq).rdmDrop c sq).hapDrop c sq).audDrop c sq

end Sys2Proof.Machine
end

