-- ==== Sys2Proof/Machine/AlarmOps.lean ====
section
/-! DEFINITION. What other blocks send to the haptic and audio blocks (R400, R414, R415, R432, R440, R449). -/

namespace Sys2Proof.Machine

/-- A bit of HAP_EVENT. -/
def State.hapEvent (s : State) (b : Nat) : State := s.setEvent Reg.HAP_EVENT Reg.HAP_EVENT_EN b

/-- Channel `n` drops a trigger (R432): counted, and recorded at most once per 100 ms. -/
def State.hapDropped (s : State) (n : Nat) : State :=
  ((s.count (Reg.HAPC_COUNT n) 31 16 1).offerRate 0x0D06 n 100000000 [(8, n)] []).hapEvent 5

/-- A trigger from the touch block or a SPUR pin reaches a channel and is taken at the next control tick; a disabled block
drops it. -/
def State.hapArrive (s : State) (source rank channel : Nat) (t : Trig) : State :=
  if !s.bit Reg.HAP_STATUS 31 then s.hapDropped channel
  else { s with hap := { s.hap with arrivals := s.hap.arrivals ++ [⟨source, rank, channel, t⟩] } }

/-- A bit of AUD_EVENT. -/
def State.audEvent (s : State) (b : Nat) : State := s.setEvent Reg.AUD_EVENT Reg.AUD_EVENT_EN b

/-- Mixer input `i` runs dry (R440): SOURCE_UNDERRUN at most once per 100 ms. -/
def State.inputDry (s : State) (i : Nat) : State :=
  let s1 := (s.setBit (Reg.AUD_IN_METER i) 30 true).setReg Reg.AUD_UNDERRUNS (satAdd 32 (s.reg Reg.AUD_UNDERRUNS) 1)
  (s1.offerRate 0x0E02 i 100000000 [(8, i)] []).audEvent 1

/-- ALARM source `k` is raised. -/
def State.alarmRaised (s : State) (k : Nat) : Bool := s.bit (if k < 32 then Reg.AUD_ALARM_LO else Reg.AUD_ALARM_HI) (k % 32)

/-- ALARM source `k` is raised or lowered (R449): AUD_ALARM, the record, and its voice where that has alarm set; nothing where
it stands so already. -/
def State.alarm (s : State) (k : Nat) (on : Bool) : State :=
  if s.alarmRaised k = on then s
  else
    let s1 := (s.setBit (if k < 32 then Reg.AUD_ALARM_LO else Reg.AUD_ALARM_HI) (k % 32) on).setBit (Reg.AUD_VOICE_STATUS k) 1 on
    let s2 := (s1.offer 0x0E07 [(8, k), (8, choice 0x0E07 (b2n (!on)))]).audEvent 4
    if s2.bit (Reg.AUD_VOICE_CFG_ACT k) 9 then { s2 with aud := { s2.aud with asks := s2.aud.asks ++ [(k, on)] } } else s2

end Sys2Proof.Machine
end

