-- ==== Sys2Proof/Machine/Reset.lean ====
section
/-! DEFINITION. Resets and the entries to the device states (R23, R29–R31, R43–R51, R479): what survives each, and what
returns to its reset value. -/

namespace Sys2Proof.Machine

/-- A reset while ERASE or PROGRAM runs leaves the inactive slot undefined (R90): its 768 sectors hold free contents. In
RECOVERY, where no slot is active, it leaves nothing undefined (DESIGN CHOICE, assumption 94). -/
def Boot.afterAbort (b : Boot) (k slot : Nat) : List (Nat × Nat) :=
  match b.cmd with
  | some (c, _, _) =>
    if (c = 2 ∨ c = 3) ∧ slot < 2 then
      (List.range 768).map (fun i => ((if slot = 0 then 0x302 else 0x2) + i, k)) ++ b.undef
    else b.undef
  | none => b.undef

/-- Registers that a chip reset keeps (R479): SYS_STATE, SEC_RESET_INFO, restart_count and PCR_WAKE_INFO. -/
def State.keptRegs (s : State) (cold : Bool) : List (Nat × Word) :=
  let s0 : State := { regs := [] }
  let s1 := s0.setReg Reg.SYS_STATE (s.reg Reg.SYS_STATE)
  let s2 := if cold then s1 else
    ((s1.setReg Reg.SEC_RESET_INFO (s.reg Reg.SEC_RESET_INFO)).setReg Reg.SEC_WDT_STATUS
      (s.fld Reg.SEC_WDT_STATUS 7 0)).setReg Reg.PCR_WAKE_INFO (s.reg Reg.PCR_WAKE_INFO)
  s2.regs

/-- All blocks in reset and every group at its state of Table 2.4. `cold` is PORn or a brown-out, after which no secure state is
left (R50, R463); a chip reset keeps the secure record area and the registers of R479, and the masks of rails that stay off
(R49). Pins, fuses, flash, the TAP, what has left the device and the waiting
commands are no block's. -/
def State.blocksReset (s : State) (cold : Bool) : State :=
  let slot := if s.fld Reg.WH_STATUS 1 0 = 3 then 2 else s.fld Reg.WH_STATUS 1 0
  let undef := s.boot.afterAbort s.clk.free slot
  let clk : Clk := { free := s.clk.free + 1 }
  let boot : Boot := { flash := s.boot.flash, undef := undef, imageKeyRemoved := s.boot.imageKeyRemoved }
  let sec : Sec := if cold then {} else { secNext := s.sec.secNext, secSlots := s.sec.secSlots }
  let pins : Pins := if cold then { s.pins with maskedRails := [], pgoodMasked := false } else s.pins
  let t : State := { regs := s.keptRegs cold, clk := clk, pins := pins, tap := s.tap, fuses := s.fuses, boot := boot, sec := sec,
                     out := safeLevels ++ s.out, pending := s.pending }
  t.holdGroups []

/-- Enter device state `st` with its entry_cause, if Table 1.9 gives one (R31). -/
def State.enter (s : State) (st : Nat) (cause : Option Nat) : State :=
  let s1 := (s.setFld Reg.SYS_STATE 10 8 s.sysState).setFld Reg.SYS_STATE 2 0 st
  match cause with
  | some c => s1.setFld Reg.SYS_STATE 23 16 c
  | none => s1

/-- What the fuses show (Tables 4.2, 4.10, 5.11, 20.10). -/
def State.loadFuses (s : State) : State :=
  let f := s.fuses
  let otp := f.partCode % 4 * 2 ^ 21 + b2n f.debugOff * 2 ^ 20 + f.minSec % 64 * 2 ^ 13 + b2n f.imageKeyProg * 2 ^ 12
    + f.keyRevoked % 16 * 16 + f.keyProg % 16
  (s.setReg Reg.SEC_OTP_STATUS otp).setReg Reg.PCR_CORE (f.coreMv % 2 ^ 11)

/-- Entry to BOOT with its cause: every register of every function and block at its reset value (R30, R479), STM_TIME 0
(R23), BOOTSEL sampled (R44), the links training (Table 1.8), and what the OTP fuses show loaded into the registers whose reset column reads Fuses. -/
def State.enterBoot (s : State) (cause : Nat) : State :=
  let s1 := s.enter 1 (some cause)
  State.holdGroups (State.loadFuses { s1 with
    pins := { s1.pins with bootSample := s1.pins.bootsel }, boot := { s1.boot with resetCause := none } }) [0]

/-- The levels of BOOTSEL[1:0] as an entry to BOOT finds them at the balls (R44): a level that changes within 1 ms of the
entry comes as either value. -/
def State.jumpers (s : State) (sel : Fin 4) : State := { s with pins := { s.pins with bootsel := sel.val } }

/-- Every head runs at G06 for the recovery pattern: 8 bits per colour, without DSC, on up to four DP lanes (R87, R309). It trains
where HPDn is high, as an enabled head does. -/
def State.recoveryHeads (s : State) : State :=
  s.each (fun n t => ((t.setReg (Reg.HD_GAIT n) 6).setReg (Reg.HD_LINK_CFG n) 0x447).setBit (Reg.HD_STATUS n) 31 true)
    (List.range 8)

/-- Entry to RECOVERY: the SPUR levels show in WH_STATUS, and a pending directory write runs with flash_busy (R73, R87). The host
ports, the heads and the flash are the groups that RECOVERY uses (R36, Table 1.8). -/
def State.enterRecovery (s : State) (cause : Nat) : State :=
  let s1 := ((s.enter 4 (some cause)).holdGroups [0, 2, 4]).setFld Reg.WH_STATUS 11 8 s.pins.spur
  (s1.setBit Reg.WH_STATUS 3 (!s1.boot.dirWrites.isEmpty)).recoveryHeads

/-- A brown-out (R50), or what is treated as one (R51): every group to its state of Table 2.4 and every block in reset until
the rails are good again. -/
def State.brownOut (s : State) : State :=
  let s1 := s.blocksReset true
  { s1 with boot := { s1.boot with resetCause := some 1 } }

/-- A chip reset (R479): as step 1 of R50, blocks held for 1 ms, and BOOT with this entry_cause to follow. -/
def State.chipReset (s : State) (cause : Nat) : State :=
  let s1 := s.blocksReset false
  { s1 with boot := { s1.boot with resetCause := some cause } }

end Sys2Proof.Machine
end

