-- ==== Sys2Proof/Machine/CtxOps.lean ====
section
/-! DEFINITION. The context engine's shared operations (spec/06): starting a job, writing to memory for it, ending it with a
completion entry, fault of a context, rein, and the paddock transitions of spec/05 that rest on them. -/

namespace Sys2Proof.Machine

/-! ### Contexts -/

def State.ctx (s : State) (c : Nat) : Ctx := spGet (fun _ => {}) s.ctxs c
def State.setCtx (s : State) (c : Nat) (x : Ctx) : State := { s with ctxs := spSet (fun _ => {}) s.ctxs c x }

/-- State of a context (Table 6.14): 0 IDLE, 1 ACTIVE, 2 WAITING, 3 REINING, 4 REINED, 5 FAULTED. -/
def State.ctxState (s : State) (c : Nat) : Nat := s.fld (Reg.CQ_CTX_STATUS c) 2 0
def State.setCtxState (s : State) (c st : Nat) : State := s.setFld (Reg.CQ_CTX_STATUS c) 2 0 st

/-- Assignment of a context (Table 6.16). -/
def State.ctxAssigned (s : State) (c : Nat) : Bool := s.bit (Reg.CQ_CTX_OWNER c) 16
def State.ctxPaddock (s : State) (c : Nat) : Nat := s.fld (Reg.CQ_CTX_OWNER c) 5 0

/-- The context in slot `n` of paddock `p`. -/
def State.ctxAt (s : State) (p n : Nat) : Option Nat :=
  (List.range 1024).find? fun c => s.ctxAssigned c && s.ctxPaddock c == p && s.fld (Reg.CQ_CTX_OWNER c) 15 8 == n

/-- The contexts of paddock `p`. -/
def State.ctxsOf' (s : State) (p : Nat) : List Nat :=
  (List.range 1024).filter fun c => s.ctxAssigned c && s.ctxPaddock c == p

/-- Ring sizes of CQ_U_CFG. -/
def Ctx.sqSize (x : Ctx) : Nat := 2 ^ bitsOf x.cfg 4 0
def Ctx.cqSize (x : Ctx) : Nat := 2 ^ bitsOf x.cfg 12 8

/-- The context has its rings (R139: a ring base of zero marks it unconfigured). -/
def Ctx.configured (x : Ctx) : Bool := x.sqBase != 0 && x.cqBase != 0

/-! ### Descriptors -/

/-- The `n`-byte little-endian field at byte `o` of a descriptor. -/
def dField (raw : List Byte) (o n : Nat) : Nat := ofLeBytes ((raw.drop o).take n)

def Job.typ (j : Job) : Nat := dField j.raw 0 1
def Job.flag (j : Job) (b : Nat) : Bool := (dField j.raw 1 1).testBit b
def Job.f (j : Job) (o n : Nat) : Nat := dField j.raw o n
/-- The time an at_time job names, or none. -/
def Job.at? (j : Job) : Option Nat := if j.flag 3 then some (j.f 0x38 8) else none

/-- Engine class of a job type (Table 6.5): 0 jets, 1 copy, 2 sync, 3 composer, 4 light, 5 RDM, 6 audio, 7 haptic, 8 CVU. -/
def engineOf (typ : Nat) : Nat :=
  match typ with
  | 1 | 2 => 0
  | 3 => 1
  | 4 | 5 | 12 => 2
  | 6 => 3
  | 7 => 4
  | 8 => 5
  | 9 => 6
  | 10 => 7
  | _ => 8

/-- The job of context `c` at ring index `sq`. -/
def State.job (s : State) (c sq : Nat) : Option Job := (s.ctx c).jobs.find? fun j => j.sq == sq

/-- Change the job of context `c` at ring index `sq`. -/
def State.modJob (s : State) (c sq : Nat) (f : Job → Job) : State :=
  let x := s.ctx c
  s.setCtx c { x with jobs := x.jobs.map fun j => if j.sq = sq then f j else j }

/-- A FENCE_WAIT that has started and is not satisfied blocks every later job (R141). -/
def Ctx.fenced (x : Ctx) : Bool := x.jobs.any fun j => j.started && j.typ == 4

/-- The next job to start, when the rules of R141 let it start. -/
def Ctx.startable (x : Ctx) : Option Job :=
  match x.jobs.find? fun j => !j.started with
  | none => none
  | some j =>
    let earlier := x.jobs.filter fun i => i.started
    if x.fenced then none
    else if (j.flag 1 || j.typ == 5 || j.typ == 12) && !earlier.isEmpty then none
    else if earlier.any fun i => engineOf i.typ == engineOf j.typ then none
    else some j

/-- The job of context `c` that may start now, if its type is `typ`: the context is ACTIVE and has decided no fault. -/
def State.toStart (s : State) (c typ : Nat) : Option Job :=
  let x := s.ctx c
  if s.ctxState c = 1 ∧ x.faulting.isNone then
    match x.startable with
    | some j => if j.typ = typ then some j else none
    | none => none
  else none

/-- Mark a job started (R141, R152). -/
def State.markStarted (s : State) (c sq : Nat) : State :=
  let x := s.ctx c
  s.modJob c sq fun j => { j with started := true, startT := s.clk.stm, full0 := x.fullNs }

/-! ### Traffic of a paddock -/

/-- The paddock's function may master its port (R115, R121, R490). -/
def State.mayMaster (s : State) (p : Nat) : Bool :=
  s.bit (Reg.PDK_STATE p) 5 && !(s.hp.ports.getD (portOf p) {}).down

/-- A write of the device for paddock `p` to a device memory under the owner table (R96): a refused one is discarded and
recorded as the context engine's (R97, assumption 95). -/
def State.ownWrite (s : State) (p : Nat) (m : MemSel) (a : Nat) (bs : List Byte) : State :=
  match s.refusedIn .job p true m a bs.length with
  | some g => s.noteRefusal (.device 4) g
  | none => s.mergeWrite m a bs

/-- A write of the device for paddock `p` to a buffer address: host memory through the function (R121), which discards what
it may not send, or device memory. -/
def State.bufWrite (s : State) (p a : Nat) (bs : List Byte) : State :=
  match spaceOf a with
  | .host => if s.mayMaster p then s.emit (.hostWrite p (localOf a) bs) else s
  | .dram => s.ownWrite p .dram (localOf a) bs
  | .basin => s.ownWrite p .basin (localOf a) bs
  | .reserved => s

/-- The lowest free tag of a port (at most 256 reads outstanding, Table 5.1). -/
def Port.freeTag (q : Port) : Option Nat := (List.range 256).find? fun t => !(q.reads.any fun r => r.tag == t)

/-- Change a port. -/
def State.modPort (s : State) (n : Nat) (f : Port → Port) : State :=
  { s with hp := { s.hp with ports := s.hp.ports.modify n f } }

/-- The tag with which context `c` may issue one more read: a free one of its port, while the context has fewer than 64
reads outstanding (R143, Table 5.1). -/
def State.readTag (s : State) (c : Nat) : Option Nat :=
  let q := s.hp.ports.getD (portOf (s.ctxPaddock c)) {}
  if (q.reads.filter fun r => r.ctx == c).length < 64 then q.freeTag else none

/-- A read of host memory leaves with its tag. -/
def State.sendRead (s : State) (t : Nat) (r : ReadWait) : State :=
  let p := s.ctxPaddock r.ctx
  (s.modPort (portOf p) fun q => { q with reads := q.reads ++ [⟨t, r.ctx, r.sq, r.off, false⟩] }).emit
    (.hostRead p (localOf r.addr) r.len t)

/-- A read of host memory for a job: issued, or waiting on the credits of its context (R143). -/
def State.hostRead (s : State) (c sq off a n : Nat) : State :=
  let r : ReadWait := ⟨c, sq, off, a, n⟩
  match s.readTag c, s.hp.readWaits.any fun w => w.ctx == c with
  | some t, false => s.sendRead t r
  | _, _ => { s with hp := { s.hp with readWaits := s.hp.readWaits ++ [r] } }

/-- A read of the job at ring index `sq` of context `c` waits for a credit. -/
def State.readsWait (s : State) (c sq : Nat) : Bool := s.hp.readWaits.any fun w => w.ctx == c && w.sq == sq

/-- The reads of a context, or of one of its jobs, are orphaned (R157): they keep their tags and their data is discarded. Those
that have not been issued are dropped. -/
def State.orphan (s : State) (c : Nat) (sq : Option Nat) : State :=
  let s1 := s.modPort (portOf (s.ctxPaddock c)) fun q => { q with
    reads := q.reads.map fun r =>
      if r.ctx = c ∧ (sq = none ∨ sq = some r.sq) then { r with orphaned := true } else r }
  { s1 with hp := { s1.hp with
    readWaits := s1.hp.readWaits.filter fun w => !(decide (w.ctx = c) && (sq == none || sq == some w.sq)) } }

/-! ### Completion (R142, R144, R148, R160, R163) -/

/-- Write a completion or report entry, with the phase bit, at the device's completion tail. -/
def State.writeEntry (s : State) (c : Nat) (bs : List Byte) : State :=
  let x := s.ctx c
  let p := s.ctxPaddock c
  let b12 := BitVec.ofNat 8 (putBits (bs.getD 12 0).toNat 0 0 (b2n x.phase))
  let s1 := s.bufWrite p (x.cqBase + 32 * x.cqTail) (bs.set 12 b12)
  let wraps := decide (x.cqSize ≤ x.cqTail + 1)
  s1.setCtx c { x with
    cqTail := if wraps then 0 else x.cqTail + 1
    phase := if wraps then !x.phase else x.phase
    cqUsed := x.cqUsed + 1 }

/-- cq_full follows the ring (R142). -/
def State.syncFull (s : State) (c : Nat) : State :=
  let x := s.ctx c
  let full := decide (x.cqSize ≤ x.cqUsed)
  let s1 := s.setBit (Reg.CQ_CTX_STATUS c) 3 full
  match full, x.fullSince with
  | true, none => s1.setCtx c { x with fullSince := some s.clk.stm }
  | false, some t => s1.setCtx c { x with fullSince := none, fullNs := x.fullNs + (s.clk.stm - t) }
  | _, _ => s1

/-- The MSI-X message of a context, on a vector from 2 to 23 (R144). -/
def State.ctxMsg (s : State) (c : Nat) : State :=
  let v := bitsOf (s.ctx c).cfg 20 16
  if 2 ≤ v ∧ v ≤ 23 then s.raiseVec (s.ctxPaddock c) v else s

/-- An entry goes into its ring, and its message, if it asks for one, follows it (R19, R144). -/
def State.sendEntry (s : State) (c : Nat) (e : List Byte × Bool) : State :=
  let s1 := s.writeEntry c e.1
  if e.2 then s1.ctxMsg c else s1

/-- The next entry of a context: written where the ring has room, and otherwise held inside the device with its message
(R142). -/
def State.pushEntry (s : State) (c : Nat) (bs : List Byte) (msg : Bool) : State :=
  let x := s.ctx c
  if x.held.isEmpty && decide (x.cqUsed < x.cqSize) then (s.sendEntry c (bs, msg)).syncFull c
  else (s.setCtx c { x with held := x.held ++ [(bs, msg)] }).syncFull c

/-- Held entries are written in order as room allows (R142, R160). -/
def State.drainHeld (s : State) (c : Nat) : Nat → State
  | 0 => s
  | n + 1 =>
    let x := s.ctx c
    match x.held with
    | [] => s
    | e :: es =>
      if x.cqUsed < x.cqSize then State.drainHeld ((s.setCtx c { x with held := es }).sendEntry c e) c n else s

/-- The completion entry of Table 6.7, its phase bit clear. -/
def entryBytes (tag status typ sq progress recorded c time detail seq : Nat) : List Byte :=
  leBytes 4 tag ++ leBytes 1 status ++ leBytes 1 typ ++ leBytes 2 sq ++ leBytes 4 progress ++ leBytes 2 (2 * recorded)
    ++ leBytes 2 c ++ leBytes 8 time ++ leBytes 4 detail ++ leBytes 4 seq

/-- The progress record of Table 6.12 and its variable part. -/
def Job.recordBytes (j : Job) (status time : Nat) : List Byte :=
  leBytes 1 j.typ ++ leBytes 1 status ++ leBytes 2 0 ++ leBytes 4 (j.f 4 4) ++ leBytes 8 j.count ++ leBytes 8 time
    ++ leBytes 4 j.listCount ++ leBytes 4 j.extent ++ j.vari.flatMap (leBytes 4)

/-- Status codes that fault their context (R153). -/
def isFault (status : Nat) : Bool := decide (0x20 ≤ status ∧ status ≤ 0x2F)

/-- The job's count, list and extent as the block that runs it has them (Table 6.11). -/
def State.syncProgress (s : State) (c sq : Nat) : State :=
  match s.jjob c sq with
  | some j =>
    let (n, ext, len, l) := s.jetProgress j
    s.modJob c sq fun k => { k with count := n, extent := ext, listCount := len, vari := l }
  | none =>
    if s.cmp.commits.any fun x => x.job == some (c, sq) && x.latched && x.code == 0 then
      s.modJob c sq fun k => { k with count := 1 }
    else s

/-- Write the record and entry of a job that has ended, with the message where the job asks for one or its status does
(R144, R148, R163). -/
def State.complete (s : State) (c : Nat) (j : Job) (status time detail seq : Nat) : State :=
  let withRec := j.flag 2 && (status == 0x10 || status == 0x08 || status == 0x09)
  let s1 := if withRec then s.bufWrite (s.ctxPaddock c) (j.f 8 8) (j.recordBytes status time) else s
  s1.pushEntry c (entryBytes (j.f 4 4) status j.typ j.sq (j.count % 2 ^ 32) (b2n withRec) c time detail seq)
    (j.flag 0 || status == 0x10 || status == 0x11 || decide (0x20 ≤ status ∧ status ≤ 0x31))

/-- The state that a context takes once a job ended, ring room changed, or a fence was met (Table 6.2). -/
def State.settle (s : State) (c : Nat) : State :=
  let x := s.ctx c
  if s.ctxState c = 1 ∨ s.ctxState c = 2 then
    match x.faulting with
    | some st =>
      if x.jobs.isEmpty then
        ((s.setCtx c { x with faulting := none }).setCtxState c 5).setFld (Reg.CQ_CTX_STATUS c) 15 8 st
      else s
    | none =>
      if s.bit (Reg.CQ_CTX_STATUS c) 3 || x.fenced then s.setCtxState c 2
      else if x.jobs.isEmpty && x.sqHead == x.tail then s.setCtxState c 0
      else s.setCtxState c 1
  else s

/-- End of every admitted job that has not started as REINED_BEFORE_START (R153, R158). -/
def State.endUnstarted (s : State) (c time seq : Nat) : State :=
  let x := s.ctx c
  let s1 := s.setCtx c { x with jobs := x.jobs.filter fun j => j.started }
  s1.each (fun j s => (s.dropRefs c j.sq).complete c { j with count := 0 } 0x11 time 0 seq)
    (x.jobs.filter fun j => !j.started)

/-- A job ends with a status (R142 order: entries go out as jobs end). A fault status stops the context unless a rein has
begun (R153, R158). -/
def State.endJob (s0 : State) (c sq status detail seq : Nat) : State :=
  let s := s0.syncProgress c sq
  match s.job c sq with
  | none => s0
  | some j =>
    let x := s.ctx c
    let s1 := ((s.dropRefs c sq).setCtx c { x with jobs := x.jobs.filter fun i => i.sq != sq }).orphan c (some sq)
    let s2 := s1.complete c j status s.clk.stm detail seq
    if isFault status && (s.ctxState c = 1 || s.ctxState c = 2) then
      let y := s2.ctx c
      let s3 := if y.faulting.isNone then s2.setCtx c { y with faulting := some status } else s2
      (s3.endUnstarted c s.clk.stm seq).settle c
    else s2.settle c

/-- A job ends with a fault: its JOB_FAULT record is accepted first and names the entry's event_seq (R19, R97, R153).
`off` is the offset within the named structure, or zero. -/
def State.faultJob (s : State) (c sq status detail off : Nat) : State :=
  match s.job c sq with
  | none => s
  | some _ =>
    let s1 := s.recordNow 0x0202 [(16, c), (8, status), (32, detail), (32, off)]
    s1.endJob c sq status detail s1.lastSeq

/-- A job ends at what stopped its access: where that is an uncorrectable word, `detail` is its number, the error is counted
and recorded, and the entry's detail is the granule (R170). -/
def State.faultAt (s : State) (c sq status detail off : Nat) : State :=
  if status = 0x23 then (s.eccSeen detail).faultJob c sq 0x23 (eccGran detail) off else s.faultJob c sq status detail off

/-- Detail of FAULT_ACCESS for a refused granule, and for host memory that the function cannot master (Table 6.8, R490). -/
def accessDetail (off gran : Nat) : Nat := off % 128 * 2 ^ 24 + gran % 2 ^ 21
def hostDetail (off : Nat) : Nat := 2 ^ 31 + off % 128 * 2 ^ 24

/-- A read of host memory for a job, which faults it where its function may not master its port (R115, R121, R490). -/
def State.readHost (s : State) (c sq off a n : Nat) : State :=
  if s.mayMaster (s.ctxPaddock c) then s.hostRead c sq off a n else s.faultJob c sq 0x20 (hostDetail off) 0

/-- The reads that wait are issued in order as credits allow; one that its function may no longer send faults its job. -/
def State.drainReads (s : State) : List ReadWait → State
  | [] => s
  | r :: rs =>
    let s1 : State := { s with hp := { s.hp with readWaits := s.hp.readWaits.erase r } }
    if !s.hp.readWaits.contains r then s.drainReads rs
    else if !s.mayMaster (s.ctxPaddock r.ctx) then (s1.faultJob r.ctx r.sq 0x20 (hostDetail r.off) 0).drainReads rs
    else match s.readTag r.ctx with
      | some t => (s1.sendRead t r).drainReads rs
      | none => s.drainReads rs

/-- What stops an access of a job to [a, a + n): the FAULT_ACCESS detail (R97, R490), or none. -/
def State.jobRefused (s : State) (c off a n : Nat) (write : Bool) : Option Nat :=
  let p := s.ctxPaddock c
  match spaceOf a with
  | .host => if s.mayMaster p then none else some (hostDetail off)
  | .dram => (s.refusedIn .job p write .dram (localOf a) n).map (accessDetail off)
  | .basin => (s.refusedIn .job p write .basin (localOf a) n).map (accessDetail off)
  | .reserved => none

/-- The number of the first uncorrectable word that an access to [a, a + n) of a buffer address reads: any word of a read,
one covered in part of a write (R170, R171). -/
def State.eccIn (s : State) (write : Bool) (a n : Nat) : Option Nat :=
  let go := fun (m : MemSel) =>
    match (s.mem.bad.filter fun q => q.1 == m && decide (localOf a < 8 * (q.2 + 1)) && decide (8 * q.2 < localOf a + n)
        && !(write && covers (localOf a) n q.2)).map (fun q => q.2) with
    | [] => none
    | w :: ws => some (eccWord m (ws.foldl min w))
  match spaceOf a with
  | .dram => go .dram
  | .basin => go .basin
  | _ => none

/-- The granules that an access to a buffer address meets are initialised (R181). -/
def State.touchMem (s : State) (a n : Nat) : State :=
  if spaceOf a = .dram ∧ n ≠ 0 then s.initRange .dram (localOf a) n else s

/-- The same for byte ranges. -/
def State.touchRanges (s : State) (l : List (Nat × Nat)) : State := s.each (fun r s => s.touchMem r.1 r.2) l

/-- A buffer address of a byte of Basin (Table 6.3). -/
def basinAddr (a : Nat) : Nat := 2 ^ 63 + a

/-- The first uncorrectable word that an access to [a, a + n) reads. -/
def State.poisonIn (s : State) (a n : Nat) : Option Nat := s.eccIn false a n

/-- Bytes of a buffer: device memory, or host memory as the command brings it (an address it does not list reads as the
free value of its address, assumption 16). -/
def State.bufRead (s : State) (host : List (Nat × Byte)) (a n : Nat) : List Byte :=
  match spaceOf a with
  | .dram => s.bytes .dram (localOf a) n
  | .basin => s.bytes .basin (localOf a) n
  | _ => (List.range n).map fun i =>
    ((host.find? fun e => e.1 == localOf a + i).map (·.2)).getD (Config.freeBits 8 (2 ^ 64 + localOf a + i))

/-! ### Rein (R155–R161) -/

/-- A rein reaches a context (Table 6.2, R161): REINING from IDLE, ACTIVE or WAITING. `src` is 0 paddock, 1 manager,
2 quiesce. -/
def State.reinCtx (s : State) (c src : Nat) : State :=
  if s.ctxState c ≤ 2 then
    ((s.setCtx c { s.ctx c with reinSrc := src, reinIdle := decide (s.ctxState c = 0) }).setCtxState c 3).jetsCalm c
  else s

/-- RESET of a context (Table 6.9): indices, phase and last status; ring bases and CQ_U_CFG stand. -/
def State.resetCtx (s : State) (c : Nat) : State :=
  let x := s.ctx c
  let s1 := s.setCtx c { x with
    tail := 0, sqHead := 0, cqHead := 0, cqTail := 0, cqUsed := 0, phase := true, jobs := [], held := [],
    resetAfter := false, idleAfter := false, faulting := none, fullSince := none }
  (((s1.setCtxState c 0).setFld (Reg.CQ_CTX_STATUS c) 15 8 0).setBit (Reg.CQ_CTX_STATUS c) 3 false).setBit
    (Reg.CQ_CTX_STATUS c) 5 false

/-- A context returns to IDLE with its U-window registers at reset (R124, UNASSIGN_CTX). -/
def State.clearCtx (s : State) (c : Nat) : State :=
  ((s.setCtx c {}).setReg (Reg.CQ_CTX_STATUS c) 0)

/-! ### Paddock transitions (R127–R130) -/

def State.pdkState (s : State) (p : Nat) : Nat := s.fld (Reg.PDK_STATE p) 2 0

/-- A transition of Table 5.4: the record, the cause bit and the manager interrupt (R127). -/
def State.movePdk (s : State) (p st : Nat) : State :=
  let s1 := s.setFld (Reg.PDK_STATE p) 2 0 st
  let s2 := s1.offer 0x0101 [(8, p), (8, s.pdkState p), (8, st), (8, s1.fld (Reg.PDK_STATE p) 15 8)]
  (s2.pdkCause p 0).mgrIrqSticky

/-- An ACTIVE paddock enters QUIESCING with this cause, which reins its ACTIVE and WAITING contexts (R128). -/
def State.quiesce (s : State) (p cause : Nat) : State :=
  if s.pdkState p = 2 then
    let s1 := (s.setFld (Reg.PDK_STATE p) 15 8 cause).movePdk p 3
    s1.each (fun c s => if s.ctxState c = 1 ∨ s.ctxState c = 2 then s.reinCtx c 2 else s) (s1.ctxsOf' p)
  else s

/-- The registers homed in paddock `p`'s U window return to their reset words, and no message of its vectors is left. -/
def State.resetWindow (s : State) (p : Nat) : State :=
  { s with
    regs := s.regs.filter fun r => !(decide (r.1 / 65536 = 0x1000 + p))
    hp := { s.hp with
      msix := s.hp.msix.filter fun m => m.1 != p
      masked := s.hp.masked.filter fun m => m.1 != p
      sticky := s.hp.sticky.filter fun m => m.1 != p } }

/-- The function of paddock `p` returns to its configuration-space reset values (R116, R124). -/
def State.resetFn (s : State) (p : Nat) : State :=
  (((s.resetWindow p).setFn p {}).setBit (Reg.PDK_STATE p) 5 false).setBit (Reg.PDK_STATE p) 6 false

/-- A context becomes IDLE with its rings unset (R116, R124): after its rein, where it has work or one is under way. -/
def State.idleCtx (s : State) (c : Nat) : State :=
  if s.ctxState c = 1 ∨ s.ctxState c = 2 then
    let s1 := s.reinCtx c 2
    s1.setCtx c { s1.ctx c with idleAfter := true }
  else if s.ctxState c = 3 then s.setCtx c { s.ctx c with idleAfter := true }
  else s.clearCtx c

/-- The reset of a function is not over while its paddock quiesces or one of its contexts reins. -/
def State.stillResets (s : State) (p : Nat) : Bool :=
  s.pdkState p == 3 || (s.ctxsOf' p).any fun c => s.ctxState c == 3

/-- A function whose reset has been asked and waits for nothing more returns to reset. -/
def State.endReset (s : State) (p : Nat) : State :=
  if (s.fn p).resetting && !s.stillResets p then s.resetFn p else s

/-- The FLR of a function (R124, R126): an ACTIVE paddock quiesces with this cause, its contexts become IDLE with their
rings unset, and its window and configuration return to reset, again once the last rein has ended. The manager's contexts
rein and it stays ACTIVE. -/
def State.flr (s : State) (p cause : Nat) : State :=
  let s1 := if p = s.manager then s else s.quiesce p cause
  let s2 := (s1.each (fun c s => s.idleCtx c) (s1.ctxsOf' p)).resetFn p
  if s2.stillResets p then s2.setFn p { s2.fn p with resetting := true } else s2

end Sys2Proof.Machine
end

