-- ==== Sys2Proof/Machine/Geometry.lean ====
section
/-! DEFINITION. Geometry of the binner and the rasteriser (R199–R201): clipping, mapping, culling, coverage and
interpolation. -/

namespace Sys2Proof.Machine

/-! ### Clipping (R199 step 2) -/

/-- A clip-space vertex: exact position and varyings. -/
structure CVert where
  x : ℚ
  y : ℚ
  z : ℚ
  w : ℚ
  vary : List Nat
  deriving DecidableEq, Repr

/-- A delivered vertex, none where a coordinate is not finite (assumption 28). -/
def VOut.clip? (v : VOut) : Option CVert :=
  match f32.rat? (v.pos.getD 0 0), f32.rat? (v.pos.getD 1 0), f32.rat? (v.pos.getD 2 0), f32.rat? (v.pos.getD 3 0) with
  | some x, some y, some z, some w => some ⟨x, y, z, w, v.vary⟩
  | _, _, _, _ => none

/-- An attribute between two: exact and rounded as the spec leaves open, and free where one is not finite (assumption 28). -/
def lerpWord (t : ℚ) (a b : Nat) : Nat :=
  match f32.rat? a, f32.rat? b with
  | some x, some y => f32.roundFree (x + t * (y - x))
  | _, _ => (Config.freeBits 32 (2 ^ 402 + ratKey t * 2 ^ 64 + a % 2 ^ 32 * 2 ^ 32 + b % 2 ^ 32)).toNat

/-- The vertex a fraction `t` of the way from `a` to `b`. -/
def CVert.between (a b : CVert) (t : ℚ) : CVert :=
  ⟨a.x + t * (b.x - a.x), a.y + t * (b.y - a.y), a.z + t * (b.z - a.z), a.w + t * (b.w - a.w),
    List.zipWith (lerpWord t) a.vary b.vary⟩

/-- The clip planes: 0 ≤ z ≤ w, and the guard band of ±16,384 pixels on each axis. A vertex is inside a plane where its
value is not negative. -/
def Pass.planes (p : Pass) : List (CVert → ℚ) :=
  let px := fun (v : CVert) => (p.ax : ℚ) * v.w + (v.x + v.w) * p.aw / 2
  let py := fun (v : CVert) => (p.ay : ℚ) * v.w + (v.w - v.y) * p.ah / 2
  [fun v => v.z, fun v => v.w - v.z, fun v => px v + 16384 * v.w, fun v => 16384 * v.w - px v,
   fun v => py v + 16384 * v.w, fun v => 16384 * v.w - py v]

/-- One step of clipping: what the pair from `a` to `b` adds. -/
def clipPair (f : CVert → ℚ) (a b : CVert) : List CVert :=
  let (fa, fb) := (f a, f b)
  if 0 ≤ fa then (if 0 ≤ fb then [b] else [a.between b (fa / (fa - fb))])
  else if 0 ≤ fb then [a.between b (fa / (fa - fb)), b] else []

/-- A closed polygon clipped by one plane. -/
def clipPoly (f : CVert → ℚ) (vs : List CVert) : List CVert :=
  match vs.getLast? with
  | none => []
  | some l => (List.zipWith (clipPair f) (l :: vs) vs).flatten

/-- A segment clipped by one plane. -/
def clipLine (f : CVert → ℚ) : List CVert → List CVert
  | [a, b] =>
    let (fa, fb) := (f a, f b)
    if 0 ≤ fa then (if 0 ≤ fb then [a, b] else [a, a.between b (fa / (fa - fb))])
    else if 0 ≤ fb then [a.between b (fa / (fa - fb)), b] else []
  | _ => []

/-- The clipped outline of a primitive: polygon, segment or point; a vertex whose w is zero is clipped (R251). -/
def Pass.clip (p : Pass) (vs : List CVert) : List CVert :=
  let inside := fun (v : CVert) => decide (0 < v.w)
  match vs with
  | [v] => if p.planes.all (fun f => decide (0 ≤ f v)) && inside v then [v] else []
  | [_, _] => let l := p.planes.foldl (fun l f => clipLine f l) vs; if l.all inside then l else []
  | _ => (p.planes.foldl (fun l f => clipPoly f l) vs).filter inside

/-- A clipped polygon as triangles that share its first vertex (at most 7). -/
def fan : List CVert → List (List CVert)
  | a :: b :: c :: rest => [a, b, c] :: fan (a :: c :: rest)
  | _ => []

/-! ### Mapping and culling (R199 steps 3 and 4) -/

/-- A vertex mapped to pixels and snapped to 8 bits of sub-pixel precision. -/
def Pass.map (p : Pass) (v : CVert) : PVert :=
  let x := f32.roundFree ((p.ax : ℚ) + (v.x / v.w + 1) * p.aw / 2)
  let y := f32.roundFree ((p.ay : ℚ) + (1 - v.y / v.w) * p.ah / 2)
  let snap := fun w => intFree (((f32.rat? w).getD 0) * 256)
  { x := x, y := y, z := f32.roundFree (v.z / v.w), iw := f32.roundFree (1 / v.w), sx := snap x, sy := snap y, vary := v.vary }

/-- Twice the signed area of a triangle of snapped points, positive where its corners run clockwise on the screen. -/
def area2 (a b c : Int × Int) : Int := (b.1 - a.1) * (c.2 - a.2) - (c.1 - a.1) * (b.2 - a.2)

def PVert.pt (v : PVert) : Int × Int := (v.sx, v.sy)

/-- The outline of a primitive in 1/256 pixel (R200): a triangle's corners, a line's parallelogram one pixel wide across its
major axis, a point's 1 × 1 square. -/
def Prim.outline (p : Prim) : List (Int × Int) :=
  match p.kind, p.vs with
  | 0, vs => vs.map PVert.pt
  | 1, [a, b] =>
    if (b.sy - a.sy).natAbs ≤ (b.sx - a.sx).natAbs then
      [(a.sx, a.sy - 128), (b.sx, b.sy - 128), (b.sx, b.sy + 128), (a.sx, a.sy + 128)]
    else [(a.sx - 128, a.sy), (a.sx + 128, a.sy), (b.sx + 128, b.sy), (b.sx - 128, b.sy)]
  | _, v :: _ => [(v.sx - 128, v.sy - 128), (v.sx + 128, v.sy - 128), (v.sx + 128, v.sy + 128), (v.sx - 128, v.sy + 128)]
  | _, [] => []

/-- Twice the signed area of a polygon. -/
def polyArea (l : List (Int × Int)) : Int :=
  match l with
  | a :: rest => (List.zipWith (fun b c => area2 a b c) rest (rest.drop 1)).sum
  | [] => 0

/-- The outline with its corners in clockwise order. -/
def Prim.ring (p : Prim) : List (Int × Int) := let l := p.outline; if polyArea l < 0 then l.reverse else l

/-- The edges of a ring. -/
def edges (l : List (Int × Int)) : List ((Int × Int) × (Int × Int)) := l.zip (l.drop 1 ++ l.take 1)

/-- Which side of an edge a point lies on: positive inside. -/
def edgeAt (e : (Int × Int) × (Int × Int)) (q : Int × Int) : Int :=
  (e.2.1 - e.1.1) * (q.2 - e.1.2) - (e.2.2 - e.1.2) * (q.1 - e.1.1)

/-- A top or left edge of a clockwise ring. -/
def topLeft (e : (Int × Int) × (Int × Int)) : Bool := decide (e.2.2 < e.1.2) || (e.2.2 == e.1.2 && decide (e.1.1 < e.2.1))

/-- The ring covers a sample point, by the top-left rule (R200). -/
def ringCovers (l : List (Int × Int)) (q : Int × Int) : Bool :=
  (edges l).all fun e => let v := edgeAt e q; decide (0 < v) || (v == 0 && topLeft e)

/-- Sample positions in 1/256 pixel (R200). -/
def samplePos (n : Nat) : List (Nat × Nat) :=
  match n with
  | 2 => [(64, 64), (192, 192)]
  | 4 => [(96, 32), (224, 96), (32, 160), (160, 224)]
  | _ => [(128, 128)]

/-- A rectangle of pixels [x0, x1) × [y0, y1). -/
abbrev PRect := Nat × Nat × Nat × Nat

/-- The common part of two rectangles. -/
def PRect.meet (a b : PRect) : PRect := (max a.1 b.1, max a.2.1 b.2.1, min a.2.2.1 b.2.2.1, min a.2.2.2 b.2.2.2)
def PRect.empty (a : PRect) : Bool := decide (a.2.2.1 ≤ a.1) || decide (a.2.2.2 ≤ a.2.1)

/-- The corners of a rectangle in 1/256 pixel. -/
def PRect.corners (a : PRect) : List (Int × Int) :=
  let g := fun (n : Nat) => ((256 * n : Nat) : Int)
  [(g a.1, g a.2.1), (g a.2.2.1, g a.2.1), (g a.2.2.1, g a.2.2.2), (g a.1, g a.2.2.2)]

/-- The ring overlaps the rectangle. -/
def ringMeets (l : List (Int × Int)) (r : PRect) : Bool :=
  let cs := r.corners
  let g := fun (n : Nat) => ((256 * n : Nat) : Int)
  !r.empty && l.any (fun q => decide (g r.1 < q.1)) && l.any (fun q => decide (q.1 < g r.2.2.1))
    && l.any (fun q => decide (g r.2.1 < q.2)) && l.any (fun q => decide (q.2 < g r.2.2.2))
    && (edges l).all fun e => cs.any fun q => decide (0 < edgeAt e q)

/-- The ring covers the whole rectangle. -/
def ringHolds (l : List (Int × Int)) (r : PRect) : Bool :=
  !l.isEmpty && (edges l).all fun e => r.corners.all fun q => decide (0 ≤ edgeAt e q)

def Pass.area (p : Pass) : PRect := (p.ax, p.ay, p.ax + p.aw, p.ay + p.ah)
def Draw.scissor (d : Draw) : PRect := (d.x0, d.y0, d.x1, d.y1)

/-- The rectangle of tile `t`, inside the render area. -/
def Pass.tileRect (p : Pass) (t : Nat) : PRect :=
  let x := p.ax + 32 * (t % max 1 p.tw)
  let y := p.ay + 32 * (t / max 1 p.tw)
  PRect.meet (x, y, x + 32, y + 32) p.area

/-- The tiles that a primitive overlaps inside the render area and scissor, in row-major order, and whether it covers each
whole (R199 step 5). -/
def Pass.overlapped (p : Pass) (q : Prim) : List (Nat × Bool) :=
  let l := q.ring
  ((List.range p.tiles).filter fun t => ringMeets l (PRect.meet (p.tileRect t) q.draw.scissor)).map fun t =>
    let r := p.tileRect t
    (t, ringHolds l r && (PRect.meet r q.draw.scissor == r))

/-- Whether the primitive survives culling (R199 step 4), with its facing. -/
def Pass.cull (p : Pass) (q : Prim) : Option Prim :=
  let a := polyArea (q.vs.map PVert.pt)
  let front := if q.kind = 0 then (if q.draw.flags.testBit 6 then decide (a < 0) else decide (0 < a)) else true
  if q.kind = 0 && (a == 0 || (front && q.draw.flags.testBit 5) || (!front && q.draw.flags.testBit 4)) then none
  else if (p.overlapped q).isEmpty then none
  else some { q with front := front }

/-- The primitives that an assembled one yields: clipped, mapped and culled. -/
def Pass.process (p : Pass) (vs : List VOut) (drawNo id : Nat) (d : Draw) : List Prim :=
  let kind := if vs.length = 1 then 2 else if vs.length = 2 then 1 else 0
  let cs := vs.map VOut.clip?
  if cs.any (·.isNone) then []
  else
    let poly := p.clip (cs.filterMap fun c => c)
    let parts := if kind = 0 then fan poly else if poly.isEmpty then [] else [poly]
    parts.filterMap fun t => p.cull { kind := kind, vs := t.map p.map, drawNo := drawNo, id := id, draw := d }

/-! ### Interpolation (R200, R250) -/

/-- Weights of a primitive's vertices at a point in 1/256 pixel. -/
def Prim.weights (p : Prim) (q : Int × Int) : List ℚ :=
  match p.kind, p.vs with
  | 0, [a, b, c] =>
    let t := area2 a.pt b.pt c.pt
    [(area2 b.pt c.pt q : ℚ) / t, (area2 c.pt a.pt q : ℚ) / t, (area2 a.pt b.pt q : ℚ) / t]
  | 1, [a, b] =>
    let (dx, dy) := (b.sx - a.sx, b.sy - a.sy)
    let t : ℚ := if dy.natAbs ≤ dx.natAbs then ((q.1 - a.sx : Int) : ℚ) / dx else ((q.2 - a.sy : Int) : ℚ) / dy
    [1 - t, t]
  | _, _ => [1]

/-- A weighted sum of words, none where one is not finite. -/
def weighted (ws : List ℚ) (l : List Nat) : Option ℚ :=
  (List.zip ws l).foldl (fun acc p => match acc, f32.rat? p.2 with
    | some s, some v => some (s + p.1 * v)
    | _, _ => none) (some 0)

/-- A free word of a list of words and a point: what interpolation of a value that is not finite gives (assumption 28). -/
def freeOf (l : List Nat) (q : Int × Int) : Nat :=
  let key := l.foldl (fun k w => k * 2 ^ 32 + w % 2 ^ 32) (ratKey (q.1 : ℚ) * 2 ^ 40 + q.2.natAbs)
  (Config.freeBits 32 (2 ^ 400 + key)).toNat

/-- The value of an attribute at a point: mode 0 or 3 perspective-correct, 1 or 4 linear, 2 flat from vertex 0 (R250). -/
def Prim.interp (p : Prim) (mode : Nat) (q : Int × Int) (attr : PVert → Nat) : Nat :=
  let vals := p.vs.map attr
  if mode = 2 then vals.getD 0 0
  else
    let ws := p.weights q
    if mode = 1 ∨ mode = 4 then
      match weighted ws vals with
      | some v => f32.roundFree v
      | none => freeOf vals q
    else
      let iws := p.vs.map (·.iw)
      let pw := List.zipWith (fun w i => w * (f32.rat? i).getD 0) ws iws
      match weighted pw vals, weighted ws iws with
      | some n, some d => if d = 0 then freeOf vals q else f32.roundFree (n / d)
      | _, _ => freeOf vals q

/-- Depth at a point: z/w is linear on the screen. -/
def Prim.depthAt (p : Prim) (q : Int × Int) : Nat := p.interp 1 q (·.z)

/-! ### Coverage of a tile (R200) -/

/-- Covered samples of pixel (x, y) as a mask, inside the render area and scissor. -/
def Pass.coverage (p : Pass) (q : Prim) (ring : List (Int × Int)) (x y : Nat) : Nat :=
  let r := PRect.meet p.area q.draw.scissor
  if r.1 ≤ x ∧ x < r.2.2.1 ∧ r.2.1 ≤ y ∧ y < r.2.2.2 then
    let ps := samplePos p.samples
    ((List.range ps.length).map fun i =>
      let s := ps.getD i (128, 128)
      b2n (ringCovers ring (((256 * x + s.1 : Nat) : Int), ((256 * y + s.2 : Nat) : Int))) * 2 ^ i).sum
  else 0

/-- The quads of a tile that a primitive covers in part or whole, in row-major order. -/
def Pass.quads (p : Pass) (q : Prim) (tile : Nat) : List Quad :=
  let ring := q.ring
  let r := p.tileRect tile
  (List.range 256).filterMap fun i =>
    let x := r.1 + 2 * (i % 16)
    let y := r.2.1 + 2 * (i / 16)
    let cov := [p.coverage q ring x y, p.coverage q ring (x + 1) y, p.coverage q ring x (y + 1), p.coverage q ring (x + 1) (y + 1)]
    if cov.all (· == 0) then none else some { x := x, y := y, cov := cov : Quad }

end Sys2Proof.Machine
end

