-- ==== Sys2Proof/Machine/Image.lean ====
section
/-! DEFINITION. The configuration image (R70–R84): reading flash, the slot directory, the header and section table, and the
verification and admission checks of Table 3.8. -/

namespace Sys2Proof.Machine

/-- One flash byte: free in a sector left undefined (R90), erased where nothing is programmed. -/
def State.flashByte (s : State) (a : Nat) : Byte :=
  match s.boot.undef.find? fun p => p.1 == a / 65536 with
  | some (_, k) => Config.flashByte k a
  | none => spGet erasedByte s.boot.flash a

/-- `n` flash bytes from `a`. -/
def State.flashBytes (s : State) (a : Nat) : Nat → List Byte
  | 0 => []
  | n + 1 => s.flashByte a :: s.flashBytes (a + 1) n

/-- An `n`-byte little-endian number in flash. -/
def State.flashN (s : State) (a n : Nat) : Nat := ofLeBytes (s.flashBytes a n)

/-- Flash offset of a slot (Table 3.2): 0 is A, 1 is B. -/
def slotBase (slot : Nat) : Nat := if slot = 0 then 0x20000 else 0x3020000

/-- Directory copy `c`, if its magic and CRC check (R70). -/
def State.dirCopy (s : State) (c : Nat) : Option Dir :=
  let a := c * 65536
  if s.flashN a 4 = 0x4E4D4431 ∧ s.flashN (a + 0x1C) 4 = crc32c (s.flashBytes a 0x1C) then
    some ⟨s.flashN (a + 4) 4, s.flashN (a + 8) 1, s.flashN (a + 9) 1, s.flashN (a + 10) 1, s.flashN (a + 11) 1⟩
  else none

/-- The copy in force: the valid one with the higher sequence, copy 0 on a tie (R70). -/
def State.dirInForce (s : State) : Option (Nat × Dir) :=
  match s.dirCopy 0, s.dirCopy 1 with
  | some a, some b => if a.sequence < b.sequence then some (1, b) else some (0, a)
  | some a, none => some (0, a)
  | none, some b => some (1, b)
  | none, none => none

/-- State of a slot in a directory. -/
def Dir.slotState (d : Dir) (slot : Nat) : Nat := if slot = 0 then d.stateA else d.stateB

/-- A directory with the state of one slot changed. -/
def Dir.setState (d : Dir) (slot st : Nat) : Dir := if slot = 0 then { d with stateA := st } else { d with stateB := st }

/-- The 32 bytes of Table 3.3. -/
def Dir.bytes (d : Dir) : List Byte :=
  let body := leBytes 4 0x4E4D4431 ++ leBytes 4 d.sequence ++ leBytes 1 d.preferred ++ leBytes 1 d.stateA
    ++ leBytes 1 d.stateB ++ leBytes 1 d.tries ++ leBytes 16 0
  body ++ leBytes 4 (crc32c body)

/-- A section of the image under check: type, sflags, payload offset and length, crc, target, and its plaintext. -/
structure Section where
  idx : Nat
  typ : Nat
  sflags : Nat
  off : Nat
  len : Nat
  crc : Nat
  target : Nat
  targetHi : Nat
  iv : List Byte
  entry : List Byte
  tag : List Byte
  raw : List Byte
  plain : List Byte
  deriving DecidableEq, Repr

/-- A failing check: code, section index and detail (Table 3.8). -/
structure Failure where
  code : Nat
  sec : Nat
  detail : Nat
  deriving DecidableEq, Repr

/-- An image header's fields. -/
structure Header where
  length : Nat
  count : Nat
  flags : Nat
  secVersion : Nat
  version : Nat
  keyIndex : Nat
  siliconMin : Nat
  sigOffset : Nat
  deriving DecidableEq, Repr

/-- The checks of codes 0x02 and 0x03 on the header at flash offset `b` (Table 3.4). -/
def State.headerCheck (s : State) (b : Nat) : Except Failure Header :=
  let n := fun o k => s.flashN (b + o) k
  let h : Header := ⟨n 8 4, n 0xC 2, n 0xE 2, n 0x10 4, n 0x14 4, n 0x20 1, n 0x21 1, n 0x24 4⟩
  if n 0 4 ≠ 0x384D594E ∨ n 4 2 ≠ 1 ∨ n 6 2 ≠ 0x200 ∨ n 0x22 2 ≠ 0 ∨ n 0x28 468 ≠ 0 ∨ h.flags / 4 ≠ 0
      ∨ 63 < h.secVersion ∨ n 0x1FC 4 ≠ crc32c (s.flashBytes b 0x1FC) then .error ⟨2, 0xFF, 0⟩
  else if h.length ≠ h.sigOffset + 192 ∨ 0x3000000 < h.length ∨ h.sigOffset % 64 ≠ 0 ∨ h.count = 0 ∨ 256 < h.count
      ∨ h.sigOffset < 0x200 + 64 * h.count then .error ⟨3, 0xFF, 0⟩
  else .ok h

/-- The checks of codes 0x04 to 0x07: key, signature, rollback, silicon (R76, R82). -/
def State.keyCheck (s : State) (b : Nat) (h : Header) : Except Failure Unit :=
  let key := s.flashBytes (b + h.sigOffset) 96
  let sig := s.flashBytes (b + h.sigOffset + 96) 96
  if 3 < h.keyIndex ∨ s.fuses.keyProg.testBit h.keyIndex = false ∨ s.fuses.keyRevoked.testBit h.keyIndex = true
      ∨ Config.sha384 key ≠ s.fuses.keyHash.getD h.keyIndex [] then .error ⟨4, 0xFF, h.keyIndex⟩
  else if Config.ecdsaP384 key sig (Config.sha384 (s.flashBytes b h.sigOffset)) = false then .error ⟨5, 0xFF, 0⟩
  else if h.secVersion < s.fuses.minSec then .error ⟨6, 0xFF, s.fuses.minSec⟩
  else if s.fuses.silicon < h.siliconMin then .error ⟨7, 0xFF, s.fuses.silicon⟩
  else .ok ()

/-- Section table entry `i` (Table 3.5). -/
def State.sectionAt (s : State) (b i : Nat) : Section :=
  let a := b + 0x200 + 64 * i
  let n := fun o k => s.flashN (a + o) k
  let raw := s.flashBytes (b + n 4 4) (n 8 4)
  ⟨i, n 0 2, n 2 2, n 4 4, n 8 4, n 0xC 4, n 0x10 4, n 0x14 4, s.flashBytes (a + 0x18) 12, s.flashBytes a 24,
    s.flashBytes (a + 0x30) 16, raw, raw⟩

/-- The sections of an image, in table order. -/
def State.sectionsOf (s : State) (b count : Nat) : List Section := (List.range count).map (s.sectionAt b)

/-- Largest number of sections of a type (Table 3.6); 0 for a reserved type. -/
def typeMax (t : Nat) : Nat :=
  if 0x8000 ≤ t then 256 else if t = 0x14 ∨ t = 0x15 then 64 else if 1 ≤ t ∧ t ≤ 0x13 then 1 else 0

/-- Two payloads overlap. -/
def overlaps (a la b lb : Nat) : Bool := decide (a < b + lb) && decide (b < a + la)

/-- The section-table check of code 0x08 for one section: type and count, sflags, reserved bytes, R79. Table 3.8 does not
say that an encrypted section under a clear header flag [0], a target or reserved bytes that are not zero, a length of 0 and
an offset that is no multiple of 64 fail here: DESIGN CHOICE, assumption 93. -/
def State.secBad (s : State) (b : Nat) (h : Header) (all : List Section) (x : Section) : Bool :=
  let data := x.typ = 0x14 ∨ x.typ = 0x15
  decide ((all.filter fun y => y.typ == x.typ && decide (y.idx ≤ x.idx)).length > typeMax x.typ)
    || decide (x.sflags / 2 ≠ 0) || decide (x.sflags % 2 = 1 ∧ h.flags % 2 = 0)
    || decide (x.off % 64 ≠ 0) || decide (x.len = 0) || decide (h.sigOffset < x.off + x.len)
    || decide (x.off < 0x200 + 64 * h.count)
    || all.any (fun y => decide (y.idx < x.idx) && overlaps x.off x.len y.off y.len)
    || decide (¬ data ∧ x.target ≠ 0) || decide (x.typ ≠ 0x15 ∧ x.targetHi ≠ 0)
    || decide (s.flashN (b + 0x200 + 64 * x.idx + 0x24) 12 ≠ 0)

/-- Types that every image must hold (Table 3.6). -/
def requiredTypes : List Nat := [1, 2, 3, 4, 6]

/-- Decrypt a section (R78): none where the image key is not programmed or removed, or the tag fails. -/
def State.decrypt (s : State) (x : Section) : Option Section :=
  if x.sflags % 2 = 0 then some x
  else if !s.fuses.imageKeyProg || s.boot.imageKeyRemoved then none
  else (Config.aesGcm s.fuses.imageKey x.iv x.entry x.raw x.tag).map fun p => { x with plain := p }

/-- A section is a register list. -/
def isRegList (t : Nat) : Bool := decide (t = 2 ∨ t = 3 ∨ (6 ≤ t ∧ t ≤ 0x13))

/-- The records of a register list: offset and value (R80). -/
def recordsOf : List Byte → List (Nat × Nat)
  | a :: b :: c :: d :: e :: f :: g :: h :: rest => (ofLeBytes [a, b, c, d], ofLeBytes [e, f, g, h]) :: recordsOf rest
  | _ => []

/-- Whether offset `a` lies in the blocks that Table 3.6 gives for a section type. -/
def inBlocks (t a : Nat) : Bool :=
  let r := fun lo hi => decide (lo ≤ a) && decide (a ≤ hi)
  match t with
  | 2 => r 0x60800 0x60FFF
  | 3 => r 0 0xFFF
  | 6 => r 0x40000 0x5FFFF
  | 7 => r 0 0xFFFF
  | 8 => r 0x10000 0x1FFFF
  | 9 => r 0x20000 0x2FFFF
  | 10 => r 0x30000 0x3FFFF
  | 11 => r 0x60000 0x607FF
  | 12 => r 0x70000 0x7FFFF
  | 13 => r 0x80000 0x93FFF
  | 14 => r 0xA0000 0xAFFFF
  | 15 => r 0xC0000 0xCFFFF
  | 16 => r 0xD0000 0xDFFFF
  | 17 => r 0xE0000 0xEFFFF
  | 18 => r 0xF0000 0xFFFFF
  | 19 => r 0x100000 0x10FFFF
  | _ => false

/-- The element numbers of address `a` in a register array, if it is an element of the row. -/
def RegRow.index? (w : RegRow) (a : Nat) : Option (List Nat) :=
  if a < w.base then none
  else
    let rec go : List (Nat × Nat) → Nat → Option (List Nat)
      | [], d => if d = 0 then some [] else none
      | (st, n) :: ds, d =>
        if d / st < n then (go ds (d % st)).map (d / st :: ·) else none
    go w.dims (a - w.base)

/-- The row of the register at key `a`. -/
def rowAt (a : Nat) : Option RegRow :=
  regRows.findSome? fun rows => rows.find? fun w => (w.index? a).isSome

/-- Key that a record of a section type names: S-view offsets for SECURE_POLICY. -/
def recordKey (t a : Nat) : Nat := if t = 3 then 0x20000000 + a else a

/-- R80: a record may set RW, RS, RL and Image fields, and RO fields whose reset column reads Image. -/
def recordOk (t a : Nat) : Bool :=
  inBlocks t a && decide (a % 4 = 0) &&
    match rowAt (recordKey t a) with
    | none => false
    | some w => decide (w.wo = 0) && decide (w.w1c = 0) && decide (w.ro = w.roi)

/-- Index of the first failing record of a register list, or none. A payload that is no whole number of records fails at the
record that is cut short (DESIGN CHOICE, assumption 93). -/
def badRecord (x : Section) : Option Nat :=
  if isRegList x.typ then
    (if x.len % 8 ≠ 0 then some (x.len / 8) else (recordsOf x.plain).findIdx? fun r => !recordOk x.typ r.1)
  else none

/-- PLATFORM (Table 3.7) as the bytes of its section, byte `o`. -/
def platByte (p : List Byte) (o : Nat) : Nat := (p.getD o 0).toNat

/-- DRAM fields within Table 7.3 (R177). A PLATFORM payload that is not 64 bytes long, or whose zero bytes are not zero, fails
with them (DESIGN CHOICE, assumption 93). -/
def platDramOk (p : List Byte) : Bool :=
  p.length == 64 && ([5, 6, 7] ++ (List.range 41).map (· + 0x17)).all (fun o => platByte p o == 0) && decide (platByte p 0x14 < 16) &&
  [1, 3, 15, 255].contains (platByte p 0) && [1, 2, 3, 4, 6, 8].contains (platByte p 1)
    && [3200, 4266, 5500, 6400, 7500, 8533].contains (platByte p 2 + 256 * platByte p 3) && decide (platByte p 4 < 2)

/-- Populated channels. -/
def platChannels (p : List Byte) : Nat := if platByte p 0 = 1 then 1 else if platByte p 0 = 3 then 2
  else if platByte p 0 = 15 then 4 else 8

/-- Visible capacity in granules (R179). -/
def platGranules (p : List Byte) : Nat :=
  let c := platChannels p * platByte p 1 * 16384
  if platByte p 4 % 2 = 1 then c * 7 / 8 else c

/-- A section of the given type. -/
def secOf (t : Nat) (xs : List Section) : Option Section := xs.find? fun x => x.typ == t

/-- Key of the active copy of an RS register, or of an owner-written one whose reset column reads Image (R80): its _ACT
mirror. -/
def actKey (k : Nat) : Option Nat :=
  let cmpOff := (k - 0x80000) % 0x2000
  let hdOff := (k - 0xA0000) % 0x2000
  let imOff := (k - 0x31000) % 0x800
  if 0x80000 ≤ k ∧ k < 0x94000 then
    (if 0x40 ≤ cmpOff ∧ cmpOff < 0x88 then some (k + 0x100)
     else if 0xC00 ≤ cmpOff ∧ cmpOff < 0xC10 then some (k + 0x40)
     else if 0x400 ≤ cmpOff ∧ cmpOff < 0x800 ∧ cmpOff % 0x40 < 0x38 then some (k + 0x400) else none)
  else if 0xA0000 ≤ k ∧ k < 0xB0000 then
    (if hdOff = 0x20 ∨ hdOff = 0x28 ∨ hdOff = 0x2C then some (k + 0x100) else none)
  else if 0x31000 ≤ k ∧ k < 0x35000 then
    (if imOff = 0x10 ∨ imOff = 0x14 then some (k + 0x100)
     else if 0x200 ≤ imOff ∧ imOff < 0x400 ∧ imOff % 0x20 < 0x10 then some (k + 0x200) else none)
  else if k = 0xC0018 then some 0xC0118
  else if 0xC0200 ≤ k ∧ k < 0xC0280 ∧ k % 0x10 = 0 then some (k + 0x100)
  else if k = 0xE0018 ∨ k = 0xE001C ∨ k = 0xE0020 then some (k + 0x100)
  else if 0xE0200 ≤ k ∧ k < 0xE0300 ∧ (k % 0x20 = 8 ∨ k % 0x20 = 0xC) then some (k + 0x100)
  else if 0xE1000 ≤ k ∧ k < 0xE2000 ∧ k % 0x10 ≠ 0 then some (k + 0x1000)
  else if 0xF0100 ≤ k ∧ k < 0xF0500 ∧ ((k % 0x40 = 0x8) ∨ (k % 0x40 = 0xC) ∨ (k % 0x40 = 0x14) ∨ (k % 0x40 = 0x18))
    then some (k + 0x1000)
  else if (0x101000 ≤ k ∧ k < 0x103000 ∧ k % 0x10 = 0) ∨ (0x103000 ≤ k ∧ k < 0x103300)
      ∨ (0x104000 ≤ k ∧ k < 0x104400 ∧ k % 0x10 = 0) then some (k + 0x8000)
  else none

/-- P-view home of an S-view SEC_ register (Table 4.9: one register, two views). -/
def homeOfS (k : Nat) : Nat := if 0x20000000 ≤ k ∧ k < 0x20001000 then k - 0x20000000 + 0x120000 else k

/-- One record written as Wellhead writes it: the settable bits of the word, and the active copy of an RS register (R80). -/
def State.applyRecord (t : Nat) (r : Nat × Nat) (s : State) : State :=
  match rowAt (recordKey t r.1) with
  | none => s
  | some w =>
    let v := r.2 % 2 ^ 32 &&& (w.rw ||| w.rl ||| w.img ||| w.rs ||| w.roi)
    let k := homeOfS (recordKey t r.1)
    let s1 := if w.name = "CMP_LUT_DATA" then s.lutStore ((k - 0x80000) / 0x2000) v
      else if w.name = "AUD_XP_DATA" then s.xpStep v else s.setReg k v
    match actKey k with
    | some a => s1.setReg a v
    | none => s1

/-- Defaults of Image fields for which the image holds no record (R13, Table 8.12), and base 0 for a partition of size 0
(R175). -/
def State.applyDefaults (xs : List Section) (s0 : State) : State :=
  let recs := (secOf 12 xs).elim [] fun x => (recordsOf x.plain).map (·.1)
  let s := s0.each (fun u s => if s.fld (Reg.BSN_PART_SIZE u) 10 0 = 0 then s.setReg (Reg.BSN_PART_BASE u) 0 else s)
    (List.range 9)
  s.each (fun n s => if recs.contains (Reg.JA_STR_TROUGH n) then s
    else s.setReg (Reg.JA_STR_TROUGH n) (0x20 * 2 ^ 16 + 0x40 + 0x20 * n)) (List.range 8)

/-- Every register list of the image applied in table order. -/
def State.applyLists (xs : List Section) (s : State) : State :=
  (s.each (fun x s => if isRegList x.typ then s.each (State.applyRecord x.typ) (recordsOf x.plain) else s) xs).applyDefaults xs

/-- The fields that PLATFORM sets (Table 3.7): those of DRAM, the audio clock, host ports and the power state of RUN. -/
def State.applyPlatform (p : List Byte) (s : State) : State :=
  let rate := platByte p 2 + 256 * platByte p 3
  let code := if rate = 3200 then 1 else if rate = 4266 then 2 else if rate = 5500 then 3 else if rate = 6400 then 4
    else if rate = 7500 then 5 else 6
  let s1 := s.setReg Reg.MEM_STATUS (platByte p 0 * 2 ^ 16 + code * 2 ^ 12 + platByte p 4 % 2 * 2 ^ 8)
  let s2 := (s1.setReg Reg.MEM_CAPACITY (platGranules p)).setBit Reg.AUD_STATUS 29 (platByte p 0x15 % 2 = 1)
  let b := fun o => [platByte p o, platByte p (o + 1), platByte p (o + 2), platByte p (o + 3)]
  { s2 with boot := { s2.boot with
    hpWidth := b 8, hpGen := b 0xC, hpVfs := b 0x10, hpSris := platByte p 0x14,
    runPower := platByte p 0x16 } }

end Sys2Proof.Machine
end

