-- ==== Sys2Proof/Machine/Admit.lean ====
section
/-! DEFINITION. The admission checks of Table 3.8, codes 0x10 to 0x17 (R82, R84, R85, R174, R175, R205, R263, R371). Each
looks at `t`, the registers as the image would set them. -/

namespace Sys2Proof.Machine

/-- Minimum and maximum of partition u in 64 KiB units (Table 7.2); R450 raises audio's minimum with an AUDIO section. -/
def partLimits (u : Nat) (audio : Bool) : Nat × Nat :=
  match u with
  | 0 => (64, 512)
  | 1 => (0, 512)
  | 2 => (0, 128)
  | 3 => (0, 256)
  | 4 => (17, 17)
  | 5 => (4, 128)
  | 6 => (if audio then 4 else 0, 64)
  | 7 => (0, 32)
  | _ => (0, 8)

/-- The section whose presence forbids size 0 (R175). -/
def partOwner (u : Nat) : Option Nat :=
  match u with
  | 2 => some 10
  | 3 => some 15
  | 6 => some 19
  | 7 => some 18
  | 8 => some 17
  | _ => none

def State.partBase (t : State) (u : Nat) : Nat := t.fld (Reg.BSN_PART_BASE u) 10 0
def State.partSize (t : State) (u : Nat) : Nat := t.fld (Reg.BSN_PART_SIZE u) 10 0

/-- Composer n declares a safety layer (R175). -/
def State.declSafety (t : State) (n : Nat) : Bool := t.bit (Reg.CMP_SAFE_OWNER n) 8

/-- The Basin plan is admitted (R174, R175). -/
def State.planOk (t : State) (types : List Nat) : Bool :=
  (List.range 9).all (fun u =>
    let (lo, hi) := partLimits u (types.contains 19)
    let b := t.partBase u
    let z := t.partSize u
    decide (lo ≤ z ∧ z ≤ hi) &&
      (if z = 0 then (match partOwner u with | some ty => !types.contains ty | none => true)
       else decide (0x40 ≤ b) && decide (b + z ≤ 1536) &&
         (List.range u).all fun v => t.partSize v == 0 || !overlaps b z (t.partBase v) (t.partSize v)))
  && (List.range 8).all (fun n => decide (t.fld (Reg.BSN_SAFETY n) 6 0 ≤ 64) &&
      !(t.declSafety n && decide (t.fld (Reg.BSN_SAFETY n) 6 0 = 0)))
  && decide (((List.range 8).map fun n => t.fld (Reg.BSN_SAFETY n) 6 0).sum ≤ t.partSize 1)

/-- The staging window for an image of `len` bytes (R83): the highest 64 KiB-aligned range of Basin that holds it. -/
def stageBase (len : Nat) : Nat := (96 * 2 ^ 20 - len) / 65536 * 65536

/-- Code 0x11: a BASIN_DATA target in the staging window or the secure region, or two data targets that overlap. -/
def dataBad (len : Nat) (xs : List Section) (x : Section) : Bool :=
  let stage := stageBase len
  (x.typ == 0x14 && (decide (x.target < 4 * 2 ^ 20) || decide (stage < x.target + x.len)))
    || ((x.typ == 0x14 || x.typ == 0x15) && xs.any fun y => y.typ == x.typ && decide (y.idx < x.idx) &&
        overlaps (x.target + 2 ^ 32 * x.targetHi) x.len (y.target + 2 ^ 32 * y.targetHi) y.len)

/-- The owner entries of an OWNER_TABLE payload, which is the image of the table (R94; assumption 13): granule and entry. -/
def ownerEntries : (off : Nat) → List Byte → List (Nat × Nat)
  | off, a :: b :: rest =>
    let e := a.toNat + 256 * b.toNat
    let g := if off < 0x200000 then off / 2 else 0x100000 + (off - 0x200000) / 2
    if e = 0 then ownerEntries (off + 2) rest else (g, e) :: ownerEntries (off + 2) rest
  | _, _ => []

/-- Code 0x12: an entry of class DEVICE or SECURE, or for a granule of the secure region or of a partition. -/
def State.ownerBad (t : State) (ge : Nat × Nat) : Bool :=
  decide (2 ≤ entClass ge.2) || (decide (0x100000 ≤ ge.1) &&
    (decide (ge.1 < 0x100040) || (List.range 9).any fun u => t.inPart u (ge.1 - 0x100000)))

/-- A paddock's function exists under PLATFORM (R118): width of its port non-zero, VF number at most hp_vfs. -/
def fnCarried (width vfs : List Nat) (p : Nat) : Bool :=
  decide (width.getD (p / 16) 0 ≠ 0) && decide (p % 16 ≤ vfs.getD (p / 16) 0)

/-- Layer bit of paddock p for composer c (Table 5.9). -/
def State.hasLayer (t : State) (p c l : Nat) : Bool := t.bit (Reg.PDK_LAYERS p (c / 2)) (16 * (c % 2) + l)

/-- Control m is a privileged key, as its TCH_CTL_m_CFG says. -/
def State.isPriv (t : State) (m : Nat) : Bool := t.bit (Reg.TCH_CTL_CFG m) 2

/-- Control m is granted to paddock p. -/
def State.hasCtrl (t : State) (p m : Nat) : Bool := t.bit (Reg.PDK_CTRL p (m / 32)) (m % 32)

/-- Any grant of paddock p. -/
def State.anyGrant (t : State) (p : Nat) : Bool :=
  decide (t.reg (Reg.PDK_MISC p) ≠ 0) || (List.range 5).any (fun k => decide (t.reg (Reg.PDK_LAYERS p k) ≠ 0))
    || (List.range 8).any fun k => decide (t.reg (Reg.PDK_CTRL p k) ≠ 0)

/-- The grants of paddock p lie within its limit, the secure CVUs and the privileged-key rule (R131, R133). -/
def State.grantsOk (t : State) (p : Nat) : Bool :=
  let lim := Reg.PDK_LIMIT p
  (List.range 10).all (fun c => (t.bit lim (16 + c)) || (List.range 16).all fun l => !t.hasLayer p c l)
    && (t.bit lim 26 || decide (t.fld (Reg.PDK_MISC p) 15 0 = 0))
    && decide (t.fld (Reg.PDK_MISC p) 15 0 &&& t.fld Reg.SEC_CVU_MASK 15 0 = 0)
    && (t.bit lim 27 || (decide (t.fld (Reg.PDK_MISC p) 23 16 = 0) &&
        (List.range 256).all fun m => t.isPriv m || !t.hasCtrl p m))
    && (t.bit lim 28 || !t.bit (Reg.PDK_MISC p) 24)
    && (List.range 256).all fun m => !(t.isPriv m && t.hasCtrl p m) ||
        (t.bit Reg.PDK_MANAGER 15 && decide (t.fld Reg.PDK_MANAGER 13 8 = p))

/-- A resource of paddock p is granted to a lower paddock too (Table 5.5). -/
def State.grantClash (t : State) (p : Nat) : Bool :=
  (List.range p).any fun q =>
    (List.range 5).any (fun k => decide (t.reg (Reg.PDK_LAYERS p k) &&& t.reg (Reg.PDK_LAYERS q k) ≠ 0))
      || decide (t.reg (Reg.PDK_MISC p) &&& t.reg (Reg.PDK_MISC q) ≠ 0)
      || (List.range 8).any fun k => decide (t.reg (Reg.PDK_CTRL p k) &&& t.reg (Reg.PDK_CTRL q k) ≠ 0)

/-- Contexts that PADDOCKS assigns to paddock p. -/
def State.ctxsOf (t : State) (p : Nat) : List Nat :=
  (List.range 1024).filter fun c => t.bit (Reg.CQ_CTX_OWNER c) 16 && decide (t.fld (Reg.CQ_CTX_OWNER c) 5 0 = p)

/-- Code 0x13: the first paddock at fault, or none (R85, R118, R120). hp_gen of a port that hp_width disables is not looked at
(DESIGN CHOICE, assumption 93). -/
def State.paddockBad (t : State) (declared : List Nat) (named : Bool) : Option Nat :=
  let w := t.boot.hpWidth
  let vf := t.boot.hpVfs
  let decl := fun p => declared.contains p || decide (p = t.manager)
  match (List.range 4).find? fun n => !([0, 1, 2, 4].contains (w.getD n 0)) || decide (15 < vf.getD n 0)
      || (decide (w.getD n 0 ≠ 0) && !([1, 2, 3, 4, 5].contains (t.boot.hpGen.getD n 0))) with
  | some n => some (16 * n)
  | none =>
    if !named || decide (t.manager % 16 ≠ 0) || !fnCarried w vf t.manager then some t.manager
    else if t.bit Reg.PDK_MANAGER 15 && !decl (t.fld Reg.PDK_MANAGER 13 8) then some (t.fld Reg.PDK_MANAGER 13 8)
    else
      match (List.range 64).find? fun p =>
        let cs := t.ctxsOf p
        (decl p && !fnCarried w vf p) || (!decl p && (t.anyGrant p || !cs.isEmpty))
          || decide (256 < t.fld (Reg.PDK_LIMIT p) 10 0) || decide (t.fld (Reg.PDK_LIMIT p) 10 0 < cs.length)
          || !((cs.map fun c => t.fld (Reg.CQ_CTX_OWNER c) 15 8).Nodup : Bool)
          || !t.grantsOk p || t.grantClash p with
      | some p => some p
      | none => ((List.range 8).find? fun n => t.declSafety n && !decl (t.fld (Reg.CMP_SAFE_OWNER n) 5 0)).map
          fun n => t.fld (Reg.CMP_SAFE_OWNER n) 5 0

/-- Main and alternate gaits of head n (HD_GAITS): the main gait and the alternates other than 0x3F. -/
def State.gaitsOf (t : State) (n : Nat) : List Nat :=
  let r := Reg.HD_GAITS n
  t.fld r 5 0 :: ([t.fld r 11 6, t.fld r 17 12, t.fld r 23 18, t.fld r 29 24].filter (· ≠ 0x3F))

/-- Code 0x14: the head at fault, 0xFF for the sum alone (R308, R309). -/
def State.gaitBad (t : State) : Option Nat :=
  match (List.range 8).find? fun n => (t.gaitsOf n).any fun g =>
      decide (23 < g) || decide (1200000 < (gaitOf g).khz) || ((gaitOf g).dsc && !t.bit (Reg.HD_LINK_CFG n) 12) with
  | some n => some n
  | none =>
    let top := fun n => ((t.gaitsOf n).map fun g => (gaitOf g).khz).foldl max 0
    if 5400000 < ((List.range 8).map top).sum then some 0xFF else none

/-- Frames per second of a gait. -/
def gaitRate (g : Nat) : ℚ := ((gaitOf g).khz * 1000 : ℚ) / ((gaitOf g).ht * (gaitOf g).vt : ℚ)

/-- Highest frame rate among a head's gaits (R84). -/
def State.topRate (t : State) (n : Nat) : ℚ := ((t.gaitsOf n).map gaitRate).foldl max 0

/-- Head whose timing composer c follows. -/
def State.timingHead (t : State) (c : Nat) : Nat := if c < 8 then c else t.fld (Reg.CMP_CFG c) 6 4

/-- Worst-case scan-out read in bytes per second (R84). -/
def State.scanRead (t : State) : ℚ :=
  ((List.range 160).map fun i =>
    let d := Reg.CMP_L_DECL (i / 16) (i % 16)
    if t.bit d 31 then 0
    else (t.fld d 13 0 * t.fld d 27 14 * 2 ^ t.fld d 29 28 : ℚ) * t.topRate (t.timingHead (i / 16))
      * (if t.bit d 30 then 1 else 17 / 16)).sum

/-- Code 0x15: percentage of peak × 100 when the read is not below 45 % of it (R84), cut to a whole number as the rule's worked
example cuts 4957.39 (DEDUCED, assumption 93); what the detail holds of a value past its 16 bits is not stated (assumption
26). -/
def State.bandwidthBad (t : State) (p : List Byte) : Option Nat :=
  let peak : ℚ := (platChannels p * 4 * (platByte p 2 + 256 * platByte p 3) * 1000000 : Nat)
  let q := t.scanRead * 10000 / peak
  if t.scanRead < 45 / 100 * peak then none
  else some (if q < 0x10000 then q.floor.toNat else (Config.freeBits 16 (ratKey q)).toNat)

/-- Smallest slice (R205). -/
def State.sMin (t : State) (jets : Bool) : Nat :=
  let w := if jets then t.fld Reg.JA_MAX_TARGET 15 0 else 0
  let h := if jets then t.fld Reg.JA_MAX_TARGET 31 16 else 0
  704 + 16 * (((w + 31) / 32) * ((h + 31) / 32))

def State.sliceBase (t : State) (n : Nat) : Nat := t.fld (Reg.JA_STR_TROUGH n) 10 0
def State.sliceSize (t : State) (n : Nat) : Nat := t.fld (Reg.JA_STR_TROUGH n) 26 16

/-- Code 0x16: the string whose slice fails R205, or 8 for the save area of R263. -/
def State.troughBad (t : State) (jets : Bool) : Option Nat :=
  let inTrough := fun b z => decide (t.partBase 0 ≤ b) && decide (b + z ≤ t.partBase 0 + t.partSize 0)
  match (List.range 8).find? fun n =>
      decide (t.sliceSize n * 65536 < t.sMin jets) || !inTrough (t.sliceBase n) (t.sliceSize n)
        || (List.range n).any fun m => overlaps (t.sliceBase n) (t.sliceSize n) (t.sliceBase m) (t.sliceSize m) with
  | some n => some n
  | none =>
    let b := t.fld Reg.JA_SAVE 10 0
    let z := t.fld Reg.JA_SAVE 26 16
    if z * 65536 / 204800 < t.fld Reg.JA_PREEMPT 4 0 || (decide (z ≠ 0) && (!inTrough b z
        || (List.range 8).any fun m => overlaps b z (t.sliceBase m) (t.sliceSize m))) then some 8 else none

/-- Bytes of regions 1 to 13 of Table 14.8, for a map capacity in units of 4,096 cells. -/
def lightFixed (cap : Nat) : Nat :=
  2 * (16 * 4096 * cap) + 2 * 65536 + 2 * 131072 + 2 * 262144 + 2 * 65536 + 1048576 + 524288 + 524288

/-- Code 0x17 (R371). -/
def State.lightBad (t : State) : Bool :=
  let cap := t.fld Reg.LO_LAYOUT 6 0
  decide (cap = 0) || decide (64 < cap) || decide (t.partSize 3 * 65536 < lightFixed cap)

/-- The codes of step 9, in their order (R82, R177); `t` holds the image's registers. Which section index each code reports is
the model's choice, and a granule index fills the detail item of its record and, cut to 16 bits, that of WH_FAIL_A or WH_FAIL_B
(DESIGN CHOICE, assumption 93). -/
def State.admission (t : State) (h : Header) (xs : List Section) (plat : List Byte) : Except Failure Unit := do
  let types := xs.map (·.typ)
  let idx := fun ty => (secOf ty xs).elim 0xFF (·.idx)
  let named := ((secOf 6 xs).elim [] fun x => recordsOf x.plain).any fun r => r.1 == Reg.PDK_MANAGER
  if !platDramOk plat then throw ⟨0x18, idx 1, 0xFF⟩
  if !t.planOk types then throw ⟨0x10, idx 2, 0⟩
  if t.fld Reg.SEC_WDT_PERIOD 9 0 = 0 ∨ 1000 < t.fld Reg.SEC_WDT_PERIOD 9 0 then throw ⟨0x10, idx 3, 0⟩
  if let some x := xs.find? (dataBad h.length xs) then throw ⟨0x11, x.idx, 0⟩
  if let some ge := ((secOf 5 xs).elim [] fun x => ownerEntries 0 x.plain).find? t.ownerBad then
    throw ⟨0x12, idx 5, ge.1⟩
  if let some p := t.paddockBad t.boot.declared named then throw ⟨0x13, idx 6, p⟩
  if let some n := t.gaitBad then throw ⟨0x14, idx 14, n⟩
  if let some d := t.bandwidthBad plat then throw ⟨0x15, idx 13, d⟩
  if let some n := t.troughBad (types.contains 12) then throw ⟨0x16, idx 12, n⟩
  if types.contains 15 && t.lightBad then throw ⟨0x17, idx 15, 0⟩

end Sys2Proof.Machine
end

