-- ==== Sys2Proof/Machine/Ports.lean ====
section
/-! DEFINITION. Host ports, configuration requests and MSI-X (spec/05). -/

namespace Sys2Proof.Machine

/-- A port is down (R115). -/
def State.portDown (s : State) (n : Nat) : Bool := (s.hp.ports.getD n {}).down

/-- The function of paddock `p` exists (R118). -/
def State.present (s : State) (p : Nat) : Bool := s.bit (Reg.PDK_STATE p) 4

/-- Requests from the host reach the function: its port is up, no reset of it is under way (R124), and the device answers there
(Table 1.8). -/
def State.reaches (s : State) (p : Nat) : Bool :=
  !s.portDown (portOf p) && !(s.fn p).resetting &&
    ((s.devState == 3 && s.present p) || ((s.devState == 4 || s.devState == 5) && p == 0))

/-! ### MSI-X (R122, R123) -/

/-- The event registers of vector 1 of the manager with their enables (Table 21.5). -/
def mgrCauses : List (Nat × Nat) :=
  [(Reg.JA_EVENT, Reg.JA_EVENT_EN), (Reg.JA_DL_EVENT, Reg.JA_DL_EVENT_EN)]
  ++ (List.range 10).map (fun c => (Reg.CMP_EVENT c, Reg.CMP_EVENT_EN c))
  ++ (List.range 8).map (fun n => (Reg.HD_EVENT n, Reg.HD_EVENT_EN n))
  ++ [(Reg.IM_EVENT, Reg.IM_EVENT_EN), (Reg.LO_EVENT, Reg.LO_EVENT_EN), (Reg.NET_EVENT, Reg.NET_EVENT_EN),
    (Reg.TCH_EVENT, Reg.TCH_EVENT_EN), (Reg.HAP_EVENT, Reg.HAP_EVENT_EN), (Reg.AUD_EVENT, Reg.AUD_EVENT_EN),
    (Reg.EVR_EVENT, Reg.EVR_EVENT_EN), (Reg.PCR_EVENT, Reg.PCR_EVENT_EN)]

/-- The enable of the block of cause register `k`, if it has one, admits bit `b`; PCR_EVENT [2] is always sent (Table 21.5). -/
def State.admits (s : State) (k b : Nat) : Bool :=
  (k == Reg.PCR_EVENT && b == 2) || (mgrCauses.find? fun r => r.1 == k).all fun r => s.bit r.2 b

/-- A cause is still pending on vector `v` of paddock `p` (R123): for vectors 0 and 1, a bit that raised it and that its enable
admits is still set. -/
def State.causePending (s : State) (p v : Nat) : Bool :=
  s.hp.sticky.contains (p, v) ||
    (if v < 2 then
      s.hp.masked.any fun m => m.1 == p && m.2.1 == v && s.bit m.2.2.1 m.2.2.2 && s.admits m.2.2.1 m.2.2.2
    else if 24 ≤ v then
      let n := v - 24
      (s.reg (Reg.HD_U_EVENT p n) &&& s.reg (Reg.HD_U_EVENT_EN p n)) != 0
        || (s.reg (Reg.IM_U_EVENT p n) &&& s.reg (Reg.IM_U_EVENT_EN p n)) != 0
    else true)

/-- A vector that has become unmasked: the message is due if its cause is still pending, and the PBA bit clears (R123). -/
def State.flushVec (s : State) (p v : Nat) : State :=
  if s.bit (Reg.MSIX_PBA p) v && s.unmasked p v then
    let s1 := s.setBit (Reg.MSIX_PBA p) v false
    { s1 with hp := { s1.hp with
      msix := if s.causePending p v then s1.hp.msix ++ [(p, v)] else s1.hp.msix
      masked := s1.hp.masked.filter fun m => (m.1, m.2.1) != (p, v)
      sticky := s1.hp.sticky.filter (· != (p, v)) } }
  else s

/-- Every vector of a function is looked at again after a mask clears. -/
def State.flushAll (s : State) (p : Nat) : State := s.each (fun v s => s.flushVec p v) (List.range 32)

/-- A vector mask (bit 0 of the vector control) or the function mask clears (R123). -/
def State.msixUnmask (s : State) (p : Nat) (v : Option Nat) : State :=
  match v with
  | some v => (s.setBit (Reg.MSIX_TABLE p (4 * v + 3)) 0 false).flushVec p v
  | none => (s.setFn p { s.fn p with fnMask := false }).flushAll p

def execMsixUnmask (paddock : Fin 64) (vector : Option (Fin 32)) (s : State) : Host.Outcome State Fault Refusal :=
  .next (if s.reaches paddock.val then s.msixUnmask paddock.val (vector.map (·.val)) else s)

/-- MSIX_SEND: a raised message of the vector leaves its port once every record offered so far is accepted (R19, R20). A
function without Bus Master Enable keeps it; on a port that is down it is dropped (R115); a vector masked meanwhile keeps
it pending in the PBA. -/
def execMsixSend (paddock : Fin 64) (vector : Fin 32) (s : State) : Host.Outcome State Fault Refusal :=
  let p := paddock.val
  let v := vector.val
  if s.hp.msix.contains (p, v) then
    let s1 := s.acceptAll
    let gone := { s1 with hp := { s1.hp with msix := s1.hp.msix.erase (p, v) } }
    if s.portDown (portOf p) then .next gone
    else if !s.unmasked p v then .next ((gone.stick p v).setBit (Reg.MSIX_PBA p) v true)
    else if !s.mayMaster p then .next s1
    else .next (gone.emit (.msix p v (s.reg64 (Reg.MSIX_TABLE p (4 * v)) (Reg.MSIX_TABLE p (4 * v + 1)))
      (s.reg (Reg.MSIX_TABLE p (4 * v + 2)))))
  else .next s

/-! ### Configuration (R30, R113, R118, R119) -/

/-- VFs present on a port after VF Enable with NumVFs (R118). -/
def State.setVfs (s : State) (port num : Nat) : State :=
  let s1 := s.modPort port fun q => { q with vfEnable := true, numVfs := num }
  s1.each (fun k s => s.setBit (Reg.PDK_STATE (16 * port + k)) 4
    (decide (k ≤ num) && decide (k ≤ s.boot.hpVfs.getD port 0))) ((List.range 15).map (· + 1))

/-- Whether a function has a capability (Table 5.1): SR-IOV and ARI on the PF only. -/
def hasCap (pf : Bool) : CfgCap → Bool
  | .srIov | .ari => pf
  | .msix | .flr | .aer | .aspmL1 => true
  | .msi | .aspmL0s | .l1Substates | .ltr | .ats | .pri | .pasid | .acs | .resizableBar => false

/-- A 64-bit, non-prefetchable memory BAR of 2^`k` bytes reads its base with the type bits 0b0100 (PRESUMED from PCIe,
assumption 96). -/
def barWord (k base : Nat) : Nat := base / 2 ^ k * 2 ^ k + 4

/-- What a field of configuration space reads as (R113, R114, R119). -/
def State.cfgField (s : State) (port fn : Nat) (f : CfgField) : Nat :=
  let p := 16 * port + fn
  let q := s.hp.ports.getD port {}
  match f with
  | .deviceId => if fn = 0 then 0x0801 else 0x0802
  | .revisionId => s.fuses.silicon % 256
  | .classCode => 0x038000
  | .maxPayload => 512
  | .completionTimeout => q.ctoValue
  | .busMaster => b2n (s.bit (Reg.PDK_STATE p) 5)
  | .msixEnable => b2n (s.bit (Reg.PDK_STATE p) 6)
  | .functionMask => b2n (s.fn p).fnMask
  | .d3hot => b2n (s.fn p).d3hot
  | .msixVectors => 32
  | .capability c => b2n (hasCap (fn == 0) c)
  | .bar n =>
    if n.val = 0 then (if fn = 0 then barWord 16 (s.fn p).bar0 else 0)
    else if n.val = 2 then (if p = s.manager then barWord 26 (s.fn p).bar2 else 0)
    else if fn = 0 then barWord 16 (s.fn p).bar0 / 2 ^ 32 else 0
  | .vfBar0 => if fn = 0 then barWord 16 q.vfBar0 else 0
  | .vfEnable => if fn = 0 then b2n q.vfEnable else 0
  | .numVfs => if fn = 0 then q.numVfs else 0
  | .totalVfs => if fn = 0 then s.boot.hpVfs.getD port 0 else 0
  | .firstVfOffset | .vfStride => b2n (fn == 0)
  | .ecrcGen => b2n q.ecrcGen
  | .ecrcChk => b2n q.ecrcChk
  | .aerUncorrectable => q.aerUnc
  | .aerCorrectable => q.aerCor

/-- A BAR takes the bits of a written base at and above its size (R119): BAR1 is the upper half of BAR0. -/
def State.setBar (s : State) (p b v : Nat) : State :=
  let f := s.fn p
  if p % 16 ≠ 0 then s
  else if b = 0 then s.setFn p { f with bar0 := v / 2 ^ 16 * 2 ^ 16 }
  else if b = 1 then s.setFn p { f with bar0 := putBits f.bar0 63 32 v }
  else if p = s.manager then s.setFn p { f with bar2 := v / 2 ^ 26 * 2 ^ 26 } else s

/-- A configuration request that is answered normally. What only the PF holds (SR-IOV, AER control, power state) no write to a
VF changes. -/
def State.config (s : State) (port fn : Nat) (op : CfgOp) : State :=
  let p := 16 * port + fn
  let pf := fun (t : State) => if fn = 0 then t else s
  match op with
  | .read f => s.emit (.cfgReply port fn (s.cfgField port fn f))
  | .setMsixEnable on =>
    let s1 := s.setBit (Reg.PDK_STATE p) 6 on
    if on then s1.flushAll p else s1
  | .setFunctionMask => s.setFn p { s.fn p with fnMask := true }
  | .setVfEnable n => pf (s.setVfs port n)
  | .setCompletionTimeout v => s.modPort port fun q => { q with ctoValue := v % 16 }
  | .setPowerState d => pf (s.setFn p { s.fn p with d3hot := d })
  | .setBar b v => s.setBar p b.val v
  | .setVfBar0 v => pf (s.modPort port fun q => { q with vfBar0 := v / 2 ^ 16 * 2 ^ 16 })
  | .setEcrc g c => pf (s.modPort port fun q => { q with ecrcGen := g, ecrcChk := c })
  | .clearAer u c => pf (s.modPort port fun q => { q with aerUnc := (q.aerUnc ||| u) ^^^ u, aerCor := (q.aerCor ||| c) ^^^ c })

/-- CONFIG_REQUEST: CRS until the device leaves LOAD, and normally after that (R30). -/
def execConfigRequest (port : Fin 4) (fn : Fin 16) (op : CfgOp) (s : State) : Host.Outcome State Fault Refusal :=
  if s.sysState = 1 || s.sysState = 2 || s.devState = 7 then .next (s.emit (.crs port.val fn.val))
  else if s.reaches (16 * port.val + fn.val) then .next (s.config port.val fn.val op)
  else .next s

/-! ### Port errors (R114–R117) -/

/-- An error that a port received: an uncorrectable one of AER, by its status bit (PRESUMED from PCIe, assumption 96). -/
def State.aerLog (s : State) (n bit : Nat) : State :=
  s.modPort n fun q => { q with aerUnc := q.aerUnc ||| 2 ^ bit }

/-- Bits of HP_n_ERR set, with the record PORT_ERROR. -/
def State.portError (s : State) (n bits : Nat) : State :=
  (s.setReg (Reg.HP_ERR n) (s.reg (Reg.HP_ERR n) ||| bits)).offer 0x0103 [(8, n), (8, bits)]

/-- A poisoned TLP, or one whose ECRC is bad (R117): AER bits 12 and 19. -/
def State.poisonedTlp (s : State) (n : Nat) (ecrc : Bool) : State := (s.aerLog n (if ecrc then 19 else 12)).portError n 4

/-- A completion with UR or CA status (R117): AER bit 15. -/
def State.urTlp (s : State) (n : Nat) : State := (s.aerLog n 15).portError n 2

/-- A port is declared down (R115): its error bits and count, its ACTIVE paddocks QUIESCING with cause LINK_DOWN, and its
outstanding reads orphaned. -/
def State.declareDown (s : State) (n bits : Nat) : State :=
  let s1 := s.portError n (bits ||| 1)
  if s.portDown n then s1
  else
    let s2 := ((s1.modPort n fun q => { q with
      down := true, reads := q.reads.map fun r => { r with orphaned := true } }).count (Reg.HP_DOWN_COUNT n) 15 0 1).setBit
        (Reg.HP_LINK n) 15 false
    s2.each (fun k s => s.quiesce (16 * n + k) 6) (List.range 16)

/-- Error bit of a cause (Table 5.9). -/
def downBits : DownCause → Nat
  | .dlDown => 0
  | .hotReset => 0
  | .perst => 8
  | .timeout => 16
  | .fatal => 32

/-- The port has a link: in BOOT, LOAD and RUN, and port 0 in RECOVERY and TEST (Table 1.8). -/
def State.portLives (s : State) (n : Nat) : Bool :=
  (1 ≤ s.devState && decide (s.devState ≤ 3)) || ((s.devState == 4 || s.devState == 5) && n == 0)

/-- PORT_DOWN (R115). -/
def execPortDown (port : Fin 4) (cause : DownCause) (s : State) : Host.Outcome State Fault Refusal :=
  let n := port.val
  let s1 := if cause = .fatal then s.aerLog n 4 else if cause = .timeout then s.aerLog n 14 else s
  .next (if s.portLives n then s1.declareDown n (downBits cause) else s)

/-- COMPLETION_TIMEOUT: the read's tag is free again and the port is declared down (R114, R115, R157). -/
def execCompletionTimeout (port : Fin 4) (tag : Nat) (s : State) : Host.Outcome State Fault Refusal :=
  let n := port.val
  if (s.hp.ports.getD n {}).reads.any fun r => r.tag == tag then
    let s1 := s.modPort n fun q => { q with reads := q.reads.filter fun r => r.tag != tag }
    .next (((s1.aerLog n 14).declareDown n 16).drainReads s.hp.readWaits)
  else .next s

/-- LINK_RETRAIN: the link trains, and HPn_WAKEn is released (R473). On a port that was down, every function, its window and
its contexts start from reset (R116). -/
def execLinkRetrain (port : Fin 4) (gen width ltssm : Nat) (s : State) : Host.Outcome State Fault Refusal :=
  let n := port.val
  let s0 := s.setReg (Reg.HP_LINK n) (2 ^ 15 + ltssm % 32 * 256 + width % 8 * 16 + gen % 8)
  let s1 := if (s.hp.ports.getD n {}).wakeLow then
    (s0.modPort n fun q => { q with wakeLow := false }).emitOn 0 (.pin ("HP" ++ toString n ++ "_WAKEn") 1) else s0
  if s.portDown n then
    let s2 := s1.modPort n fun q => { q with
      down := false, vfEnable := false, numVfs := 0, ctoValue := 0, vfBar0 := 0, ecrcGen := false, ecrcChk := false
      aerUnc := 0, aerCor := 0 }
    .next (s2.each (fun k s =>
      let p := 16 * n + k
      let s' := (s.each (fun c s => s.idleCtx c) (s.ctxsOf' p)).resetFn p
      let s'' := if s'.stillResets p then s'.setFn p { s'.fn p with resetting := true } else s'
      if k = 0 then s'' else s''.setBit (Reg.PDK_STATE p) 4 false) (List.range 16))
  else .next s1

/-- The manager paddock that its port quiesced is ACTIVE again once its function has Bus Master Enable (R116). -/
def State.managerBack (s : State) (p : Nat) : State :=
  if p = s.manager ∧ s.pdkState p = 4 ∧ s.mayMaster p then s.movePdk p 2 else s

/-- BUS_MASTER_ENABLE_SET: the function may master; the manager paddock that its port quiesced is ACTIVE again (R116). -/
def execBusMasterEnableSet (paddock : Fin 64) (s : State) : Host.Outcome State Fault Refusal :=
  let p := paddock.val
  if s.reaches p then
    .next ((s.setBit (Reg.PDK_STATE p) 5 true).managerBack p)
  else .next s

/-- BME_CLEAR (R125, R126). -/
def execBmeClear (paddock : Fin 64) (s : State) : Host.Outcome State Fault Refusal :=
  let p := paddock.val
  if s.reaches p && s.bit (Reg.PDK_STATE p) 5 then
    let s1 := s.setBit (Reg.PDK_STATE p) 5 false
    if p = s.manager then .next (s1.each (fun c s => s.reinCtx c 2) (s1.ctxsOf' p)) else .next (s1.quiesce p 4)
  else .next s

/-- FLR (R124, R126). -/
def execFlr (paddock : Fin 64) (s : State) : Host.Outcome State Fault Refusal :=
  .next (if s.reaches paddock.val then s.flr paddock.val 3 else s)

/-- VF_ENABLE_CLEAR (R124): the FLR effects on every VF paddock of the port, which then no longer exists (R118). -/
def execVfEnableClear (port : Fin 4) (s : State) : Host.Outcome State Fault Refusal :=
  let n := port.val
  if s.reaches (16 * n) then
    let s1 := s.modPort n fun q => { q with vfEnable := false, numVfs := 0 }
    .next (s1.each (fun k s =>
      let p := 16 * n + k + 1
      if s.present p then (s.flr p 5).setBit (Reg.PDK_STATE p) 4 false else s) (List.range 15))
  else .next s

/-- The job of a read ends on a poisoned completion: FAULT_ECC names a granule, which host memory has none of, so the detail is
a free value (assumption 17). -/
def State.poisonedRead (s : State) (r : HostRead) : State :=
  if r.orphaned then s else s.took.faultJob r.ctx r.sq 0x23 (s.free 32) 0

/-- HOST_COMPLETION_RECEIVED (R117, R157): data for its job, FAULT_ECC, FAULT_ACCESS, or nothing for an orphaned read. A bad
ECRC is the poisoned case where checking is enabled. The tag is free for a read that waits (R143). -/
def execHostCompletionReceived (port : Fin 4) (tag : Nat) (reply : HostReply) (s : State) :
    Host.Outcome State Fault Refusal :=
  let n := port.val
  match (s.hp.ports.getD n {}).reads.find? fun r => r.tag == tag with
  | none => .next s
  | some r =>
    let s1 := s.modPort n fun q => { q with reads := q.reads.filter fun x => x.tag != tag }
    let take := fun (bs : List Byte) =>
      if r.orphaned then s1 else s1.modJob r.ctx r.sq fun j => { j with data := j.data ++ bs }
    let s2 := match reply with
      | .data bs => take bs
      | .ecrc bs => if (s.hp.ports.getD n {}).ecrcChk then (s1.poisonedTlp n true).poisonedRead r else take bs
      | .poisoned => (s1.poisonedTlp n false).poisonedRead r
      | .urCa => if r.orphaned then s1.urTlp n else (s1.urTlp n).faultJob r.ctx r.sq 0x20 (hostDetail r.off) 0
    .next (s2.drainReads s2.hp.readWaits)

/-- MALFORMED_TLP: a fatal error that declares the port down (R117): AER bit 18. -/
def execMalformedTlp (port : Fin 4) (s : State) : Host.Outcome State Fault Refusal :=
  .next (if s.portLives port.val then (s.aerLog port.val 18).declareDown port.val 32 else s)

/-- POISONED_BAR_WRITE: discarded, logged and recorded (R117); `ecrc` says that the TLP's ECRC is bad instead, which counts
where checking is enabled. -/
def execPoisonedBarWrite (port : Fin 4) (s : State) (ecrc : Bool := false) : Host.Outcome State Fault Refusal :=
  let n := port.val
  .next (if s.portDown n || (ecrc && !(s.hp.ports.getD n {}).ecrcChk) then s else s.poisonedTlp n ecrc)

end Sys2Proof.Machine
end

