-- ==== Sys2Proof/Machine/Memory.lean ====
section
/-! DEFINITION. Basin and DRAM (spec/04, spec/07): accesses under the owner table, ECC, scrubbing, the initialiser and the
DRAM housekeeping. -/

namespace Sys2Proof.Machine

/-- Number of a memory in a record (Table 21.2). -/
def memNo : MemSel → Nat
  | .basin => 0
  | .dram => 1

/-- The granule number of a word. -/
def granOfWord (m : MemSel) (word : Nat) : Nat := granNo m (word / 8192)

/-- A correctable error is counted and recorded (R169, R488: at most one record per memory and ms). -/
def State.eccCorr (s : State) (m : MemSel) (word : Nat) : State :=
  let s1 := s.count (match m with | .basin => Reg.BSN_ECC_CORR | .dram => Reg.MEM_ECC_CORR) 31 0 1
  (s1.eccAddr m word false).offerRate 0x0501 (memNo m) 1000000 [(8, memNo m)] [(32, granOfWord m word)]

/-- The words of [a, a + n) that the access reads: all for a read, those covered in part for a write (R171). -/
def readWords (write : Bool) (a n : Nat) : List Nat :=
  let ws := (List.range ((a + n + 7) / 8 - a / 8)).map (· + a / 8)
  if write then ws.filter fun w => !covers a n w else ws

/-- What the ECC decoder finds in the first word read; and every word read that was uncorrectable before. -/
def State.eccFind (s : State) (m : MemSel) (write : Bool) (a n : Nat) (e : EccFind) : State × Bool :=
  let ws := readWords write a n
  if !s.hasEcc m then (s, false)
  else
    let s1 := match e, ws with
      | .correctable, w :: _ =>
        let s' := s.eccCorr m w
        { s' with mem := { s'.mem with writeback := s'.mem.writeback ++ [(m, w)] } }
      | .uncorrectable, w :: _ => if s.mem.bad.contains (m, w) then s else
          { s with mem := { s.mem with bad := (m, w) :: s.mem.bad } }
      | _, _ => s
    let bad := ws.filter fun w => s1.mem.bad.contains (m, w)
    (s1.each (fun w s => s.eccUncorr m w) bad, !bad.isEmpty)

/-- Check unit of an address (R166, R178): 0–7 the DRAM channels, 8–11 the Basin port groups. -/
def State.unitOf (s : State) (m : MemSel) (a : Nat) : Nat :=
  match m with
  | .basin => 8 + bitsOf a 12 11
  | .dram =>
    let pop := (List.range 8).filter fun c => s.bit Reg.MEM_STATUS (16 + c)
    pop.getD (((bitsOf a 10 8) ^^^ (bitsOf a 18 16)) % max 1 pop.length) 0

/-- A refused access (R97): a job ends FAULT_ACCESS; a non-job master's refusal is recorded at most once per ms. -/
def State.accessRefused (s : State) (ms : Master) (gran : Nat) (job : Option JobRef) : State :=
  match job with
  | some j => s.faultJob j.ctx.val j.sq 0x20 (accessDetail j.off gran) 0
  | none => s.noteRefusal ms gran

/-- Carry out a checked access to a device memory (R96–R98, R168–R171, R181). -/
def State.access (s : State) (r : HeldReq) : State :=
  let n := if r.write then r.data.length else r.len
  match s.refusedIn r.master r.actor r.write r.mem r.addr n with
  | some g =>
    let s1 := if r.write then s else s.emit (.memRead r.addr (List.replicate n 0) false)
    s1.accessRefused r.master g r.job
  | none =>
    let (s1, bad) := (s.initRange r.mem r.addr n).eccFind r.mem r.write r.addr n r.ecc
    let s2 := if r.write then s1.busWrite r.mem r.addr r.data
      else s1.emit (.memRead r.addr (s1.busBytes r.mem r.addr n) bad)
    match bad, r.job with
    | true, some j => s2.faultJob j.ctx.val j.sq 0x23 (granNo r.mem (r.addr / 65536) % 2 ^ 21) 0
    | _, _ => s2

/-- The acting paddock of an access (Table 4.5): that of the job's context, the holder of the layer, or the one named. -/
def State.actorOf (s : State) (actor : Nat) (job : Option JobRef) (layer : Option (Fin 10 × Fin 16)) : Nat :=
  match job, layer with
  | some j, _ => s.ctxPaddock j.ctx.val
  | none, some (c, l) => (s.layerHolder c.val l.val).getD 64
  | none, none => actor

/-- The write gate of R156: a job that has ended writes no more. -/
def State.gatedWrite (s : State) (write : Bool) (job : Option JobRef) : Bool :=
  write && job.any fun j => (s.job j.ctx.val j.sq).isNone

/-- Distinct granules whose miss is outstanding at a check unit. -/
def State.misses (s : State) (u : Nat) : List Nat :=
  ((s.mem.ownerHeld.filter fun h => h.unit == u).map (·.granule)).eraseDups

/-- A check unit takes a request (R99): a hit goes on unless an earlier request to its granule is held, a miss is held, and
with 8 misses outstanding another granule's miss is not taken. -/
def State.unitTakes (s : State) (r : HeldReq) : Option State :=
  if s.mem.ownerCache.contains (r.unit, r.granule) && !(s.mem.ownerHeld.any fun h => h.granule == r.granule) then
    some (s.access r)
  else if (s.misses r.unit).contains r.granule || decide ((s.misses r.unit).length < 8) then
    some { s with mem := { s.mem with ownerHeld := s.mem.ownerHeld ++ [r] } }
  else none

/-- A request reaches its check unit: behind the requests that already wait there, or taken at once. -/
def State.unitRequest (s : State) (r : HeldReq) : State :=
  let later := { s with mem := { s.mem with ownerWait := s.mem.ownerWait ++ [r] } }
  if s.mem.ownerWait.any fun h => h.unit == r.unit then later else (s.unitTakes r).getD later

/-- The requests that wait at unit `u` are taken in order until one is not (R99). -/
def State.unitDrain (u : Nat) (s : State) : List HeldReq → State
  | [] => s
  | r :: rs =>
    if r.unit = u then
      match State.unitTakes { s with mem := { s.mem with ownerWait := s.mem.ownerWait.erase r } } r with
      | some t => State.unitDrain u t rs
      | none => s
    else State.unitDrain u s rs

/-- MEMORY_ACCESS. A host access of a job leaves through its function, or ends it FAULT_ACCESS (R490); a device access whose
owner entry the check unit does not hold, or that follows a held one to the same granule, waits for its fill (R99). The
debug fabric reaches memory only while it is open, without owner checks (R111). -/
def execMemoryAccess (master : Master) (actor : Fin 64) (mem : Option MemSel) (addr : Nat) (write : Bool)
    (data : List Byte) (len : Nat) (job : Option JobRef) (ecc : EccFind) (s : State)
    (layer : Option (Fin 10 × Fin 16) := none) :
    Host.Outcome State Fault Refusal :=
  let p := s.actorOf actor.val job layer
  if s.gatedWrite write job then .next s
  else
  match mem with
  | none =>
    if s.mayMaster p then
      if write then .next (s.emit (.hostWrite p addr data))
      else match job with
        | some j => .next (s.hostRead j.ctx.val j.sq j.off addr len)
        | none => .next s
    else match job with
      | some j => .next (s.faultJob j.ctx.val j.sq 0x20 (hostDetail j.off) 0)
      | none => .next s
  | some m =>
    let open' := s.devState == 3 || (master == .koroft && (s.devState == 2 || s.devState == 4 || s.devState == 5))
      || (master == .debug && decide (s.tap = .debugSel))
    let u := s.unitOf m addr
    let g := granNo m (addr / 65536)
    let r : HeldReq := ⟨u, g, master, p, m, addr, write, data, len, job, ecc⟩
    if !open' then .next s
    else if master == .debug then .next (s.access r)
    else .next (s.unitRequest r)

/-- OWNER_CACHE_MISS_FILL (R99, R100): the oldest miss of the unit has its entry, and the requests held for that granule
proceed in order, then those that waited at the unit. An entry whose word holds an uncorrectable error fails. The cache holds
1,024 entries; the oldest leaves (assumption 24). -/
def execOwnerCacheMissFill (unit : Fin 12) (ecc : EccFind) (s : State) : Host.Outcome State Fault Refusal :=
  match s.mem.ownerHeld.find? fun h => h.unit == unit.val with
  | none => .next s
  | some h =>
    let mine := s.mem.ownerHeld.filter fun r => r.unit == unit.val && r.granule == h.granule
    let s1 : State := { s with mem := { s.mem with
      ownerHeld := s.mem.ownerHeld.filter fun r => !(r.unit == unit.val && r.granule == h.granule) } }
    let w := ownerAt h.granule / 8
    let s2 : State :=
      if ecc = .uncorrectable ∨ s.mem.bad.contains (.basin, w) then
        let s' := (s1.eccUncorr .basin w).offer 0x0304 [(32, h.granule)]
        { s' with mem := { s'.mem with ownerFailed := h.granule :: s'.mem.ownerFailed } }
      else if ecc = .correctable then s1.eccCorr .basin w
      else s1
    let others := s2.mem.ownerCache.filter fun p => p.1 == unit.val
    let dropped := if decide (1024 ≤ others.length) then s2.mem.ownerCache.erase (others.headD (0, 0)) else s2.mem.ownerCache
    let s3 : State := if s2.mem.ownerFailed.contains h.granule then s2
      else { s2 with mem := { s2.mem with ownerCache := dropped ++ [(unit.val, h.granule)] } }
    let s4 := s3.each (fun r s => if s.gatedWrite r.write r.job then s else s.access r) mine
    .next (s4.unitDrain unit.val s4.mem.ownerWait)

/-- OWNER_ENTRY_REWRITE (R100): Koroft rewrites the 8-byte word that holds the entry, and the refusal is lifted for the
granules whose entries it holds (DESIGN CHOICE, assumption 90). -/
def execOwnerEntryRewrite (granule : Nat) (s : State) : Host.Outcome State Fault Refusal :=
  .next { s with mem := { s.mem with
    ownerFailed := s.mem.ownerFailed.filter fun g => ownerAt g / 8 ≠ ownerAt granule / 8
    bad := s.mem.bad.filter (· ≠ (MemSel.basin, ownerAt granule / 8)) } }

/-- ECC_WRITEBACK (R169): the corrected word is back in its bank; a write to it that came first has voided this one. -/
def execEccWriteback (mem : MemSel) (word : Nat) (s : State) : Host.Outcome State Fault Refusal :=
  .next { s with mem := { s.mem with writeback := s.mem.writeback.filter (· ≠ (mem, word)) } }

/-- Index within its bank of the 64-byte line that holds a Basin word (R166, R172). -/
def scrubIndex (word : Nat) : Nat := 8 * word / 8192 * 4 + 8 * word % 256 / 64

/-- PATROL_SCRUB (R172): one line of every bank is read; its corrected words are written back. `errors` are the words in
which the decoder finds an error, and whether it is uncorrectable. -/
def execPatrolScrub (errors : List (Nat × Bool)) (s : State) : Host.Outcome State Fault Refusal :=
  let here := errors.filter fun e => scrubIndex e.1 == s.mem.scrub && decide (e.1 < 12582912)
  let s1 := s.each (fun e s => if e.2 then s.eccUncorr .basin e.1 else s.eccCorr .basin e.1) here
  let s2 : State := { s1 with mem := { s1.mem with scrub := (s.mem.scrub + 1) % 49152 } }
  .next (if s.mem.scrub + 1 = 49152 then s2.setBit Reg.BSN_STATUS 16 (!s2.bit Reg.BSN_STATUS 16) else s2)

/-- DRAM_INIT_SWEEP (R181): the sweep moves up over `granules` granules. -/
def execDramInitSweep (granules : Nat) (s : State) : Host.Outcome State Fault Refusal :=
  .next (if s.devState = 3 then
    { s with mem := { s.mem with swept := min (s.mem.swept + granules) (s.fld Reg.MEM_CAPACITY 20 0) } } else s)

/-- DRAM_INIT_DONE (R181). -/
def execDramInitDone (s : State) : Host.Outcome State Fault Refusal :=
  if s.devState = 3 && !s.bit Reg.MEM_STATUS 4 then
    let s1 : State := { s with mem := { s.mem with swept := s.fld Reg.MEM_CAPACITY 20 0, inited := [] } }
    .next ((s1.setBit Reg.MEM_STATUS 4 true).offer 0x0505 [(32, (s.clk.stm - s.clk.runEntry) / 1000000)])
  else .next s

/-- The channel runs: trained and not in self-refresh. -/
def State.channelUp (s : State) (c : Nat) : Bool := s.bit (Reg.MEM_CH_STATUS c) 4 && !s.bit (Reg.MEM_CH_STATUS c) 8

/-- DRAM_REFRESH (R176). -/
def execDramRefresh (channel : Fin 8) (s : State) : Host.Outcome State Fault Refusal :=
  .next (if s.channelUp channel.val then s.emitOn 3 (.refresh channel.val 0) else s)

/-- MR4_READ (R176): the refresh-rate field of each channel. -/
def execMr4Read (rates : List Nat) (s : State) : Host.Outcome State Fault Refusal :=
  .next (s.each (fun c s => if s.channelUp c then s.setFld (Reg.MEM_CH_STATUS c) 2 0 (rates.getD c 0) else s) (List.range 8))

/-- ZQ_CALIBRATION (R176). -/
def execZqCalibration (s : State) : Host.Outcome State Fault Refusal :=
  .next (s.each (fun c s => if s.channelUp c then s.emitOn 3 (.refresh c 1) else s) (List.range 8))

/-- WCK_TRACKING (R176). -/
def execWckTracking (s : State) : Host.Outcome State Fault Refusal :=
  .next (s.each (fun c s => if s.channelUp c then s.emitOn 3 (.refresh c 2) else s) (List.range 8))

/-- An aperture access at an offset of the window (R27). -/
def State.aperture (s : State) (offset : Nat) (write : Bool) (value : Nat) (ecc : EccFind) : State :=
  let a := s.fld Reg.BSN_APT_BASE 10 0 * 65536 + offset
  match s.refusedIn .aperture s.manager write .basin a 4 with
  | some _ =>
    let s1 := if write then s else s.emit (.regRead 1 s.manager (0x1000000 + offset) 0)
    s1.offerRate 0x0504 0 1000000 [(32, a)] []
  | none =>
    let (s1, bad) := s.eccFind .basin write a 4 ecc
    if write then s1.write .basin a (leBytes 4 value)
    else s1.emit (.regRead 1 s.manager (0x1000000 + offset) (if bad then 0 else ofLeBytes (s1.bytes .basin a 4)))

def execApertureAccess (offset : Nat) (write : Bool) (value : Nat) (ecc : EccFind) (s : State) :
    Host.Outcome State Fault Refusal :=
  if s.reaches s.manager && s.devState != 4 && decide (offset < 0x3000000) then
    if offset % 4 = 0 then .next (s.aperture offset write value ecc)
    else
      let s1 := if write then s else s.emit (.regRead 1 s.manager (0x1000000 + offset) 0)
      .next (s1.offer 0x0001 [(8, 1), (8, s.manager), (32, 0x1000000 + offset)])
  else .next s

/-- A write of BSN_APT_BASE (R189). -/
def State.aptBaseWrite (s : State) (value : Nat) : State :=
  let b := bitsOf value 10 0
  if 0x40 ≤ b ∧ b ≤ 0x300 then s.setFld Reg.BSN_APT_BASE 10 0 b else s.offer 0x0503 [(32, value)]

def execBsnAptBaseWrite (value : Nat) (s : State) : Host.Outcome State Fault Refusal :=
  .next (if s.reaches s.manager then s.aptBaseWrite value else s)

/-- A write of MEM_ECC_CLEAR or BSN_ECC_CLEAR (Table 7.8). -/
def State.eccClear (s : State) (m : MemSel) (value : Nat) : State :=
  if value.testBit 0 then
    match m with
    | .basin => ((s.setReg Reg.BSN_ECC_CORR 0).setReg Reg.BSN_ECC_UNCORR 0).setReg Reg.BSN_ECC_ADDR 0
    | .dram => (((s.setReg Reg.MEM_ECC_CORR 0).setReg Reg.MEM_ECC_UNCORR 0).setReg Reg.MEM_ECC_ADDR_LO 0).setReg
        Reg.MEM_ECC_ADDR_HI 0
  else s

/-- ECC_CLEAR_WRITE (R190): an error of the same cycle (its word, and whether it is uncorrectable) stays counted and
recorded. -/
def execEccClearWrite (mem : MemSel) (value : Nat) (error : Option (Nat × Bool)) (s : State) :
    Host.Outcome State Fault Refusal :=
  let s1 := if s.reaches s.manager then s.eccClear mem value else s
  match error with
  | some (w, u) => .next (if !s.hasEcc mem then s1 else if u then s1.eccUncorr mem w else s1.eccCorr mem w)
  | none => .next s1

end Sys2Proof.Machine
end

