-- ==== Sys2Proof/Machine/TouchReport.lean ====
section
/-! DEFINITION. Touch reports (R415, R416, R419–R421): report entries, the privileged-key path, and sets that are owed. -/

namespace Sys2Proof.Machine

def State.tchUnit (s : State) (u : Nat) : TchUnit := s.tch.units.getD u {}
def State.setTchUnit (s : State) (u : Nat) (x : TchUnit) : State := { s with tch := { s.tch with units := s.tch.units.set u x } }
def State.ctl (s : State) (m : Nat) : Ctl := spGet (fun _ => {}) s.tch.ctls m
def State.setCtl (s : State) (m : Nat) (x : Ctl) : State := { s with tch := { s.tch with ctls := spSet (fun _ => {}) s.tch.ctls m x } }

/-- Control `m` is enabled: its kind is not OFF. -/
def State.ctlOn (s : State) (m : Nat) : Bool := s.fld (Reg.TCH_CTL_CFG m) 1 0 != 0

/-- The enabled controls. -/
def State.ctlsOn (s : State) : List Nat := (List.range 256).filter s.ctlOn

/-- The number of the privileged key that control `m` is (R415). -/
def State.pkOf (s : State) (m : Nat) : Option Nat :=
  if s.bit (Reg.TCH_CTL_CFG m) 2 then some (s.fld (Reg.TCH_CTL_CFG m) 7 3) else none

/-- The control that is privileged key PKk. -/
def State.ctlOfPk (s : State) (k : Nat) : Option Nat := s.ctlsOn.find? fun m => s.pkOf m == some k

/-- The safety paddock, where one is named. -/
def State.safetyPaddock (s : State) : Option Nat :=
  if s.bit Reg.PDK_MANAGER 15 then some (s.fld Reg.PDK_MANAGER 13 8) else none

/-- The paddock that holds field `n`, and the one that control `m` reports to. -/
def State.fieldHolder (s : State) (n : Nat) : Option Nat := (List.range 64).find? fun p => s.bit (Reg.PDK_MISC p) (16 + n)
def State.ctlHolder (s : State) (m : Nat) : Option Nat :=
  if (s.pkOf m).isSome then s.safetyPaddock
  else (List.range 64).find? fun p => s.bit (Reg.PDK_CTRL p (m / 32)) (m % 32)

/-- A report: its paddock, and the fields of Table 16.2 that a touch fixes. -/
structure Report where
  paddock : Nat
  pos : Nat
  typ : Nat
  index : Nat
  state : Nat
  strength : Nat
  size : Nat
  deriving DecidableEq, Repr

/-- The 32 bytes of Table 16.2, phase clear. -/
def Report.bytes (r : Report) (flags c tF frame : Nat) : List Byte :=
  leBytes 4 r.pos ++ leBytes 1 0 ++ leBytes 1 r.typ ++ leBytes 1 r.index ++ leBytes 1 r.state ++ leBytes 2 r.strength
    ++ leBytes 1 r.size ++ leBytes 1 0 ++ leBytes 2 flags ++ leBytes 2 c ++ leBytes 8 tF ++ leBytes 4 frame ++ leBytes 4 0

/-- The context to which reports of paddock `p` may be written now (R420): the paddock is ACTIVE, and its report context is
named, configured and not REINING or REINED. -/
def State.reportCtx (s : State) (p : Nat) : Option Nat :=
  let w := spGet (fun _ => 0) s.tch.report p
  if s.pdkState p ≠ 2 || !w.testBit 8 then none
  else match s.ctxAt p (w % 256) with
    | some c => if (s.ctx c).configured && s.ctxState c != 3 && s.ctxState c != 4 then some c else none
    | none => none

/-- The completion ring has a free entry and no job entry waits for one. -/
def State.ringRoom (s : State) (c : Nat) : Bool := (s.ctx c).held.isEmpty && decide ((s.ctx c).cqUsed < (s.ctx c).cqSize)

/-- Write one report into a ring that has room. It never makes the context WAITING (R420). -/
def State.putReport (s : State) (c flags : Nat) (r : Report) : State :=
  (s.writeEntry c (r.bytes flags c s.tch.tF s.tch.nF)).syncFull c

/-- Reports of paddock `p` cannot be written: from now on only the current state is kept. -/
def State.loseReports (s : State) (p : Nat) : State :=
  if s.tch.lost.contains p then s else { s with tch := { s.tch with lost := p :: s.tch.lost } }

/-- Write a report, where its paddock has none outstanding and its ring has room. -/
def State.tell (s : State) (flags : Nat) (r : Report) : State :=
  if s.tch.lost.contains r.paddock then s
  else match s.reportCtx r.paddock with
    | some c => if s.ringRoom c then s.putReport c flags r else s.loseReports r.paddock
    | none => s.loseReports r.paddock

/-- The report of contact `x` of field `n`, with a state byte. -/
def contactReport (p n : Nat) (x : Contact) (state : Nat) : Report :=
  ⟨p, x.x + 65536 * x.y, 0x80, n + 8 * x.ident, state, x.peak.toNat, min x.size 255⟩

/-- The report of control `m`: KEY for a privileged key, else CONTROL. -/
def State.ctlReport (s : State) (p m : Nat) (x : Ctl) (state : Nat) : Report :=
  let v := if s.fld (Reg.TCH_CTL_CFG m) 1 0 = 1 then 0 else x.value
  match s.pkOf m with
  | some k => ⟨p, v, 0x82, k, state, x.peak.toNat, min x.size 255⟩
  | none => ⟨p, v, 0x81, m, state, x.peak.toNat, min x.size 255⟩

/-- One report per pressed control and current contact of paddock `p`, in the order of R419. -/
def State.currentSet (s : State) (p : Nat) : List Report :=
  let ctls := s.ctlsOn.filter fun m => (s.ctl m).pressed && s.ctlHolder m == some p
  let keys := ctls.filter fun m => (s.pkOf m).isSome
  let rest := ctls.filter fun m => (s.pkOf m).isNone
  let fields := (List.range 8).filter fun n => s.fieldHolder n == some p
  (keys ++ rest).map (fun m => s.ctlReport p m (s.ctl m) (if s.fld (Reg.TCH_CTL_CFG m) 1 0 = 1 then 0 else 1))
    ++ fields.flatMap fun n => (s.tchUnit n).contacts.map fun x => contactReport p n x 1

/-- A resync set of paddock `p` with these flags (R420). -/
def State.sendSet (s : State) (p flags : Nat) : State := s.each (fun r t => t.tell flags r) (s.currentSet p)

/-- The kept transitions of privileged keys go out as one entry per key with lost set, each followed by its message (R416). -/
def State.pkDrain (s : State) : State :=
  match s.safetyPaddock with
  | none => s
  | some p =>
    s.each (fun (e : Nat × PkPath) t =>
      match t.reportCtx p, t.ctlOfPk e.1 with
      | some c, some m =>
        if e.2.kept ≠ 0 && t.ringRoom c then
          let x := t.ctl m
          let st := if x.pressed then (if t.bit Reg.TCH_PK_LONG e.1 then 3 else 0) else 2
          let t1 := (t.putReport c 4 (t.ctlReport p m x st)).ctxMsg c
          { t1 with tch := { t1.tch with pk := spSet (fun _ => {}) t1.tch.pk e.1 {} } }
        else t
      | _, _ => t) s.tch.pk

/-- A transition of privileged key `k`, on the path of its own (R415, R416): its entry and message at once, or kept. -/
def State.pkTell (s : State) (k m state : Nat) : State :=
  match s.safetyPaddock with
  | none => s
  | some p =>
    let kept := (spGet (fun _ => ({} : PkPath)) s.tch.pk k).kept
    let keep : State := { s with tch := { s.tch with pk := spSet (fun _ => {}) s.tch.pk k ⟨kept + 1⟩ } }
    match s.reportCtx p with
    | some c =>
      if kept = 0 && s.ringRoom c then (s.putReport c 0 (s.ctlReport p m (s.ctl m) state)).ctxMsg c else keep
    | none => keep

/-- Room has returned, or reports may be written again: what paddock `p` is owed goes out, then its message (R416, R420). -/
def State.touchRoom (s : State) (p : Nat) : State :=
  let s1 := if s.safetyPaddock = some p then s.pkDrain else s
  match s1.reportCtx p with
  | some c =>
    if s1.tch.lost.contains p && s1.ringRoom c then
      let s2 := State.setBit { s1 with tch := { s1.tch with lost := s1.tch.lost.filter fun q => q != p } } (Reg.TCH_U_STATUS p) 0 true
      let s3 := s2.sendSet p 0xC
      if (s3.ctx c).cqTail = (s2.ctx c).cqTail ∧ (s3.ctx c).cqUsed = (s2.ctx c).cqUsed then s3 else s3.ctxMsg c
    else s1
  | none => s1

end Sys2Proof.Machine
end

