-- ==== Sys2Proof/Machine/Contexts.lean ====
section
/-! DEFINITION. Doorbells, context operations, fences and copies (spec/06). -/

namespace Sys2Proof.Machine

/-- DOORBELL_DROPPED (Table 21.4): 1 paddock not ACTIVE, 2 unconfigured, 3 tail out of range, 4 not allowed, 5 unassigned. -/
def State.dropDoorbell (s : State) (c reason : Nat) : State := s.offer 0x0204 [(16, c), (8, reason)]

/-- NOT_GRANTED (R14); the port logs it in AER (R117, assumption 96). -/
def State.notGranted (s : State) (p off : Nat) : State := (s.aerLog (portOf p) 20).offer 0x0002 [(8, p), (32, off)]

/-- An IDLE context with work becomes ACTIVE, and then takes its place in Table 6.2. -/
def State.wakeCtx (s : State) (c : Nat) : State :=
  let x := s.ctx c
  if s.ctxState c = 0 ∧ x.sqHead ≠ x.tail then (s.setCtxState c 1).settle c else s

/-- A write of CQ_U_DB_TAIL to slot `n` of paddock `p` (R129, R139, R140). -/
def State.doorbell (s : State) (p n value : Nat) : State :=
  match s.ctxAt p n with
  | none => s.notGranted p (0x1000 + 8 * n)
  | some c =>
    let x := s.ctx c
    let t := value % 65536
    if s.pdkState p ≠ 2 then s.dropDoorbell c 1
    else if !x.configured then s.dropDoorbell c 2
    else if x.sqSize ≤ t then s.dropDoorbell c 3
    else (s.setCtx c { x with tail := t }).wakeCtx c

def execDoorbellTail (paddock : Fin 64) (slot : Fin 256) (value : Nat) (s : State) : Host.Outcome State Fault Refusal :=
  .next (if s.reaches paddock.val then s.doorbell paddock.val slot.val value else s)

/-- The operation reaches the context engine: the paddock must be ACTIVE (R129), the context assigned (Table 6.16). -/
def State.opReaches (s : State) (src : CtxSource) (c : Nat) : Option State :=
  let p := s.ctxPaddock c
  match src with
  | .manager =>
    if !s.reaches s.manager then some s
    else if !s.ctxAssigned c then some (s.dropDoorbell c 5) else none
  | .paddock =>
    if !s.ctxAssigned c || !s.reaches p then some s
    else if s.pdkState p ≠ 2 then some (s.dropDoorbell c 1) else none

/-- Source code of a rein (Table 21.4). -/
def srcNo : CtxSource → Nat
  | .paddock => 0
  | .manager => 1

/-- REIN (R154, R161, R491): ignored without a record from REINING, REINED and FAULTED, and once a fault is decided. -/
def State.opRein (s : State) (src c : Nat) : State := if (s.ctx c).faulting.isSome then s else s.reinCtx c src

def execRein (source : CtxSource) (ctx : Fin 1024) (s : State) : Host.Outcome State Fault Refusal :=
  match s.opReaches source ctx.val with
  | some t => .next t
  | none => .next (s.opRein (srcNo source) ctx.val)

/-- RESTART (Table 6.9): last_status clears and fetching resumes at CQ_U_SQ_HEAD. -/
def State.opRestart (s : State) (c : Nat) : State :=
  if s.ctxState c = 4 ∨ s.ctxState c = 5 then
    ((s.setFld (Reg.CQ_CTX_STATUS c) 15 8 0).setCtxState c 0).wakeCtx c
  else s.dropDoorbell c 4

def execRestart (source : CtxSource) (ctx : Fin 1024) (s : State) : Host.Outcome State Fault Refusal :=
  match s.opReaches source ctx.val with
  | some t => .next t
  | none => .next (s.opRestart ctx.val)

/-- RESTART_DISCARD: as RESTART, after setting CQ_U_SQ_HEAD to the last tail written. -/
def State.opDiscard (s : State) (c : Nat) : State :=
  if s.ctxState c = 4 ∨ s.ctxState c = 5 then
    (s.setCtx c { s.ctx c with sqHead := (s.ctx c).tail }).opRestart c
  else s.dropDoorbell c 4

def execRestartDiscard (source : CtxSource) (ctx : Fin 1024) (s : State) : Host.Outcome State Fault Refusal :=
  match s.opReaches source ctx.val with
  | some t => .next t
  | none => .next (s.opDiscard ctx.val)

/-- RESET (Table 6.9, R491): a rein first where one is needed. -/
def State.opReset (s : State) (src c : Nat) : State :=
  let st := s.ctxState c
  if st = 1 ∨ st = 2 then
    let s1 := s.reinCtx c src
    s1.setCtx c { s1.ctx c with resetAfter := true }
  else if st = 3 then s.setCtx c { s.ctx c with resetAfter := true }
  else s.resetCtx c

def execReset (source : CtxSource) (ctx : Fin 1024) (s : State) : Host.Outcome State Fault Refusal :=
  match s.opReaches source ctx.val with
  | some t => .next t
  | none => .next (s.opReset (srcNo source) ctx.val)

/-! ### Copies -/

/-- How many bytes of [a, a + n) an access of the job reaches before an obstacle in ascending order, and the fault it meets:
a refused granule, host memory that cannot be mastered, or an uncorrectable word that a read takes. -/
def State.reach (s : State) (c off a n : Nat) (write : Bool) : Nat × Option (Nat × Nat) :=
  let dev := fun (m : MemSel) =>
    let l := localOf a
    let gs := (granules l n).find? fun i =>
      match granuleOf m (i * 65536) with
      | none => true
      | some g => s.entryFailed g || !(s.mayAt .job (s.ctxPaddock c) write g)
    let byGran := match gs with
      | some i => (i * 65536 - l, some (0x20, accessDetail off (granShown m i)))
      | none => (n, none)
    match (if write then [] else readWords false l n).find? fun w => s.mem.bad.contains (m, w) && s.hasEcc m with
    | some w => if 8 * w - l < byGran.1 then (8 * w - l, some (0x23, eccWord m w)) else byGran
    | none => byGran
  match spaceOf a with
  | .host => if s.mayMaster (s.ctxPaddock c) then (n, none) else (0, some (0x20, hostDetail off))
  | .dram => dev .dram
  | .basin => dev .basin
  | .reserved => (0, none)

/-- A job whose write of [a, a + n) has left bytes of an uncorrectable word out ends FAULT_ECC (R171); `s` is the state before
the write, which counted and recorded the error. -/
def State.edgeFault (s : State) (c sq a n : Nat) (t : State) : Option State :=
  (s.eccIn true a n).map fun w => t.faultJob c sq 0x23 (eccGran w) 0

/-- The bytes a copy moves: in ascending address order, so a destination above an overlapping source repeats source data
(R146); a fill repeats its pattern from dst. -/
def State.copyBytes (s : State) (j : Job) (host : List (Nat × Byte)) (n : Nat) : List Byte :=
  if j.f 0x24 1 % 2 = 1 then
    let pat := leBytes 4 (j.f 0x28 4)
    (List.range n).map fun i => pat.getD (i % 4) 0
  else
    let src := j.f 0x10 8
    let dst := j.f 0x18 8
    let period := if spaceOf src = spaceOf dst ∧ src < dst ∧ dst < src + n then dst - src else n
    let bs := if spaceOf src = .host ∧ !j.data.isEmpty then j.data else s.bufRead host src period
    (List.range n).map fun i => bs.getD (i % max 1 period) 0

/-- Move the first `n` bytes of a copy. -/
def State.copyRun (s : State) (c : Nat) (j : Job) (host : List (Nat × Byte)) (n : Nat) : State :=
  if n = 0 then s
  else
    let s1 := if j.f 0x24 1 % 2 = 1 then s else s.touchMem (j.f 0x10 8) n
    s1.bufWrite (s.ctxPaddock c) (j.f 0x18 8) (s.copyBytes j host n)

/-- The length a copy may move and what stops it there. -/
def State.copyReach (s : State) (c : Nat) (j : Job) : Nat × Option (Nat × Nat) :=
  let n := j.f 0x20 4
  let d := s.reach c 0x18 (j.f 0x18 8) n true
  if j.f 0x24 1 % 2 = 1 then d
  else
    let r := s.reach c 0x10 (j.f 0x10 8) n false
    if r.1 ≤ d.1 ∧ r.2.isSome then r else d

/-- A copy or fill starts; a host source is read through its port, and a function that cannot master faults it (R490). -/
def State.startCopy (s : State) (c : Nat) (j : Job) : State :=
  let s1 := (s.markStarted c j.sq).modJob c j.sq fun j => { j with extent := j.f 0x20 4 }
  match s1.copyReach c j with
  | (0, some (st, d)) => s1.faultAt c j.sq st d 0
  | _ =>
    if j.f 0x24 1 % 2 = 0 ∧ spaceOf (j.f 0x10 8) = .host then s1.hostRead c j.sq 0x10 (j.f 0x10 8) (j.f 0x20 4) else s1

/-- COPY (R146). -/
def execCopy (ctx : Fin 1024) (s : State) : Host.Outcome State Fault Refusal :=
  match s.toStart ctx.val 3 with
  | some j => .next (if j.f 0x24 1 % 2 = 0 then s.startCopy ctx.val j else s)
  | none => .next s

/-- COPY with fill mode (R146). -/
def execCopyFill (ctx : Fin 1024) (s : State) : Host.Outcome State Fault Refusal :=
  match s.toStart ctx.val 3 with
  | some j => .next (if j.f 0x24 1 % 2 = 1 then s.startCopy ctx.val j else s)
  | none => .next s

/-- COPY_DONE (R148): the bytes are moved as far as nothing stops them, and the job ends. A copy whose read waits for a credit is
not done (R143). -/
def execCopyDone (ctx : Fin 1024) (host : List (Nat × Byte)) (s : State) : Host.Outcome State Fault Refusal :=
  let c := ctx.val
  match (s.ctx c).jobs.find? fun j => j.started && j.typ == 3 && !s.readsWait c j.sq with
  | none => .next s
  | some j =>
    let (n, stop) := s.copyReach c j
    let s1 := (s.copyRun c j host n).modJob c j.sq fun j => { j with count := n }
    match s.edgeFault c j.sq (j.f 0x18 8) n s1, stop with
    | some t, _ => .next t
    | none, none => .next (s1.endJob c j.sq 0 0 0)
    | none, some (st, d) => .next (s1.faultAt c j.sq st d 0)

/-! ### Fences and marks (R149–R151, Table 6.6) -/

def State.fence (s : State) (f : Nat) : Nat := spGet (fun _ => 0) s.fences f
def State.setFence (s : State) (f v : Nat) : State := { s with fences := spSet (fun _ => 0) s.fences f v }

/-- A FENCE_WAIT is met. -/
def State.endWait (s : State) (c : Nat) (j : Job) : State :=
  (s.modJob c j.sq fun j => { j with count := 1 }).endJob c j.sq 0 0 0

/-- FENCE_WAIT starts, and the context waits until the fence reaches its value (R150). -/
def execFenceWait (ctx : Fin 1024) (s : State) : Host.Outcome State Fault Refusal :=
  let c := ctx.val
  match s.toStart c 4 with
  | none => .next s
  | some j =>
    let s1 := s.markStarted c j.sq
    .next (if j.f 0x18 8 ≤ s.fence (j.f 0x10 2 % 4096) then s1.endWait c j else s1.settle c)

/-- FENCE_WAIT_SATISFIED (R150). -/
def execFenceWaitSatisfied (ctx : Fin 1024) (s : State) : Host.Outcome State Fault Refusal :=
  let c := ctx.val
  match (s.ctx c).jobs.find? fun j => j.started && j.typ == 4 with
  | none => .next s
  | some j => .next (if j.f 0x18 8 ≤ s.fence (j.f 0x10 2 % 4096) then s.endWait c j else s)

/-- FENCE_SIGNAL (R150): the fence and its mirror; an equal value changes nothing; a lower one ends FAULT_DESCRIPTOR with
reason 0x04 at the value's byte offset. -/
def execFenceSignal (ctx : Fin 1024) (s : State) : Host.Outcome State Fault Refusal :=
  let c := ctx.val
  match s.toStart c 5 with
  | none => .next s
  | some j =>
    let f := j.f 0x10 2 % 4096
    let v := j.f 0x18 8
    let s1 := (s.markStarted c j.sq).modJob c j.sq fun j => { j with count := 1 }
    if v < s.fence f then .next ((s1.modJob c j.sq fun j => { j with count := 0 }).faultJob c j.sq 0x21 0x0418 0)
    else if v = s.fence f ∨ j.f 0x12 1 % 2 = 0 then .next ((s1.setFence f v).endJob c j.sq 0 0 0)
    else match s.reach c 0x20 (j.f 0x20 8) 8 true with
      | (_, none) =>
        let s2 := (s1.setFence f v).bufWrite (s.ctxPaddock c) (j.f 0x20 8) (leBytes 8 v)
        .next ((s.edgeFault c j.sq (j.f 0x20 8) 8 s2).getD (s2.endJob c j.sq 0 0 0))
      | (_, some (st, d)) => .next ((s1.setFence f v).faultAt c j.sq st d 0)

/-- EVENT_MARK: its record names the entry's event_seq (Table 21.1). -/
def execEventMark (ctx : Fin 1024) (s : State) : Host.Outcome State Fault Refusal :=
  let c := ctx.val
  match s.toStart c 12 with
  | none => .next s
  | some j =>
    let s1 := (s.markStarted c j.sq).modJob c j.sq fun j => { j with count := 1 }
    let s2 := s1.recordNow 0x0203 [(16, c), (16, j.f 0x10 2), (32, j.f 0x14 4)]
    .next (s2.endJob c j.sq 0 0 s2.lastSeq)

/-- A write of CQ_FENCE_SEL (R165). -/
def State.fenceSel (s : State) (value : Nat) : State :=
  let f := value % 4096
  let s1 := s.setReg Reg.CQ_FENCE_SEL f
  if value.testBit 31 then
    let v := s.reg64 Reg.CQ_FENCE_SET_LO Reg.CQ_FENCE_SET_HI
    if s.fence f ≤ v then s1.setFence f v else s1.offer 0x0206 [(16, f)]
  else s1

def execFenceSet (value : Nat) (s : State) : Host.Outcome State Fault Refusal :=
  .next (if s.reaches s.manager then s.fenceSel value else s)

/-! ### Context registers (R142, R164, R165) -/

/-- A write of CQ_U_CQ_HEAD frees entries; the head written back to its own index frees a full ring whole
(assumption 25). Held job entries go out first, then the touch reports that waited for room (R416, R420). -/
def State.cqHeadWrite (s : State) (c value : Nat) : State :=
  let x := s.ctx c
  let n := x.cqSize
  let h := value % 65536
  if n ≤ h then s
  else
    let d := (h + n - x.cqHead) % n
    let freed := if d = 0 ∧ x.cqUsed = n then n else d
    let s1 := s.setCtx c { x with cqHead := h, cqUsed := x.cqUsed - freed }
    let s2 := (s1.drainHeld c x.held.length).syncFull c
    let s3 := if (s2.ctx c).held.isEmpty then s2.setBit (Reg.CQ_CTX_STATUS c) 5 false else s2
    (s3.touchRoom (s.ctxPaddock c)).settle c

def execCompletionHeadWrite (paddock : Fin 64) (slot : Fin 256) (value : Nat) (s : State) :
    Host.Outcome State Fault Refusal :=
  if s.reaches paddock.val then
    match s.ctxAt paddock.val slot.val with
    | some c => .next (s.cqHeadWrite c value)
    | none => .next (s.notGranted paddock.val (0x201C + 0x20 * slot.val))
  else .next s

/-- Offset of a context register in the view through which it is written: the U window for the ring registers, the P view
for class and limit. -/
def State.cfgOffset (s : State) (c : Nat) : CtxReg → Nat
  | .sqBaseLo => 0x2000 + 0x20 * s.fld (Reg.CQ_CTX_OWNER c) 15 8
  | .sqBaseHi => 0x2004 + 0x20 * s.fld (Reg.CQ_CTX_OWNER c) 15 8
  | .cqBaseLo => 0x2008 + 0x20 * s.fld (Reg.CQ_CTX_OWNER c) 15 8
  | .cqBaseHi => 0x200C + 0x20 * s.fld (Reg.CQ_CTX_OWNER c) 15 8
  | .cfg => 0x2010 + 0x20 * s.fld (Reg.CQ_CTX_OWNER c) 15 8
  | .cls => Reg.CQ_CTX_CLASS c
  | .limit => Reg.CQ_CTX_LIMIT c

/-- A value that R164 does not allow: base bits [11:0] set, or a log2 field outside 4–16. -/
def ctxValueBad (w : CtxReg) (v : Nat) : Bool :=
  match w with
  | .sqBaseLo | .cqBaseLo => v % 4096 != 0
  | .cfg => !(decide (4 ≤ bitsOf v 4 0 ∧ bitsOf v 4 0 ≤ 16) && decide (4 ≤ bitsOf v 12 8 ∧ bitsOf v 12 8 ≤ 16))
  | _ => false

/-- The context register takes its value. -/
def State.ctxRegSet (s : State) (c : Nat) (w : CtxReg) (v : Nat) : State :=
  let x := s.ctx c
  match w with
  | .sqBaseLo => s.setCtx c { x with sqBase := x.sqBase / 2 ^ 32 * 2 ^ 32 + v }
  | .sqBaseHi => s.setCtx c { x with sqBase := v * 2 ^ 32 + x.sqBase % 2 ^ 32 }
  | .cqBaseLo => s.setCtx c { x with cqBase := x.cqBase / 2 ^ 32 * 2 ^ 32 + v }
  | .cqBaseHi => s.setCtx c { x with cqBase := v * 2 ^ 32 + x.cqBase % 2 ^ 32 }
  | .cfg => s.setCtx c { x with cfg := v &&& 0x1F1F1F }
  | .cls => s.setReg (Reg.CQ_CTX_CLASS c) (v &&& 0xFFFF0F73)
  | .limit => s.setReg (Reg.CQ_CTX_LIMIT c) (v % 65536)

/-- A write of a context register (R164, R165). -/
def State.ctxRegWrite (s : State) (c : Nat) (w : CtxReg) (value : Nat) : State :=
  let v := value % 2 ^ 32
  if s.ctxState c ≠ 0 then
    (s.setBit (Reg.CQ_CTX_STATUS c) 4 true).offer 0x0205 [(16, c), (32, s.cfgOffset c w), (8, 0)]
  else if ctxValueBad w v then s.offer 0x0205 [(16, c), (32, s.cfgOffset c w), (8, 1)]
  else s.ctxRegSet c w v

def execContextCfgWrite (ctx : Fin 1024) (which : CtxReg) (value : Nat) (s : State) : Host.Outcome State Fault Refusal :=
  let c := ctx.val
  let viaP := which == .cls || which == .limit
  let ok := if viaP then s.reaches s.manager else s.ctxAssigned c && s.reaches (s.ctxPaddock c)
  .next (if ok then s.ctxRegWrite c which value else s)

end Sys2Proof.Machine
end

