-- ==== Sys2Proof/Machine/JetLoad.lean ====
section
/-! DEFINITION. The structures that a jets job names, read and checked at admission: render pass (R192–R197), program
container (R225–R227) and resource binding table (R229–R231), in the order of R146. -/

namespace Sys2Proof.Machine

/-- A failed check: status, detail word, and the offset within the structure that the record carries. -/
structure Bad where
  status : Nat
  detail : Nat
  off : Nat
  deriving DecidableEq, Repr

/-- One check of a structure's fields: whether it fails, the field's offset, its rank within the field (0 reserved bit, 1
range, 2 alignment), and the reason of Table 6.8. -/
structure Chk where
  fails : Bool
  off : Nat
  rank : Nat
  reason : Nat
  deriving DecidableEq, Repr

/-- The first failing check in ascending offset, then rank (R146). -/
def firstChk : List Chk → Option Chk
  | [] => none
  | c :: cs =>
    let r := firstChk cs
    if !c.fails then r
    else match r with
      | none => some c
      | some d => if c.off < d.off ∨ (c.off = d.off ∧ c.rank ≤ d.rank) then some c else some d

/-- Fail with FAULT_DESCRIPTOR at descriptor offset 0x10 when a check fails (R196, R227, R231). -/
def runChks (base : Nat) (cs : List Chk) : Except Bad Unit :=
  match firstChk cs with
  | none => .ok ()
  | some c => .error ⟨0x21, c.reason * 256 + 0x10, base + c.off⟩

/-- Bytes [lo, hi) of a structure must be zero. -/
def zeroChks (b : List Byte) (lo hi : Nat) : List Chk :=
  (List.range (hi - lo)).map fun i => ⟨b.getD (lo + i) 0 != 0, lo + i, 0, 2⟩

/-- The reserved address space of Table 6.3. -/
def badSpace (a : Nat) : Bool := spaceOf a == .reserved

/-- A named buffer is checked against the owner table; whether the function can master its port is not (R146, R490). -/
def State.ownChk (s : State) (c : Nat) (buf : Nat × Nat × Bool × Nat) : Except Bad Unit :=
  let (a, n, w, so) := buf
  if spaceOf a = .host then .ok ()
  else match s.jobRefused c 0x10 a n w with
    | some d => .error ⟨0x20, d, so⟩
    | none => .ok ()

/-- The bytes of a structure, once the owner table allows them (R146). -/
def State.fetchStruct (s : State) (c : Nat) (host : List (Nat × Byte)) (a n so : Nat) : Except Bad (List Byte) :=
  match s.jobRefused c 0x10 a n false with
  | some d => .error ⟨0x20, d, so⟩
  | none => match s.poisonIn a n with
    | some g => .error ⟨0x23, g, so⟩
    | none => .ok (s.bufRead host a n)

/-! ### Render pass -/

/-- An attachment record from its 64 bytes. -/
def parseAtt (b : List Byte) : Att :=
  let f := dField b
  { surf := f 0 8, data := f 8 8, clear := f 0x10 8, resolve := f 0x18 8, width := f 0x20 2, height := f 0x22 2,
    stride := f 0x24 4, fmt := f 0x28 1, layout := f 0x29 1, load := f 0x2A 1, store := f 0x2B 1, rstride := f 0x30 4 }

/-- The store operation resolves. -/
def Att.resolves (a : Att) : Bool := a.store == 2 || a.store == 3

/-- The checks of one attachment record (Table 8.4, R193, R194, R197). -/
def attChks (p : Pass) (depth : Bool) (b : List Byte) : List Chk :=
  let a := parseAtt b
  let e := fmtE a.fmt
  let ok := if depth then fmtDepth a.fmt else fmtRenderable a.fmt
  let bbc := a.layout == 1
  let res := a.resolves
  [⟨badSpace a.surf, 0, 1, 4⟩, ⟨a.surf % 64 != 0, 0, 2, 3⟩,
   ⟨bbc && badSpace a.data, 8, 1, 4⟩, ⟨bbc && a.data % 4096 != 0, 8, 2, 3⟩, ⟨!bbc && a.data != 0, 8, 0, 2⟩,
   ⟨!res && a.resolve != 0, 0x18, 0, 2⟩, ⟨res && badSpace a.resolve, 0x18, 1, 4⟩, ⟨res && a.resolve % 64 != 0, 0x18, 2, 3⟩,
   ⟨a.width == 0 || decide (16384 < a.width) || decide (a.width < p.ax + p.aw), 0x20, 1, 4⟩,
   ⟨bbc && (p.ax + p.aw) % 16 != 0 && p.ax + p.aw != a.width, 0x20, 2, 4⟩,
   ⟨a.height == 0 || decide (16384 < a.height) || decide (a.height < p.ay + p.ah), 0x22, 1, 4⟩,
   ⟨bbc && (p.ay + p.ah) % 16 != 0 && p.ay + p.ah != a.height, 0x22, 2, 4⟩,
   ⟨bbc && a.stride != 0, 0x24, 0, 2⟩, ⟨!bbc && decide (a.stride < a.width * e * p.samples), 0x24, 1, 4⟩,
   ⟨!bbc && a.stride % 64 != 0, 0x24, 2, 3⟩,
   ⟨!ok, 0x28, 1, 4⟩, ⟨decide (1 < a.layout), 0x29, 1, 4⟩, ⟨decide (2 < a.load), 0x2A, 1, 4⟩,
   ⟨decide (3 < a.store) || (res && (depth || p.samples == 1)), 0x2B, 1, 4⟩,
   ⟨res && decide (a.rstride < a.width * e), 0x30, 1, 4⟩, ⟨res && a.rstride % 64 != 0, 0x30, 2, 3⟩]
  ++ zeroChks b 0x2C 0x30 ++ zeroChks b 0x34 0x40

/-- The largest render area in force (R217). -/
def State.maxTarget (s : State) : Nat × Nat := (s.ja.force.maxW, s.ja.force.maxH)

/-- The pass structure from its bytes. -/
def parsePass (b : List Byte) : Pass :=
  let f := dField b
  { ax := f 0 2, ay := f 2 2, aw := f 4 2, ah := f 6 2, samples := f 9 1, varyings := f 0x0B 1, draws := f 0x0C 4,
    prog := f 0x10 8, bind := f 0x18 8, draw := f 0x20 8,
    depth := if f 0x0A 1 % 2 = 1 then some (parseAtt ((b.drop 0x40).take 64)) else none,
    colours := (List.range (f 8 1)).map fun i => parseAtt ((b.drop (0x80 + 64 * i)).take 64) }

/-- Tile bytes B (R195). -/
def Pass.tileBytes (p : Pass) : Nat := ((p.depth.toList ++ p.colours).map fun a => fmtE a.fmt * p.samples).sum

/-- The checks of the pass structure of `len` bytes (Table 8.3, R192–R195). -/
def State.passChks (s : State) (len : Nat) (b : List Byte) : List Chk :=
  let p := parsePass b
  let n := p.colours.length
  let (mw, mh) := s.maxTarget
  let pf := dField b 0x0A 1
  let shape := decide (n ≤ 8) && len == 128 + 64 * n
  let hdr : List Chk :=
    [⟨p.ax % 32 != 0, 0, 2, 3⟩, ⟨p.ay % 32 != 0, 2, 2, 3⟩, ⟨p.aw == 0 || decide (mw < p.aw), 4, 1, 4⟩,
     ⟨p.ah == 0 || decide (mh < p.ah), 6, 1, 4⟩, ⟨!shape, 8, 1, 4⟩,
     ⟨p.samples != 1 && p.samples != 2 && p.samples != 4, 9, 1, 4⟩, ⟨decide (2 ≤ pf), 0x0A, 0, 2⟩,
     ⟨decide (32 < p.varyings), 0x0B, 1, 4⟩, ⟨p.draws == 0 || decide (2 ^ 20 < p.draws), 0x0C, 1, 4⟩,
     ⟨badSpace p.draw, 0x20, 1, 4⟩, ⟨p.draw % 32 != 0, 0x20, 2, 3⟩] ++ zeroChks b 0x28 0x40
  let shift := fun (base : Nat) (cs : List Chk) => cs.map fun c => { c with off := base + c.off }
  if !shape then hdr
  else
    let atts := (if p.depth.isSome then shift 0x40 (attChks p true ((b.drop 0x40).take 64)) else zeroChks b 0x40 0x80)
      ++ (List.range n).flatMap fun i => shift (0x80 + 64 * i) (attChks p false ((b.drop (0x80 + 64 * i)).take 64))
    hdr ++ atts ++ [⟨decide (64 < p.tileBytes), 64 * n + 0x80, 1, 4⟩]

/-- Size of the byte ranges of an attachment: surface or headers, BBC data, resolve target, with the offset of each field. -/
def Att.ranges (a : Att) (samples so : Nat) : List (Nat × Nat × Bool × Nat) :=
  let e := fmtE a.fmt
  let nb := bbcBW e (a.width * samples) * bbcBH e a.height
  (if a.layout = 1 then [(a.surf, 16 * nb, true, so), (a.data, 512 * nb, true, so + 8)]
   else [(a.surf, a.stride * a.height, true, so)])
  ++ (if a.resolves then [(a.resolve, a.rstride * a.height, true, so + 0x18)] else [])

/-! ### Program container -/

/-- An entry record from its 32 bytes. -/
def parseEntry (b : List Byte) : Entry :=
  let f := dField b
  { stage := f 0 1, vregs := f 1 1, teams := f 2 1, flags := f 3 1, start := f 4 4, shared := f 8 4 }

/-- The checks of entry `i` (Table 9.4, R226, R227). -/
def entryChks (graphics : Bool) (codeBytes i : Nat) (b : List Byte) : List Chk :=
  let e := parseEntry b
  let want := if graphics then 1 + i % 2 else 3
  let allowed := if want = 2 then 7 else if want = 3 then 8 else 0
  [⟨e.stage != want, 0, 1, 4⟩, ⟨e.vregs % 8 != 0 || decide (e.vregs < 8) || decide (128 < e.vregs), 1, 1, 4⟩,
   ⟨decide (1024 < e.vregs * max e.teams 1), 1, 1, 4⟩,
   ⟨if want = 3 then e.teams == 0 || decide (16 < e.teams) else e.teams != 0, 2, 1, 4⟩,
   ⟨decide (16 ≤ e.flags), 3, 0, 2⟩, ⟨e.flags % 16 != e.flags % 16 &&& allowed, 3, 1, 4⟩,
   ⟨decide (codeBytes ≤ e.start * 8), 4, 1, 4⟩,
   ⟨if want = 3 then decide (32768 < e.shared) || e.shared % 256 != 0 else e.shared != 0, 8, 1, 4⟩] ++ zeroChks b 0x0C 0x20

/-- The header of a container from its 64 bytes, without entries. -/
def parseProg (addr : Nat) (b : List Byte) : Prog :=
  let f := dField b
  { addr := addr, kind := f 7 1, codeOff := f 8 4, codeBytes := f 0x0C 4, constOff := f 0x10 4, constBytes := f 0x14 4 }

/-- Size checks of the container header that come before its own bytes can be read. -/
def progShape (graphics : Bool) (b : List Byte) : List Chk :=
  let f := dField b
  let p := parseProg 0 b
  let n := f 6 1
  let ee := 0x40 + 32 * n
  let tot := f 0x20 4
  let laps := decide (p.constOff < p.codeOff + p.codeBytes) && decide (p.codeOff < p.constOff + p.constBytes)
  [⟨if graphics then decide (n < 2) || decide (32 < n) || n % 2 != 0 else n != 1, 6, 1, 4⟩,
   ⟨p.codeOff % 64 != 0 || decide (p.codeOff < ee), 8, 1, 4⟩,
   ⟨p.codeBytes % 8 != 0 || decide (p.codeBytes < 8) || decide (1048576 < p.codeBytes), 0x0C, 1, 4⟩,
   ⟨p.constOff % 64 != 0 || (p.constBytes == 0 && p.constOff != 0)
     || (p.constBytes != 0 && (decide (p.constOff < ee) || laps)), 0x10, 1, 4⟩,
   ⟨decide (65536 < p.constBytes), 0x14, 1, 4⟩,
   ⟨decide (tot < ee) || decide (tot < p.codeOff + p.codeBytes) || decide (tot < p.constOff + p.constBytes), 0x20, 1, 4⟩]

/-- The container at `addr`, read and checked (R225–R227). -/
def State.loadProg (s : State) (c : Nat) (host : List (Nat × Byte)) (graphics : Bool) (addr : Nat) : Except Bad Prog := do
  runChks 0 [⟨badSpace addr || addr % 64 != 0, 0, 1, 4⟩]
  let h ← s.fetchStruct c host addr 64 0
  let f := dField h
  let p := parseProg addr h
  let shape := progShape graphics h
  let early : List Chk :=
    [⟨f 0 4 != 0x4A455450, 0, 1, 4⟩, ⟨f 4 2 != 1, 4, 1, 4⟩, ⟨f 7 1 != b2n (!graphics), 7, 1, 4⟩,
     ⟨p.constBytes == 0 && f 0x1C 4 != 0, 0x1C, 1, 4⟩,
     ⟨f 0x3C 4 != crc32c (h.take 0x3C), 0x3C, 1, 4⟩] ++ zeroChks h 0x24 0x3C ++ shape
  if (firstChk shape).isSome then runChks 0 early
  s.ownChk c (addr, f 0x20 4, false, 0)
  let code ← s.fetchStruct c host (addr + p.codeOff) p.codeBytes p.codeOff
  let pool ← if p.constBytes = 0 then .ok [] else s.fetchStruct c host (addr + p.constOff) p.constBytes p.constOff
  runChks 0 (early ++ [⟨crc32c code != f 0x18 4, 0x18, 1, 4⟩,
    ⟨p.constBytes != 0 && crc32c pool != f 0x1C 4, 0x1C, 1, 4⟩])
  let n := f 6 1
  let raw ← s.fetchStruct c host (addr + 0x40) (32 * n) 0x40
  let one := fun i => (raw.drop (32 * i)).take 32
  (List.range n).forM fun i => runChks (0x40 + 32 * i) (entryChks graphics p.codeBytes i (one i))
  return { p with entries := (List.range n).map fun i => parseEntry (one i) }

/-! ### Binding table -/

/-- A texture slot from its 64 bytes. -/
def parseTex (b : List Byte) : Tex :=
  let f := dField b
  { fmt := f 1 1, layout := f 2 1, levels := f 3 1, width := f 4 2, height := f 6 2, surf := f 8 8, data := f 0x10 8,
    clear := f 0x18 8, stride := f 0x20 4, filter := f 0x24 1, address := f 0x25 1, aniso := f 0x26 1, func := f 0x27 1,
    bias := f 0x28 2, lodMin := f 0x2A 1, lodMax := f 0x2B 1, border := f 0x2C 4 }

/-- A slot from its 64 bytes. -/
def parseSlot (b : List Byte) : Slot :=
  if dField b 0 1 = 1 then .buffer (dField b 1 1 % 2 == 1) (dField b 4 4) (dField b 8 8) else .texture (parseTex b)

/-- Size of level `i` on one axis (R230). -/
def levelSize (n i : Nat) : Nat := max 1 (n / 2 ^ i)

/-- `n` rounded up to a multiple of `m`. -/
def roundUp (n m : Nat) : Nat := (n + m - 1) / m * m

/-- Row stride of a linear level, and the base of a level: surface (headers) and data (R230). -/
def Tex.strideOf (t : Tex) (i : Nat) : Nat := if i = 0 then t.stride else roundUp (levelSize t.width i * fmtE t.fmt) 64
def Tex.bases (t : Tex) : Nat → Nat × Nat
  | 0 => (t.surf, t.data)
  | i + 1 =>
    let (a, d) := t.bases i
    let e := fmtE t.fmt
    let nb := bbcBW e (levelSize t.width i) * bbcBH e (levelSize t.height i)
    if t.layout = 1 then (roundUp (a + 16 * nb) 64, roundUp (d + 512 * nb) 4096)
    else (roundUp (a + t.strideOf i * levelSize t.height i) 64, 0)

/-- The byte ranges of every level of a texture (R231). -/
def Tex.ranges (t : Tex) (so : Nat) : List (Nat × Nat × Bool × Nat) :=
  (List.range t.levels).flatMap fun i =>
    let (a, d) := t.bases i
    let e := fmtE t.fmt
    let nb := bbcBW e (levelSize t.width i) * bbcBH e (levelSize t.height i)
    if t.layout = 1 then [(a, 16 * nb, false, so + 8), (d, 512 * nb, false, so + 0x10)]
    else [(a, t.strideOf i * levelSize t.height i, false, so + 8)]

/-- The checks of one slot (Tables 9.5, 9.6, R230, R231): every failure but a reserved field has reason 0x04. -/
def slotChks (b : List Byte) : List Chk :=
  let f := dField b
  if f 0 1 = 1 then
    [⟨decide (2 ≤ f 1 1), 1, 0, 2⟩, ⟨f 4 4 == 0, 4, 1, 4⟩, ⟨badSpace (f 8 8) || f 8 8 % 16 != 0, 8, 1, 4⟩]
    ++ zeroChks b 2 4 ++ zeroChks b 0x10 0x40
  else if f 0 1 = 2 then
    let t := parseTex b
    let e := fmtE t.fmt
    let mag := bitsOf t.filter 1 0
    let mn := bitsOf t.filter 3 2
    let mip := bitsOf t.filter 5 4
    let linear := mag == 1 || mn == 1 || mip == 2
    let compare := t.filter.testBit 6
    [⟨e == 0, 1, 1, 4⟩, ⟨decide (1 < t.layout), 2, 1, 4⟩,
     ⟨t.levels == 0 || decide (1 + Nat.log2 (max t.width t.height) < t.levels), 3, 1, 4⟩,
     ⟨t.width == 0 || decide (16384 < t.width), 4, 1, 4⟩, ⟨t.height == 0 || decide (16384 < t.height), 6, 1, 4⟩,
     ⟨badSpace t.surf || t.surf % 64 != 0, 8, 1, 4⟩,
     ⟨if t.layout = 1 then badSpace t.data || t.data % 4096 != 0 else t.data != 0, 0x10, 1, 4⟩,
     ⟨t.layout == 0 && (t.stride % 64 != 0 || decide (t.stride < t.width * e)), 0x20, 1, 4⟩,
     ⟨t.filter.testBit 7, 0x24, 0, 2⟩,
     ⟨decide (1 < mag) || decide (1 < mn) || decide (2 < mip) || (linear && fmtInteger t.fmt)
       || (compare && !fmtDepth t.fmt), 0x24, 1, 4⟩,
     ⟨decide (64 ≤ t.address), 0x25, 0, 2⟩, ⟨decide (4 < t.address % 8) || decide (4 < t.address / 8 % 8), 0x25, 1, 4⟩,
     ⟨!([1, 2, 4, 8, 16].contains t.aniso), 0x26, 1, 4⟩, ⟨decide (7 < t.func), 0x27, 1, 4⟩] ++ zeroChks b 0x30 0x40
  else [⟨true, 0, 1, 4⟩]

/-- The byte ranges that a slot names, and the offset of the field. -/
def Slot.ranges (so : Nat) : Slot → List (Nat × Nat × Bool × Nat)
  | .buffer w n a => [(a, n, w, so + 8)]
  | .texture t => t.ranges so

/-- The binding table at `addr`, read and checked (R229–R231), with the buffers to check after. -/
def State.loadBinding (s : State) (c : Nat) (host : List (Nat × Byte)) (addr : Nat) :
    Except Bad (List Slot × List (Nat × Nat × Bool × Nat)) := do
  runChks 0 [⟨badSpace addr || addr % 64 != 0, 0, 1, 4⟩]
  let h ← s.fetchStruct c host addr 64 0
  let n := dField h 0 2
  runChks 0 ([⟨n == 0 || decide (256 < n), 0, 1, 4⟩] ++ zeroChks h 2 64)
  let raw ← s.fetchStruct c host (addr + 0x40) (64 * n) 0x40
  let one := fun i => (raw.drop (64 * i)).take 64
  (List.range n).forM fun i => runChks (0x40 + 64 * i) (slotChks (one i))
  let slots := (List.range n).map fun i => parseSlot (one i)
  return (slots, (List.range n).flatMap fun i => (parseSlot (one i)).ranges (0x40 + 64 * i))

/-! ### Admission -/

/-- A jets job at admission (R146): its structures in depth-first order, then every other buffer they name, the progress
area's check among them as the caller gives it. -/
def State.loadJets (s : State) (c : Nat) (host : List (Nat × Byte)) (raw : List Byte) (sq : Nat)
    (area : Nat → Except Bad Unit) : Except Bad JetJob := do
  if dField raw 0 1 = 1 then
    let len := dField raw 0x18 4
    let b ← s.fetchStruct c host (dField raw 0x10 8) len 0
    runChks 0 (s.passChks len b)
    let p := parsePass b
    let prog ← s.loadProg c host true p.prog
    let (slots, bufs) ← s.loadBinding c host p.bind
    area (32 + 4 * ((p.tiles + 31) / 32) + 256)
    s.ownChk c (p.draw, 32 * p.draws, false, 0x20)
    let atts := (p.depth.toList.flatMap fun a => a.ranges p.samples 0x40)
      ++ (List.range p.colours.length).flatMap fun i => (p.colours.getD i {}).ranges p.samples (0x80 + 64 * i)
    (atts ++ bufs).forM (s.ownChk c)
    return { ctx := c, sq := sq, render := true, pass := p, prog := prog, slots := slots }
  else
    let prog ← s.loadProg c host false (dField raw 0x10 8)
    let (slots, bufs) ← s.loadBinding c host (dField raw 0x18 8)
    area 4128
    bufs.forM (s.ownChk c)
    return { ctx := c, sq := sq, render := false, prog := prog, slots := slots,
             gx := dField raw 0x20 4, gy := dField raw 0x24 4, gz := dField raw 0x28 4 }

end Sys2Proof.Machine
end

