-- ==== Sys2Proof/Machine/Surface.lean ====
section
/-! DEFINITION. Elements of attachments and textures in memory, and the load and write-out of a tile (R187, R193, R194, R197,
R204, R206). -/

namespace Sys2Proof.Machine

/-- An effective surface: what is needed to find an element. -/
structure Surf where
  base : Nat
  data : Nat
  clear : Nat
  layout : Nat
  stride : Nat
  e : Nat
  /-- Width in elements. -/
  w : Nat
  deriving DecidableEq, Repr

/-- The surface of an attachment at S samples (R193). -/
def Att.surface (a : Att) (samples : Nat) : Surf :=
  ⟨a.surf, a.data, a.clear, a.layout, a.stride, fmtE a.fmt, a.width * samples⟩

/-- Header and data slots of block `k`. -/
def Surf.hdrAt (f : Surf) (k : Nat) : Nat := f.base + 16 * k
def Surf.slotAt (f : Surf) (k slot : Nat) : Nat := f.data + 512 * k + 256 * slot

/-- The byte ranges read for element (x, y). -/
def State.elemRanges (s : State) (host : List (Nat × Byte)) (f : Surf) (x y : Nat) : List (Nat × Nat) :=
  if f.layout = 0 then [(f.base + y * f.stride + x * f.e, f.e)]
  else
    let k := bbcBlock f.e f.w x y
    let hdr := s.bufRead host (f.hdrAt k) 16
    if (hdr.getD 0 0).toNat % 4 = 1 ∧ !bbcMalformed f.e hdr then
      [(f.hdrAt k, 16), (f.slotAt k (bitsOf (hdr.getD 0 0).toNat 2 2), 32 * bitsOf (hdr.getD 0 0).toNat 6 3)]
    else [(f.hdrAt k, 16)]

/-- Element (x, y) of a surface (R184, R186). -/
def State.elem (s : State) (host : List (Nat × Byte)) (f : Surf) (x y : Nat) : Nat :=
  if f.layout = 0 then ofLeBytes (s.bufRead host (f.base + y * f.stride + x * f.e) f.e)
  else
    let k := bbcBlock f.e f.w x y
    let hdr := s.bufRead host (f.hdrAt k) 16
    let slot := bitsOf (hdr.getD 0 0).toNat 2 2
    bbcDecode f.e f.clear hdr (s.bufRead host (f.slotAt k slot) 256) (bbcElem f.e x y)

/-- The block of (x, y) is malformed: its number (R186). -/
def State.elemMalformed (s : State) (host : List (Nat × Byte)) (f : Surf) (x y : Nat) : Option Nat :=
  if f.layout = 1 ∧ bbcMalformed f.e (s.bufRead host (f.hdrAt (bbcBlock f.e f.w x y)) 16) then some (bbcBlock f.e f.w x y)
  else none

/-- What an access of a job meets first among byte ranges: a refusal or an uncorrectable word, as status and detail
(`faultAt`). -/
def State.rangesStop (s : State) (c : Nat) (write : Bool) : List (Nat × Nat) → Option (Nat × Nat)
  | [] => none
  | (a, n) :: l =>
    match s.jobRefused c 0x10 a n write with
    | some d => some (0x20, d)
    | none =>
      match s.eccIn write a n with
      | some g => some (0x23, g)
      | none => s.rangesStop c write l

/-! ### Tiles -/

/-- Attachments with their numbers: 0 to 7 colour, 8 depth (R247). -/
def Pass.atts (p : Pass) : List (Nat × Att) :=
  (p.depth.toList.map fun a => (8, a)) ++ (List.range p.colours.length).map fun i => (i, p.colours.getD i {})

def Pass.att? (p : Pass) (n : Nat) : Option Att := if n = 8 then p.depth else p.colours[n]?

/-- Key of sample `k` of tile pixel (lx, ly) of attachment `n` in the tile buffer. -/
def tileKey (n samples lx ly k : Nat) : Nat := n * 2 ^ 20 + (ly * 32 + lx) * samples + k

/-- Effective operations (R204): LOAD after the first round, STORE in a spilled round. -/
def JetJob.loadOp (j : JetJob) (a : Att) : Nat := if 0 < j.round then 0 else a.load
def JetJob.stores (j : JetJob) (a : Att) : Bool := j.spilling || a.store == 0 || a.store == 3
def JetJob.resolves (j : JetJob) (a : Att) : Bool := !j.spilling && a.resolves

/-- The pixels of a tile. -/
def Pass.tilePixels (p : Pass) (t : Nat) : List (Nat × Nat) :=
  let r := p.tileRect t
  (List.range (r.2.2.2 - r.2.1)).flatMap fun y => (List.range (r.2.2.1 - r.1)).map fun x => (r.1 + x, r.2.1 + y)

/-- A tile's origin. -/
def Pass.origin (p : Pass) (t : Nat) : Nat × Nat := let r := p.tileRect t; (r.1, r.2.1)

/-- The tile buffer after the tile's load (Table 8.6): keys to elements, zero where none is listed. -/
def State.loadTile (s : State) (host : List (Nat × Byte)) (j : JetJob) (t : Nat) : List (Nat × Nat) :=
  let p := j.pass
  let o := p.origin t
  p.atts.foldl (fun buf na =>
    let a := na.2
    let op := j.loadOp a
    if op = 2 then buf
    else (p.tilePixels t).foldl (fun buf xy =>
      (List.range p.samples).foldl (fun buf k =>
        let v := if op = 1 then a.clear % 2 ^ (8 * fmtE a.fmt)
          else s.elem host (a.surface p.samples) (xy.1 * p.samples + k) xy.2
        spSet (fun _ => 0) buf (tileKey na.1 p.samples (xy.1 - o.1) (xy.2 - o.2) k) v) buf) buf) []

/-- The byte ranges that a tile's load reads, and the malformed blocks it meets: surface and block. -/
def State.loadRanges (s : State) (host : List (Nat × Byte)) (j : JetJob) (t : Nat) :
    List (Nat × Nat) × List (Nat × Nat) :=
  let p := j.pass
  let as := p.atts.filter fun na => j.loadOp na.2 == 0
  let each := fun (f : Surf → Nat → Nat → List (Nat × Nat)) => as.flatMap fun na =>
    (p.tilePixels t).flatMap fun xy => (List.range p.samples).flatMap fun k =>
      f (na.2.surface p.samples) (xy.1 * p.samples + k) xy.2
  (each fun f x y => s.elemRanges host f x y,
    each fun f x y => (s.elemMalformed host f x y).toList.map fun k => (f.base, k))

/-- The resolve of a pixel's samples: the mean per channel in the format's numeric domain, to nearest even (R197). -/
def resolveElem (fmt : Nat) (es : List Nat) : Nat :=
  (fmtChans fmt).foldl (fun acc c =>
    let n : ℚ := es.length
    let bits := es.map fun e => bitsOf e c.hi c.lo
    let f := if c.kind = .half then f16 else f32
    let v := match c.kind with
      | .unorm | .uint => (intNearest ((bits.sum : ℚ) / n)).toNat
      | _ =>
        match bits.foldl (fun (a : Option ℚ) b => match a, f.rat? b with
          | some x, some y => some (x + y)
          | _, _ => none) (some 0) with
        | some x => f.round 0 (decide (x < 0)) (|x| / n)
        | none => if bits.any (fun b => f.val b == .nan) || (bits.contains f.inf && bits.contains (f.sign + f.inf)) then f.nan
          else if bits.contains f.inf then f.inf else f.sign + f.inf
    putBits acc c.hi c.lo v) 0

/-- The blocks of an attachment that a tile covers, as block numbers with their first element. -/
def Pass.tileBlocks (p : Pass) (a : Att) (t : Nat) : List (Nat × Nat × Nat) :=
  let e := fmtE a.fmt
  let r := p.tileRect t
  let w := a.width * p.samples
  let bx0 := r.1 * p.samples / bbcW e
  let bx1 := (r.2.2.1 * p.samples + bbcW e - 1) / bbcW e
  let by0 := r.2.1 / bbcH e
  let by1 := (r.2.2.2 + bbcH e - 1) / bbcH e
  (List.range (by1 - by0)).flatMap fun j => (List.range (bx1 - bx0)).map fun i =>
    ((by0 + j) * bbcBW e w + bx0 + i, (bx0 + i) * bbcW e, (by0 + j) * bbcH e)

/-- The linear rows that a tile's write-out writes, attachment by attachment: address and bytes. -/
def JetJob.rowWrites (j : JetJob) (t : Nat) (buf : List (Nat × Nat)) (skipLoaded : Bool) : List (Nat × List Byte) :=
  let p := j.pass
  let r := p.tileRect t
  let el := fun n x y k => spGet (fun _ => 0) buf (tileKey n p.samples (x - r.1) (y - r.2.1) k)
  let xs := (List.range (r.2.2.1 - r.1)).map (r.1 + ·)
  let ys := (List.range (r.2.2.2 - r.2.1)).map (r.2.1 + ·)
  p.atts.flatMap fun na =>
    let a := na.2
    let e := fmtE a.fmt
    (if a.layout = 0 ∧ j.stores a ∧ !(skipLoaded && j.loadOp a == 0) then
      ys.map fun y => (a.surf + y * a.stride + r.1 * p.samples * e,
        xs.flatMap fun x => (List.range p.samples).flatMap fun k => leBytes e (el na.1 x y k))
    else [])
    ++ (if j.resolves a then
      ys.map fun y => (a.resolve + y * a.rstride + r.1 * e,
        xs.flatMap fun x => leBytes e (resolveElem a.fmt ((List.range p.samples).map fun k => el na.1 x y k)))
    else [])

/-- The BBC writes of a tile: data to the slots opposite the headers, and the headers (R185, R187). -/
def State.blockWrites (s : State) (host : List (Nat × Byte)) (j : JetJob) (t : Nat) (buf : List (Nat × Nat))
    (dirty : List Nat) (skipLoaded : Bool) : List (Nat × List Byte) × List (Nat × List Byte) :=
  let p := j.pass
  let o := p.origin t
  let r := p.tileRect t
  let bs := p.atts.flatMap fun na =>
    let a := na.2
    let e := fmtE a.fmt
    let f := a.surface p.samples
    if a.layout = 1 ∧ j.stores a ∧ !(skipLoaded && j.loadOp a == 0) then
      (p.tileBlocks a t).map fun b =>
        let keys := (List.range (256 / e)).map fun n =>
          let x := b.2.1 + n % bbcW e
          let y := b.2.2 + n / bbcW e
          if x < r.2.2.1 * p.samples ∧ y < r.2.2.2 then
            some (tileKey na.1 p.samples (x / p.samples - o.1) (y - o.2) (x % p.samples)) else none
        let elems := keys.map fun k => match k with
          | some k => spGet (fun _ => 0) buf k
          | none => 0
        let inside := keys.filterMap fun k => k
        let clear := a.clear % 2 ^ (8 * e)
        if inside.all (fun k => spGet (fun _ => 0) buf k == clear && !(dirty.contains k)) then
          (([] : List (Nat × List Byte)), (f.hdrAt b.1, bbcClear))
        else
          let (hdr, data) := bbcEncode e elems
          let old := bitsOf ((s.bufRead host (f.hdrAt b.1) 1).getD 0 0).toNat 2 2
          let hdr' := hdr.set 0 (BitVec.ofNat 8 (putBits (hdr.getD 0 0).toNat 2 2 (1 - old)))
          if data.isEmpty then ([], (f.hdrAt b.1, hdr)) else ([(f.slotAt b.1 (1 - old), data)], (f.hdrAt b.1, hdr'))
    else []
  (bs.flatMap fun x => x.1, bs.map fun x => x.2)

/-- Write a list of byte runs for a paddock. -/
def State.runs (s : State) (p : Nat) (l : List (Nat × List Byte)) : State := s.each (fun r s => s.bufWrite p r.1 r.2) l

/-- Byte runs that a context's job writes, and the first uncorrectable word that one of them covers only in part: its bytes
there are discarded, and the other words are written (R171). -/
def State.jobRuns (s : State) (c : Nat) : List (Nat × List Byte) → State × Option Nat
  | [] => (s, none)
  | r :: l =>
    let g := s.eccIn true r.1 r.2.length
    let t := (s.bufWrite (s.ctxPaddock c) r.1 r.2).jobRuns c l
    (t.1, g.orElse fun _ => t.2)

/-- What of a job's writes is refused first: the FAULT_ACCESS detail (R97). -/
def State.runsRefused (s : State) (c : Nat) (l : List (Nat × List Byte)) : Option Nat :=
  l.findSome? fun r => s.jobRefused c 0x10 r.1 r.2.length true

end Sys2Proof.Machine
end

