-- ==== Sys2Proof/Machine/Pixels.lean ====
section
/-! DEFINITION. The composer pipeline (R278–R292): layers as their registers describe them, the fetch of a source pixel,
scaling, blending, the output stage and the safety overlay. -/

namespace Sys2Proof.Machine

/-! ### Accessors -/

def State.comp (s : State) (c : Nat) : Composer := s.cmp.comps.getD c {}
def State.setComp (s : State) (c : Nat) (x : Composer) : State :=
  { s with cmp := { s.cmp with comps := s.cmp.comps.set c x } }
def State.head (s : State) (n : Nat) : Head := s.hd.heads.getD n {}
def State.setHead (s : State) (n : Nat) (x : Head) : State :=
  { s with hd := { s.hd with heads := s.hd.heads.set n x } }

/-- The head whose timing a composer keeps (Table 11.1). -/
def State.headOf (s : State) (c : Nat) : Nat := if c < 8 then c else s.fld (Reg.CMP_CFG c) 6 4

/-- The composers that keep the timing of head `n`. -/
def State.timedBy (s : State) (n : Nat) : List Nat := n :: [8, 9].filter fun c => s.headOf c == n

/-- Output size of a composer: the active area of its head's gait, or CMP_SIZE (Table 11.1). -/
def State.outSize (s : State) (c : Nat) : Nat × Nat :=
  if c < 8 then ((gaitOf (s.fld (Reg.HD_GAIT c) 4 0)).ha, (gaitOf (s.fld (Reg.HD_GAIT c) 4 0)).va)
  else (s.fld (Reg.CMP_SIZE c) 13 0, s.fld (Reg.CMP_SIZE c) 29 16)

/-- Offset of an RS register of the head commit within composer `n` in its active set. -/
def State.cmpAct (s : State) (c o : Nat) : Nat := s.reg (Reg.CMP_CTRL c + 0x100 + o)

/-! ### Layers -/

/-- A layer's set (Table 11.11) with its fields taken apart (Table 11.12). -/
structure Lay where
  ctrl : Nat
  alpha : Nat
  src : Nat
  data : Nat
  stride : Nat
  w : Nat
  h : Nat
  cx : Nat
  cy : Nat
  cw : Nat
  ch : Nat
  dx : Nat
  dy : Nat
  dw : Nat
  dh : Nat
  clear : Nat
  deriving DecidableEq, Repr

def Lay.enable (y : Lay) : Bool := y.ctrl.testBit 0
def Lay.fmt (y : Lay) : Nat := bitsOf y.ctrl 30 24
def Lay.layout (y : Lay) : Nat := bitsOf y.ctrl 23 23
def Lay.mirror (y : Lay) : Bool := y.ctrl.testBit 22
def Lay.rot (y : Lay) : Nat := bitsOf y.ctrl 21 20
def Lay.filter (y : Lay) : Nat := bitsOf y.ctrl 19 18
def Lay.blend (y : Lay) : Nat := bitsOf y.ctrl 17 16
def Lay.amode (y : Lay) : Nat := bitsOf y.ctrl 15 14
def Lay.ycc (y : Lay) : Nat := bitsOf y.ctrl 13 11

/-- NV12 or P010, and bytes of a sample of their planes. -/
def Lay.yuv (y : Lay) : Bool := y.fmt == 0x20 || y.fmt == 0x21
def Lay.sampleE (y : Lay) : Nat := if y.fmt = 0x20 then 1 else 2

/-- A layer from the words of its set, by offset. -/
def layFrom (g : Nat → Nat) : Lay :=
  let x := fun o => bitsOf (g o) 13 0
  let y := fun o => bitsOf (g o) 29 16
  ⟨g 0, bitsOf (g 4) 15 0, g 8 + 2 ^ 32 * g 0xC, g 0x10 + 2 ^ 32 * g 0x14, bitsOf (g 0x18) 23 0, x 0x1C, y 0x1C, x 0x20, y 0x20,
    x 0x24, y 0x24, x 0x28, y 0x28, x 0x2C, y 0x2C, g 0x30 + 2 ^ 32 * g 0x34⟩

/-- The active set of a layer. -/
def State.layAct (s : State) (c l : Nat) : Lay := layFrom fun o => s.reg (Reg.CMP_L_CTRL_ACT c l + o)

/-- The surface of a layer that is not YCbCr. -/
def Lay.surf (y : Lay) : Surf := ⟨y.src, y.data, y.clear, y.layout, y.stride, fmtE y.fmt, y.w⟩

/-- Size of the source after rotation (R282). -/
def Lay.ws (y : Lay) : Nat := if y.rot % 2 = 1 then y.ch else y.cw
def Lay.hs (y : Lay) : Nat := if y.rot % 2 = 1 then y.cw else y.ch

/-- The crop pixel that stands at (x, y) of the source image: mirror left to right, then rotation clockwise (R282). -/
def Lay.unrotate (y : Lay) (px py : Nat) : Nat × Nat :=
  let (mx, my) := match y.rot with
    | 0 => (px, py)
    | 1 => (py, y.ch - 1 - px)
    | 2 => (y.cw - 1 - px, y.ch - 1 - py)
    | _ => (y.cw - 1 - py, px)
  (if y.mirror then y.cw - 1 - mx else mx, my)

/-! ### Sixteen-bit arithmetic (R279) -/

/-- 1.0. -/
def one16 : Nat := 0xFFFF

/-- The nearest integer to a rational, a tie upward (R279); what a channel takes of one outside 0 to 0xFFFF is not stated
(assumption 40). -/
def near16 (q : ℚ) : Nat :=
  let n := (q + 1 / 2).floor
  if 0 ≤ n ∧ n ≤ one16 then n.toNat else (Config.beyond16 n).toNat

/-- The product of two channels. -/
def mul16 (a b : Nat) : Nat := near16 ((a * b : ℚ) / 65535)

/-- Bit replication of `v` of `n` bits to `w` bits (R281). -/
def replicate (n w v : Nat) : Nat :=
  if n = 0 then 0 else ((List.range w).map fun i => b2n (v.testBit (n - 1 - i % n)) * 2 ^ (w - 1 - i)).sum

/-- A channel of an element as 16 bits: normalised by bit replication, floating clamped to [0, 1] with NaN as 0 (R281). -/
def chan16 (c : ChanAt) (e : Nat) : Nat :=
  match c.kind with
  | .unorm => replicate (c.hi + 1 - c.lo) 16 (bitsOf e c.hi c.lo)
  | .half => match f16.val (bitsOf e c.hi c.lo) with
    | .fin n q => if n then 0 else near16 (min q 1 * 65535)
    | .inf n => if n then 0 else one16
    | .nan => 0
  | .single | .uint => 0

/-- Channels R, G, B, A of an element; a missing alpha is 1.0 (R281). -/
def unpack16 (f e : Nat) : List Nat :=
  (List.range 4).map fun i =>
    match (fmtChans f).find? fun c => c.ch == i with
    | some c => chan16 c e
    | none => if i = 3 then one16 else 0

/-- Kr and Kb of the matrix that ycc selects, and whether its range is full (R282; assumption 32). -/
def yccCoef (ycc : Nat) : ℚ × ℚ :=
  match ycc / 2 with
  | 0 => (299 / 1000, 114 / 1000)
  | 1 => (2126 / 10000, 722 / 10000)
  | _ => (2627 / 10000, 593 / 10000)

/-- Y, Cb and Cr of 16 bits, from samples of `b` bits, as R, G and B (stage 3). -/
def yccToRgb (ycc b yv cb cr : Nat) : List Nat :=
  let mx : ℚ := (2 ^ b - 1 : ℚ)
  let u : ℚ := (2 ^ (b - 8) : ℚ)
  let at16 := fun (v : Nat) => (v : ℚ) / 65535 * mx
  let full := decide (ycc % 2 = 1)
  let y : ℚ := if full then at16 yv / mx else (at16 yv - 16 * u) / (219 * u)
  let pb : ℚ := if full then (at16 cb - 128 * u) / mx else (at16 cb - 128 * u) / (224 * u)
  let pr : ℚ := if full then (at16 cr - 128 * u) / mx else (at16 cr - 128 * u) / (224 * u)
  let (kr, kb) := yccCoef ycc
  let r := y + 2 * (1 - kr) * pr
  let bl := y + 2 * (1 - kb) * pb
  let g := (y - kr * r - kb * bl) / (1 - kr - kb)
  [r, g, bl].map fun q => near16 (max 0 (min q 1) * 65535)

/-! ### Fetch (R282, R288, R289) -/

/-- Bytes [a, a + n) of a layer may be read: allowed by the owner table for the paddock that holds it, without an
uncorrectable word, and not blanked for this frame (R289). -/
def State.layerReads (s : State) (c l p a n : Nat) : Bool :=
  let ok := match spaceOf a with
    | .dram => (s.refusedIn .layer p false .dram (localOf a) n).isNone
    | .basin => (s.refusedIn .layer p false .basin (localOf a) n).isNone
    | _ => false
  ok && (s.poisonIn a n).isNone
    && !((s.comp c).blanked.any fun b => b.1 == l && decide (b.2.1 < a + n) && decide (a < b.2.1 + b.2.2))

/-- Bytes of a layer's source, none where they may not be read. -/
def State.layerBytes (s : State) (c l p a n : Nat) : Option Nat :=
  if s.layerReads c l p a n then some (ofLeBytes (s.bufRead [] a n)) else none

/-- A chroma value of 16 bits at chroma sample (i, j), held within the crop; component 0 Cb, 1 Cr. -/
def State.chroma (s : State) (c l p : Nat) (y : Lay) (k : Nat) (i j : Int) : Option Nat :=
  let lim := fun (v : Int) (lo n : Nat) => (max (lo : Int) (min v ((lo + n - 1 : Nat) : Int))).toNat
  let ci := lim i (y.cx / 2) (y.cw / 2)
  let cj := lim j (y.cy / 2) (y.ch / 2)
  (s.layerBytes c l p (y.data + cj * y.stride + (2 * ci + k) * y.sampleE) y.sampleE).map fun v =>
    if y.fmt = 0x20 then replicate 8 16 v else replicate 10 16 (bitsOf v 15 6)

/-- Chroma at luma pixel (x, y): sited at the left luma sample and midway between two luma rows, interpolated bilinearly
(R282). -/
def State.chromaAt (s : State) (c l p : Nat) (y : Lay) (k px py : Nat) : Option Nat := do
  let i : Int := (px / 2 : Nat)
  let j : Int := (py / 2 : Nat)
  let j2 := if py % 2 = 0 then j - 1 else j + 1
  let a0 ← s.chroma c l p y k i j
  let a1 ← s.chroma c l p y k i j2
  let b0 ← if px % 2 = 0 then some a0 else s.chroma c l p y k (i + 1) j
  let b1 ← if px % 2 = 0 then some a1 else s.chroma c l p y k (i + 1) j2
  some (near16 ((3 * (a0 + b0) + (a1 + b1) : ℚ) / 8))

/-- Surface pixel (x, y) of a layer after stages 1 to 4: premultiplied R, G, B and A; all zero where its fetch may not be
read. -/
def State.srcPixel (s : State) (c l p : Nat) (y : Lay) (px py : Nat) : List Nat :=
  let zero := [0, 0, 0, 0]
  let raw : Option (List Nat) :=
    if y.yuv then do
      let b := if y.fmt = 0x20 then 8 else 10
      let lv ← s.layerBytes c l p (y.src + py * y.stride + px * y.sampleE) y.sampleE
      let cb ← s.chromaAt c l p y 0 px py
      let cr ← s.chromaAt c l p y 1 px py
      let l16 := if y.fmt = 0x20 then replicate 8 16 lv else replicate 10 16 (bitsOf lv 15 6)
      some (yccToRgb y.ycc b l16 cb cr ++ [one16])
    else if (s.elemRanges [] y.surf px py).all fun r => s.layerReads c l p r.1 r.2 then
      some (unpack16 y.fmt (s.elem [] y.surf px py))
    else none
  match raw with
  | none => zero
  | some v =>
    let a := v.getD 3 0
    match y.amode with
    | 0 => v.set 3 one16
    | 1 => (v.take 3).map (mul16 a) ++ [a]
    | _ => v

/-! ### Scaling (R283) -/

/-- Source position of a destination pixel on one axis, in 1/64 source pixel, to the nearest with ties upward. -/
def phase64 (x ws wd : Nat) : Int :=
  (((x : ℚ) + 1 / 2) * ws / wd - 1 / 2) * 64 + 1 / 2 |>.floor

/-- Filter taps on one axis: source pixel and weight in 1/1024. -/
def taps (filter x ws wd : Nat) : List (Int × Int) :=
  let q := phase64 x ws wd
  let i := q / 64
  let f := q % 64
  let near := fun (v : ℚ) => (v * 1024 + 1 / 2).floor
  let t : ℚ := (f : ℚ) / 64
  match filter with
  | 0 => [(if f < 32 then i else i + 1, 1024)]
  | 1 => [(i, (64 - f) * 16), (i + 1, f * 16)]
  | _ => [(i - 1, near ((-t ^ 3 + 2 * t ^ 2 - t) / 2)), (i, near ((3 * t ^ 3 - 5 * t ^ 2 + 2) / 2)),
      (i + 1, near ((-3 * t ^ 3 + 4 * t ^ 2 + t) / 2)), (i + 2, near ((t ^ 3 - t ^ 2) / 2))]

/-- The nearest pixel of the crop (R283). -/
def clampTap (i : Int) (n : Nat) : Nat := (max 0 (min i ((n - 1 : Nat) : Int))).toNat

/-- Layer pixel (x, y) of the destination rectangle after stage 5. -/
def State.scaled (s : State) (c l p : Nat) (y : Lay) (x yy : Nat) : List Nat :=
  let tx := taps y.filter x y.ws y.dw
  let ty := taps y.filter yy y.hs y.dh
  let terms := ty.flatMap fun v => tx.map fun h =>
    let (ux, uy) := y.unrotate (clampTap h.1 y.ws) (clampTap v.1 y.hs)
    (h.2 * v.2, s.srcPixel c l p y (y.cx + ux) (y.cy + uy))
  (List.range 4).map fun k =>
    near16 ((terms.map fun t => (t.1 : ℚ) * (t.2.getD k 0 : ℚ)).sum / (1024 * 1024))

/-! ### Blending (Table 11.4) -/

/-- One layer's pixel over D and A_d, given as [R, G, B, A]. -/
def blend (mode : Nat) (src d : List Nat) : List Nat :=
  let a := src.getD 3 0
  let ad := d.getD 3 0
  let each := fun (f : Nat → Nat → ℚ) => (List.range 3).map fun k => near16 (f (src.getD k 0) (d.getD k 0))
  let inv : ℚ := (65535 - a : ℚ) / 65535
  match mode with
  | 0 => each (fun sc dc => sc + dc * inv) ++ [near16 (a + ad * inv)]
  | 1 => each (fun sc dc => min one16 (sc + dc)) ++ [near16 (min one16 (ad + a))]
  | 2 => each (fun sc dc => dc * inv + dc * sc / 65535) ++ [near16 (a + ad * inv)]
  | _ => src

/-- Pixel (x, y) lies in the destination rectangle. -/
def Lay.covers (y : Lay) (px py : Nat) : Bool :=
  decide (y.dx ≤ px) && decide (px < y.dx + y.dw) && decide (y.dy ≤ py) && decide (py < y.dy + y.dh)

/-- The background pixel: CMP_BG with its channels expanded by bit replication. -/
def State.background (s : State) (c : Nat) : List Nat :=
  let v := s.cmpAct c 0x40
  [replicate 10 16 (bitsOf v 29 20), replicate 10 16 (bitsOf v 19 10), replicate 10 16 (bitsOf v 9 0),
    if v.testBit 31 then one16 else 0]

/-- The result of stage 7 from the active set and memory as they stand (R280). -/
def State.compose (s : State) (c x y : Nat) : List Nat :=
  (List.range 16).foldl (fun d l =>
    let a := s.layAct c l
    match s.layerHolder c l with
    | some p =>
      if a.enable && a.covers x y then
        blend a.blend ((s.scaled c l p a (x - a.dx) (y - a.dy)).map (mul16 a.alpha)) d
      else d
    | none => d) (s.background c)

/-- The composed pixel: the one that has gone to an output in this frame, for every other output too (R16). -/
def State.composed (s : State) (c x y : Nat) : List Nat :=
  match (s.comp c).shown.find? fun e => e.1 == 16384 * y + x with
  | some e => e.2
  | none => s.compose c x y

/-- The pixels of a rectangle go to an output, and stay what they are for the rest of the frame (R16). -/
def State.show (s : State) (c x y w h : Nat) : State :=
  let pts := (List.range h).flatMap fun j => (List.range w).map fun i => (x + i, y + j)
  s.setComp c { s.comp c with shown := pts.map (fun p => (16384 * p.2 + p.1, s.composed c p.1 p.2)) ++ (s.comp c).shown }

/-! ### Output stage (R285) and the head input -/

/-- Bits per colour of a head's link. Six is for eDP only (R325): a DP link whose field says so runs at eight (DESIGN CHOICE,
assumption 97). -/
def State.bpc (s : State) (n : Nat) : Nat :=
  match s.fld (Reg.HD_LINK_CFG n) 11 10 with
  | 0 => if s.bit (Reg.HD_LINK_CFG n) 8 then 6 else 8
  | 1 => 8
  | _ => 10

/-- Coefficient `i` of CMP_MATRIX: signed, 12 fraction bits. -/
def State.matrix (s : State) (c i : Nat) : Int :=
  let v := s.cmpAct c (0x70 + 4 * (i / 2))
  signedOf 16 (if i % 2 = 0 then bitsOf v 15 0 else bitsOf v 31 16)

/-- A curve entry. -/
def State.lutEntry (s : State) (c bank ch e : Nat) : Nat := spGet (fun _ => 0) s.cmp.lut (lutKey c bank ch e)

/-- A channel through the curve of the active bank. -/
def State.curve (s : State) (c ch v : Nat) : Nat :=
  let bank := bitsOf (s.cmpAct c 0x44) 6 6
  let f : ℚ := (v % 64 : Nat)
  let a : ℚ := (s.lutEntry c bank ch (v / 64) : ℚ)
  let b : ℚ := (s.lutEntry c bank ch (v / 64 + 1) : ℚ)
  near16 ((a + (b - a) * f / 64) * 65535 / 4095)

/-- A channel at the link's bits per colour: rounded, or by the ordered dither (assumption 30). -/
def State.reduce (s : State) (n x y v : Nat) : Nat :=
  let mx : Nat := 2 ^ s.bpc n - 1
  let q : ℚ := ((v * mx : Nat) : ℚ) / 65535
  if bitsOf (s.cmpAct n 0x44) 9 8 = 1 then min (q + ((Config.dither (x % 4) (y % 4)).toNat : ℚ) / 16).floor.toNat mx
  else min (q + 1 / 2).floor.toNat mx

/-- Three channels of the link's width as 30-bit RGB, each in the top bits of its 10 (R285). -/
def rgb30 (bpc : Nat) (v : List Nat) : Nat :=
  let w := fun i => v.getD i 0 * 2 ^ (10 - bpc)
  w 0 * 2 ^ 20 + w 1 * 2 ^ 10 + w 2

/-- Stage 8 of composer `n` at (x, y), as the 30-bit RGB that enters the head. -/
def State.outStage (s : State) (n x y : Nat) : Nat :=
  let p := s.composed n x y
  let out := s.cmpAct n 0x44
  let m := if out.testBit 4 then
      (List.range 3).map fun i =>
        let sum : ℚ := ((List.range 3).map fun j => (s.matrix n (3 * i + j) : ℚ) * (p.getD j 0 : ℚ)).sum / 4096
        near16 (max 0 (min one16 (sum + (s.matrix n (9 + i) : ℚ) * 65535 / 4096)))
    else p.take 3
  let l := if out.testBit 5 then (List.range 3).map fun i => s.curve n i (m.getD i 0) else m
  rgb30 (s.bpc n) (l.map (s.reduce n x y))

/-- A 30-bit colour reduced to the link's bits per colour by taking the top bits of each channel. -/
def State.topBits (s : State) (n v : Nat) : Nat :=
  let b := s.bpc n
  rgb30 b [bitsOf v 29 (30 - b), bitsOf v 19 (20 - b), bitsOf v 9 (10 - b)]

/-- The safety layer's set: enable, format, scale, offset, width, height, x, y. -/
structure Safety where
  ctrl : Nat
  offset : Nat
  w : Nat
  h : Nat
  x : Nat
  y : Nat
  deriving DecidableEq, Repr

def Safety.enable (f : Safety) : Bool := f.ctrl.testBit 0
def Safety.fmt (f : Safety) : Nat := bitsOf f.ctrl 30 24
def Safety.e (f : Safety) : Nat := fmtE f.fmt
def Safety.k (f : Safety) : Nat := 2 ^ bitsOf f.ctrl 9 8
/-- Row stride: width × E rounded up to a multiple of 64 (R286). -/
def Safety.stride (f : Safety) : Nat := (f.w * f.e + 63) / 64 * 64

def safetyFrom (g : Nat → Nat) : Safety :=
  ⟨g 0, bitsOf (g 4) 21 0, bitsOf (g 8) 13 0, bitsOf (g 8) 29 16, bitsOf (g 0xC) 13 0, bitsOf (g 0xC) 29 16⟩

/-- The active safety set of composer `n`. -/
def State.safetyAct (s : State) (n : Nat) : Safety := safetyFrom fun o => s.reg (Reg.CMP_S_CTRL_ACT n + o)

/-- Bytes of Basin as a fixed read port returns them: a byte of a refused granule, of a word with an uncorrectable error,
or blanked in this frame reads as zero (R289, R340). -/
def State.portBytes (s : State) (m : Master) (blanked : List (Nat × Nat)) (a n : Nat) : List Byte :=
  (List.range n).map fun i =>
    let b := a + i
    if (s.refusedIn m 0 false .basin b 1).isSome || s.poisoned .basin b 1
        || blanked.any (fun r => decide (r.1 ≤ b) && decide (b < r.1 + r.2)) then 0
    else s.byte .basin b

/-- Basin offset of row `r` of the safety layer. -/
def State.safetyRow (s : State) (n : Nat) (f : Safety) (r : Nat) : Nat := (s.safetyArea n).1 * 65536 + f.offset + r * f.stride

/-- The bytes of row `r` of the safety layer as Basin returns them. -/
def State.safetyBytes (s : State) (n : Nat) (f : Safety) (r : Nat) : List Byte :=
  s.portBytes .safety (((s.comp n).blanked.filter fun b => b.1 == 16).map fun b => (localOf b.2.1, b.2.2))
    (s.safetyRow n f r) (f.w * f.e)

/-- The 30-bit RGB of an element whose channels are expanded to 10 bits by bit replication (R286, R345). -/
def elem30 (f e : Nat) : Nat :=
  let ch := fun i => match (fmtChans f).find? fun c => c.ch == i with
    | some c => replicate (c.hi + 1 - c.lo) 10 (bitsOf e c.hi c.lo)
    | none => 0
  ch 0 * 2 ^ 20 + ch 1 * 2 ^ 10 + ch 2

/-- Stage 10 over a head pixel (R286). -/
def State.overlay (s : State) (n x y px : Nat) : Nat :=
  let f := s.safetyAct n
  if f.enable && decide (f.x ≤ x) && decide (x < f.x + f.w * f.k) && decide (f.y ≤ y) && decide (y < f.y + f.h * f.k) then
    let e := ofLeBytes (((s.safetyBytes n f ((y - f.y) / f.k)).drop ((x - f.x) / f.k * f.e)).take f.e)
    let opaq := if f.fmt = 8 then decide (0x80 ≤ bitsOf e 31 24) else e.testBit 15
    if opaq then s.topBits n (elem30 f.fmt e) else px
  else px

/-- The head sends black in place of the output stage: in a gait change from the black frame at the old gait until a commit
applies (R323). -/
def State.black (s : State) (n : Nat) : Bool := decide (2 ≤ s.fld (Reg.HD_GAIT n) 18 16)

/-- The recovery pattern (R87): a black field with a 16-pixel white border and a centre row of eight 64 × 64 blocks that shows
entry_cause, white for 1 and dark grey for 0, bit 7 at the left. The grey is a free value (assumption 1). -/
def State.recoveryPixel (s : State) (n x y : Nat) : Nat :=
  let white := rgb30 8 [255, 255, 255]
  if x < 16 ∨ 1904 ≤ x ∨ y < 16 ∨ 1064 ≤ y then s.topBits n white
  else if 508 ≤ y ∧ y < 572 ∧ 704 ≤ x ∧ x < 1216 then
    (if (s.fld Reg.SYS_STATE 23 16).testBit (7 - (x - 704) / 64) then s.topBits n white else s.topBits n Config.darkGrey.toNat)
  else 0

/-- The pixel of stage 11 (Table 13.1): output stage or underrun fill, then the safety overlay; in RECOVERY the recovery
pattern. -/
def State.headPixel (s : State) (n x y : Nat) : Nat :=
  let filled := (s.head n).fills.any fun f => f.1 == y && decide (f.2 ≤ x)
  let composing := s.bit (Reg.CMP_STATUS n) 31 && (s.cmpAct n 0x44).testBit 0
  let base := if s.devState = 4 then s.recoveryPixel n x y
    else if s.black n then 0
    else if filled || !composing then s.topBits n (s.reg (Reg.HD_UNDERRUN_COLOUR_ACT n))
    else s.outStage n x y
  s.overlay n x y base

/-! ### Canvas and writeback (R291, R292) -/

/-- The word of the register at offset `o` of composer `c` for the frame in composition, which a frame of C8 or C9 keeps past the
next frame start (R293). -/
def State.frameAct (s : State) (c o : Nat) : Nat :=
  match (s.comp c).frameSet.find? fun w => w.1 == o with
  | some w => w.2
  | none => s.cmpAct c o

/-- The canvas rectangle of the frame in composition: x, y, width, height. -/
def State.canvasRect (s : State) (c : Nat) : Nat × Nat × Nat × Nat :=
  let xy := s.frameAct c 0x48
  let wh := s.frameAct c 0x4C
  (bitsOf xy 13 0, bitsOf xy 29 16, bitsOf wh 13 0, bitsOf wh 29 16)

/-- Canvas line `y`: R, G, B of each of its pixels (R292). -/
def State.canvasLine (s : State) (c y : Nat) : List (List Nat) :=
  let (cx, cy, w, _) := s.canvasRect c
  (List.range w).map fun x => (s.composed c (cx + x) (cy + y)).take 3

/-- The channels of a writeback element from a composed pixel. -/
def wbElem (f : Nat) (px : List Nat) : Nat :=
  let norm := fun (n i : Nat) => near16 ((px.getD i 0 * (2 ^ n - 1) : ℚ) / 65535)
  if f = 0x10 then ((List.range 4).map fun i => f16.round 0 false ((px.getD i 0 : ℚ) / 65535) * 65536 ^ i).sum
  else (fmtChans f).foldl (fun e c => putBits e c.hi c.lo (norm (c.hi + 1 - c.lo) c.ch)) 0

/-- The writeback format, layout and surface of the frame in composition. -/
def State.wbSurf (s : State) (c : Nat) : Nat × Surf :=
  let ctrl := s.frameAct c 0x50
  let f := bitsOf ctrl 30 24
  let w := (s.outSize c).1
  (f, ⟨s.frameAct c 0x54 + 2 ^ 32 * s.frameAct c 0x58, s.frameAct c 0x5C + 2 ^ 32 * s.frameAct c 0x60, 0, bitsOf ctrl 23 23,
    bitsOf (s.frameAct c 0x64) 23 0, fmtE f, w⟩)

/-- A write as the manager's writeback, discarded and recorded where the owner table refuses it (R97, R291). -/
def State.wbWrite (s : State) (a : Nat) (bs : List Byte) : State :=
  let go := fun (m : MemSel) =>
    match s.refusedIn .writeback 0 true m (localOf a) bs.length with
    | some g => s.noteRefusal .writeback g
    | none => s.mergeWrite m (localOf a) bs
  match spaceOf a with
  | .dram => go .dram
  | .basin => go .basin
  | _ => s

/-- One block of a BBC writeback, header last, never as CLEAR (R187, R291). -/
def State.wbBlock (s : State) (c f : Nat) (u : Surf) (bx byy : Nat) : State :=
  let (w, h) := s.outSize c
  let k := byy * bbcBW u.e u.w + bx
  let elems := (List.range (256 / u.e)).map fun n =>
    let x := bx * bbcW u.e + n % bbcW u.e
    let y := byy * bbcH u.e + n / bbcW u.e
    if x < w ∧ y < h then wbElem f (s.composed c x y) else 0
  let (hdr, data) := bbcEncode u.e elems
  let old := bitsOf ((s.bufRead [] (u.hdrAt k) 16).getD 0 0).toNat 2 2
  let slot := 1 - old
  let s1 := if data.isEmpty then s else s.wbWrite (u.slotAt k slot) data
  s1.wbWrite (u.hdrAt k) (hdr.set 0 (BitVec.ofNat 8 (putBits (hdr.getD 0 0).toNat 2 2 (if data.isEmpty then old else slot))))

/-- Every composed pixel of the frame written to the writeback surface (R291). -/
def State.wbFrame (s0 : State) (c : Nat) : State :=
  let (f, u) := s0.wbSurf c
  let (w, h) := s0.outSize c
  let s := s0.show c 0 0 w h
  if u.layout = 0 then
    s.each (fun y t => t.wbWrite (u.base + y * u.stride)
      ((List.range w).flatMap fun x => leBytes u.e (wbElem f (s.composed c x y)))) (List.range h)
  else
    s.each (fun k t => t.wbBlock c f u (k % bbcBW u.e w) (k / bbcBW u.e w)) (List.range (bbcBW u.e w * bbcBH u.e h))

end Sys2Proof.Machine
end

