-- ==== Sys2Proof/Machine/HeadOps.lean ====
section
/-! DEFINITION. Head events and their mirrors (R311, R316), the state of a head's timing generator, and the commit checks of
Table 11.6. -/

namespace Sys2Proof.Machine

/-! ### Mirrors and events -/

/-- Paddock `p` holds a layer on composer `c` in the frame in progress (R132). -/
def State.holdsOn (s : State) (p c : Nat) : Bool :=
  (s.hp.layerChanges.foldl (fun w g => if g.applied && g.comp == c && g.paddock == p then putBits w g.layer g.layer (b2n g.grant) else w)
    (s.fld (Reg.PDK_LAYERS p (c / 2)) (16 * (c % 2) + 15) (16 * (c % 2)))) != 0

/-- Head `n` is mirrored to paddock `p` (R311). -/
def State.mirrors (s : State) (p n : Nat) : Bool :=
  s.holdsOn p n || s.safetyOwner n == some p || [8, 9].any fun c => s.headOf c == n && s.holdsOn p c

/-- Paddocks to which head `n` is mirrored. -/
def State.mirrored (s : State) (n : Nat) : List Nat := (List.range 64).filter fun p => s.mirrors p n

/-- Bit `b` of HD_U_n_EVENT sets in every mirror, and fires vector 24 + n where enabled. -/
def State.mirrorEvent (s : State) (n b : Nat) : State :=
  s.each (fun p s =>
    let s1 := s.setBit (Reg.HD_U_EVENT p n) b true
    if s1.bit (Reg.HD_U_EVENT_EN p n) b then s1.raiseVec p (24 + n) else s1) (s.mirrored n)

/-- Bit `b` of HD_EVENT sets; bits [5:0] are mirrored (R311). -/
def State.headEvent (s : State) (n b : Nat) : State :=
  let s1 := s.setEvent (Reg.HD_EVENT n) (Reg.HD_EVENT_EN n) b
  if b ≤ 5 then s1.mirrorEvent n b else s1

/-- HD_U_n_EVENT of every paddock to which head `n` is no longer mirrored clears (R333). -/
def State.pruneMirrors (s : State) (n : Nat) : State :=
  s.each (fun p s => if s.mirrors p n then s else s.setReg (Reg.HD_U_EVENT p n) 0) (List.range 64)

/-- A composer event (CMP_EVENT). -/
def State.cmpEvent (s : State) (c b : Nat) : State := s.setEvent (Reg.CMP_EVENT c) (Reg.CMP_EVENT_EN c) b

/-! ### The timing generator -/

/-- The timing generator of head `n` is enabled (HD_STATUS.enabled). -/
def State.headOn (s : State) (n : Nat) : Bool := s.bit (Reg.HD_STATUS n) 31

/-- Head `n` is enabled: its timing generator runs, or stands still in a gait change (R323). -/
def State.headUp (s : State) (n : Nat) : Bool :=
  s.headOn n || (s.bit (Reg.HD_GAIT n) 31 && decide (3 ≤ s.fld (Reg.HD_GAIT n) 18 16) && decide (s.fld (Reg.HD_GAIT n) 18 16 ≤ 4))

/-- Phase of the gait change (Table 12.6), 0 when none. -/
def State.gaitPhase (s : State) (n : Nat) : Nat := s.fld (Reg.HD_GAIT n) 18 16

/-- A gait change is in progress. -/
def State.changing (s : State) (n : Nat) : Bool := s.bit (Reg.HD_GAIT n) 31

/-- Commits to the head's composer wait without being late: it is stopped, has begun no frame, or changes its gait (R312,
R323). -/
def State.commitsWait (s : State) (n : Nat) : Bool := !s.headOn n || !(s.head n).begun || s.changing n

/-- The gait of head `n`. -/
def State.gait (s : State) (n : Nat) : Gait := gaitOf (s.fld (Reg.HD_GAIT n) 4 0)

/-- Line time in ns. -/
def State.lineNs (s : State) (n : Nat) : ℚ := ((s.gait n).ht * 1000000 : ℚ) / ((s.gait n).khz : ℚ)

/-- Show time of the last frame start. -/
def State.frameTime (s : State) (n : Nat) : Nat := s.reg64 (Reg.HD_FRAME_TIME_LO n) (Reg.HD_FRAME_TIME_HI n)

/-- Length of the frame in progress, with the lines a crash adds (R319). -/
def State.thisFrame (s : State) (n : Nat) : ℚ := s.framePeriod n + (s.head n).extra * s.lineNs n

/-- The predicted start of the next frame. -/
def State.nextStart (s : State) (n : Nat) : Nat := (s.frameTime n) + (s.thisFrame n).floor.toNat

/-- From the frame start to its latch line: V_A − HD_LATCH_GUARD lines (R313). -/
def State.latchOffset (s : State) (n : Nat) : Nat :=
  ((((s.gait n).va - s.fld (Reg.HD_LATCH_GUARD_ACT n) 3 0 : Nat) : ℚ) * s.lineNs n).floor.toNat

/-- HD_LATCH_TIME: none is sent by a head that is disabled or changes its gait (R258). -/
def State.sendLatch (s : State) (n t : Nat) : State :=
  let v := if s.headOn n && !s.changing n then t else 0
  s.setReg64 (Reg.HD_LATCH_TIME_LO n) (Reg.HD_LATCH_TIME_HI n) v

/-- The number of the frame in progress at show time `t`, counted back from the last frame start (R314). -/
def State.frameAt (s : State) (n t : Nat) : Nat :=
  let fs := s.frameTime n
  if fs ≤ t then (s.head n).starts
  else (s.head n).starts - (((fs - t : Nat) : ℚ) / s.framePeriod n).ceil.toNat

/-! ### Commit checks (Table 11.6). A check takes the words of the set it judges as a function of the shadow key. -/

/-- The words of the active set. -/
def State.actWord (s : State) (k : Nat) : Nat := s.reg ((actKey k).getD k)

/-- The words of a commit's pending copy, and the shadows where it holds none. -/
def State.pendWord (s : State) (ws : List (Nat × Nat)) (k : Nat) : Nat :=
  match ws.find? fun w => w.1 == k with
  | some w => w.2
  | none => s.reg k

/-- Code of the first failing check of a list, or 0. -/
def firstCode : List (Bool × Nat) → Nat
  | [] => 0
  | (b, c) :: l => if b then c else firstCode l

/-- A set of registers has a reserved bit set: word and the mask of its fields. -/
def reservedSet (l : List (Nat × Nat)) : Bool := l.any fun w => w.1 % 2 ^ 32 &&& (2 ^ 32 - 1 - w.2) != 0

/-- Bytes of the surface of a layer, as (address, length). -/
def Lay.planes (y : Lay) : List (Nat × Nat) :=
  let e := fmtE y.fmt
  if y.layout = 1 then
    let nb := bbcBW e y.w * bbcBH e y.h
    [(y.src, 16 * nb), (y.data, 512 * nb)]
  else if y.yuv then [(y.src, y.stride * y.h), (y.data, y.stride * ((y.h + 1) / 2))]
  else [(y.src, y.stride * y.h)]

/-- A buffer address names device memory. -/
def inDevice (a : Nat) : Bool := spaceOf a == .dram || spaceOf a == .basin

/-- Some byte range is refused to the master. -/
def State.rangesDenied (s : State) (m : Master) (p : Nat) (write : Bool) (l : List (Nat × Nat)) : Bool :=
  l.any fun r => match spaceOf r.1 with
    | .dram => (s.refusedIn m p write .dram (localOf r.1) r.2).isSome
    | .basin => (s.refusedIn m p write .basin (localOf r.1) r.2).isSome
    | _ => true

/-- Declared bytes per pixel of CMP_Ln_DECL. -/
def declBytes (decl : Nat) : Nat := 2 ^ bitsOf decl 29 28

/-- Checks of one layer against an output of `ow` × `oh` for the paddock that holds it (R299: a disabled layer only for its
reserved fields). -/
def State.checkLayer (s : State) (g : Nat → Nat) (decl p ow oh : Nat) : Nat :=
  let y := layFrom g
  let xy := 0x3FFF3FFF
  let masks := [(g 0, 0x7FFFF801), (g 4, 0xFFFF), (g 0x18, 0xFFFFFF), (g 0x1C, xy), (g 0x20, xy), (g 0x24, xy), (g 0x28, xy),
    (g 0x2C, xy)]
  let e := fmtE y.fmt
  if reservedSet masks then 1
  else if !y.enable then 0
  else
    let bad01 := y.filter == 3 || y.amode == 3 || decide (5 < y.ycc) || !(fmtComposable y.fmt || fmtRenderable y.fmt)
      || (y.layout == 1 && y.stride != 0) || (y.layout == 0 && !y.yuv && y.data != 0)
    firstCode [
      (bad01, 0x01),
      (!fmtComposable y.fmt || (y.yuv && y.layout == 1), 0x02),
      (!inDevice y.src || ((y.layout == 1 || y.yuv) && !inDevice y.data) || decide (y.src % 64 ≠ 0)
        || (y.layout == 1 && decide (y.data % 4096 ≠ 0)) || (y.layout == 0 && decide (y.stride % 64 ≠ 0))
        || (y.yuv && decide (y.data % 64 ≠ 0)), 0x03),
      (y.layout == 0 && decide (y.stride < (y.cx + y.cw) * (if y.yuv then y.sampleE else e)), 0x04),
      (decide (y.cw = 0 ∨ y.ch = 0 ∨ y.w < y.cx + y.cw ∨ y.h < y.cy + y.ch ∨ 8192 < y.cw ∨ 8192 < y.ch)
        || (y.yuv && decide (y.cx % 2 + y.cy % 2 + y.cw % 2 + y.ch % 2 ≠ 0)), 0x05),
      (decide (y.dw = 0 ∨ y.dh = 0 ∨ ow < y.dx + y.dw ∨ oh < y.dy + y.dh ∨ 8192 < y.dw ∨ 8192 < y.dh), 0x06),
      (decide (4 * y.dw < y.ws ∨ 16 * y.ws < y.dw ∨ 4 * y.dh < y.hs ∨ 16 * y.hs < y.dh), 0x07),
      (decide (y.rot % 2 = 1) && y.layout == 0, 0x08),
      (decide (bitsOf decl 13 0 < y.cw ∨ bitsOf decl 27 14 < y.ch ∨ declBytes decl < (if y.yuv then 2 else e))
        || (y.layout == 1 && decl.testBit 30), 0x09),
      (decl.testBit 31 && y.planes.any (fun r => spaceOf r.1 != .basin), 0x0A),
      (s.rangesDenied .layer p false y.planes, 0x0B)]

/-- Checks of the safety layer of composer `n` against a head of `hw` × `hh`. -/
def State.checkSafety (s : State) (n : Nat) (g : Nat → Nat) (hw hh : Nat) : Nat :=
  let f := safetyFrom g
  if reservedSet [(g 0, 0x7F000301), (g 4, 0x3FFFFF), (g 8, 0x3FFF3FFF), (g 0xC, 0x3FFF3FFF)] then 1
  else if !f.enable then 0
  else
    let bytes := (s.safetyArea n).2 * 65536
    firstCode [
      (bitsOf f.ctrl 9 8 == 3, 0x01),
      (f.fmt != 0x05 && f.fmt != 0x08, 0x02),
      (decide (f.w = 0 ∨ f.h = 0 ∨ 4096 < f.w ∨ 4096 < f.h ∨ hw < f.x + f.w * f.k ∨ hh < f.y + f.h * f.k
        ∨ f.offset % 64 ≠ 0 ∨ bytes < f.offset + f.stride * (f.h - 1) + f.w * f.e), 0x0C)]

/-- Checks of a signature region (R337, R345): `fb` is its fallback register. -/
def checkRegion (g : Nat → Nat) (fb ow oh : Nat) : Nat :=
  let ctrl := g 0
  let (x, y) := (bitsOf (g 4) 13 0, bitsOf (g 4) 29 16)
  let (w, h) := (bitsOf (g 8) 13 0, bitsOf (g 8) 29 16)
  let k := 2 ^ bitsOf fb 29 28
  if reservedSet [(ctrl, 0x3FF3), (g 4, 0x3FFF3FFF), (g 8, 0x3FFF3FFF)] || bitsOf ctrl 13 12 == 3 then 1
  else if !ctrl.testBit 0 then 0
  else if w = 0 ∨ h = 0 ∨ ow < x + w ∨ oh < y + h ∨ w % k ≠ 0 ∨ h % k ≠ 0 then 6
  else 0

/-- The words of region `k` of head `n`. -/
def regionWords (g : Nat → Nat) (n k o : Nat) : Nat := g (Reg.IM_R_CTRL n k + o)

/-- First code of the regions of head `n` that the list names. -/
def State.checkRegions (s : State) (g : Nat → Nat) (n ow oh : Nat) (ks : List Nat) : Nat :=
  firstCode (ks.map fun k =>
    let c := checkRegion (regionWords g n k) (s.reg (Reg.IM_R_FB n k)) ow oh
    (c != 0, c))

/-- Regions of head `n` that the safety owner owns, and those of the manager (R337). -/
def State.ownerRegions (s : State) (n : Nat) : List Nat := (List.range 16).filter fun k => s.bit (Reg.IM_OWNER n) k
def State.managerRegions (s : State) (n : Nat) : List Nat := (List.range 16).filter fun k => !s.bit (Reg.IM_OWNER n) k

/-- Checks of a head commit of composer `c` (R291, R299, R331). -/
def State.checkHead (s : State) (c : Nat) (g : Nat → Nat) (ow oh : Nat) : Nat :=
  let w := fun o => g (Reg.CMP_CTRL c + o)
  let out := w 0x44
  let wb := w 0x50
  let mode := bitsOf wb 1 0
  let fmt := bitsOf wb 30 24
  let lay := bitsOf wb 23 23
  let addr := w 0x54 + 2 ^ 32 * w 0x58
  let data := w 0x5C + 2 ^ 32 * w 0x60
  let stride := bitsOf (w 0x64) 23 0
  let e := fmtE fmt
  let nb := bbcBW e ow * bbcBH e oh
  let planes := if lay = 1 then [(addr, 16 * nb), (data, 512 * nb)] else [(addr, stride * oh)]
  let hd := fun o => g (Reg.HD_CTRL c + o)
  let hdBad := decide (c < 8) && (reservedSet [(hd 0x20, 0xF), (hd 0x28, 0x3FFFFFFF), (hd 0x2C, 0xFFF0FFFF)]
    || decide (bitsOf (hd 0x2C) 15 0 < 100) || decide (50000 < bitsOf (hd 0x2C) 15 0))
  let (cx, cy) := (bitsOf (w 0x48) 13 0, bitsOf (w 0x48) 29 16)
  let (cw, ch) := (bitsOf (w 0x4C) 13 0, bitsOf (w 0x4C) 29 16)
  let xy := 0x3FFF3FFF
  firstCode [
    (reservedSet [(w 0x40, 0xBFFFFFFF), (out, 0x377), (w 0x48, xy), (w 0x4C, xy), (wb, 0x7F800003), (w 0x64, 0xFFFFFF)]
      || hdBad || decide (2 ≤ bitsOf out 9 8) || (decide (8 ≤ c) && out.testBit 0) || mode == 3
      || (mode != 0 && fmt != 0x08 && fmt != 0x0B && fmt != 0x10) || (lay == 0 && data != 0), 0x01),
    (mode != 0 && (!inDevice addr || decide (addr % 64 ≠ 0)
      || (if lay = 1 then !inDevice data || decide (data % 4096 ≠ 0) else decide (stride % 64 ≠ 0 ∨ stride < ow * e))
      || s.rangesDenied .writeback 0 true planes), 0x0D),
    (out.testBit 2 && decide (cw = 0 ∨ ch = 0 ∨ ow < cx + cw ∨ oh < cy + ch), 0x0E),
    (decide (c < 8) && s.checkRegions g c ow oh (s.managerRegions c) == 1, 0x01),
    (decide (c < 8) && s.checkRegions g c ow oh (s.managerRegions c) != 0, 0x06)]

/-- The commit group of composer `c`: its members, or none for no member. -/
def State.groupOf (s : State) (c : Nat) : List Nat :=
  if c < 8 && s.bit (Reg.CMP_GROUP c) 3 then
    (List.range 8).filter fun m => s.bit (Reg.CMP_GROUP m) 3 && s.fld (Reg.CMP_GROUP m) 1 0 == s.fld (Reg.CMP_GROUP c) 1 0
  else []

/-- The members' heads are genlocked to each other (R321). -/
def State.genlocked (s : State) (ms : List Nat) : Bool :=
  let src := fun n => s.fld (Reg.HD_GENLOCK n) 1 0
  let refs := fun n => s.fld (Reg.HD_GENLOCK n) 6 4
  (ms.all fun n => s.fld (Reg.HD_GENLOCK_STATUS n) 31 30 == 2)
    && ms.all (fun n => src n == 1 || src n == 2 || (src n == 3 && ms.contains (refs n)))
    && (ms.all fun n => src n != 1 || ms.all fun m => src m != 2)
    && ms.all (fun n => s.framePeriod n == s.framePeriod (ms.headD 0))

/-- Check 0x10 of a group commit on composer `c`. -/
def State.groupBad (s : State) (c : Nat) : Bool :=
  let ms := s.groupOf c
  ms.isEmpty || ms.any (fun m => !s.headOn m || !s.bit (Reg.CMP_STATUS m) 31 || s.changing m) || !s.genlocked ms

end Sys2Proof.Machine
end

