-- ==== Sys2Proof/Machine/Paddocks.lean ====
section
/-! DEFINITION. Paddock commands and grants (spec/05). -/

namespace Sys2Proof.Machine

/-- Register and bit of a grant (Tables 5.5, 5.9): kind 0 layer 16c + l, 1 CVU, 2 control, 3 field, 4 read port. -/
def grantAt (p kind index : Nat) : Nat × Nat :=
  match kind with
  | 0 => (Reg.PDK_LAYERS p (index / 32), index % 32)
  | 1 => (Reg.PDK_MISC p, index)
  | 2 => (Reg.PDK_CTRL p (index / 32), index % 32)
  | 3 => (Reg.PDK_MISC p, 16 + index)
  | _ => (Reg.PDK_MISC p, 24)

/-- Paddock `p` holds the resource. -/
def State.holds (s : State) (p kind index : Nat) : Bool := s.bit (grantAt p kind index).1 (grantAt p kind index).2

/-- Give or withdraw a resource. A new grant of the read port sets EVR_U_WIN to 0 (Table 19.4); a CVU resets (R354); the new
holder of a control or field is sent a resync set (R421). -/
def State.setGrant (s : State) (p kind index : Nat) (on : Bool) : State :=
  let s1 := s.setBit (grantAt p kind index).1 (grantAt p kind index).2 on
  if kind = 4 && on then s1.setReg (Reg.EVR_U_WIN p) 0
  else if kind = 1 then s1.resetCvu index
  else if (kind = 2 || kind = 3) && on then { s1 with tch := { s1.tch with asked := p :: s1.tch.asked } }
  else s1

/-- Resources of each kind. -/
def kindSize (kind : Nat) : Nat :=
  match kind with
  | 0 => 160
  | 1 => 16
  | 2 => 256
  | 3 => 8
  | 4 => 1
  | _ => 0

/-- The reason with which a command is refused, in the order of R134, or 0. -/
def State.pdkReason (s : State) (op kind p arg : Nat) : Nat :=
  let st := s.pdkState p
  let index := bitsOf arg 11 0
  let c := bitsOf arg 9 0
  let lim := Reg.PDK_LIMIT p
  let giving := op = 8
  let res := op = 8 ∨ op = 9
  if 9 < op ∨ !fnCarried s.boot.hpWidth s.boot.hpVfs p ∨ (res ∧ kindSize kind ≤ index) then 0x09
  else if (op = 2 ∨ op = 4) ∧ p = s.manager then 0x07
  else if (op = 1 ∧ st ≠ 1) ∨ (op = 2 ∧ st = 0) ∨ (op = 3 ∧ st ≠ 4) ∨ (op = 4 ∧ st ≠ 4) ∨ (op = 5 ∧ st ≠ 0)
      ∨ ((op = 6 ∨ op = 8) ∧ st = 0) ∨ (op = 7 ∧ st ≠ 1 ∧ st ≠ 4) then 0x02
  else if (op = 1 ∨ op = 3) ∧ !(s.present p && s.bit (Reg.PDK_STATE p) 5) then 0x08
  else if (giving ∧ kind = 1 ∧ s.bit Reg.SEC_CVU_MASK index) ∨ (res ∧ kind = 2 ∧ s.isPriv index) then 0x05
  else if op = 9 ∧ (kind = 1 ∨ kind = 2 ∨ kind = 3) ∧ s.holds p kind index ∧ st ≠ 1 ∧ st ≠ 4 then 0x06
  else if giving ∧ ((kind = 0 ∧ !s.bit lim (16 + index / 16)) ∨ (kind = 1 ∧ !s.bit lim 26)
      ∨ ((kind = 2 ∨ kind = 3) ∧ !s.bit lim 27) ∨ (kind = 4 ∧ !s.bit lim 28)) then 0x03
  else if op = 6 ∧ s.fld lim 10 0 ≤ (s.ctxsOf' p).length then 0x03
  else if giving ∧ (List.range 64).any fun q => q != p && s.holds q kind index then 0x04
  else if op = 9 ∧ !s.holds p kind index then 0x04
  else if op = 6 ∧ (s.ctxAssigned c ∨ s.ctxState c ≠ 0 ∨ (s.ctxAt p (bitsOf arg 23 16)).isSome) then 0x04
  else if op = 7 ∧ !(s.ctxAssigned c && s.ctxPaddock c == p) then 0x04
  else 0

/-- The end of a command: done or refused, the manager interrupt and the record PADDOCK_CMD (R134). -/
def State.pdkEnd (s : State) (op p reason : Nat) : State :=
  let s1 := if reason = 0 then s.setBit Reg.PDK_CMD_STATUS 1 true
    else (s.setBit Reg.PDK_CMD_STATUS 2 true).setFld Reg.PDK_CMD_STATUS 15 8 reason
  (s1.offer 0x0102 [(8, p), (8, op), (8, b2n (reason ≠ 0)), (8, reason)]).mgrIrq Reg.PDK_CMD_STATUS
    (if reason = 0 then 1 else 2)

/-- A layer change waits for its frame (R132). -/
def State.layerChange (s : State) (p index : Nat) (on : Bool) : State :=
  { s with hp := { s.hp with layerChanges := s.hp.layerChanges ++ [⟨index / 16, index % 16, p, on, false, false⟩] } }

/-- The layers a paddock holds, as 16c + l. -/
def State.layersOf (s : State) (p : Nat) : List Nat := (List.range 160).filter fun i => s.holds p 0 i

/-- Bring PDK_m_STATE.contexts to the number of contexts assigned. -/
def State.syncContexts (s : State) (p : Nat) : State := s.setFld (Reg.PDK_STATE p) 26 16 (s.ctxsOf' p).length

/-- The effect of a command that is not refused. What takes a frame, or a paddock's quiescing, is done by the time
PDK_CMD_END finds it so. -/
def State.pdkEffect (s : State) (op kind p arg : Nat) : State :=
  let index := bitsOf arg 11 0
  let c := bitsOf arg 9 0
  match op with
  | 1 => s.movePdk p 2
  | 2 => if s.pdkState p = 1 then (s.setFld (Reg.PDK_STATE p) 15 8 1).movePdk p 4 else s.quiesce p 1
  | 3 => s.movePdk p 2
  | 4 => s.each (fun i s => s.layerChange p i false) (s.layersOf p)
  | 5 => s.movePdk p 1
  | 6 => ((s.clearCtx c).setReg (Reg.CQ_CTX_OWNER c) (2 ^ 16 + bitsOf arg 23 16 * 256 + p)).syncContexts p
  | 7 => ((s.clearCtx c).setReg (Reg.CQ_CTX_OWNER c) 0).syncContexts p
  | 8 => if s.holds p kind index then s else if kind = 0 then s.layerChange p index true else s.setGrant p kind index true
  | 9 => if kind = 0 then s.layerChange p index false else s.setGrant p kind index false
  | _ => s

/-- A write of PDK_CMD starts a command, or refuses it; op 0 starts nothing (R134). -/
def State.pdkCommand (s : State) (op kind p arg : Nat) : State :=
  let s0 := (s.setReg Reg.PDK_CMD (kind % 16 * 65536 + p * 256 + op)).setReg Reg.PDK_CMD_ARG arg
  if (s.devState ≠ 3 ∧ s.devState ≠ 5) ∨ op = 0 then s0
  else if s.bit Reg.PDK_CMD_STATUS 0 then s0.pdkEnd op p 1
  else
    let r := s.pdkReason op kind p arg
    if r ≠ 0 then s0.pdkEnd op p r
    else
      let fresh := b2n (op = 9 || (op = 8 && !s.holds p kind (bitsOf arg 11 0)))
      let s1 := s0.setBit Reg.PDK_CMD_STATUS 0 true
      State.pdkEffect { s1 with hp := { s1.hp with cmd := some [op, kind, p, arg, fresh] } } op kind p arg

def execActivate (paddock : Fin 64) (s : State) : Host.Outcome State Fault Refusal :=
  .next (s.pdkCommand 1 0 paddock.val (s.reg Reg.PDK_CMD_ARG))

def execQuiesce (paddock : Fin 64) (s : State) : Host.Outcome State Fault Refusal :=
  .next (s.pdkCommand 2 0 paddock.val (s.reg Reg.PDK_CMD_ARG))

def execResume (paddock : Fin 64) (s : State) : Host.Outcome State Fault Refusal :=
  .next (s.pdkCommand 3 0 paddock.val (s.reg Reg.PDK_CMD_ARG))

def execRemove (paddock : Fin 64) (s : State) : Host.Outcome State Fault Refusal :=
  .next (s.pdkCommand 4 0 paddock.val (s.reg Reg.PDK_CMD_ARG))

def execAssign (paddock : Fin 64) (s : State) : Host.Outcome State Fault Refusal :=
  .next (s.pdkCommand 5 0 paddock.val (s.reg Reg.PDK_CMD_ARG))

def execAssignCtx (paddock : Fin 64) (arg : Nat) (s : State) : Host.Outcome State Fault Refusal :=
  .next (s.pdkCommand 6 0 paddock.val arg)

def execUnassignCtx (paddock : Fin 64) (arg : Nat) (s : State) : Host.Outcome State Fault Refusal :=
  .next (s.pdkCommand 7 0 paddock.val arg)

def execGrant (paddock : Fin 64) (kind : Fin 16) (index : Nat) (s : State) : Host.Outcome State Fault Refusal :=
  .next (s.pdkCommand 8 kind.val paddock.val index)

def execRevoke (paddock : Fin 64) (kind : Fin 16) (index : Nat) (s : State) : Host.Outcome State Fault Refusal :=
  .next (s.pdkCommand 9 kind.val paddock.val index)

/-- The running command has come to its end: a quiesce at QUIESCED, layer changes at their frame. -/
def State.pdkReady (s : State) (op p : Nat) : Bool :=
  match op with
  | 2 => s.pdkState p == 4
  | 4 | 8 | 9 => s.hp.layerChanges.all fun l => l.paddock != p || l.applied
  | _ => true

/-- A layer change is done: PDK_m_LAYERS takes it, and what the former holder wrote to the shadows of a revoked layer since its
frame is discarded (R132). -/
def State.layerDone (s : State) (g : LayerChange) : State :=
  let s1 := s.setGrant g.paddock 0 (16 * g.comp + g.layer) g.grant
  if g.grant then s1
  else s1.each (fun i s => s.setReg (Reg.CMP_L_CTRL g.comp g.layer + 4 * i) 0) (List.range 14)

/-- The layer changes of paddock `p` are done. -/
def State.layersDone (s : State) (p : Nat) : State :=
  let mine := s.hp.layerChanges.filter fun g => g.paddock == p
  State.each (fun g s => s.layerDone g) mine
    { s with hp := { s.hp with layerChanges := s.hp.layerChanges.filter fun g => g.paddock != p } }

/-- REMOVE ends (R136): every other grant is withdrawn, which resets each CVU it held (R354), the contexts are unassigned and
the paddock is ABSENT. -/
def State.removeEnd (s : State) (p : Nat) : State :=
  let s1 := s.each (fun i s => s.setReg (Reg.PDK_CTRL p i) 0) (List.range 8)
  let s2 := (s1.each (fun m s => s.resetCvu m) ((List.range 16).filter fun m => s.holds p 1 m)).setReg (Reg.PDK_MISC p) 0
  let s3 := s2.each (fun c s => (s.clearCtx c).setReg (Reg.CQ_CTX_OWNER c) 0) (s2.ctxsOf' p)
  (s3.syncContexts p).movePdk p 0

/-- PDK_CMD_END: done, with grant_change for a grant or revoke that changed something (R134, Table 5.11). -/
def execPdkCmdEnd (s : State) : Host.Outcome State Fault Refusal :=
  match s.hp.cmd with
  | some [op, _, p, _, fresh] =>
    if s.pdkReady op p then
      let s1 := ({ s with hp := { s.hp with cmd := none } }.layersDone p).setBit Reg.PDK_CMD_STATUS 0 false
      let s2 := if op = 4 then s1.removeEnd p else if fresh = 1 then s1.pdkCause p 1 else s1
      .next (s2.pdkEnd op p 0)
    else .next s
  | _ => .next s

/-- PADDOCK_QUIESCED (R127): every context of a QUIESCING paddock is IDLE, REINED or FAULTED. A reset of its function ends with it (R124),
and the manager that its port quiesced is ACTIVE again (R116). -/
def execPaddockQuiesced (paddock : Fin 64) (s : State) : Host.Outcome State Fault Refusal :=
  let p := paddock.val
  if s.pdkState p = 3 && (s.ctxsOf' p).all fun c => s.ctxState c == 0 || s.ctxState c == 4 || s.ctxState c == 5 then
    .next (((s.movePdk p 4).endReset p).managerBack p)
  else .next s

/-- A write of PDK_U_QUIESCE (R130). -/
def State.selfQuiesce (s : State) (p value : Nat) : State :=
  if value % 2 ^ 32 ≠ 0x5155 then s
  else if p = s.manager then s.offer 0x0104 [(8, p)]
  else s.quiesce p 2

def execSelfQuiesce (paddock : Fin 64) (value : Nat) (s : State) : Host.Outcome State Fault Refusal :=
  .next (if s.reaches paddock.val then s.selfQuiesce paddock.val value else s)

end Sys2Proof.Machine
end

