-- ==== Sys2Proof/Machine/Commits.lean ====
section
/-! DEFINITION. Commits (R295–R304, R312–R316): scopes, the commit port, holds, the latch line and its checks, and what a
frame start applies. -/

namespace Sys2Proof.Machine

/-! ### Scopes (R295, R337) -/

/-- Offsets within composer, head and region of the RS registers of a head commit. -/
def headOffs : List Nat := [0x40, 0x44, 0x48, 0x4C, 0x50, 0x54, 0x58, 0x5C, 0x60, 0x64, 0x70, 0x74, 0x78, 0x7C, 0x80, 0x84]
def hdOffs : List Nat := [0x20, 0x28, 0x2C]
def regionOffs : List Nat := [0, 4, 8, 0xC]

/-- Shadow keys of a head commit on composer `c`. -/
def State.headKeys (s : State) (c : Nat) : List Nat :=
  headOffs.map (Reg.CMP_CTRL c + ·)
    ++ (if c < 8 then hdOffs.map (Reg.HD_CTRL c + ·)
          ++ (s.managerRegions c).flatMap fun k => regionOffs.map (Reg.IM_R_CTRL c k + ·)
        else [])

/-- Shadow keys of layer `l` of composer `c`. -/
def layerKeys (c l : Nat) : List Nat := (List.range 14).map fun i => Reg.CMP_L_CTRL c l + 4 * i

/-- Shadow keys that move with the safety layer of composer `n` (R286, R337). -/
def State.safetyKeys (s : State) (n : Nat) : List Nat :=
  regionOffs.map (Reg.CMP_S_CTRL n + ·) ++ [Reg.IM_S_SIG n, Reg.IM_S_ALIVE n]
    ++ (s.ownerRegions n).flatMap fun k => regionOffs.map (Reg.IM_R_CTRL n k + ·)

/-- The pending copy of a list of shadows (R295). -/
def State.copyWords (s : State) (ks : List Nat) : List (Nat × Nat) := ks.map fun k => (k, s.reg k)

/-- The layers paddock `p` holds on composer `c`. -/
def State.heldLayers (s : State) (p c : Nat) : List Nat := (List.range 16).filter fun l => s.layerHolder c l == some p

/-! ### The commit port (R296–R298, R314) -/

/-- The heads whose frames a commit changes. -/
def State.headsOf (s : State) (x : Commit) : List Nat := (x.members.map s.headOf).eraseDups

/-- The requested frame of a commit at head `n`, once known. -/
def Commit.reqOf (x : Commit) (n : Nat) : Option Nat := (x.req.find? fun r => r.1 == n).map (·.2)

/-- The requested frames of a commit whose target lay before its arrival; another becomes known at a frame start (R314). -/
def State.requested (s : State) (x : Commit) : Commit :=
  match x.target with
  | some t =>
    if t < x.stamped then { x with req := (s.headsOf x).map fun n => (n, s.frameAt n t), past := true }
    else { x with req := [], past := false }
  | none => { x with req := [], past := false }

/-- A commit that was held or made to wait moves on: the frames since then do not count as late (R302, R312, R323). -/
def State.thaw (s : State) (x : Commit) : Commit :=
  if x.held || x.waits then x
  else { x with req := x.req.map fun r => (r.1, r.2 + ((s.head (s.headOf x.comp)).starts - x.frozen)) }

/-- A member is held (R302). -/
def State.anyHold (s : State) (ms : List Nat) : Bool := ms.any fun m => s.bit (Reg.CMP_HOLD m) 0

/-- A commit reaches its port now. -/
def State.arrive (s : State) (x : Commit) : State :=
  let x1 := { x with
    arrival := s.clk.stm
    stamped := s.clk.stm
    held := s.anyHold x.members
    waits := s.commitsWait (s.headOf x.comp)
    frozen := (s.head (s.headOf x.comp)).starts }
  { s with cmp := { s.cmp with commits := s.cmp.commits ++ [s.requested x1] } }

/-- A rejection (R300): CMP_EVENT, CMP_REJECT, the record, and for head commits CMP_COMMIT_STATUS. -/
def State.reportReject (s : State) (x : Commit) : State :=
  s.each (fun m s =>
    let head := x.kind != 0
    let s1 := s.setReg (Reg.CMP_REJECT m) (b2n head * 2 ^ 31 + x.code * 2 ^ 16 + (if head then 0x3F else x.paddock) * 2 ^ 8 + x.layer)
    let s2 := s1.recordNow 0x0701 [(8, m), (8, if head then 0xBF else x.paddock), (8, x.layer), (8, x.code)]
    let s3 := if head then
        ((s2.setFld (Reg.CMP_COMMIT_STATUS m) 15 8 x.code).setBit (Reg.CMP_COMMIT_STATUS m) 3 true).setBit
          (Reg.CMP_COMMIT_STATUS m) 0 false
      else s2
    let s4 := if head then s3.setBit (Reg.CMP_STATUS m) 29 false else s3
    s4.cmpEvent m 0) x.members

/-- Detail word of COMMIT_REJECTED (Table 11.7). -/
def Commit.detail (x : Commit) : Nat := x.comp * 2 ^ 20 + x.code * 2 ^ 8 + x.layer

/-- Paddock `p` has a commit pending on composer `c`: neither applied nor rejected (R297). -/
def State.padPending (s : State) (p c : Nat) : Bool :=
  s.cmp.commits.any fun x => x.kind == 0 && x.comp == c && x.paddock == p && x.code == 0

/-- A LAYER_COMMIT job reaches the port of composer `c`, or is rejected there because the composer is disabled (R297). Which
layers it covers is settled when it is latched, so it copies the shadows of all (R295). -/
def State.jobArrives (s : State) (c p ctx sq : Nat) : State :=
  match s.job ctx sq with
  | none => s
  | some j =>
    let safe := s.safetyOwner c == some p
    let x : Commit := {
      kind := 0, comp := c, members := [c], paddock := p, job := some (ctx, sq)
      arrival := s.clk.stm
      stamped := s.clk.stm
      target := j.at?
      words := s.copyWords ((List.range 16).flatMap (layerKeys c) ++ if safe then s.safetyKeys c else [])
      layers := s.heldLayers p c
      safety := safe }
    if s.bit (Reg.CMP_STATUS c) 31 then s.arrive x
    else
      let y := { x with code := 0x11 }
      let s1 := s.reportReject y
      s1.endJob ctx sq 0x31 y.detail s1.lastSeq

/-- Waiting LAYER_COMMIT jobs reach their ports where the paddock has none pending any more (R297), in order. -/
def State.portDrain (s : State) : Nat → State
  | 0 => s
  | n + 1 =>
    match s.cmp.waiting.find? fun w => !s.padPending w.2.1 w.1 with
    | none => s
    | some w =>
      let s1 := { s with cmp := { s.cmp with waiting := s.cmp.waiting.erase w } }
      State.portDrain (s1.jobArrives w.1 w.2.1 w.2.2.1 w.2.2.2) n

/-- As many waiting jobs as there are. -/
def State.drainPorts (s : State) : State := s.portDrain s.cmp.waiting.length

/-- LAYER_COMMIT (R147, R295–R297): the job starts and its commit reaches the port, or waits for the paddock's earlier one. -/
def execLayerCommit (ctx : Fin 1024) (s : State) : Host.Outcome State Fault Refusal :=
  match s.toStart ctx.val 6 with
  | none => .next s
  | some j =>
    let s1 := s.markStarted ctx.val j.sq
    let s2 := { s1 with cmp := { s1.cmp with
      waiting := s1.cmp.waiting ++ [(j.f 0x10 1, s.ctxPaddock ctx.val, ctx.val, j.sq)] } }
    .next s2.drainPorts

/-- A CMP_COMMIT write with go set (R295, R297). -/
def State.headCommit (s : State) (c : Nat) (group atTime : Bool) : State :=
  let ms := if group && !(s.groupOf c).isEmpty then s.groupOf c else [c]
  if ms.any fun m => s.bit (Reg.CMP_COMMIT_STATUS m) 0 then s.setBit (Reg.CMP_COMMIT_STATUS c) 4 true
  else
    let x : Commit := {
      kind := if group then 2 else 1
      comp := c, members := ms
      arrival := s.clk.stm
      stamped := s.clk.stm
      target := if atTime then some (s.reg64 (Reg.CMP_COMMIT_TIME_LO c) (Reg.CMP_COMMIT_TIME_HI c)) else none
      words := s.copyWords (ms.flatMap s.headKeys) }
    if s.bit (Reg.CMP_STATUS c) 31 then
      let s1 := s.each (fun m s => (s.setBit (Reg.CMP_COMMIT_STATUS m) 0 true).setBit (Reg.CMP_STATUS m) 29 true) ms
      s1.arrive x
    else s.reportReject { x with code := 0x11 }

/-- HEAD_COMMIT and GROUP_COMMIT: a write of CMP_COMMIT with go. -/
def execHeadCommit (composer : Fin 10) (atTime : Bool) (s : State) : Host.Outcome State Fault Refusal :=
  .next (s.headCommit composer.val false atTime)

def execGroupCommit (composer : Fin 10) (atTime : Bool) (s : State) : Host.Outcome State Fault Refusal :=
  .next (s.headCommit composer.val true atTime)

/-! ### Holds (R302) -/

/-- A held commit whose members are all free of holds is released: it counts as arriving at `t`. -/
def State.releaseOne (s : State) (t : Nat) (x : Commit) : Commit :=
  if x.held && !s.anyHold x.members then
    s.thaw { x with held := false, arrival := t }
  else x

/-- Every hold that has ended releases its commits, and how many they are. -/
def State.release (s : State) (t : Nat) : State × Nat :=
  let n := (s.cmp.commits.filter fun x => x.held && !s.anyHold x.members).length
  ({ s with cmp := { s.cmp with commits := s.cmp.commits.map (s.releaseOne t) } }, n)

/-- A write of CMP_HOLD (R302). -/
def State.holdWrite (s : State) (c value : Nat) : State :=
  let was := s.bit (Reg.CMP_HOLD c) 0
  let s1 := (s.setReg (Reg.CMP_HOLD c) (value % 2 ^ 32 &&& 0xF01)).setBit (Reg.CMP_STATUS c) 30 (value.testBit 0)
  if value.testBit 0 && !was then s1.setComp c { s1.comp c with holdLines := 0 }
  else if was && !value.testBit 0 then (s1.release s1.clk.stm).1
  else s1

def execCmpHoldWrite (composer : Fin 10) (value : Nat) (s : State) : Host.Outcome State Fault Refusal :=
  .next (s.holdWrite composer.val value)

/-- A latch line begins while a hold is set: at the last of max_frames the hold ends (R302). -/
def State.holdLatch (s : State) (c : Nat) : State :=
  if s.bit (Reg.CMP_HOLD c) 0 then
    let n := (s.comp c).holdLines + 1
    let s1 := s.setComp c { s.comp c with holdLines := n }
    if max 1 (s1.fld (Reg.CMP_HOLD c) 11 8) ≤ n then
      let s2 := (s1.setBit (Reg.CMP_HOLD c) 0 false).setBit (Reg.CMP_STATUS c) 30 false
      let (s3, k) := s2.release (s2.clk.stm - 1)
      (s3.offer 0x0705 [(8, c), (32, k)]).cmpEvent c 5
    else s1
  else s

/-! ### The latch line (R298, R299, R313, R314) -/

/-- The holder of a layer once the latched grant changes apply (R132, R299). -/
def State.holderNext (s : State) (c l : Nat) : Option Nat := s.holderAfter (·.latched) c l

/-- The layers that a paddock commit covers when it is latched: those its paddock holds once the grant changes latched before it
apply (R132, R295). -/
def State.scopeOf (s : State) (x : Commit) : List Nat :=
  if x.kind = 0 then (List.range 16).filter fun l => s.holderNext x.comp l == some x.paddock else []

/-- The checks of a commit: code and layer (Tables 11.6, 11.7). -/
def State.checkCommit (s : State) (x : Commit) : Nat × Nat :=
  let g := s.pendWord x.words
  if x.members.any fun m => !s.bit (Reg.CMP_STATUS m) 31 then (if x.kind = 2 then 0x10 else 0x11, 31)
  else if x.kind = 0 then
    let (ow, oh) := s.outSize x.comp
    let bad := (s.scopeOf x).filterMap fun l =>
      let code := s.checkLayer (fun o => g (Reg.CMP_L_CTRL x.comp l + o)) (s.reg (Reg.CMP_L_DECL x.comp l)) x.paddock ow oh
      if code = 0 then none else some (code, l)
    let safe := if x.safety then s.checkSafety x.comp (fun o => g (Reg.CMP_S_CTRL x.comp + o)) ow oh else 0
    let regs := if x.safety then s.checkRegions g x.comp ow oh (s.ownerRegions x.comp) else 0
    match bad with
    | b :: _ => b
    | [] => if safe ≠ 0 then (safe, 16) else (regs, 31)
  else
    let group := x.kind == 2 && s.groupBad x.comp
    let heads := x.members.map fun m => s.checkHead m g (s.outSize m).1 (s.outSize m).2
    if group then (0x10, 31) else ((heads.find? fun c => c != 0).getD 0, 31)

/-- A commit is latched at a latch line of head `n`: it will apply at the next frame start, or is rejected now. -/
def State.latchOne (s : State) (n : Nat) (x : Commit) : State :=
  let (code, layer) := s.checkCommit x
  let k := (s.head n).starts + 1
  let y := { x with
    latched := true
    layers := s.scopeOf x
    code := code
    layer := layer
    late := match x.reqOf n with
      | some r => k - r
      | none => 0 }
  let s1 := if code ≠ 0 then s.reportReject y else s
  let z := { y with seq := if code ≠ 0 then s1.lastSeq else 0 }
  { s1 with cmp := { s1.cmp with commits := s1.cmp.commits.map fun c => if c = x then z else c } }

/-- Another member's latch line for the current frame began already: within half a period before now (R298). -/
def State.earlierLatch (s : State) (n : Nat) (ms : List Nat) : Bool :=
  ms.any fun m => m != n && match (s.head m).latchAt with
    | some t => decide ((((s.clk.stm - t : Nat) : ℚ)) < s.framePeriod n / 2)
    | none => false

/-- A commit can be latched at the latch line of head `n` that begins now: it arrived before, and the next frame start is not
before its target (R313, R314). -/
def State.latchable (s : State) (n c : Nat) (x : Commit) : Bool :=
  let due := match x.reqOf n, x.target with
    | some _, _ => true
    | none, some t => decide (t ≤ s.nextStart n)
    | none, none => true
  !x.held && !x.latched && decide (x.arrival < s.clk.stm) && due && x.members.contains c
    && (x.kind != 2 || !s.earlierLatch n x.members) && (x.kind != 1 || x.comp == c)

/-- Latch the commits of one kind at composer `c`, in order of arrival, each against the state those before it leave. -/
def State.latchKind (s : State) (n c kind : Nat) : State :=
  s.each (fun x s => s.latchOne n x) (s.cmp.commits.filter fun x => x.kind == kind && s.latchable n c x)

/-- The latch line of composer `c` (R299): holds, grant changes, then group, head and paddock commits. -/
def State.latchComp (s0 : State) (n c : Nat) : State :=
  let s := s0.holdLatch c
  let s1 := { s with
    hp := { s.hp with
      layerChanges := s.hp.layerChanges.map fun (g : LayerChange) => if g.comp = c then { g with latched := true } else g }
    cmp := { s.cmp with
      commits := s.cmp.commits.map fun (x : Commit) =>
        if x.waits && s.headOf x.comp == n then s.thaw { x with waits := false } else x } }
  ((s1.latchKind n c 2).latchKind n c 1).latchKind n c 0

/-- LATCH_LINE (R301 steps 1 and 2, R313): pending commits are latched and checked and HD_LATCH_TIME moves to the next frame.
From the acceptance of a gait change to its first new frame no commit is latched (R323); holds count its latch lines (R302). -/
def State.latchLine (s : State) (n : Nat) : State :=
  if !s.headOn n || !(s.head n).begun then s
  else
    let s1 := if s.changing n && s.gaitPhase n != 5 then s.each (fun c s => s.holdLatch c) (s.timedBy n)
      else s.each (fun c s => s.latchComp n c) (s.timedBy n)
    let s2 := s1.setHead n { s1.head n with latchAt := some s1.clk.stm }
    (s2.sendLatch n (s2.nextStart n + s2.latchOffset n)).drainPorts

def execLatchLine (head : Fin 8) (s : State) : Host.Outcome State Fault Refusal := .next (s.latchLine head.val)

/-! ### Applying at a frame start (R132, R301, R316) -/

/-- The composer whose block holds a shadow key. -/
def compOfKey (k : Nat) : Nat :=
  if k < 0x40000 then (k - 0x31000) / 0x800 else if k < 0xA0000 then (k - 0x80000) / 0x2000 else (k - 0xA0000) / 0x2000

/-- The pending words of a composer become active. -/
def State.applyWords (s : State) (ws : List (Nat × Nat)) : State :=
  s.each (fun w s => match actKey w.1 with
    | some a => s.setReg a w.2
    | none => s) ws

/-- A late commit (R316): status, event, count and record at the frame start at which it applies. -/
def State.noteLate (s : State) (n c pad frames : Nat) : State :=
  let s1 := (s.setBit (Reg.HD_STATUS n) 8 true).count (Reg.HD_LATE_COUNT n) 31 0 1
  (s1.recordNow 0x0801 [(8, n), (8, c), (8, pad), (32, frames)]).headEvent n 5

/-- The shadows of a layer are discarded, those of a pending copy too (R132). -/
def State.discardLayer (s : State) (c l : Nat) : State :=
  let ks := layerKeys c l
  let s1 := s.each (fun k s => s.setReg k 0) ks
  { s1 with cmp := { s1.cmp with
      commits := s1.cmp.commits.map fun (x : Commit) => { x with words := x.words.map fun w => if ks.contains w.1 then (w.1, 0) else w } } }

/-- A layer grant or revoke applies: the layer is disabled in both copies, and the shadows of a revoked layer are discarded
(R132). -/
def State.applyGrant (s : State) (g : LayerChange) : State :=
  let k := Reg.CMP_L_CTRL g.comp g.layer
  let s2 := if g.grant then s else s.discardLayer g.comp g.layer
  (s2.setBit k 0 false).setBit (k + 0x400) 0 false

/-- The latched grant changes of composer `c` apply. PDK_m_LAYERS follows when the command is done. -/
def State.applyGrants (s : State) (c : Nat) : State :=
  let mine := s.hp.layerChanges.filter fun g => g.latched && !g.applied && g.comp == c
  let s1 := { s with hp := { s.hp with
    layerChanges := s.hp.layerChanges.map fun (g : LayerChange) => if g.latched && g.comp == c then { g with applied := true } else g } }
  s1.each (fun g s => s.applyGrant g) mine

/-- The alive value of head `n` takes this value: a different one restarts the staleness count (R341). -/
def State.aliveChange (s : State) (n old : Nat) : State :=
  if s.reg (Reg.IM_S_ALIVE_ACT n) % 65536 = old % 65536 then s
  else
    let x := s.im.heads.getD n {}
    { s with im := { s.im with heads := s.im.heads.set n { x with stale := 0, staleTripped := false, fresh := true } } }

/-- A commit of composer `c` applied (R323). -/
def State.markApplied (s : State) (c : Nat) : State :=
  if c < 8 then s.setHead c { s.head c with applied := true } else s

/-- A latched commit comes to its frame start at composer `c`: it applies whole, or its rejection is reported to its job. -/
def State.applyCommit (s : State) (c : Nat) (x : Commit) : State :=
  let n := s.headOf c
  let isLate := decide (0 < x.late) || x.past
  let drop := fun (t : State) => { t with cmp := { t.cmp with
    commits := t.cmp.commits.filterMap fun y =>
      if y = x then (if x.members = [c] then none else some { x with members := x.members.filter (· != c) }) else some y } }
  if x.kind ≠ 0 then
    if x.code ≠ 0 then drop s
    else
      let s1 := (s.applyWords (x.words.filter fun w => compOfKey w.1 == c)).markApplied c
      let s2 := ((s1.setBit (Reg.CMP_COMMIT_STATUS c) 0 false).setBit (Reg.CMP_STATUS c) 29 false).setBit (Reg.CMP_COMMIT_STATUS c) 1 true
      let s3 := if isLate then
          ((s2.setBit (Reg.CMP_COMMIT_STATUS c) 2 true).setFld (Reg.CMP_COMMIT_STATUS c) 23 16 (min x.late 255)).noteLate n c 0xBF
            x.late
        else s2
      drop s3
  else
    let done := fun (t : State) (status detail seq : Nat) => match x.job with
      | some (ctx, sq) => t.endJob ctx sq status detail seq
      | none => t
    if x.code ≠ 0 then done (drop s) 0x31 x.detail x.seq
    else
      let ls := x.layers.filter fun l => s.layerHolder c l == some x.paddock
      let keys := ls.flatMap (layerKeys c) ++ if x.safety then s.safetyKeys c else []
      let old := s.reg (Reg.IM_S_ALIVE_ACT c)
      let s1 := s.applyWords (x.words.filter fun w => keys.contains w.1)
      let s2 := if x.safety then s1.aliveChange c old else s1
      let s3 := if keys.isEmpty then s2 else s2.markApplied c
      let s4 := match x.job with
        | some (ctx, sq) => s3.modJob ctx sq fun j => { j with count := 1 }
        | none => s3
      if isLate then
        let s5 := s4.noteLate n c x.paddock x.late
        done (drop s5) 0x30 x.late s5.lastSeq
      else done (drop s4) 0 0 0

/-- The latched commits of composer `c` apply, in the order in which they were checked (R299). -/
def State.applyCommits (s : State) (c : Nat) : State :=
  let go := fun (t : State) (kind : Nat) =>
    t.each (fun x t => t.applyCommit c x) (t.cmp.commits.filter fun x => x.kind == kind && x.latched && x.members.contains c)
  go (go (go s 2) 1) 0

/-- Requested frames become known at the frame start with number `k` at show time `t` (R314): the first whose start follows
the arrival, or is not before the target. -/
def State.reqAt (s : State) (n k t : Nat) : State :=
  let due := fun (x : Commit) => match x.target with
    | some g => decide (g ≤ t)
    | none => decide (x.arrival < t)
  { s with cmp := { s.cmp with
      commits := s.cmp.commits.map fun (x : Commit) =>
        if (s.headsOf x).contains n && !x.held && !x.waits && !x.latched && (x.reqOf n).isNone && due x then
          { x with req := x.req ++ [(n, k)] }
        else x } }

/-- FRAME_REPEAT (R315): a commit pending at the port has its requested frame at or before this frame start and does not apply
at it. -/
def State.repeatCheck (s : State) (n k : Nat) : State :=
  let due := s.cmp.commits.any fun x => (s.headsOf x).contains n && !x.held && !x.waits && !x.latched
    && (x.reqOf n).any fun r => decide (r ≤ k)
  if due then
    let s1 := (s.setBit (Reg.HD_STATUS n) 10 true).count (Reg.HD_REPEAT_COUNT n) 31 0 1
    (s1.offerRate 0x0802 n 100000000 [(8, n), (16, s1.fld (Reg.HD_FRAME n) 31 16)] []).headEvent n 4
  else s

/-! ### Curves (R304) and CMP_CTRL -/

/-- A curve bank is in use: the active set or a pending head commit selects it. -/
def State.lutBusy (s : State) (c bank : Nat) : Bool :=
  bitsOf (s.cmpAct c 0x44) 6 6 == bank ||
    s.cmp.commits.any fun x => x.kind != 0 && x.code == 0 && x.members.contains c &&
      bitsOf (s.pendWord x.words (Reg.CMP_OUT c)) 6 6 == bank

/-- A write of CMP_LUT_DATA (R304). -/
def State.lutWrite (s : State) (c value : Nat) : State :=
  let a := Reg.CMP_LUT_ADDR c
  let bank := s.fld a 16 16
  if s.lutBusy c bank then (s.offer 0x0707 [(8, c), (8, bank)]).cmpEvent c 7
  else s.lutStore c value

def execCmpLutDataWrite (composer : Fin 10) (value : Nat) (s : State) : Host.Outcome State Fault Refusal :=
  .next (s.lutWrite composer.val value)

/-- A write of CMP_CTRL (R312, Table 11.12): a set acts at once, a clear at the next frame start. -/
def State.cmpCtrl (s : State) (c value : Nat) : State :=
  let s1 := s.setReg (Reg.CMP_CTRL c) (value % 2)
  if value.testBit 0 then (s1.ungate c).setBit (Reg.CMP_STATUS c) 31 true else s1

def execCmpCtrlWrite (composer : Fin 10) (value : Nat) (s : State) : Host.Outcome State Fault Refusal :=
  .next (s.cmpCtrl composer.val value)

end Sys2Proof.Machine
end

