-- ==== Sys2Proof/Machine/Haptics.lean ====
section
/-! DEFINITION. Haptic feedback (spec/17): the effect library, triggers, the control tick, limits and faults, and commits. -/

namespace Sys2Proof.Machine

/-! ### The effect library (R430, R431) -/

/-- Basin offset of the haptic partition, and its bytes. -/
def State.hapBase (s : State) : Nat := s.fld (Reg.BSN_PART_BASE 7) 10 0 * 65536
def State.hapBytes (s : State) : Nat := s.fld (Reg.BSN_PART_SIZE 7) 10 0 * 65536

/-- `n` bytes at offset `o` of the directory entry of effect `e` (Table 17.2). -/
def State.effect (s : State) (e o n : Nat) : Nat := ofLeBytes (s.bytes .basin (s.hapBase + 16 * e + o) n)

/-- Samples of effect `e` in all its plays. -/
def State.effectLen (s : State) (e : Nat) : Nat := s.effect e 2 2 * (s.effect e 5 1 + 1)

/-- Sample `i` of effect `e`. -/
def State.effectSample (s : State) (e i : Nat) : Int :=
  signedOf 16 (ofLeBytes (s.bytes .basin (s.hapBase + 64 * s.effect e 0 2 + 2 * (i % max 1 (s.effect e 2 2))) 2))

/-- What the check finds of an entry of 16 bytes whose samples are `n` units of `w` bytes at 64 × `off` in a partition of `size`
bytes: 2 range, 3 CRC, 4 reserved, 1 none of them. -/
def checkClip (bytes : Nat → Nat → List Byte) (size off n w crc : Nat) (reserved : Bool) : Nat :=
  if size < 64 * off + w * n then 2
  else if crc32c (bytes (64 * off) (w * n)) ≠ crc then 3
  else if reserved then 4
  else 1

/-- State of effect `e`: 0 empty, 1 valid, else why it fails. -/
def State.effectCheck (s : State) (e : Nat) : Nat :=
  if s.effect e 2 2 = 0 then 0
  else checkClip (fun o n => s.bytes .basin (s.hapBase + o) n) s.hapBytes (s.effect e 0 2) (s.effect e 2 2) 2 (s.effect e 8 4)
    (s.effect e 7 1 != 0 || s.effect e 12 4 != 0)

/-- HAP_LIBRARY_CHECK_DONE (R431). -/
def execHapLibraryCheckDone (s : State) : Host.Outcome State Fault Refusal :=
  if !s.hap.enabledOnce || s.bit Reg.HAP_STATUS 16 then .next s
  else
    let lib := (List.range 256).map s.effectCheck
    let bad := lib.zipIdx.filter fun e => decide (2 ≤ e.1)
    let s1 : State := { s with hap := { s.hap with lib := lib } }
    let s2 := s1.setReg Reg.HAP_LIB (bad.length * 65536 + (lib.filter (· == 1)).length)
    .next ((s2.each (fun (e : Nat × Nat) t => (t.offer 0x0D05 [(8, e.2), (8, e.1 - 2)]).hapEvent 4) bad).setBit Reg.HAP_STATUS 16 true)

/-- Effect `e` may play. -/
def State.effectOk (s : State) (e : Nat) : Bool := s.hap.lib.getD e 0 == 1

/-! ### Jobs, drive and states (R425, R426, R432) -/

/-- Words of channel `n` in force. -/
def State.hapOn (s : State) (n : Nat) : Bool := s.bit (Reg.HAPC_CFG_ACT n) 0
def State.openLoop (s : State) (n : Nat) : Bool := s.bit (Reg.HAPC_STATUS n) 28

/-- A HAPTIC_PLAY ends DONE with its progress word (Table 6.11). -/
def State.playEnds (s : State) (t : Trig) (progress : Nat) : State :=
  match t.job with
  | some (c, sq) => (s.modJob c sq fun j => { j with count := progress }).endJob c sq 0 0 0
  | none => s

/-- Duty of the two pins of channel `n`, in 1/1,024: low while THERMTRIPn is asserted (R61). -/
def State.setDrive (s : State) (n : Nat) (u : Int) : State :=
  let x := s.hapCh n
  if x.drive = u then s
  else
    let s1 := s.setHapCh n { x with drive := u }
    if s.pins.thermtrip then s1
    else (s1.emitOn 6 (.pin ("HAP" ++ toString n ++ "_PWMA") u.toNat)).emitOn 6 (.pin ("HAP" ++ toString n ++ "_PWMB") (-u).toNat)

/-- Channel `n` enters FAULT (R434): the effect ends at once, the FIFO is flushed, jobs end with their progress words. -/
def State.hapFault (s : State) (n : Nat) : State :=
  let x := s.hapCh n
  let s1 := ((s.setHapCh n { x with play := none, fifo := [], integ := 0 }).setHapState n 4).setDrive n 0
  let s2 := match x.play with
    | some p => s1.playEnds p.trig 1
    | none => s1
  s2.each (fun t s => s.playEnds t 0) x.fifo

/-! ### Triggers (R432) -/

/-- Which triggers come first: SPUR, touch in control order, jobs. -/
def Arrival.before (a b : Arrival) : Bool := decide (a.source < b.source ∨ (a.source = b.source ∧ a.rank ≤ b.rank))

def insertArrival (a : Arrival) : List Arrival → List Arrival
  | [] => [a]
  | b :: bs => if a.before b then a :: b :: bs else b :: insertArrival a bs

/-- HAPTIC_PLAYs that have started and whose time has come. -/
def State.dueWaits (s : State) : List HapWait :=
  s.hap.waits.filter fun w => match w.target with
    | some t => decide (t ≤ s.clk.stm)
    | none => true

/-- The triggers that stand before channel `n` at this tick, in their order. -/
def State.arrivalsAt (s : State) (n : Nat) : List Arrival :=
  ((s.hap.arrivals.filter fun a => a.channel == n).foldr insertArrival [])
    ++ (s.dueWaits.zipIdx.filter fun w => w.1.channel == n).map fun w => ⟨2, w.2, n, w.1.trig⟩

/-- A trigger is no longer waiting. -/
def State.unwait (s : State) (a : Arrival) : State :=
  if a.source = 2 then { s with hap := { s.hap with waits := s.hap.waits.filter fun w => w.trig.job != a.trig.job } }
  else { s with hap := { s.hap with arrivals := s.hap.arrivals.erase a } }

/-- A trigger is dropped; a HAPTIC_PLAY ends with progress word 0. -/
def State.dropTrigger (s : State) (a : Arrival) : State :=
  match a.trig.job with
  | some _ => (s.unwait a).playEnds a.trig 0
  | none => (s.unwait a).hapDropped a.channel

/-- Drive ticks within the last 8,000 ticks, and their bound (R433). -/
def HapCh.duty (x : HapCh) (now : Nat) : Nat := (x.driven.filter fun t => decide (now < t + 8000)).length
def State.dutyBound (s : State) (n : Nat) : Nat := s.fld (Reg.HAPC_LIMIT_ACT n) 23 16 * 80

/-- A limit holds the channel back: REST, or the brake that leads to it. -/
def State.resting (s : State) (n : Nat) : Bool := s.hapState n == 3 || (s.hapCh n).play.any fun p => p.tripped

/-- An effect may start on channel `n`: enabled, its zero known, not resting, below the duty bound. -/
def State.mayStart (s : State) (n : Nat) : Bool :=
  let x := s.hapCh n
  x.zero.isSome && !s.resting n && s.hapState n != 4 && decide (x.duty s.hap.tick < s.dutyBound n)

/-- An effect starts at its sample 0 (R428). -/
def State.startEffect (s : State) (n : Nat) (t : Trig) : State :=
  let s1 := (s.setHapCh n { s.hapCh n with play := some { trig := t } }).setHapState n 1
  let s2 := s1.setFld (Reg.HAPC_STATUS n) 23 16 t.effect
  match t.job with
  | some (c, sq) => s2.modJob c sq fun j => { j with count := 1 }
  | none => s2

/-- One trigger at its channel; `cut` is the CUT taken so far in this tick. -/
def State.takeTrigger (s : State) (cut : Option Arrival) (a : Arrival) : State × Option Arrival :=
  let n := a.channel
  let x := s.hapCh n
  let job := a.trig.job.isSome
  if !s.hapOn n || !s.bit Reg.HAP_STATUS 16 || s.hapState n = 4 then (s.dropTrigger a, cut)
  else if !s.effectOk a.trig.effect then
    match a.trig.job with
    | some (c, sq) => ((s.unwait a).faultJob c sq 0x21 0x0411 0, cut)
    | none => (s.dropTrigger a, cut)
  else if s.hapState n = 3 ∨ (a.trig.cut && s.resting n) then (if job then (s, cut) else (s.dropTrigger a, cut))
  else if a.trig.cut then
    if !s.mayStart n then (s, cut)
    else
      let s1 := match cut with
        | some b => s.dropTrigger b
        | none => s
      (s1, some a)
  else if x.fifo.length < 4 then ((s.unwait a).setHapCh n { x with fifo := x.fifo ++ [a.trig] }, cut)
  else if job then (s, cut)
  else (s.dropTrigger a, cut)

/-- The triggers of channel `n` at this tick: the last CUT ends the playing effect and starts; otherwise the FIFO's first starts
on an IDLE channel. -/
def State.hapTriggers (s : State) (n : Nat) : State :=
  let (s1, cut) := (s.arrivalsAt n).foldl (fun (p : State × Option Arrival) a => p.1.takeTrigger p.2 a) (s, none)
  match cut with
  | some a =>
    let s2 := match (s1.hapCh n).play with
      | some p => s1.playEnds p.trig 1
      | none => s1
    (s2.unwait a).startEffect n a.trig
  | none =>
    let x := s1.hapCh n
    match x.play, x.fifo with
    | none, t :: ts => if s1.mayStart n then (s1.setHapCh n { x with fifo := ts }).startEffect n t else s1
    | _, _ => s1

/-! ### The control tick (R427–R429, R433, R434) -/

/-- The measured acceleration in 1/1,024 g from the sum of four samples in µV and the zero's sum (R427); a value that 16 bits do not hold, or a
sensitivity of zero, leaves it open (assumption 1). -/
def State.hapMeasure (s : State) (n : Nat) (rest sum4 : Nat) : Int :=
  let sens : Int := s.fld (Reg.HAPC_DRIVE n) 9 0
  let a := Int.tdiv ((64 * (sum4 : Int) - (rest : Int)) * 4) (100 * sens)
  if sens = 0 ∨ a < -32768 ∨ 32767 < a then signedOf 16 (Config.freeBits 16 (2 ^ 123 + 2 ^ 60 * n + 2 ^ 30 * rest + sum4)).toNat else a

/-- u_max (R428); a supply of zero leaves it open. -/
def State.uMax (s : State) (n : Nat) : Int :=
  let v := s.fld (Reg.HAPC_DRIVE n) 31 24
  if v = 0 then ((Config.freeBits 11 (2 ^ 124 + n)).toNat : Int) else (1024 * s.fld (Reg.HAPC_LIMIT_ACT n) 31 24 / v : Nat)

/-- The drive of this tick and whether it was clamped: all divisions round towards zero. -/
def State.hapLoop (s : State) (n : Nat) (atgt a integ : Int) : Int × Bool :=
  let w := s.reg (Reg.HAPC_LOOP_ACT n)
  let kff : Int := bitsOf w 31 24
  let kp : Int := bitsOf w 23 16
  let ki : Int := bitsOf w 15 8
  let u := if s.openLoop n then Int.tdiv (kff * atgt) 256
    else Int.tdiv (kff * atgt + kp * (atgt - a) + Int.tdiv (ki * integ) 64) 256
  let m := s.uMax n
  if m < |u| then (if u < 0 then -m else m, true) else (u, false)

/-- A limit trips (R433): the effect goes to BRAKE, and REST follows. -/
def State.hapTrip (s : State) (n kind : Nat) : State :=
  let x := s.hapCh n
  match x.play with
  | none => s
  | some p =>
    let s1 := (s.setHapCh n { x with play := some { p with tripped := true, brake := some (p.brake.getD 0) } }).setHapState n 2
    ((s1.count (Reg.HAPC_COUNT n) 15 0 1).offer 0x0D02 [(8, n), (8, kind), (8, p.trig.effect)]).hapEvent 0

/-- The effect has ended: REST after a trip, otherwise IDLE where none is queued. -/
def State.endPlay (s : State) (n : Nat) (p : Play) : State :=
  let x := s.hapCh n
  let rest := s.fld (Reg.HAPC_LIMIT_ACT n) 7 0 * 80
  let s1 := if p.tripped then (s.setHapCh n { x with play := none, rest := rest }).setHapState n 3
    else if x.fifo.isEmpty then (s.setHapCh n { x with play := none }).setHapState n 0
    else s.setHapCh n { x with play := none }
  s1.playEnds p.trig (if s.effectLen p.trig.effect ≤ p.i then 3 else 1)

/-- Ticks that count against the limits: `drive` whether this one is in DRIVE or BRAKE. -/
def HapCh.counted (x : HapCh) (now : Nat) (drive : Bool) : HapCh :=
  let recent := x.driven.filter fun t => decide (now < t + 8000)
  if drive then { x with on := x.on + 1, off := 0, driven := recent ++ [now] }
  else { x with on := if 7 ≤ x.off then 0 else x.on, off := min 8 (x.off + 1), driven := recent }

/-- A tick of a playing effect. -/
def State.playTick (s : State) (n : Nat) (p : Play) (a : Int) : State :=
  let e := p.trig.effect
  let x := s.hapCh n
  let atgt := match p.brake with
    | some _ => 0
    | none => Int.tdiv (Int.tdiv (s.effectSample e p.i * (s.effect e 4 1 : Int)) 255 * (p.trig.gain : Int)) 255
  let integ := max (-32767) (min 32767 (x.integ + (atgt - a)))
  let (u, sat) := s.hapLoop n atgt a integ
  let q : Play := match p.brake with
    | none => if s.effectLen e ≤ p.i + 1 then { p with i := p.i + 1, brake := some 0 } else { p with i := p.i + 1 }
    | some b => { p with brake := some (b + 1), quiet := if |a| < (s.fld (Reg.HAPC_SETTLE_ACT n) 15 0 : Int) then p.quiet + 1 else 0 }
  let y := { x with integ := integ, play := some q }.counted s.hap.tick true
  let s1 := (s.setHapCh n y).setHapState n (if q.brake.isSome then 2 else 1)
  let s2 := (if sat then s1.setBit (Reg.HAPC_STATUS n) 0 true else s1).setDrive n u
  let longest := max 1 (s.effect e 6 1)
  let over? := match p.brake with
    | some b => decide (longest ≤ b + 1) || (!s.openLoop n && decide (8 ≤ q.quiet))
    | none => false
  let s3 := if p.tripped then s2
    else if s.fld (Reg.HAPC_LIMIT_ACT n) 15 8 * 80 ≤ y.on then s2.hapTrip n 0
    else if s.dutyBound n ≤ y.duty s.hap.tick then s2.hapTrip n 1
    else s2
  match over?, (s3.hapCh n).play with
  | true, some r => s3.endPlay n r
  | _, _ => s3

/-- A tick without an effect: the drive is off, and REST runs out (R433). -/
def State.restTick (s : State) (n : Nat) : State :=
  let x := { s.hapCh n with integ := 0 }.counted s.hap.tick false
  let y := { x with rest := x.rest - 1 }
  let s1 := (s.setHapCh n y).setDrive n 0
  if s.hapState n = 2 ∨ (s.hapState n = 3 ∧ y.rest = 0 ∧ y.duty s.hap.tick < s.dutyBound n) then s1.setHapState n 0 else s1

/-- Ticks in a row with ACCn at an end of its range (R434, Table 2.11): the eighth is a sensor fault. -/
def State.sensorTick (s : State) (n : Nat) (acc : List Nat) : State :=
  let x := s.hapCh n
  let railed := (acc.all fun v => decide (v ≤ 150000)) || acc.all fun v => decide (1650000 ≤ v)
  let s1 := s.setHapCh n { x with rail := if railed then min 9 (x.rail + 1) else 0 }
  if (s1.hapCh n).rail ≠ 8 || s.hapState n = 4 || s.openLoop n then s1
  else if s.bit (Reg.HAPC_CFG_ACT n) 16 then
    ((s1.setBit (Reg.HAPC_STATUS n) 28 true).offer 0x0D04 [(8, n), (8, choice 0x0D04 0)]).hapEvent 3
  else ((s1.offer 0x0D04 [(8, n), (8, choice 0x0D04 1)]).hapEvent 3).hapFault n

/-- Shadows that wait apply at a tick at which the channel is IDLE with an empty FIFO (R435); a channel newly enabled without
a zero captures one. -/
def State.hapApply (s : State) (n : Nat) : State :=
  let x := s.hapCh n
  if x.words.isEmpty || s.hapState n ≠ 0 || !x.fifo.isEmpty then s
  else
    let s1 := (s.applyWords x.words).setHapCh n { x with words := [] }
    if s1.hapOn n && x.zero.isNone && decide (x.zeroTicks = 64) then s1.setHapCh n { s1.hapCh n with zeroTicks := 0, zeroSum := 0 } else s1

/-- The zero capture of a channel: 64 ticks with its drive low (R427). -/
def State.zeroTick (s : State) (n sum4 : Nat) : State :=
  let x := s.hapCh n
  let k := x.zeroTicks + 1
  s.setHapCh n { x with zeroTicks := k, zeroSum := x.zeroSum + sum4, zero := if k = 64 then some (x.zeroSum + sum4) else none }

/-- One channel in a control tick; `acc` are the four samples of ACCn in µV. -/
def State.hapTick (s : State) (n : Nat) (acc : List Nat) : State :=
  let s1 := (if s.hapOn n then s.sensorTick n acc else s).hapApply n
  let x := s1.hapCh n
  let sum4 := acc.sum
  if x.zeroTicks < 64 then (s1.zeroTick n sum4).restTick n
  else
    let a := match x.zero with
      | some z => s1.hapMeasure n z sum4
      | none => 0
    let s2 := (s1.setReg (Reg.HAPC_ACC n) (toSigned 16 a)).hapTriggers n
    match (s2.hapCh n).play with
    | some p => s2.playTick n p a
    | none => s2.restTick n

/-- The pending commit has reached every channel: done (R435). -/
def State.hapCommitEnd (s : State) : State :=
  if s.bit Reg.HAP_COMMIT_STATUS 0 && s.hap.chans.all fun x => x.words.isEmpty then
    let s1 := ((s.setBit Reg.HAP_COMMIT_STATUS 0 false).setBit Reg.HAP_COMMIT_STATUS 1 true).setFld Reg.HAP_COMMIT_STATUS 15 8 0
    (s1.offer 0x0D01 [(8, choice 0x0D01 0), (8, 0)]).hapEvent 0
  else s

/-- HAPTIC_CONTROL_TICK: `acc` are the four ACC samples of each channel since the last tick, in µV. -/
def execHapticControlTick (acc : List (List Nat)) (s : State) : Host.Outcome State Fault Refusal :=
  if !s.bit Reg.HAP_STATUS 31 then .next s
  else
    let s1 := s.each (fun n t => t.hapTick n ((acc.getD n []).take 4)) (List.range 16)
    let s2 := s1.hapCommitEnd
    .next { s2 with hap := { s2.hap with tick := s2.hap.tick + 1 } }

/-! ### Commands -/

/-- HAPTIC_PLAY starts (R141, R432): its trigger arrives at once or at its target time; with a full FIFO a QUEUE trigger waits
unstarted. -/
def execHapticPlay (ctx : Fin 1024) (s : State) : Host.Outcome State Fault Refusal :=
  let c := ctx.val
  match s.toStart c 10 with
  | none => .next s
  | some j =>
    let n := j.f 0x10 1 % 16
    let t : Trig := ⟨j.f 0x11 1, (j.f 0x12 1).testBit 0, j.f 0x13 1, some (c, j.sq)⟩
    if !t.cut && decide (4 ≤ (s.hapCh n).fifo.length) then .next s
    else
      let s1 := s.markStarted c j.sq
      .next { s1 with hap := { s1.hap with waits := s1.hap.waits ++ [⟨c, j.sq, n, j.at?, t⟩] } }

/-- SPUR_TRIGGER: pin `k` has stood at a new level for filter_us (R432). In RECOVERY SPUR pins trigger nothing (R435) and show in WH_STATUS
(R87). -/
def execSpurTrigger (pin : Fin 4) (level : Bool) (s : State) : Host.Outcome State Fault Refusal :=
  let k := pin.val
  let was := s.pins.spur.testBit k
  let s0 : State := { s with pins := { s.pins with spur := putBits s.pins.spur k k (b2n level) } }
  let s1 := if s.devState = 4 then s0.setFld Reg.WH_STATUS 11 8 s0.pins.spur else s0
  let w := s.reg (Reg.HAP_SPUR_CFG k)
  if was = level || !w.testBit 31 || w.testBit 30 = level || s.devState ≠ 3 || !s.bit Reg.HAP_STATUS 31 then .next s1
  else .next (s1.hapArrive 0 k (bitsOf w 3 0) ⟨bitsOf w 19 12, w.testBit 20, 255, none⟩)

/-- HAP_FAULT_PIN: HAPn_FLTn has been low for 1 µs, or is high again (R434). -/
def execHapFaultPin (channel : Fin 16) (low : Bool) (s : State) : Host.Outcome State Fault Refusal :=
  let n := channel.val
  let s1 := s.setHapCh n { s.hapCh n with fltLow := low }
  if !low || s.hapState n = 4 then .next s1
  else .next (((s1.offer 0x0D03 [(8, n), (8, s.fld (Reg.HAPC_STATUS n) 23 16)]).hapEvent 1).hapFault n)

/-- A write of HAP_n_CTRL.clear_fault (R434): FAULT to IDLE, open_loop clear and a new zero, while HAPn_FLTn is high. -/
def State.clearFault (s : State) (n : Nat) : State :=
  let x := s.hapCh n
  if x.fltLow || !(s.hapState n == 4 || (s.hapState n == 0 && s.openLoop n)) then s
  else
    (((s.setHapCh n { x with zero := none, zeroSum := 0, zeroTicks := 0, rail := 0 }).setHapState n 0).setBit (Reg.HAPC_STATUS n) 28 false)

def execHapClearFault (channel : Fin 16) (s : State) : Host.Outcome State Fault Refusal := .next (s.clearFault channel.val)

/-- A write of HAP_n_CTRL.stop (R434): the playing effect brakes and the FIFO is flushed. -/
def State.hapStop (s : State) (n : Nat) : State :=
  let x := s.hapCh n
  let play := x.play.map fun p => { p with brake := some (p.brake.getD 0) }
  let s1 := s.setHapCh n { x with play := play, fifo := [] }
  let s2 := if play.isSome then s1.setHapState n 2 else s1
  s2.each (fun t s => s.playEnds t 0) x.fifo

def execHapStop (channel : Fin 16) (s : State) : Host.Outcome State Fault Refusal := .next (s.hapStop channel.val)

/-- Shadows of channel `n`. -/
def hapKeys (n : Nat) : List Nat := [Reg.HAPC_CFG n, Reg.HAPC_LOOP n, Reg.HAPC_LIMIT n, Reg.HAPC_SETTLE n]

/-- The code of the first failing check of a haptic commit, or 0. -/
def State.hapCheck (s : State) (ns : List Nat) : Nat :=
  let w := s.reg
  let lim := fun n => w (Reg.HAPC_LIMIT n)
  if ns.any fun n => decide (w (Reg.HAPC_CFG n) &&& 0xC07EFFFE ≠ 0) || decide (w (Reg.HAPC_LOOP n) % 256 ≠ 0)
      || decide (w (Reg.HAPC_SETTLE n) / 65536 ≠ 0) then 1
  else if ns.any fun n => decide (s.fld (Reg.HAPC_DRIVE n) 31 24 < bitsOf (lim n) 31 24) then 2
  else if ns.any fun n => decide (bitsOf (lim n) 23 16 = 0 ∨ 100 < bitsOf (lim n) 23 16) then 3
  else if ns.any fun n => decide (bitsOf (lim n) 15 8 = 0 ∨ bitsOf (lim n) 7 0 = 0) then 4
  else 0

/-- HAP_COMMIT: a write of HAP_COMMIT with go (R435). -/
def State.hapCommit (s : State) (scope : Nat) : State :=
  let ns := (List.range 16).filter scope.testBit
  if s.bit Reg.HAP_COMMIT_STATUS 0 then s.setBit Reg.HAP_COMMIT_STATUS 4 true
  else
    let code := s.hapCheck ns
    if code = 0 then
      s.each (fun n t => t.setHapCh n { t.hapCh n with words := t.copyWords (hapKeys n) }) ns |>.setBit Reg.HAP_COMMIT_STATUS 0 true
    else
      let s1 := (s.setBit Reg.HAP_COMMIT_STATUS 3 true).setFld Reg.HAP_COMMIT_STATUS 15 8 code
      (s1.offer 0x0D01 [(8, choice 0x0D01 1), (8, code)]).hapEvent 0

def execHapCommit (scope : Nat) (s : State) : Host.Outcome State Fault Refusal := .next (s.hapCommit scope)

/-- A write of HAP_CTRL (R427, R431): the first enable captures the zero of each enabled channel and starts the library check;
while disabled every drive is low. -/
def State.hapCtrl (s : State) (value : Nat) : State :=
  let on := value.testBit 0
  let s1 := (s.setReg Reg.HAP_CTRL (b2n on)).setBit Reg.HAP_STATUS 31 on
  if !on then s1.each (fun n t => t.setDrive n 0) (List.range 16)
  else if s.hap.enabledOnce then s1.ungate 15
  else
    let s2 := (s1.ungate 15).each (fun n t => if t.hapOn n then t.setHapCh n { t.hapCh n with zeroTicks := 0, zeroSum := 0 } else t) (List.range 16)
    { s2 with hap := { s2.hap with enabledOnce := true } }

def execHapCtrlWrite (value : Nat) (s : State) : Host.Outcome State Fault Refusal := .next (s.hapCtrl value)

end Sys2Proof.Machine
end

