-- ==== Sys2Proof/Machine/StartUp.lean ====
section
/-! DEFINITION. Meanings of the start-up commands (spec/01, spec/02): PORn, rails, the ROM check, brown-out, the thermal trip
and the test access port. -/

namespace Sys2Proof.Machine

/-- PORn asserts (R29, R31, R36, R61): OFF from any state; SYS_STATE, the secure records and THERMTRIPn clear.
The regulator is taken to return to the boot setpoints of Table 2.5 (R39; assumption 92). -/
def State.doPornAssert (s : State) : State :=
  let s1 := s.blocksReset true
  let s2 := { s1 with
    pins := { s1.pins with porn := false, thermtrip := false, jetMv := 750, coreMv := 800 }
    boot := { s1.boot with imageKeyRemoved := false } }
  s2.setReg Reg.SYS_STATE 0

def execPornAssert (s : State) : Host.Outcome State Fault Refusal := .next s.doPornAssert

/-- PORn deasserts (R43): BOOT from OFF when every monitored rail is good, and otherwise the device stays in OFF. EXTEST and
SAMPLE/PRELOAD become BYPASS (R59). -/
def execPornDeassert (s : State) (bootsel : Fin 4 := 0) : Host.Outcome State Fault Refusal :=
  let s1 : State := { s with
    pins := { s.pins with porn := true }
    tap := if s.tap = .extest ∨ s.tap = .sample then .bypass else s.tap }
  .next (if s.devState = 0 && !s.pins.porn && s.pins.railsLow.isEmpty then (s1.jumpers bootsel).enterBoot 0 else s1)

/-- Every monitored rail becomes good (R43): in OFF with PORn high this instant is the PORn deassertion. -/
def execAllRailsGood (s : State) (bootsel : Fin 4 := 0) : Host.Outcome State Fault Refusal :=
  let s1 := { s with pins := { s.pins with railsLow := [] } }
  .next (if s.devState = 0 && s.pins.porn then (s1.jumpers bootsel).enterBoot 0 else s1)

/-- The ROM self-check and fuse read end (Table 1.9). -/
def execRomCheckDone (romOk fuseOk : Bool) (s : State) : Host.Outcome State Fault Refusal :=
  if s.devState = 1 then
    if !romOk then .next (s.enter 6 (some 0x20))
    else if !fuseOk then .next (s.enter 6 (some 0x21))
    else
      let s1 := s.loadFuses
      match s.pins.bootSample % 4 with
      | 1 => .next (s1.enterRecovery 0x11)
      | 2 => .next (s1.enter 5 (some 0x12))
      | _ => .next (s1.enter 2 none)
  else .next s

/-- The setpoint of a rail that the controller moves, in mV: the lower of the two while it moves (R48). -/
def State.setpoint (s : State) (rail mv : Nat) : Nat :=
  s.pwr.avs.foldl (fun a x => if x.1 = rail ∧ x.2.1 = 0 then min a x.2.2.1 else a) mv

/-- Falling threshold of the monitor of rail `r` of Table 2.5, in tenths of a millivolt. -/
def State.railLimit (s : State) (r : Nat) : Nat :=
  match r with
  | 0 => 9 * s.setpoint 0 s.pins.jetMv
  | 1 => 9 * s.setpoint 1 s.pins.coreMv
  | 2 => 6800
  | 3 => 7000
  | 4 => 7700
  | 5 => 4500
  | 6 => 16000
  | 7 => 29500
  | _ => 16000

/-- How far above its threshold a rail clears its monitor, in tenths of a millivolt (R47). -/
def railHyst (r : Nat) : Nat := if r < 6 then 200 else 500

/-- The monitor of a rail detects that it is below its threshold: always from 2 µs, never below 0.5 µs, and between the two
as a free value says (R47). A monitor masked under R49 sees nothing. -/
def State.sees (s : State) (x : RailSample) : Bool :=
  !s.pins.maskedRails.contains x.rail.val && decide (10 * x.mv < s.railLimit x.rail.val) &&
    (decide (2000 ≤ x.ns) || (decide (500 ≤ x.ns) && s.free 1 == 1))

/-- A monitor with what it sees: the rail is low, or good again (R47). A low VDD_AON (rail 3) releases THERMTRIPn (R61). -/
def State.monitor (x : RailSample) (s : State) : State :=
  let r := x.rail.val
  if s.sees x then
    { s.took with pins := { s.pins with
      railsLow := if s.pins.railsLow.contains r then s.pins.railsLow else s.pins.railsLow ++ [r]
      thermtrip := s.pins.thermtrip && r != 3 } }
  else if s.railLimit r + railHyst r < 10 * x.mv then
    { s.took with pins := { s.pins with railsLow := s.pins.railsLow.filter (· ≠ r) } }
  else s.took

/-- BROWN_OUT: what the rail monitors see, in turn (R47, R48). A detection is a brown-out in every state but OFF (R50). -/
def execBrownOut (rails : List RailSample) (s : State) : Host.Outcome State Fault Refusal :=
  let r := rails.foldl (fun (a : State × Bool) x => (a.1.monitor x, a.2 || a.1.sees x)) (s, false)
  .next (if r.2 && s.sysState ≠ 0 then r.1.brownOut else r.1)

/-- 2 ms after every monitored rail is good again: BOOT with entry_cause 0x01 (R50). -/
def execBrownOutRecovery (s : State) (bootsel : Fin 4 := 0) : Host.Outcome State Fault Refusal :=
  if s.boot.resetCause = some 1 then
    .next ((State.jumpers { s with pins := { s.pins with railsLow := [] } } bootsel).enterBoot 1)
  else .next s

/-- VR_PGOOD low for 2 µs in RUN, RECOVERY or TEST, when not masked, is a brown-out (R51). -/
def execVrPgoodLow (s : State) : Host.Outcome State Fault Refusal :=
  if (s.devState = 3 || s.devState = 4 || s.devState = 5) && !s.pins.pgoodMasked then .next s.brownOut else .next s

/-- The junction crosses the trip threshold (R61): THERMTRIPn asserts, HAPn_PWMA and HAPn_PWMB go low on every channel, no
state changes. It works whenever VDD_AON is good. -/
def execThermalTrip (s : State) : Host.Outcome State Fault Refusal :=
  .next (if s.pins.railsLow.contains 3 then s else
    { s with
      pins := { s.pins with thermtrip := true }
      hap := { s.hap with chans := s.hap.chans.map fun x => { x with drive := 0 } }
      out := hapLow ++ .pin "THERMTRIPn" 0 :: s.out })

/-- BYPASS (R59): works at any level of PORn. -/
def execTapBypass (s : State) : Host.Outcome State Fault Refusal := .next { s with tap := .bypass }

/-- IDCODE (R59): 0x1A8F_6D01 with the silicon version in [31:28], at any level of PORn. -/
def execTapIdcode (s : State) : Host.Outcome State Fault Refusal :=
  .next (State.emit { s with tap := .idcode } (.tapShift (putBits 0x1A8F6D01 31 28 s.fuses.silicon)))

/-- One scan of the boundary-scan register (R59): the levels of the balls are captured and shifted out, and new contents
shifted in. -/
def State.scan (s : State) (balls shifted : List Bool) : State :=
  State.emit { s with pins := { s.pins with scan := shifted } } (.tapScan balls)

/-- EXTEST takes effect only while PORn is low; otherwise it is BYPASS (R59). The balls take the register's contents, and
after a scan the new ones. -/
def execTapExtest (s : State) (balls shifted : List Bool := []) : Host.Outcome State Fault Refusal :=
  .next (if s.pins.porn then { s with tap := .bypass } else
    ((State.emit { s with tap := .extest } (.boundary s.pins.scan)).scan balls shifted).emit (.boundary shifted))

/-- SAMPLE/PRELOAD takes effect only while PORn is low; otherwise it is BYPASS (R59). -/
def execTapSamplePreload (s : State) (balls shifted : List Bool := []) : Host.Outcome State Fault Refusal :=
  .next (if s.pins.porn then { s with tap := .bypass } else State.scan { s with tap := .sample } balls shifted)

/-- TRSTn holds the TAP in Test-Logic-Reset (R59). -/
def execTestLogicReset (s : State) : Host.Outcome State Fault Refusal := .next { s with tap := .reset }

/-- A record of the secure area (R463): its slot in SPLIT with K = 256 of 2,048, its number in EVR_SEC_NEXT. -/
def State.secRecord (s : State) (code : Nat) (items : List (Nat × Nat)) : State :=
  let q := s.sec.secNext
  let slot := if q < 256 then q else 256 + (q - 256) % 1792
  let r := mkRec code items s.clk.stm
  let s1 := { s with sec := { s.sec with
    secNext := q + 1
    secSlots := spIns s.sec.secSlots slot [q, code, r.time, r.d0, r.d1, r.d2] } }
  s1.setReg Reg.EVR_SEC_NEXT ((q + 1) % 2 ^ 32)

/-- A hardware secure event: in the secure area, and in the recorder with d2 its secure sequence number (R463, R485). -/
def State.secHardware (s : State) (code : Nat) (items : List (Nat × Nat)) : State :=
  let q := s.sec.secNext % 2 ^ 32
  let r := mkRec code items s.clk.stm
  let s1 := s.secRecord code items
  { s1 with evr := { s1.evr with offered := s1.evr.offered ++ [{ r with d2 := q }] } }

/-- DEBUG_SEL on NM8-X (R110, R111): opens the debug fabric at any level of PORn; its first use removes the image key and
writes a secure record. A part with debug_off blown, or another order code, treats it as BYPASS (R59). -/
def execDebugSel (s : State) : Host.Outcome State Fault Refusal :=
  if s.fuses.partCode = 3 && !s.fuses.debugOff then
    let s1 := { s with tap := .debugSel }
    if s.boot.imageKeyRemoved then .next s1
    else
      let s2 := { s1 with boot := { s1.boot with imageKeyRemoved := true } }
      .next ((s2.setBit Reg.SEC_STATUS 3 true).secHardware 0x0306 [])
  else .next { s with tap := .bypass }

/-- Koroft writes a record into the secure record area (R463). It runs KOROFT_CODE in RUN while it is not being restarted
(R91, R108). -/
def execSecureRecordWrite (code d0 d1 d2 : Nat) (s : State) : Host.Outcome State Fault Refusal :=
  .next (if s.devState = 3 && !s.bit Reg.SEC_WDT_STATUS 16 then
    s.secRecord (code % 65536) [(32, d0 % 2 ^ 32), (32, d1 % 2 ^ 32), (32, d2 % 2 ^ 32)] else s)

/-- A wait of 1 ms of chip reset ends (R479): BOOT with the cause of the reset. -/
def execChipResetEnd (s : State) (bootsel : Fin 4 := 0) : Host.Outcome State Fault Refusal :=
  match s.boot.resetCause with
  | some c => if c = 1 then .next s else .next ((s.jumpers bootsel).enterBoot c)
  | none => .next s

/-- 0xC4A5 written to PCR_RESET in RUN or TEST resets the chip (R479). -/
def execPcrReset (value : Nat) (s : State) : Host.Outcome State Fault Refusal :=
  if bitsOf value 15 0 = 0xC4A5 && (s.devState = 3 || s.devState = 5) then .next (s.chipReset 4) else .next s

end Sys2Proof.Machine
end

