-- ==== Sys2Proof/Machine/Integrity.lean ====
section
/-! DEFINITION. Integrity services (R334–R348): signatures, failure counts, reactions, fallbacks and clears. -/

namespace Sys2Proof.Machine

/-! ### Accessors -/

def State.imHead (s : State) (n : Nat) : ImHead := s.im.heads.getD n {}
def State.setImHead (s : State) (n : Nat) (x : ImHead) : State :=
  { s with im := { s.im with heads := s.im.heads.set n x } }
def State.chk (s : State) (n i : Nat) : Check := (s.imHead n).checks.getD i {}
def State.setChk (s : State) (n i : Nat) (x : Check) : State :=
  s.setImHead n { s.imHead n with checks := (s.imHead n).checks.set i x }

/-- Bit `b` of IM_EVENT. -/
def State.imEvent0 (s : State) (b : Nat) : State := s.setEvent Reg.IM_EVENT Reg.IM_EVENT_EN b

/-- Bit `b` of IM_EVENT for head `n`; bits [3:0] are mirrored to the safety owner of Cn (Table 13.10). -/
def State.imEvent (s : State) (n b : Nat) : State :=
  let s1 := s.imEvent0 b
  match s.safetyOwner n with
  | some p =>
    if b ≤ 3 then
      let s2 := s1.setBit (Reg.IM_U_EVENT p n) b true
      if s2.bit (Reg.IM_U_EVENT_EN p n) b then s2.raiseVec p (24 + n) else s2
    else s1
  | none => s1

/-- Checks are evaluated: the head is enabled and shows composer output (R348). -/
def State.evaluates (s : State) (n : Nat) : Bool :=
  s.headOn n && (s.head n).begun && !s.changing n && s.gaitPhase n == 0

/-- Reaction codes: 3 is reserved and taken as NOTIFY (assumption 33). -/
def reactionOf (r : Nat) : Nat := if r = 3 then 0 else r

/-- The recover field of a check. -/
def State.recoverOf (s : State) (n i : Nat) : Nat :=
  if i < 16 then s.fld (Reg.IM_R_CTRL_ACT n i) 7 4 else s.fld (Reg.IM_S_CFG n) 3 0

/-- IM_Hn_STATUS and IM_HEADS follow the reactions in force. -/
def State.imSync (s : State) (n : Nat) : State :=
  let x := s.imHead n
  let inForce := fun i => (x.checks.getD i {}).force.isSome
  let any := fun r => x.checks.any fun c => c.force == some r
  let regions := ((List.range 16).map fun i => b2n (inForce i) * 2 ^ i).sum
  let w := regions * 2 ^ 16 + s.fld (Reg.IM_STATUS n) 12 12 * 2 ^ 12 + b2n (any 2) * 2 ^ 11 + b2n (inForce 17) * 2 ^ 10
    + b2n (inForce 16) * 2 ^ 9 + min x.stale 255
  ((s.setReg (Reg.IM_STATUS n) w).setBit Reg.IM_HEADS (8 + n) (any 2)).setBit Reg.IM_HEADS n (any 1)

/-! ### Trips and ends (R343, R347) -/

/-- A check trips: the record and the manager interrupt, which is always sent; its reaction takes effect now for staleness
and at the next frame start otherwise. -/
def State.trip (s : State) (n i r : Nat) (now : Bool) : State :=
  let c := s.chk n i
  let q := reactionOf r
  let s1 := s.setChk n i (if now then { c with force := some q } else { c with trip := some q })
  ((s1.offer 0x0904 [(8, n), (8, i), (8, q)]).setBit Reg.IM_EVENT 4 true).mgrIrqSticky

/-- A reaction ends, by clear (0) or recovery (1). -/
def State.endReaction (s : State) (n i how : Nat) : State :=
  let c := s.chk n i
  let s1 := s.setChk n i { c with force := none }
  ((s1.offer 0x0905 [(8, n), (8, i), (8, c.force.getD 0), (8, choice 0x0905 how)]).setBit Reg.IM_EVENT 4 true).mgrIrqSticky

/-- A frame fails for a check: it counts, and trips at the threshold. -/
def State.failFrame (s : State) (n i threshold reaction : Nat) : State :=
  let c := s.chk n i
  let k := c.fails + 1
  let s1 := (s.setChk n i { c with fails := k, passes := 0 }).count (Reg.IM_FAIL_COUNT n) 31 0 1
  if k = max 1 threshold then s1.trip n i reaction false else s1

/-- A frame passes for a check. -/
def State.passFrame (s : State) (n i : Nat) : State :=
  let c := s.chk n i
  s.setChk n i { c with fails := 0, passes := c.passes + 1 }

/-! ### Region signatures (R335–R338) -/

/-- The rectangle of region `k` in the active set: x, y, width, height. -/
def State.region (s : State) (n k : Nat) : Nat × Nat × Nat × Nat :=
  let xy := s.reg (Reg.IM_R_XY_ACT n k)
  let wh := s.reg (Reg.IM_R_WH_ACT n k)
  (bitsOf xy 13 0, bitsOf xy 29 16, bitsOf wh 13 0, bitsOf wh 29 16)

/-- CRC-32C of the region's pixels at stage 11, row-major, each as one word (R335). -/
def State.regionSig (s : State) (n k : Nat) : Nat :=
  let (x, y, w, h) := s.region n k
  crc32c ((List.range h).flatMap fun r => (List.range w).flatMap fun c => leBytes 4 (s.headPixel n (x + c) (y + r)))

/-- The region crosses a line that underran (R338). -/
def State.regionUnderran (s : State) (n k : Nat) : Bool :=
  let (_, y, _, h) := s.region n k
  (s.head n).fills.any fun f => decide (y ≤ f.1) && decide (f.1 < y + h)

/-- A region signature is final (R336): SIG and FRAME, and with compare set its comparison. -/
def State.regionFinal (s : State) (n k : Nat) : State :=
  let ctrl := s.reg (Reg.IM_R_CTRL_ACT n k)
  if !(s.evaluates n && ctrl.testBit 0) then s
  else
    let sig := s.regionSig n k
    let isMatch := sig == s.reg (Reg.IM_R_REF_ACT n k) && !s.regionUnderran n k
    let frame := s.fld (Reg.HD_FRAME n) 31 16
    let (x, y, w, h) := s.region n k
    let s1 := (s.show n x y w h).setReg (Reg.IM_R_SIG n k) sig
    let s2 :=
      if !ctrl.testBit 1 then s1
      else if isMatch then s1.passFrame n k
      else
        let t := s1.failFrame n k (bitsOf ctrl 11 8) (bitsOf ctrl 13 12)
        (t.offerRate 0x0901 (32 * n + k) 100000000 [(8, n), (8, k), (16, frame), (32, sig)] []).imEvent n 0
    s2.setReg (Reg.IM_R_FRAME n k) (frame * 2 ^ 16 + b2n isMatch * 2 ^ 8 + min (s2.chk n k).fails 15)

def execRegionSignatureFinal (head : Fin 8) (region : Fin 16) (s : State) : Host.Outcome State Fault Refusal :=
  .next (s.regionFinal head.val region.val)

/-! ### Safety signatures (R339, R340, R342) -/

/-- The alive word of head `n`, or of an alive_tag (R339, R352). -/
def aliveWord (tag alive : Nat) : List Byte := leBytes 4 (0xA5000000 + tag * 65536 + alive % 65536)

/-- The stored elements of the active safety layer, row after row, as Basin returns them. -/
def State.safetyStream (s : State) (n : Nat) : List Byte :=
  let f := s.safetyAct n
  (List.range f.h).flatMap fun r => s.safetyBytes n f r

/-- The verdict on a frame of the safety check: bits 0 fetch, 1 head input, 2 missing. -/
def State.judge (s : State) (n bits : Nat) : State :=
  if bits = 0 then s.passFrame n 16
  else
    let cfg := Reg.IM_S_CFG n
    let s1 := s.failFrame n 16 (s.fld cfg 7 4) (s.fld cfg 11 10)
    let s2 := s1.offerRate 0x0902 (32 * n + 16) 100000000
      [(8, n), (16, s.fld (Reg.HD_FRAME n) 31 16), (8, bits)] []
    let s3 := if bits.testBit 0 then s2.imEvent n 1 else s2
    if bits.testBit 1 || bits.testBit 2 then s3.imEvent n 2 else s3

/-- Bytes with some of them changed on the way from the read port to the overlay. -/
def corrupt (faults : List (Nat × Byte)) (bs : List Byte) : List Byte :=
  faults.foldl (fun l f => l.modify f.1 fun b => b ^^^ f.2) bs

/-- Both safety signatures of a frame are final. `faults` are the stored bytes that the path between the read port and the
overlay changed: position and the bits flipped. -/
def State.safetyFinal (s : State) (n : Nat) (faults : List (Nat × Byte)) : State :=
  if !(s.evaluates n && (s.safetyAct n).enable) then s
  else
    let stream := s.safetyStream n
    let w := aliveWord n (s.fld (Reg.IM_S_ALIVE_ACT n) 15 0)
    let fetch := crc32c (w ++ stream)
    let head := crc32c (w ++ corrupt faults stream)
    let expect := s.reg (Reg.IM_S_SIG_ACT n)
    let s1 := (s.setReg (Reg.IM_S_FETCH_SIG n) fetch).setReg (Reg.IM_S_HEAD_SIG n) head
    s1.judge n (b2n (fetch != expect) + 2 * b2n (head != expect))

def execSafetySignatureFinal (head : Fin 8) (faults : List (Nat × Byte)) (s : State) : Host.Outcome State Fault Refusal :=
  .next (s.safetyFinal head.val faults)

/-! ### Fallbacks (R345, R346) -/

/-- A fallback of head `n`: region 0–15 or 16 the safety fallback: its register, its rectangle in head pixels and its
signature. -/
def State.fallback (s : State) (n i : Nat) : Nat × (Nat × Nat × Nat × Nat) × Nat :=
  if i < 16 then (s.reg (Reg.IM_R_FB n i), s.region n i, s.reg (Reg.IM_R_FB_SIG n i))
  else
    let xy := s.reg (Reg.IM_S_FB_XY n)
    let wh := s.reg (Reg.IM_S_FB_WH n)
    (s.reg (Reg.IM_S_FB n), (bitsOf xy 13 0, bitsOf xy 29 16, bitsOf wh 13 0, bitsOf wh 29 16), s.reg (Reg.IM_S_FB_SIG n))

/-- Element size, scale and row bytes of a fallback. -/
def fbE (fb : Nat) : Nat := if fb.testBit 24 then 4 else 2
def fbK (fb : Nat) : Nat := 2 ^ bitsOf fb 29 28

/-- Bytes [a, a + n) of the fallback bitmap, as the port of R345 returns them. -/
def State.fbBytes (s : State) (fb a n : Nat) : List Byte :=
  s.portBytes (.device 2) [] (s.fld (Reg.BSN_PART_BASE 2) 10 0 * 65536 + 64 * bitsOf fb 16 0 + a) n

/-- Row stride of a fallback `w` head pixels wide. -/
def fbStride (fb w : Nat) : Nat := (w / fbK fb * fbE fb + 63) / 64 * 64

/-- CRC-32C over the rows of a fallback (R346). -/
def State.fbSig (s : State) (n i : Nat) : Nat :=
  let (fb, (_, _, w, h), _) := s.fallback n i
  crc32c ((List.range (h / fbK fb)).flatMap fun r => s.fbBytes fb (r * fbStride fb w) (w / fbK fb * fbE fb))

/-- The image names the fallback: its registers are not all zero and its rectangle is not empty (assumption 34). -/
def State.fbNamed (s : State) (n i : Nat) : Bool :=
  let (fb, (_, _, w, h), sig) := s.fallback n i
  (fb != 0 || sig != 0) && w != 0 && h != 0

/-- A fallback is read and checked: a mismatch blanks the head from the next frame start (R346). -/
def State.fbCheck (s : State) (n i : Nat) : State :=
  if !s.fbNamed n i || s.fbSig n i == (s.fallback n i).2.2 then s
  else
    let s1 := (s.offer 0x0906 [(8, n), (8, i), (32, s.fbSig n i)]).imEvent n 5
    let s2 := s1.setBit (Reg.IM_STATUS n) 12 true
    if (s2.chk n 18).force.isSome || (s2.chk n 18).trip.isSome then s2 else s2.trip n 18 2 false

/-- FALLBACK_CHECK: within 50 ms of RUN entry (R346). -/
def execFallbackCheck (head : Fin 8) (s : State) : Host.Outcome State Fault Refusal :=
  .next (s.each (fun i t => t.fbCheck head.val i) (List.range 17))

/-- The pixel of a fallback at head pixel (x, y), none outside its rectangle. -/
def State.fbPixel (s : State) (n i x y : Nat) : Option Nat :=
  let (fb, (fx, fy, w, h), _) := s.fallback n i
  if fx ≤ x ∧ x < fx + w ∧ fy ≤ y ∧ y < fy + h then
    let e := fbE fb
    let a := (y - fy) / fbK fb * fbStride fb w + (x - fx) / fbK fb * e
    some (s.topBits n (elem30 (if fb.testBit 24 then 8 else 5) (ofLeBytes (s.fbBytes fb a e))))
  else none

/-- The pixel of stage 12 (R344): black under BLANK_HEAD; else the safety fallback above the fallbacks of regions, a higher
region above a lower. -/
def State.linkPixel (s : State) (n x y : Nat) : Nat :=
  let x' := s.imHead n
  let force := fun i => (x'.checks.getD i {}).force
  if x'.checks.any fun c => c.force == some 2 then 0
  else
    let base := (List.range 16).foldl (fun px i => if force i = some 1 then (s.fbPixel n i x y).getD px else px) (s.headPixel n x y)
    if force 16 = some 1 ∨ force 17 = some 1 then (s.fbPixel n 16 x y).getD base else base

/-! ### The frame start (R341, R343, R347) -/

/-- The staleness count at a frame start. -/
def State.staleStep (s : State) (n : Nat) : State :=
  let x := s.imHead n
  let cfg := Reg.IM_S_CFG n
  let k := if x.fresh then x.stale else x.stale + 1
  let s1 := s.setImHead n { x with stale := k, fresh := false }
  let limit := s.fld cfg 23 16
  if limit = 0 ∨ k < limit then s1.passFrame n 17
  else
    let c := s1.chk n 17
    let s2 := (s1.setChk n 17 { c with fails := c.fails + 1, passes := 0 }).count (Reg.IM_FAIL_COUNT n) 31 0 1
    if x.staleTripped then s2
    else
      let s3 := s2.setImHead n { s2.imHead n with staleTripped := true }
      let s4 := (s3.offer 0x0903 [(8, n), (16, s.fld (Reg.IM_S_ALIVE_ACT n) 15 0), (32, k)]).imEvent n 3
      s4.trip n 17 (s.fld cfg 13 12) true

/-- Tripped reactions take effect, recovered replacements end, and a clear ends the passing ones. Checks tripped at this
frame start stay in force. -/
def State.reactStep (s : State) (n : Nat) (staleNow : Bool) : State :=
  let ids := List.range 19
  let fresh := ids.filter fun i => (s.chk n i).trip.isSome || (i == 17 && staleNow)
  let s1 := s.each (fun i t =>
    let c := t.chk n i
    match c.trip with
    | some r => t.setChk n i { c with force := some r, trip := none }
    | none => t) ids
  let s2 := s1.each (fun i t =>
    let c := t.chk n i
    let rec' := t.recoverOf n i
    if decide (i < 18) && (c.force == some 0 || c.force == some 1) && !fresh.contains i && decide (rec' ≠ 0) && decide (rec' ≤ c.passes)
      then t.endReaction n i 1 else t) ids
  if (s2.imHead n).clear then
    let s3 := s2.setImHead n { s2.imHead n with clear := false }
    let stays := ids.filter fun i => (s3.chk n i).force.isSome && (i == 18 || fresh.contains i || (s3.chk n i).passes == 0)
    let s4 := s3.each (fun i t => if (t.chk n i).force.isSome && !stays.contains i then t.endReaction n i 0 else t) ids
    if stays.isEmpty then s4
    else (s4.offer 0x0907 [(8, n), (32, (stays.map (2 ^ ·)).sum)]).imEvent n 6
  else s2

/-- Integrity services at a frame start of head `n`. -/
def State.imFrame (s : State) (n : Nat) : State :=
  if !s.evaluates n then (s.setImHead n { s.imHead n with fresh := false }).imSync n
  else
    let before := (s.imHead n).staleTripped
    let s1 := s.staleStep n
    let s2 := s1.reactStep n (!before && (s1.imHead n).staleTripped)
    let shown := (List.range 17).filter fun i => (s2.chk n i).force == some 1 || (i == 16 && (s2.chk n 17).force == some 1)
    let s3 := s2.each (fun i t => t.fbCheck n i) shown
    let s4 := if s3.bit (Reg.IM_S_CFG n) 31 && !(s3.safetyAct n).enable then s3.judge n 4 else s3
    s4.imSync n

/-- A write of IM_Hn_CLEAR (R347). -/
def execImClear (head : Fin 8) (value : Nat) (s : State) : Host.Outcome State Fault Refusal :=
  .next (if value.testBit 0 then s.setImHead head.val { s.imHead head.val with clear := true } else s)

end Sys2Proof.Machine
end

