-- ==== Sys2Proof/Machine/Heads.lean ====
section
/-! DEFINITION. Display heads (R307–R333): links, panels, frame instants, genlock, gait changes and the AUX channel, and the
composers' part of a frame start (R291, R293). -/

namespace Sys2Proof.Machine

/-! ### Panels (R330) -/

/-- eDP mode. -/
def State.edp (s : State) (n : Nat) : Bool := s.bit (Reg.HD_LINK_CFG n) 8
def State.hpd (s : State) (n : Nat) : Bool := s.bit (Reg.HD_STATUS n) 29
def State.panel (s : State) (n : Nat) : Nat := s.fld (Reg.HD_PANEL_STATUS n) 2 0
def State.setPanel (s : State) (n st : Nat) : State := s.setFld (Reg.HD_PANEL_STATUS n) 2 0 st

/-- State of HD_LINK_STATUS: 0 off, 1 training, 2 up, 3 LINK_FAIL. -/
def State.link (s : State) (n : Nat) : Nat := s.fld (Reg.HD_LINK_STATUS n) 11 10
def State.setLink (s : State) (n st : Nat) : State := s.setFld (Reg.HD_LINK_STATUS n) 11 10 st

/-- HDn_VDDEN is driven; its fall starts t_cycle. -/
def State.driveVdd (s : State) (n : Nat) (on : Bool) : State :=
  let x := s.head n
  if x.vdden = on then s
  else
    let s1 := s.setHead n { x with vdden := on, vddFall := if on then none else some s.clk.stm }
    s1.emitOn 2 (.pin ("HD" ++ toString n ++ "_VDDEN") (b2n on))

/-- HDn_BLPWM as HD_BL_PWM has it: at its frequency and duty while the backlight is on, and low otherwise (R331). -/
def State.drivePwm (s : State) (n : Nat) : State :=
  let w := s.reg (Reg.HD_BL_PWM_ACT n)
  s.emitOn 2 (if (s.head n).blen then .blPwm n (bitsOf w 15 0) (bitsOf w 31 20) else .pin ("HD" ++ toString n ++ "_BLPWM") 0)

/-- HDn_BLEN and, with it, HDn_BLPWM are driven. -/
def State.driveBl (s : State) (n : Nat) (on : Bool) : State :=
  if (s.head n).blen = on then s
  else ((s.setHead n { s.head n with blen := on }).emitOn 2 (.pin ("HD" ++ toString n ++ "_BLEN") (b2n on))).drivePwm n

/-- The link may be trained: HPD is high and, in eDP mode, the panel is powered. -/
def State.canTrain (s : State) (n : Nat) : Bool :=
  s.headUp n && s.hpd n && (!s.edp n || (decide (1 ≤ s.panel n) && decide (s.panel n ≤ 4)))

/-- Link training starts (R326). -/
def State.train (s : State) (n : Nat) : State :=
  if s.canTrain n then
    let s1 := (s.setLink n 1).setBit (Reg.HD_STATUS n) 30 false
    if s1.edp n then s1.setPanel n 2 else s1
  else s

/-- The head stops driving the link, or sends the idle pattern with nothing trained. -/
def State.linkOff (s : State) (n : Nat) : State :=
  ((s.setReg (Reg.HD_LINK_STATUS n) 0).setBit (Reg.HD_STATUS n) 30 false).setBit (Reg.HD_STATUS n) 28 false

/-- t_cycle has passed since the last fall of HDn_VDDEN. -/
def State.cycled (s : State) (n : Nat) : Bool :=
  match (s.head n).vddFall with
  | some t => decide (t + s.fld (Reg.HD_PANEL_CFG n) 31 24 * 10000000 ≤ s.clk.stm)
  | none => true

/-- The power-on sequence starts, or waits for t_cycle (Table 12.9). -/
def State.panelOn (s : State) (n : Nat) : State :=
  if !s.edp n then s.driveVdd n true
  else if !s.headUp n then s
  else if s.panel n = 0 ∨ s.panel n = 7 then
    if s.cycled n then
      let s1 := (s.setHead n { s.head n with wantOn := false }).driveVdd n true
      (s1.setPanel n 1).train n
    else s.setHead n { s.head n with wantOn := true }
  else if s.panel n = 5 ∨ s.panel n = 6 then s.setHead n { s.head n with wantOn := true }
  else s

/-- Off 3: HDn_VDDEN low, t_cycle starts. -/
def State.panelCool (s : State) (n : Nat) : State := ((s.driveBl n false).driveVdd n false).setPanel n 6

/-- The power-off sequence (Table 12.9), in eDP mode from the backlight on and otherwise from the end of video. -/
def State.panelOff (s : State) (n : Nat) : State :=
  let s1 := s.setHead n { s.head n with wantOn := false }
  if s1.edp n then
    if decide (1 ≤ s1.panel n) && decide (s1.panel n ≤ 4) then
      let s2 := (s1.driveBl n false).setPanel n 5
      s2.setHead n { s2.head n with off := 1 }
    else s1
  else s1.driveVdd n false

/-! ### Enabling and stopping a head (R312, HD_CTRL) -/

/-- Commits pending for head `n` and not latched wait from now on (R312, R323). -/
def State.waitCommits (s : State) (n : Nat) : State :=
  { s with cmp := { s.cmp with
      commits := s.cmp.commits.map fun (x : Commit) =>
        if s.headOf x.comp == n && !x.latched then
          { x with waits := true, frozen := if x.held || x.waits then x.frozen else (s.head n).starts }
        else x } }

/-- The head is enabled: its timing generator runs, a powered panel starts, and the link trains when HPD is high. -/
def State.startHead (s : State) (n : Nat) : State :=
  if s.headUp n then s
  else
    let x := s.head n
    let s1 := (s.setBit (Reg.HD_STATUS n) 31 true).setHead n
      { x with begun := false, off := 0, latchAt := none, extra := 0, fills := [], good := 0, bad := 0 }
    if s1.edp n then (if s1.bit (Reg.HD_PANEL_CTRL n) 0 then s1.panelOn n else s1) else s1.train n

/-- An error in units of 10 ns. -/
def err10 (e : ℚ) : Int := (e / 10 + 1 / 2).floor

/-- A signed number held to `w` bits. -/
def clampInt (w : Nat) (i : Int) : Int := max (-(2 ^ (w - 1))) (min (2 ^ (w - 1) - 1) i)

/-- The genlock state of head `n` becomes `st` with an error of `e` in 10 ns: a change sets genlock_change and is recorded
(R320). -/
def State.genChange (s : State) (n st : Nat) (e : Int) : State :=
  let k := Reg.HD_GENLOCK_STATUS n
  if s.fld k 31 30 = st then s
  else ((s.setFld k 31 30 st).offer 0x080B [(8, n), (8, st), (32, toSigned 32 (clampInt 32 e))]).headEvent n 13

/-- The timing generator stops. A gait change in progress takes effect (R322: without the sequence while disabled). -/
def State.stopGen (s : State) (n : Nat) : State :=
  let s1 := ((s.linkOff n).setBit (Reg.HD_STATUS n) 31 false).genChange n 0 0
  let s2 := s1.setHead n { s1.head n with begun := false, off := 0, latchAt := none, fills := [] }
  let s3 := if s2.changing n then
      let g := if (s2.head n).returning then (s2.head n).oldGait else s2.fld (Reg.HD_GAIT n) 12 8
      ((s2.setReg (Reg.HD_GAIT n) g).setBit (Reg.HD_GAIT_STATUS n) 0 false).setBit (Reg.HD_STATUS n) 27 false
    else s2.setFld (Reg.HD_GAIT n) 18 16 0
  (s3.sendLatch n 0).waitCommits n

/-- A write of HD_CTRL. A clear runs the power-off sequence; video stops at a frame start and the generator at the next. -/
def State.hdCtrl (s : State) (n value : Nat) : State :=
  let s1 := s.setReg (Reg.HD_CTRL n) (value % 2)
  if value.testBit 0 then (s1.ungate n).startHead n
  else if !s1.headUp n || (s1.head n).off ≠ 0 then s1
  else
    let s2 := if s1.edp n then s1.panelOff n else s1
    if (s2.head n).off ≠ 0 then s2
    else s2.setHead n { s2.head n with off := if s2.bit (Reg.HD_STATUS n) 30 then 2 else 3 }

def execHdCtrlWrite (head : Fin 8) (value : Nat) (s : State) : Host.Outcome State Fault Refusal :=
  .next (s.hdCtrl head.val value)

/-- A write of HD_PANEL_CTRL: power and backlight. -/
def State.panelCtrl (s : State) (n value : Nat) : State :=
  let s1 := s.setReg (Reg.HD_PANEL_CTRL n) (value % 4)
  let s2 := if !(value.testBit 1) && (s1.head n).blen then
      let t := s1.driveBl n false
      if t.panel n = 4 then t.setPanel n 3 else t
    else s1
  if value.testBit 0 then s2.panelOn n else s2.panelOff n

def execPanelPowerOn (head : Fin 8) (s : State) : Host.Outcome State Fault Refusal :=
  .next (s.panelCtrl head.val (putBits (s.reg (Reg.HD_PANEL_CTRL head.val)) 0 0 1))

def execPanelPowerOff (head : Fin 8) (s : State) : Host.Outcome State Fault Refusal :=
  .next (s.panelCtrl head.val (putBits (s.reg (Reg.HD_PANEL_CTRL head.val)) 0 0 0))

/-- HPD was not high within t_hpd_max: FAULT (R330). -/
def execPanelHpdTimeout (head : Fin 8) (s : State) : Host.Outcome State Fault Refusal :=
  let n := head.val
  if s.panel n = 1 then .next ((((s.driveVdd n false).setPanel n 7).offer 0x080C [(8, n)]).headEvent n 14) else .next s

/-- t_bl_on after video starts, with backlight set (On 4). -/
def execPanelBacklightOn (head : Fin 8) (s : State) : Host.Outcome State Fault Refusal :=
  let n := head.val
  if s.panel n = 3 ∧ s.bit (Reg.HD_PANEL_CTRL n) 1 = true then .next ((s.driveBl n true).setPanel n 4) else .next s

/-- t_bl_off: the idle pattern follows at the next frame start, which a stopped generator does not wait for (Off 2). -/
def execPanelBlOffElapsed (head : Fin 8) (s : State) : Host.Outcome State Fault Refusal :=
  let n := head.val
  if s.panel n = 5 ∧ (s.head n).off = 1 then
    if s.headUp n then .next (s.setHead n { s.head n with off := 2 })
    else .next ((s.setHead n { s.head n with off := 0 }).panelCool n)
  else .next s

/-- t_cycle after HDn_VDDEN fell: COOL ends, and a waiting power-on starts. -/
def execPanelCycleElapsed (head : Fin 8) (s : State) : Host.Outcome State Fault Refusal :=
  let n := head.val
  let s1 := s.setHead n { s.head n with vddFall := none }
  let s2 := if s1.panel n = 6 then s1.setPanel n 0 else s1
  if (s2.head n).wantOn && s2.bit (Reg.HD_PANEL_CTRL n) 0 then .next (s2.panelOn n) else .next s2

/-! ### Link training (R309, R326, R328) -/

/-- Lane rate of a rate code in Mbit/s (Table 12.8). -/
def laneRate (code : Nat) : Nat := [1620, 2160, 2430, 2700, 3240, 4320, 5400, 8100].getD code 0

/-- The gait to which a change in progress goes. -/
def State.goal (s : State) (n : Nat) : Nat :=
  if (s.head n).returning then (s.head n).oldGait else s.fld (Reg.HD_GAIT n) 12 8

/-- The gait for which the link is trained. -/
def State.linkGait (s : State) (n : Nat) : Nat :=
  if s.changing n && decide (3 ≤ s.gaitPhase n) && decide (s.gaitPhase n ≤ 4) then s.goal n else s.fld (Reg.HD_GAIT n) 4 0

/-- Need of gait `g` at head `n` in kbit/s (R309). -/
def State.need (s : State) (n g : Nat) : ℚ :=
  let bits : ℚ := if s.bit (Reg.HD_LINK_CFG n) 12 then (s.fld (Reg.HD_DSC_CFG n) 25 16 : ℚ) / 16 else 3 * (s.bpc n : ℚ)
  ((gaitOf g).khz : ℚ) * bits

/-- FEC is on: DP with DSC active. -/
def State.fec (s : State) (n : Nat) : Bool := s.bit (Reg.HD_LINK_CFG n) 12 && !s.edp n

/-- Capacity of a trained link in kbit/s (R309). -/
def State.capacity (s : State) (n rate lanes : Nat) : ℚ :=
  (lanes : ℚ) * (8 / 10) * ((laneRate rate : ℚ) * 1000) * (if s.fec n then 976 / 1000 else 1)

/-- The largest divisor of `va` that is at most 128 (R328). -/
def sliceHeight (va : Nat) : Nat := ((List.range 128).map (· + 1)).foldl (fun d k => if va % k = 0 then k else d) 1

/-- The bits of PPS byte `i` that R328 states, as (mask, value), at the places that DSC 1.2a gives them (PRESUMED, assumption
31): bits per component, block prediction, bits per pixel, picture and slice size. -/
def ppsBits (g : Gait) (bpc bpp slices i : Nat) : Nat × Nat :=
  let be := fun (v k : Nat) => (0xFF, v / 256 ^ (1 - k) % 256)
  match i with
  | 0 => (0xFF, 0x12)
  | 3 => (0xF0, bpc * 16)
  | 4 => (0x23, 0x20 + bpp / 256 % 4)
  | 5 => (0xFF, bpp % 256)
  | 6 | 7 => be g.va (i - 6)
  | 8 | 9 => be g.ha (i - 8)
  | 10 | 11 => be (sliceHeight g.va) (i - 10)
  | 12 | 13 => be (g.ha / slices) (i - 12)
  | _ => (0, 0)

/-- The PPS of the gait (R328): what the rule states, and for the rest what DSC 1.2a recommends (assumption 31). -/
def State.setPps (s : State) (n g : Nat) : State :=
  let bpp := s.fld (Reg.HD_DSC_CFG n) 25 16
  let code := s.fld (Reg.HD_DSC_CFG n) 1 0
  s.each (fun k t =>
    let w := (Config.dscPps g (s.fld (Reg.HD_LINK_CFG n) 11 10) bpp code k).toNat
    let bs := (List.range 4).map fun i =>
      let (m, v) := ppsBits (gaitOf g) (s.bpc n) bpp (2 ^ code) (4 * k + i)
      let b := bitsOf w (8 * i + 7) (8 * i)
      b ^^^ ((b ^^^ v) &&& m)
    t.setReg (Reg.HD_DSC_PPS n k) (ofLeBytes (bs.map (BitVec.ofNat 8)))) (List.range 32)

/-- A greatest value of HD_LINK_LAT: 2 µs, and with DSC two lines more (R310). -/
def latMax (g : Nat) (dsc : Bool) : Nat :=
  2000 + if dsc then (2 * ((gaitOf g).ht * 1000000 : ℚ) / ((gaitOf g).khz : ℚ)).floor.toNat else 0

/-- LINK_TRAINED. -/
def State.linkTrained (s : State) (n rate lanes : Nat) : State :=
  let dsc := s.bit (Reg.HD_LINK_CFG n) 12
  let fec := s.fec n
  let g := s.linkGait n
  let s1 := s.setReg (Reg.HD_LINK_STATUS n) (2 * 2 ^ 10 + b2n dsc * 2 ^ 9 + b2n fec * 2 ^ 8 + lanes % 8 * 16 + rate % 16)
  let s2 := s1.setBit (Reg.HD_STATUS n) 28 dsc
  let s3 := if dsc then s2.setPps n g else s2
  let s4 := (s3.setReg (Reg.HD_LINK_LAT n) (s3.free 20 % (latMax g dsc + 1))).took
  (s4.offer 0x0805 [(8, n), (8, rate), (8, lanes), (8, b2n fec), (8, b2n dsc)]).headEvent n 9

/-- LINK_FAIL, with the idle pattern on the link. -/
def State.linkFail (s : State) (n rate lanes : Nat) : State :=
  let s1 := (s.setReg (Reg.HD_LINK_STATUS n) (3 * 2 ^ 10)).setBit (Reg.HD_STATUS n) 30 false
  ((s1.setBit (Reg.HD_STATUS n) 28 false).offer 0x0807 [(8, n), (8, rate), (8, lanes)]).headEvent n 10

/-- A link configuration that Table 12.8 has: the rates between those of DP only in eDP mode, and 1, 2 or 4 lanes. -/
def linkOk (edp : Bool) (rate lanes : Nat) : Bool :=
  (if edp then decide (rate ≤ 7) else rate == 0 || rate == 3 || rate == 6 || rate == 7)
    && (lanes == 1 || lanes == 2 || lanes == 4)

/-- Training ends with its last configuration: locked on it or not (R324, R326). -/
def State.trainingDone (s : State) (n : Nat) (locked : Bool) (rate lanes : Nat) : State :=
  if s.link n ≠ 1 then s
  else
    let ok := locked && linkOk (s.edp n) rate lanes && decide (rate ≤ s.fld (Reg.HD_LINK_CFG n) 3 0) && decide (lanes ≤ s.fld (Reg.HD_LINK_CFG n) 6 4)
      && decide (s.need n (s.linkGait n) ≤ s.capacity n rate lanes)
    let s1 := if ok then s.linkTrained n rate lanes else s.linkFail n rate lanes
    if s1.changing n && s1.gaitPhase n == 4 then
      if ok || (s1.head n).returning then s1.setHead n { s1.head n with linkDone := true }
      else (s1.setFld (Reg.HD_GAIT n) 18 16 3).setHead n { s1.head n with returning := true, linkDone := false }
    else s1

def execLinkTrainingDone (head : Fin 8) (locked : Bool) (rate lanes : Nat) (s : State) : Host.Outcome State Fault Refusal :=
  .next (s.trainingDone head.val locked rate lanes)

/-- Every 1 s in LINK_FAIL with HPD high (R326). -/
def execLinkRetry (head : Fin 8) (s : State) : Host.Outcome State Fault Refusal :=
  if s.link head.val = 3 then .next (s.train head.val) else .next s

/-- Lock lost: counted, recorded, and the head retrains. `lanes` are DPCD bytes 0x00202 to 0x00205 (R326, R327, R485). -/
def State.lockLost (s : State) (n lanes : Nat) : State :=
  if s.link n = 2 then
    let s1 := (s.count (Reg.HD_LINK_RETRAINS n) 31 0 1).offer 0x0806 [(8, n), (32, lanes)]
    (s1.headEvent n 8).train n
  else s

def execLinkLockLost (head : Fin 8) (lanes : Nat) (s : State) : Host.Outcome State Fault Refusal :=
  .next (s.lockLost head.val lanes)

/-- The end of a low pulse of HPD of `ns` (R327): `irq` is DPCD byte 0x00201, `lanes` bytes 0x00202 to 0x00205 as read. -/
def execHpdLow (head : Fin 8) (ns irq lanes : Nat) (lost : Bool) (s : State) : Host.Outcome State Fault Refusal :=
  let n := head.val
  if !s.hpd n then .next s
  else if 2000000 ≤ ns then
    let s1 := (s.setBit (Reg.HD_STATUS n) 29 false).linkOff n
    .next ((s1.offer 0x0804 [(8, n), (8, 0)]).headEvent n 6)
  else if 250000 ≤ ns then
    let s1 := (s.offer 0x080F [(8, n), (8, irq)]).headEvent n 7
    .next (if lost then s1.lockLost n lanes else s1)
  else .next s

/-- HPD has been high for 2 ms (R327). -/
def execHpdRise (head : Fin 8) (s : State) : Host.Outcome State Fault Refusal :=
  let s1 := s.setBit (Reg.HD_STATUS head.val) 29 true
  if s1.changing head.val && decide (2 ≤ s1.gaitPhase head.val) && decide (s1.gaitPhase head.val ≤ 3) then .next s1
  else .next (s1.train head.val)

/-! ### The composers at a frame start (R291, R293) -/

/-- The last write of a writeback frame is visible. Mode once is off after the first frame of the commit that set it: a commit
applied since the frame began keeps its own (R291). -/
def State.wbEnd (s : State) (c : Nat) : State :=
  match (s.comp c).wb with
  | none => s
  | some (f, _) =>
    let s0 := s.wbFrame c
    let s1 := s0.setComp c { s0.comp c with wb := none }
    let s2 := (s1.setReg (Reg.CMP_WB_STATUS c) (f * 2 ^ 16)).cmpEvent c 3
    if !(s.comp c).wbFresh && bitsOf (s2.frameAct c 0x50) 1 0 = 1 then s2.setFld (Reg.CMP_CTRL c + 0x150) 1 0 0 else s2

/-- WRITEBACK_FRAME_DONE. -/
def execWritebackFrameDone (composer : Fin 10) (s : State) : Host.Outcome State Fault Refusal := .next (s.wbEnd composer.val)

/-- The canvas output of the frame in composition is on. -/
def State.canvasOn (s : State) (c : Nat) : Bool := (s.frameAct c 0x44).testBit 2

/-- The frame of C8 or C9 in composition has finished: its canvas lines are sent and its writeback is visible. -/
def State.frameFinished (s : State) (c : Nat) : Bool :=
  (s.comp c).wb.isNone && (!s.canvasOn c || decide ((s.canvasRect c).2.2.2 ≤ (s.comp c).lines))

/-- What the composer does before anything new becomes active: a writeback of C0–C7 ends with its frame; C8 and C9 abandon
a frame that has not finished by the second frame start (R293). The Bool says that a frame goes on. -/
def State.frameEnds (s : State) (c : Nat) : State × Bool :=
  if c < 8 then (s.wbEnd c, false)
  else
    match (s.comp c).frame with
    | none => (s, false)
    | some (f, k) =>
      if s.frameFinished c then (s.setComp c { s.comp c with frame := none }, false)
      else if k = 0 then (s.setComp c { s.comp c with frame := some (f, 1) }, true)
      else
        let s1 := (s.setComp c { s.comp c with frame := none, wb := none }).setBit (Reg.CMP_WB_STATUS c) 0 false
        ((s1.offer 0x0704 [(8, c), (16, f)]).cmpEvent c 4, false)

/-- Status of the layers for a new frame. -/
def State.layerStatus (s : State) (c : Nat) : State :=
  s.each (fun l t => t.setReg (Reg.CMP_L_STATUS c l) (b2n (t.layAct c l).enable)) (List.range 16)

/-- A new frame of composer `c` begins. -/
def State.frameBegins (s : State) (c : Nat) : State :=
  let f := s.fld (Reg.CMP_STATUS c) 15 0
  let wb := (s.cmpAct c 0x44).testBit 1 && bitsOf (s.cmpAct c 0x50) 1 0 != 0
  let s1 := s.setComp c { s.comp c with
    blanked := [], malformed := [], lines := 0, wb := if wb then some (f, false) else none
    frame := if c < 8 then none else some (f, 0)
    frameSet := [0x44, 0x48, 0x4C, 0x50, 0x54, 0x58, 0x5C, 0x60, 0x64].map fun o => (o, s.cmpAct c o)
    wbFresh := false, shown := [] }
  (s1.setBit (Reg.CMP_WB_STATUS c) 0 wb).layerStatus c

/-- A head commit applied at composer `c`: HDn_BLPWM follows HD_BL_PWM (R331), and a writeback frame in progress is not the
commit's own. -/
def State.headApplied (s : State) (c : Nat) : State :=
  let s1 := s.setComp c { s.comp c with wbFresh := true }
  if decide (c < 8) && (s.head c).blen then s1.drivePwm c else s1

/-- Composer `c` at a frame start of its timing head, whose frame number is `f`. A frame of C8 or C9 that goes on keeps the pixels
of its own set. -/
def State.compStart (s : State) (c f : Nat) : State :=
  let (s0, goesOn) := s.frameEnds c
  let s1 := if goesOn then s0.show c 0 0 (s0.outSize c).1 (s0.outSize c).2 else s0
  let s2 := if s1.bit (Reg.CMP_CTRL c) 0 then s1 else s1.setBit (Reg.CMP_STATUS c) 31 false
  let head := s2.cmp.commits.any fun x => x.kind != 0 && x.latched && x.code == 0 && x.members.contains c
  let s3' := (s2.applyGrants c).applyCommits c
  let s3 := if head then s3'.headApplied c else s3'
  if !s3.bit (Reg.CMP_STATUS c) 31 then
    (s3.setComp c { s3.comp c with wb := none, frame := none, shown := [] }).setBit (Reg.CMP_WB_STATUS c) 0 false
  else
    let s4 := s3.setFld (Reg.CMP_STATUS c) 15 0 f
    if goesOn then s4 else s4.frameBegins c

/-! ### Genlock (R318–R320) -/

/-- The chain of HEAD sources from `n` leads back to `n`. -/
def State.refLoops (s : State) (n : Nat) : (m fuel : Nat) → Bool
  | _, 0 => false
  | m, k + 1 =>
    if s.fld (Reg.HD_GENLOCK m) 1 0 = 3 then
      let r := s.fld (Reg.HD_GENLOCK m) 6 4
      if r = n then true else State.refLoops s n r k
    else false

/-- Error of a frame start at `t` against targets base + k × P: the signed distance to the nearest. -/
def targetError (t base : Int) (p : ℚ) : ℚ :=
  let d : ℚ := ((t - base : Int) : ℚ)
  d - p * ((d / p + 1 / 2).floor : ℚ)

/-- m of Table 12.5. -/
def State.genM (s : State) (n : Nat) : Nat := max 1 (s.fld (Reg.HD_GENLOCK n) 25 16)

/-- Error of a frame start at `t` against the targets base, base + P, …, base + m × P of one reference event. -/
def targetWithin (t base : Int) (p : ℚ) (m : Nat) : ℚ :=
  let d : ℚ := ((t - base : Int) : ℚ)
  d - p * ((min (d / p + 1 / 2).floor (m : Int) : Int) : ℚ)

/-- The error of a frame start of head `n` at `t`, none without a valid reference. -/
def State.genError (s : State) (n t : Nat) : Option ℚ :=
  let phase := signedOf 32 (s.reg (Reg.HD_GENLOCK_PHASE n))
  let p := s.framePeriod n
  match s.fld (Reg.HD_GENLOCK n) 1 0 with
  | 1 => some (targetError t phase p)
  | 2 =>
    match s.hd.sync with
    | some e =>
      if (s.head n).syncBad || decide (2 * ((s.genM n : ℚ) * p) ≤ (((t - e : Nat) : ℚ))) then none
      else some (targetError t ((e : Int) + phase) p)
    | none => none
  | 3 =>
    let r := s.fld (Reg.HD_GENLOCK n) 6 4
    if s.headOn r && (s.head r).begun && !s.changing r then some (targetWithin t ((s.frameTime r : Int) + phase) p (s.genM n)) else none
  | _ => none

/-- The state after a frame start, with the new counts of good and bad frames. -/
def genNext (st good bad : Nat) (err : Option ℚ) : Nat × Nat × Nat :=
  match st, err with
  | 0, _ => (1, 0, 0)
  | 1, some e => if |e| ≤ 1000 then (if 16 ≤ good + 1 then (2, 0, 0) else (1, good + 1, 0)) else (1, 0, 0)
  | 1, none => (1, 0, 0)
  | 2, some e => if 10000 < |e| then (if 4 ≤ bad + 1 then (3, 0, 0) else (2, 0, bad + 1)) else (2, 0, 0)
  | 2, none => (3, 0, 0)
  | _, some _ => (1, 0, 0)
  | _, none => (3, 0, 0)

/-- Whole lines that a crash adds to the frame: the error to come falls below one line, by at most V_T − 1 lines (R319). -/
def State.crashLines (s : State) (n : Nat) (e : ℚ) : Nat :=
  let wait : ℚ := if e ≤ 0 then -e else s.framePeriod n - e
  min (wait / s.lineNs n).floor.toNat ((s.gait n).vt - 1)

/-- The pixel clock slews by at most 20 ppm, within pull_ppm: where it lands is free (R319). -/
def State.slew (s : State) (n : Nat) : State :=
  let pull : Int := 100 * ((s.fld (Reg.HD_GENLOCK n) 31 28 : Int) + 1)
  let old := signedOf 12 (s.fld (Reg.HD_GENLOCK_STATUS n) 27 16)
  let new := max (-pull) (min pull (old + ((s.free 8 % 41 : Nat) : Int) - 20))
  (s.setFld (Reg.HD_GENLOCK_STATUS n) 27 16 (toSigned 12 new)).took

/-- Genlock at a frame start of head `n` at `t`. In FREE the pixel clock follows XIN, with no offset (Table 12.5). -/
def State.genlockStep (s : State) (n t : Nat) : State :=
  let k := Reg.HD_GENLOCK_STATUS n
  let cycle := s.refLoops n n 8
  let free := s.fld (Reg.HD_GENLOCK n) 1 0 == 0 || cycle
  let st := s.fld k 31 30
  let x := s.head n
  let err := if free then none else s.genError n t
  let (st', good, bad) := if free then (0, 0, 0) else genNext st x.good x.bad err
  let e10 := err10 (err.getD 0)
  let crash := s.bit (Reg.HD_GENLOCK n) 8 && st' == 1 && err.any fun e => decide (s.lineNs n ≤ |e|)
  let s1 := (s.setBit k 29 cycle).setHead n
    { x with good := good, bad := bad, extra := if crash then s.crashLines n (err.getD 0) else 0 }
  let s2 := if err.isSome then s1.setFld k 15 0 (toSigned 16 (clampInt 16 e10)) else s1
  let s3 := if free then s2.setFld k 27 16 0 else if err.isSome && st' != 3 then s2.slew n else s2
  s3.genChange n st' e10

/-- A rising edge of SYNC_IN: every head that follows it judges the interval (R320). -/
def execSyncInEdge (s : State) : Host.Outcome State Fault Refusal :=
  let t := s.clk.stm
  let s1 := match s.hd.sync with
    | some e => s.each (fun n u =>
        let want : ℚ := (u.genM n : ℚ) * u.framePeriod n
        let got : ℚ := ((t - e : Nat) : ℚ)
        u.setHead n { u.head n with syncBad := decide (want / 1000 < |got - want|) }) (List.range 8)
    | none => s
  .next { s1 with hd := { s1.hd with sync0 := s1.hd.sync, sync := some t } }

/-! ### Gait changes (R322–R324) -/

/-- The checks of Table 11.6 of one set of words against an output of `ow` × `oh`: code and layer. -/
def State.setCheck (s : State) (n ow oh : Nat) (g : Nat → Nat) (layers : List Nat) (safety head : Bool) : Nat × Nat :=
  let bad := layers.filterMap fun l =>
    match s.layerHolder n l with
    | some p =>
      let c := s.checkLayer (fun o => g (Reg.CMP_L_CTRL n l + o)) (s.reg (Reg.CMP_L_DECL n l)) p ow oh
      if c = 0 then none else some (c, l)
    | none => none
  let safe := if safety then s.checkSafety n (fun o => g (Reg.CMP_S_CTRL n + o)) ow oh else 0
  let regs := if safety then s.checkRegions g n ow oh (s.ownerRegions n) else 0
  let hd := if head then s.checkHead n g ow oh else 0
  match bad with
  | b :: _ => b
  | [] => if safe ≠ 0 then (safe, 16) else if regs ≠ 0 then (regs, 31) else (hd, 31)

/-- The active set of Cn and every set latched but not yet active, against gait `g` (R322). -/
def State.gaitCheck (s : State) (n g : Nat) : Nat × Nat :=
  let (ow, oh) := ((gaitOf g).ha, (gaitOf g).va)
  let act := s.setCheck n ow oh s.actWord (List.range 16) true true
  let sets := (s.cmp.commits.filter fun x => x.latched && x.code == 0 && x.members.contains n).map fun x =>
    s.setCheck n ow oh (s.pendWord x.words) x.layers x.safety (x.kind != 0)
  (((act :: sets).find? fun r => r.1 != 0).getD (0, 31))

/-- The gaits of HD_GAITS. -/
def State.gaitList (s : State) (n : Nat) : List Nat :=
  let w := s.reg (Reg.HD_GAITS n)
  [bitsOf w 5 0, bitsOf w 11 6, bitsOf w 17 12, bitsOf w 23 18, bitsOf w 29 24].filter (· < 24)

/-- Reason of Table 12.7, or 0, with check code and layer. -/
def State.gaitReason (s : State) (n g : Nat) : Nat × Nat × Nat :=
  if !(s.gaitList n).contains g then (2, 0, 0)
  else if s.changing n then (1, 0, 0)
  else if s.bit (Reg.CMP_GROUP n) 3 then (4, 0, 0)
  else if s.bit Reg.SEC_CLAIM n then (5, 0, 0)
  else
    let r := s.gaitCheck n g
    if r.1 ≠ 0 then (3, r.1, r.2) else (0, 0, 0)

/-- A write of HD_GAIT_REQ with go set. -/
def State.gaitRequest (s : State) (n g : Nat) : State :=
  let (reason, check, layer) := s.gaitReason n g
  let k := Reg.HD_GAIT_STATUS n
  if reason ≠ 0 then
    let s1 := s.setReg k (check * 2 ^ 24 + layer * 2 ^ 16 + reason * 2 ^ 8 + s.fld k 3 0 % 16)
    (s1.setBit k 2 true).offer 0x0809 [(8, n), (8, g), (8, reason), (8, check), (8, layer)]
  else if !s.headOn n then s.setFld (Reg.HD_GAIT n) 4 0 g
  else
    let old := s.fld (Reg.HD_GAIT n) 4 0
    let s1 := s.setReg (Reg.HD_GAIT n) (2 ^ 31 + 2 ^ 16 + g * 2 ^ 8 + old)
    let s2 := (s1.setBit k 0 true).setBit (Reg.HD_STATUS n) 27 true
    let s3 := s2.setHead n { s2.head n with oldGait := old, reqTime := s2.clk.stm, returning := false, linkDone := false }
    ((s3.sendLatch n 0).waitCommits n).mirrorEvent n 6

def execGaitRequest (head : Fin 8) (gait : Nat) (s : State) : Host.Outcome State Fault Refusal :=
  .next (s.gaitRequest head.val (gait % 32))

/-- The head PLL relocks: phase 4, and training starts (Table 12.6, steps 4 and 5). -/
def execHeadPllLocked (head : Fin 8) (s : State) : Host.Outcome State Fault Refusal :=
  let n := head.val
  if s.changing n ∧ s.gaitPhase n = 3 then .next ((s.setFld (Reg.HD_GAIT n) 18 16 4).train n) else .next s

/-- End of the black frame at the new gait: GAIT_DONE, or GAIT_FAILED back at the old gait. -/
def State.gaitEnd (s : State) (n : Nat) : State :=
  let x := s.head n
  let s1 := ((s.setBit (Reg.HD_GAIT n) 31 false).setBit (Reg.HD_GAIT_STATUS n) 0 false).setBit (Reg.HD_STATUS n) 27 false
  if x.returning then
    let s2 := (s1.setFld (Reg.HD_GAIT n) 18 16 0).setBit (Reg.HD_GAIT_STATUS n) 3 true
    let s3 := s2.setHead n { x with returning := false }
    (s3.offer 0x080A [(8, n), (8, s.fld (Reg.HD_GAIT n) 12 8)]).headEvent n 12
  else
    let s2 := (s1.setFld (Reg.HD_GAIT n) 18 16 (if x.applied then 0 else 6)).setBit (Reg.HD_GAIT_STATUS n) 1 true
    let ms := (s.clk.stm - x.reqTime) / 1000000
    ((s2.offer 0x0808 [(8, n), (8, x.oldGait), (8, s.fld (Reg.HD_GAIT n) 4 0), (32, ms)]).headEvent n 11).mirrorEvent n 6

/-! ### Frame instants (R310, R311) -/

/-- Video and panel at a frame start: a link just trained carries video (On 3), and the steps Off 2 and Off 3 advance. -/
def State.videoStep (s : State) (n : Nat) : State :=
  let x := s.head n
  match x.off with
  | 2 => (s.linkOff n).setHead n { x with off := 3 }
  | 0 | 1 =>
    if s.link n = 2 ∧ (s.edp n = false ∨ 2 ≤ s.panel n ∧ s.panel n ≤ 5) then
      let s1 := s.setBit (Reg.HD_STATUS n) 30 true
      if s1.edp n && s1.panel n == 2 then s1.setPanel n 3 else s1
    else s
  | _ => s

/-- Off 3 and what follows it: the panel cools, and a disabled head stops; one enabled again meanwhile trains. -/
def State.offEnds (s : State) (n : Nat) : State :=
  let s1 := s.setHead n { s.head n with off := 0 }
  let s2 := if s1.edp n && s1.panel n == 5 then s1.panelCool n else s1
  if s2.bit (Reg.HD_CTRL n) 0 then (if s2.edp n then s2 else s2.train n) else s2.stopGen n

/-- A frame starts (Table 12.3, step 1). -/
def State.frameBegin (s : State) (n : Nat) : State :=
  let t := s.clk.stm
  let x := s.head n
  let s1 := s.setHead n { x with starts := x.starts + 1, begun := true, fills := [], applied := false, extra := 0 }
  let f := (s1.fld (Reg.HD_FRAME n) 31 16 + 1) % 65536
  let s2 := (s1.setReg (Reg.HD_FRAME n) (f * 2 ^ 16)).setReg64 (Reg.HD_FRAME_TIME_LO n) (Reg.HD_FRAME_TIME_HI n) t
  let s3 := s2.each (fun c u => u.compStart c f) (s2.timedBy n)
  let s4 := if s3.gaitPhase n == 5 then s3.gaitEnd n
    else if s3.gaitPhase n == 6 && (s3.head n).applied then s3.setFld (Reg.HD_GAIT n) 18 16 0
    else s3
  let s5 := (s4.reqAt n (s4.head n).starts t).repeatCheck n (s4.head n).starts
  let s6 := s5.genlockStep n t
  let s7 := (s6.sendLatch n (t + s6.latchOffset n)).imFrame n
  ((s7.videoStep n).pruneMirrors n).drainPorts

/-- FRAME_START: line 0, pixel 0 of head `n` now. -/
def State.frameStart (s : State) (n : Nat) : State :=
  if !s.headUp n then s
  else
    let s1 := if (s.head n).off = 3 then s.offEnds n else s
    if !s1.headUp n then s1
    else if !s1.changing n then s1.frameBegin n
    else
      match s1.gaitPhase n with
      | 1 => (s1.setFld (Reg.HD_GAIT n) 18 16 2).frameBegin n
      | 2 => ((s1.setFld (Reg.HD_GAIT n) 18 16 3).linkOff n).setBit (Reg.HD_STATUS n) 31 false
      | 4 =>
        if (s1.head n).linkDone || !s1.canTrain n then
          let s2 := ((s1.setFld (Reg.HD_GAIT n) 18 16 5).setBit (Reg.HD_STATUS n) 31 true).setFld (Reg.HD_GAIT n) 4 0 (s1.goal n)
          let s3 := s2.setHead n { s2.head n with good := 0, bad := 0 }
          (if 2 ≤ s3.fld (Reg.HD_GENLOCK_STATUS n) 31 30 then s3.genChange n 1 0 else s3).frameBegin n
        else s1
      | 5 => s1.frameBegin n
      | _ => s1

def execFrameStart (head : Fin 8) (s : State) : Host.Outcome State Fault Refusal := .next (s.frameStart head.val)

/-- The head is inside a frame. -/
def State.inFrame (s : State) (n : Nat) : Bool := s.headOn n && (s.head n).begun

/-- LINE_MATCH: a line at or above V_T never matches. -/
def execLineMatch (head : Fin 8) (s : State) : Host.Outcome State Fault Refusal :=
  let n := head.val
  if s.inFrame n && decide (s.fld (Reg.HD_LINE_CMP n) 13 0 < (s.gait n).vt) then .next (s.headEvent n 0) else .next s

/-- FRAME_DONE. -/
def execFrameDone (head : Fin 8) (s : State) : Host.Outcome State Fault Refusal :=
  if s.inFrame head.val then .next (s.headEvent head.val 1) else .next s

/-- VBLANK_START, with the UNDERRUN record of the frame (R317, R332). -/
def execVblankStart (head : Fin 8) (s : State) : Host.Outcome State Fault Refusal :=
  let n := head.val
  if !s.inFrame n then .next s
  else
    let s1 := s.setReg64 (Reg.HD_VBLANK_TIME_LO n) (Reg.HD_VBLANK_TIME_HI n) s.clk.stm
    let s2 := match (s1.head n).fills with
      | [] => s1
      | f :: l => s1.offerRateN 0x0803 n 100000000 (l.length + 1) [(8, n), (16, s1.fld (Reg.HD_FRAME n) 31 16), (16, f.1)] []
    .next (s2.headEvent n 2)

/-- UNDERRUN: the group of `pixel` is due at active line `line` and the pixel FIFO holds none (R317). -/
def execUnderrun (head : Fin 8) (line pixel : Nat) (s : State) : Host.Outcome State Fault Refusal :=
  let n := head.val
  let x := s.head n
  if !s.inFrame n || decide ((s.gait n).va ≤ line) || decide ((s.gait n).ha ≤ pixel) || x.fills.any (fun f => f.1 == line) then
    .next s
  else
    let s1 := s.setHead n { x with fills := x.fills ++ [(line, pixel / 4 * 4)] }
    let s2 := (s1.count (Reg.HD_UNDERRUN_COUNT n) 31 0 1).setReg (Reg.HD_UNDERRUN_LAST n)
      (s1.fld (Reg.HD_FRAME n) 31 16 * 2 ^ 16 + line)
    if x.fills.isEmpty then .next ((s2.setBit (Reg.HD_STATUS n) 9 true).headEvent n 3) else .next s2

/-! ### Layer fetches (R289) -/

/-- The blocks of a BBC layer whose headers lie in [addr, addr + len). -/
def State.layHeaders (s : State) (c l addr len : Nat) : List Nat :=
  let y := s.layAct c l
  if l < 16 && y.layout == 1 then
    ((List.range (len / 16 + 1)).map (· + (addr - y.src + 15) / 16)).filter fun k =>
      decide (addr ≤ y.src + 16 * k) && decide (y.src + 16 * k + 16 ≤ addr + len)
        && decide (k < bbcBW (fmtE y.fmt) y.w * bbcBH (fmtE y.fmt) y.h)
  else []

/-- Layer fetch data returns: bytes [addr, addr + len), a buffer address. A refused or poisoned fetch blanks its pixels for
the frame; poisoned safety data reads as zero. Layer 16 is the safety layer. -/
def State.fetchReturn (s0 : State) (c l addr len : Nat) : State :=
  let p := (s0.layerHolder c l).getD 64
  let m : Master := if l = 16 then .safety else .layer
  let den := match spaceOf addr with
    | .dram => s0.refusedIn m p false .dram (localOf addr) len
    | .basin => s0.refusedIn m p false .basin (localOf addr) len
    | _ => some 0
  let ecc := if den.isSome then none else s0.poisonIn addr len
  let s := match ecc with
    | some w => s0.eccSeen w
    | none => if den.isSome then s0 else s0.touchMem addr len
  let gran := match den with
    | some g => some g
    | none => if l = 16 then none else ecc.map eccGran
  let x := s.comp c
  match gran with
  | some g =>
    let s1 := s.setComp c { x with blanked := (l, addr, len) :: x.blanked }
    let s2 := if l < 16 then s1.setBit (Reg.CMP_L_STATUS c l) 1 true else s1
    (s2.offerRate 0x0702 0 1000000 [(8, c), (8, l)] [(32, g)]).cmpEvent c 2
  | none =>
    match (s.layHeaders c l addr len).find? fun k =>
        bbcMalformed (fmtE (s.layAct c l).fmt) (s.bufRead [] ((s.layAct c l).src + 16 * k) 16) with
    | some k =>
      let s1 := s.setBit (Reg.CMP_L_STATUS c l) 2 true
      if x.malformed.contains l then s1
      else
        let s2 := s1.setComp c { x with malformed := l :: x.malformed }
        (s2.offer 0x0703 [(8, c), (8, l), (32, k)]).cmpEvent c 1
    | none => s

def execLayerFetchReturn (composer : Fin 10) (layer : Fin 17) (addr len : Nat) (s : State) :
    Host.Outcome State Fault Refusal := .next (s.fetchReturn composer.val layer.val addr len)

/-! ### The AUX channel (R329) -/

/-- A write of HD_AUX_CMD, dropped while busy: the transaction goes out. -/
def State.auxCmd (s : State) (n cmd len : Nat) : State :=
  if s.bit (Reg.HD_AUX_STATUS n) 0 then s
  else
    let s1 := s.setReg (Reg.HD_AUX_CMD n) (len % 16 * 2 ^ 8 + cmd % 16)
    if cmd = 0 ∨ 6 < cmd then s1
    else
      let s2 := (s1.setBit (Reg.HD_AUX_STATUS n) 0 true).setHead n { s1.head n with auxRetries := 0 }
      s2.emitOn 2 (.aux n cmd (s2.fld (Reg.HD_AUX_ADDR n) 19 0)
        (if cmd % 2 = 1 then ((List.range 4).flatMap fun k => leBytes 4 (s2.reg (Reg.HD_AUX_DATA n k))).take (len % 16 + 1) else []))

def execAuxNativeWrite (head : Fin 8) (len : Fin 16) (s : State) : Host.Outcome State Fault Refusal :=
  .next (s.auxCmd head.val 1 len.val)

def execAuxNativeRead (head : Fin 8) (len : Fin 16) (s : State) : Host.Outcome State Fault Refusal :=
  .next (s.auxCmd head.val 2 len.val)

def execAuxI2cWrite (head : Fin 8) (len : Fin 16) (s : State) : Host.Outcome State Fault Refusal :=
  .next (s.auxCmd head.val 3 len.val)

def execAuxI2cRead (head : Fin 8) (len : Fin 16) (s : State) : Host.Outcome State Fault Refusal :=
  .next (s.auxCmd head.val 4 len.val)

def execAuxI2cWriteMot (head : Fin 8) (len : Fin 16) (s : State) : Host.Outcome State Fault Refusal :=
  .next (s.auxCmd head.val 5 len.val)

def execAuxI2cReadMot (head : Fin 8) (len : Fin 16) (s : State) : Host.Outcome State Fault Refusal :=
  .next (s.auxCmd head.val 6 len.val)

/-- Bytes read go into HD_AUX_DATA. -/
def State.auxStore (s : State) (n : Nat) (bs : List Byte) : State :=
  let old := (List.range 4).flatMap fun k => leBytes 4 (s.reg (Reg.HD_AUX_DATA n k))
  let new := bs.take 16 ++ old.drop (bs.take 16).length
  s.each (fun k t => t.setReg (Reg.HD_AUX_DATA n k) (ofLeBytes ((new.drop (4 * k)).take 4))) (List.range 4)

/-- A transaction ends: done or failed. -/
def State.auxEnd (s : State) (n reply : Nat) (ok : Bool) : State :=
  let k := Reg.HD_AUX_STATUS n
  let s1 := ((s.setBit k 0 false).setFld k 9 8 reply).setBit k (if ok then 1 else 2) true
  let s2 := if ok then s1 else s1.offer 0x080D [(8, n), (8, reply), (32, s1.fld (Reg.HD_AUX_ADDR n) 19 0)]
  s2.headEvent n 15

/-- AUX_REPLY: 0 ACK with the bytes read, 1 NACK, 2 DEFER, 3 no reply; the last two are retried up to 7 times. -/
def State.auxReply (s : State) (n reply : Nat) (bs : List Byte) : State :=
  if !s.bit (Reg.HD_AUX_STATUS n) 0 then s
  else
    let cmd := s.fld (Reg.HD_AUX_CMD n) 3 0
    let len := s.fld (Reg.HD_AUX_CMD n) 11 8
    match reply with
    | 0 => ((if cmd % 2 = 0 then s.auxStore n (bs.take (len + 1)) else s).auxEnd n 0 true)
    | 1 => s.auxEnd n 1 false
    | r =>
      if (s.head n).auxRetries < 7 then
        let s1 := s.setHead n { s.head n with auxRetries := (s.head n).auxRetries + 1 }
        s1.emitOn 2 (.aux n cmd (s1.fld (Reg.HD_AUX_ADDR n) 19 0)
          (if cmd % 2 = 1 then ((List.range 4).flatMap fun k => leBytes 4 (s1.reg (Reg.HD_AUX_DATA n k))).take (len + 1) else []))
      else s.auxEnd n r false

def execAuxReply (head : Fin 8) (reply : Fin 4) (data : List Byte) (s : State) : Host.Outcome State Fault Refusal :=
  .next (s.auxReply head.val reply.val data)

end Sys2Proof.Machine
end

