-- ==== Sys2Proof/Machine/NetOps.lean ====
section
/-! DEFINITION. What every sender on a network port shares: the traffic classes of Table 15.1, the frames that wait for their
port and the one on its wire (R387, R389, R392). -/

namespace Sys2Proof.Machine

def State.netOn (s : State) (p : Nat) : Bool := s.bit Reg.NET_CTRL p
def State.netUp (s : State) (p : Nat) : Bool := s.bit (Reg.NETP_STATUS p) 31
def State.netPair (s : State) : Bool := s.bit Reg.NET_CFG 8

/-- STM_OFS, and PTP time as the device has it (R395). -/
def State.stmOfs (s : State) : Nat := s.reg64 Reg.STM_OFS_LO Reg.STM_OFS_HI
def State.ptpTime (s : State) : Int := (s.clk.stm : Int) - (s.stmOfs : Int)

/-- Index of the media clock now: samples of PTP time at 48 kHz (Table 15.4). -/
def State.mediaNow (s : State) : Int := s.ptpTime * 48000 / 1000000000

/-- `n` frames queued for a port that is down are discarded and counted (R392). -/
def State.netDropped (s : State) (p n : Nat) : State := s.setReg (Reg.NETP_TX_DROPPED p) (s.reg (Reg.NETP_TX_DROPPED p) + n)

/-! ### Traffic classes (Table 15.1) -/

/-- Priority of a kind of frame: 1 sACN data, 2 universe discovery, 3 PTP, 4 AES67, 5 ARP, 6 ICMP, 7 IGMP. -/
def netClass (kind : Nat) : Nat :=
  match kind with
  | 3 => 1
  | 4 => 2
  | 1 | 2 => 3
  | _ => 4

/-- DSCP and 802.1Q PCP of a class. -/
def classDscp (c : Nat) : Nat := if c = 1 then 46 else if c = 2 then 34 else 0
def classPcp (c : Nat) : Nat := if c = 1 then 6 else if c = 2 then 5 else if c = 3 then 4 else 0

/-- The tag of a frame of class `c` on port `p` (R387). -/
def State.netTag (s : State) (p c : Nat) : Option (Nat × Nat) :=
  if s.bit (Reg.NETP_CFG p) 16 then some (classPcp c, s.fld (Reg.NETP_CFG p) 31 20) else none

/-! ### The wire (R389) -/

/-- Bytes of a PTP message by its type (IEEE 1588; assumption 37). -/
def ptpBytes (type : Nat) : Nat := if type = 11 then 64 else if type = 2 ∨ type = 3 ∨ type = 9 then 54 else 44

/-- Bytes of a frame's payload: the IPv4 packet, or the ARP packet. -/
def netBytes (kind : Nat) (data : List Nat) : Nat :=
  match kind with
  | 1 | 2 => 28 + (data.length - 1)
  | 3 => 28 + ptpBytes (data.getD 0 0)
  | 4 => 40 + 3 * (data.length - 6)
  | 5 => 28
  | 6 => 28 + (data.length - 2)
  | _ => if data.getD 0 0 = 2 then 32 else 40

/-- Nanoseconds that a frame takes on the wire, preamble and gap with it, rounded up: 10 or 1 Gbit/s (R387). -/
def State.wireNs (s : State) (p kind : Nat) (data : List Nat) : Nat :=
  let n := max 64 (netBytes kind data + 18 + (if s.bit (Reg.NETP_CFG p) 16 then 4 else 0)) + 20
  if s.bit (Reg.NETP_CFG p) 0 then 8 * n else (4 * n + 4) / 5

/-- The timestamp units stamp PTP event messages at the balls (R394): what a Sync of one step, a Pdelay_Resp, a two-step
Sync's follow-up and the device's own delay request hold of the instant `t` at which the message leaves. -/
def stampPtp (oneStep : Bool) (t : Nat) (kind : Nat) (data : List Nat) : List Nat :=
  match kind, data with
  | 3, [0, q, w] => [0, q, if oneStep then t else w]
  | 3, [3, q, src, t2, _] => [3, q, src, t2, t]
  | _, d => d

/-- The follow-up of the two-step Sync `q` takes its time. -/
def TxFrame.follow (f : TxFrame) (p q t : Nat) : TxFrame :=
  match f.kind, f.data with
  | 3, [8, r, w] => { f with data := [8, r, if f.port = p ∧ r = q then t else w] }
  | _, _ => f

/-- A frame goes onto the wire of its port at `at'`. -/
def State.netLeave (s : State) (p kind : Nat) (data : List Nat) (at' : Nat) : State :=
  let t := toSigned 80 ((at' : Int) - (s.stmOfs : Int))
  let d := stampPtp (s.bit Reg.NET_PTP_CFG 15) t kind data
  let net : Net := { s.net with
    wire := s.net.wire.set p (at' + s.wireNs p kind data)
    waiting := if kind = 3 ∧ d.getD 0 0 = 0 then s.net.waiting.map fun f => f.follow p (d.getD 1 0) t else s.net.waiting
    req := if kind = 3 ∧ (d.getD 0 0 = 1 ∨ d.getD 0 0 = 2) then some (d.getD 1 0, at') else s.net.req }
  let s1 : State := { s with net := net }
  (s1.setReg (Reg.NETP_TX_FRAMES p) (s1.reg (Reg.NETP_TX_FRAMES p) + 1)).emitOn 1
    (.frame p kind (classDscp (netClass kind)) (s1.netTag p (netClass kind)) d)

/-- The frame that port `p` takes at a frame boundary: the oldest of the highest class at most `c`; a packet of the light
engine, which its own command sends, goes before class 4 (R389). -/
def State.netPick (s : State) (p c : Nat) : Option TxFrame :=
  let light := s.lo.tx.any fun x => x.port == p
  let of := fun k => s.net.waiting.find? fun f => f.port == p && netClass f.kind == k
  [1, 2, 3, 4].findSome? fun k => if c < k ∨ (k = 4 ∧ light) then none else of k

/-- Frame boundaries of port `p` up to now, each with its choice. -/
def State.netPump (s : State) (p : Nat) : Nat → State
  | 0 => s
  | n + 1 =>
    match s.netPick p 4 with
    | some f =>
      let t := max (s.net.wire.getD p 0) f.since
      if t ≤ s.clk.stm then
        State.netPump (State.netLeave { s with net := { s.net with waiting := s.net.waiting.erase f } } p f.kind f.data t) p n
      else s
    | none => s

/-- Both ports. -/
def State.netTick (s : State) : State :=
  s.each (fun p t => t.netPump p t.net.waiting.length) [0, 1]

/-- A frame is queued for its port, where it leaves at once if nothing precedes it; it is discarded while the port is down. -/
def State.netSend (s : State) (p kind : Nat) (data : List Nat) : State :=
  if s.netOn p && s.netUp p then
    let s1 : State := { s with net := { s.net with waiting := s.net.waiting ++ [⟨p, kind, data, s.clk.stm⟩] } }
    s1.netPump p s1.net.waiting.length
  else s.netDropped p 1

/-- The wire of port `p` takes a packet of the light engine now: the frames of higher classes that wait go first (R389). -/
def State.netSendLight (s : State) (p : Nat) (data : List Nat) : State :=
  let higher := fun (f : TxFrame) => f.port == p && decide (netClass f.kind < 3)
  let s1 := s.each (fun f t => t.netLeave p f.kind f.data s.clk.stm)
    ((s.net.waiting.filter fun f => higher f && netClass f.kind == 1) ++ s.net.waiting.filter fun f => higher f && netClass f.kind == 2)
  State.netLeave { s1 with net := { s1.net with waiting := s1.net.waiting.filter fun f => !higher f } } p 1 data s.clk.stm

/-- A bit of NET_EVENT. -/
def State.netEvent (s : State) (b : Nat) : State := s.setEvent Reg.NET_EVENT Reg.NET_EVENT_EN b

end Sys2Proof.Machine
end

