-- ==== Sys2Proof/Machine/Light.lean ====
section
/-! DEFINITION. The light output engine (spec/14), from configuration to merge: banks and records, cell sampling and fixture
profiles, merge sources, the merge, and the light frame. -/

namespace Sys2Proof.Machine

/-! ### Configuration banks (R371, R372) -/

/-- C of LO_LAYOUT. -/
def State.mapCap (s : State) : Nat := 4096 * s.fld Reg.LO_LAYOUT 6 0

/-- Basin offset of bank `b` of a region: kind 0 map, 1 profiles, 2 curves, 3 universes, 4 inputs (Table 14.8). -/
def State.loRegion (s : State) (kind b : Nat) : Nat :=
  let base := s.fld (Reg.BSN_PART_BASE 3) 10 0 * 65536
  let m := 2 * 16 * s.mapCap
  match kind with
  | 0 => base + b * 16 * s.mapCap
  | 1 => base + m + b * 0x10000
  | 2 => base + m + 0x20000 + b * 0x20000
  | 3 => base + m + 0x60000 + b * 0x40000
  | _ => base + m + 0xE0000 + b * 0x10000

/-- Bytes of an element of a region, and how many a bank holds. -/
def loElem (kind : Nat) : Nat := [16, 256, 2048, 256, 16].getD kind 0
def State.loCount (s : State) (kind : Nat) : Nat := if kind = 0 then s.mapCap else [0, 256, 64, 1024, 256].getD kind 0

/-- `n` bytes at offset `o` of element `i` of a region, as a number. -/
def State.loAt (s : State) (kind b i o n : Nat) : Nat := ofLeBytes (s.bytes .basin (s.loRegion kind b + i * loElem kind + o) n)

/-- The active bank. -/
def State.loBank (s : State) : Nat := s.fld Reg.LO_STATUS 16 16

/-- A cell (Table 14.3). -/
structure Cell where
  x : Nat
  y : Nat
  canvas : Nat
  box : Bool
  w : Nat
  h : Nat
  profile : Nat
  gain : Nat
  uni : Nat
  slot : Nat
  enable : Bool
  deriving DecidableEq, Repr

/-- Cell `i` of bank `b`. -/
def State.cell (s : State) (b i : Nat) : Cell :=
  let v := s.loAt 0 b i 0 16
  ⟨bitsOf v 15 0, bitsOf v 31 16, bitsOf v 33 32, v.testBit 34, bitsOf v 43 40 + 1, bitsOf v 47 44 + 1, bitsOf v 55 48,
    bitsOf v 63 56, bitsOf v 73 64, bitsOf v 88 80, v.testBit 95⟩

/-- A universe record (Table 14.9). -/
structure UniRec where
  sacn : Nat
  flags : Nat
  channels : Nat
  txPrio : Nat
  mask : Nat
  srcPrio : List Nat
  inIndex : List Nat
  lossMs : Nat
  modes : List Nat
  deriving DecidableEq, Repr

def UniRec.enable (r : UniRec) : Bool := r.flags.testBit 0
def UniRec.policy (r : UniRec) : Nat := bitsOf r.flags 9 8
def UniRec.has (r : UniRec) (s : Nat) : Bool := r.mask.testBit s

/-- Universe record `u` of bank `b`. -/
def State.uniRec (s : State) (b u : Nat) : UniRec :=
  let at' := fun o n => s.loAt 3 b u o n
  ⟨at' 0 2, at' 2 2, at' 4 2, at' 6 1, at' 7 1, (List.range 8).map fun i => at' (8 + i) 1,
    (List.range 8).map fun i => at' (0x10 + 2 * i) 2, at' 0x20 2,
    (List.range 512).map fun c => bitsOf (at' (0x40 + c / 4) 1) (2 * (c % 4) + 1) (2 * (c % 4))⟩

/-- Whether universe `u` is enabled, in the active bank. -/
def State.uniOn (s : State) (u : Nat) : Bool := !s.lo.allOff && (s.loAt 3 s.loBank u 2 2).testBit 0

/-- The enabled universes. -/
def State.unisOn (s : State) : List Nat := (List.range 1024).filter s.uniOn

/-- LO_STATUS.universes follows. -/
def State.uniSync (s : State) : State := s.setFld Reg.LO_STATUS 10 0 s.unisOn.length

/-- Kind, owner and timeout of a source in its active copy. -/
def State.srcKind (s : State) (i : Nat) : Nat := s.fld (Reg.LO_SRC_CFG_ACT i) 1 0
def State.srcOwner (s : State) (i : Nat) : Nat := s.fld (Reg.LO_SRC_CFG_ACT i) 13 8
def State.srcTimeout (s : State) (i : Nat) : Nat := s.fld (Reg.LO_SRC_CFG_ACT i) 31 16

def State.src (s : State) (i : Nat) : LoSrc := s.lo.srcs.getD i {}
def State.setSrc (s : State) (i : Nat) (x : LoSrc) : State := { s with lo := { s.lo with srcs := s.lo.srcs.set i x } }
def State.uni (s : State) (u : Nat) : LoUni := spGet (fun _ => {}) s.lo.unis u
def State.setUni (s : State) (u : Nat) (x : LoUni) : State := { s with lo := { s.lo with unis := spSet (fun _ => {}) s.lo.unis u x } }

/-- The engine runs. -/
def State.lightOn (s : State) : Bool := s.bit Reg.LO_STATUS 31

/-- The timing head, and whether the mode is FREE. -/
def State.loHead (s : State) : Nat := s.fld Reg.LO_CFG 2 0
def State.loFree (s : State) : Bool := s.bit Reg.LO_CFG 4
def State.holdover (s : State) : Bool := s.bit Reg.LO_STATUS 30

/-- A bit of LO_EVENT. -/
def State.loEvent (s : State) (b : Nat) : State := s.setEvent Reg.LO_EVENT Reg.LO_EVENT_EN b

/-! ### Sampling (R362, R363) -/

/-- The nearest integer, ties upward. -/
def nearUp (q : ℚ) : Int := (q + 1 / 2).floor

/-- A coordinate held within a canvas of size `n`. -/
def clampTo (i : Int) (n : Nat) : Nat := (max 0 (min i ((n : Int) - 1))).toNat

/-- The composer of canvas `k`. -/
def State.canvasComp (s : State) (k : Nat) : Nat := if k = 0 then s.loHead else 7 + k

/-- Size of canvas `k` in the active set of its composer. -/
def State.canvasSize (s : State) (k : Nat) : Nat × Nat := let r := s.canvasRect (s.canvasComp k); (r.2.2.1, r.2.2.2)

/-- First column and row that a cell reads, and the last canvas line it needs. -/
def Cell.first (k : Cell) : Int × Int :=
  if k.box then (((k.x : ℚ) / 16 - (k.w : ℚ) / 2 - 1 / 2).ceil, ((k.y : ℚ) / 16 - (k.h : ℚ) / 2 - 1 / 2).ceil)
  else (((k.x : ℚ) / 16 - 1 / 2).floor, ((k.y : ℚ) / 16 - 1 / 2).floor)

def Cell.lastLine (k : Cell) (ch : Nat) : Nat :=
  if k.box then clampTo (k.first.2 + k.h - 1) ch else clampTo (k.first.2 + 1) ch

/-- The colour of a cell: R, G, B of 16 bits, from the pixels of the canvas. -/
def Cell.sample (k : Cell) (cw ch : Nat) (pix : Nat → Nat → Nat → Nat) : List Nat :=
  let (i0, j0) := k.first
  let p := fun (i j : Int) (c : Nat) => (pix (clampTo i cw) (clampTo j ch) c : ℚ)
  (List.range 3).map fun c =>
    let v : ℚ :=
      if k.box then
        ((List.range k.h).flatMap fun (dj : Nat) => (List.range k.w).map fun (di : Nat) => p (i0 + (di : Int)) (j0 + (dj : Int)) c).sum
          / ((k.w * k.h : Nat) : ℚ)
      else
        let fx : ℚ := (k.x : ℚ) / 16 - 1 / 2 - (i0 : ℚ)
        let fy : ℚ := (k.y : ℚ) / 16 - 1 / 2 - (j0 : ℚ)
        (p i0 j0 c * (1 - fx) + p (i0 + 1) j0 c * fx) * (1 - fy) + (p i0 (j0 + 1) c * (1 - fx) + p (i0 + 1) (j0 + 1) c * fx) * fy
    (nearUp (((nearUp v : ℤ) : ℚ) * (k.gain : ℚ) / 255)).toNat

/-! ### Profiles (R364, R365) -/

/-- A value through curve `k` of bank `b`; 0xFF is none. -/
def State.loCurve (s : State) (b k v : Nat) : Nat :=
  if k = 0xFF then v
  else if 0xFFC0 ≤ v then s.loAt 2 b (k % 64) 2046 2
  else
    let a : ℚ := (s.loAt 2 b (k % 64) (2 * (v / 64)) 2 : ℚ)
    let n : ℚ := (s.loAt 2 b (k % 64) (2 * (v / 64) + 2) 2 : ℚ)
    (nearUp (a + (n - a) * ((v % 64 : Nat) : ℚ) / 64)).toNat

/-- The slots that a profile makes of a colour; `cellNo` numbers the free value of an intensity that is not extracted, which
no rule gives (assumption 1). -/
def State.profile (s : State) (b prof cellNo : Nat) (rgb : List Nat) : List Nat :=
  let at' := fun o n => s.loAt 1 b prof o n
  let flags := at' 2 1
  let col := if flags.testBit 1 then rgb.map (s.loCurve b (at' 3 1)) else rgb
  let emitters := at' 1 1
  let raw := (List.range emitters).map fun e =>
    let m := fun c => (signedOf 16 (at' (0x10 + 6 * e + 2 * c) 2) : ℚ)
    let v := nearUp (((List.range 3).map fun c => m c * (col.getD c 0 : ℚ)).sum / 4096)
    (max 0 (min v 0xFFFF)).toNat
  let top := raw.foldl max 0
  let ext := flags.testBit 0
  let ems := if ext then raw.map fun v => if top = 0 then 0 else (nearUp ((v : ℚ) * 65535 / (top : ℚ))).toNat else raw
  let inten := if ext then s.loCurve b (at' 0xC 1) top else (Config.freeBits 16 (2 ^ 80 + cellNo)).toNat
  let outs := (List.range emitters).map fun e => s.loCurve b (at' (4 + e) 1) (ems.getD e 0)
  (List.range (at' 0 1)).map fun k =>
    let d := at' (0x40 + 4 * k) 4
    if bitsOf d 1 0 = 0 then bitsOf d 15 8
    else
      let v := if bitsOf d 1 0 = 1 then outs.getD (bitsOf d 6 4) 0 else inten
      let w := if d.testBit 3 then 0xFFFF - v else v
      if d.testBit 2 then w % 256 else w / 256

/-! ### Canvas lines (R17, R359, R363) -/

/-- The enabled cells of a bank with their indices. -/
def State.cellsOn (s : State) (b : Nat) : List (Nat × Cell) :=
  ((List.range (s.loCount 0)).map fun i => (i, s.cell b i)).filter fun c => c.2.enable

/-- Canvases that an enabled cell uses. -/
def State.canvasesUsed (s : State) : List Nat :=
  (List.range 3).filter fun k => !s.lo.allOff && (s.cellsOn s.loBank).any fun c => c.2.canvas == k

/-- A cell's result goes to the staging set; of two cells the one with the higher index stands. -/
def stage (l : List (Nat × Nat × Nat)) (key cellNo v : Nat) : List (Nat × Nat × Nat) :=
  match l.find? fun e => e.1 == key with
  | some (_, i, _) => if cellNo < i then l else (key, cellNo, v) :: l.filter fun e => e.1 != key
  | none => (key, cellNo, v) :: l

/-- The engine samples one cell. -/
def State.sampleCell (s : State) (k i : Nat) (c : Cell) : State :=
  let (cw, ch) := s.canvasSize k
  let lines := (s.lo.canv.getD k {}).lines
  let pix := fun x y ch => ((((lines.find? fun l => l.1 == y).map (·.2)).getD []).getD x []).getD ch 0
  let out := s.profile s.loBank c.profile i (c.sample cw ch pix)
  { s with lo := { s.lo with
      staging := out.zipIdx.foldl (fun l v => if c.slot + v.2 < 512 then stage l (512 * c.uni + c.slot + v.2) i v.1 else l) s.lo.staging } }

/-- A canvas line of the light frame in progress reaches the engine: the cells that need no later line are sampled. -/
def State.takeLine (s : State) (k y : Nat) (px : List (List Nat)) : State :=
  let x := s.lo.canv.getD k {}
  let (_, ch) := s.canvasSize k
  let x1 : LoCanvas := { x with
    lines := (x.lines.filter fun l => decide (y < l.1 + 17)) ++ [(y, px)], next := y + 1, done := decide (ch ≤ y + 1) }
  let s1 := { s with lo := { s.lo with canv := s.lo.canv.set k x1 } }
  s1.each (fun c t => t.sampleCell k c.1 c.2) ((s1.cellsOn s1.loBank).filter fun c => c.2.canvas == k && c.2.lastLine ch == y)

/-- The engine takes canvas lines with this frame number now. -/
def State.takesFrame (s : State) (f : Nat) : Bool :=
  s.lightOn && s.lo.isOpen && !s.lo.merged && !s.loFree && !s.holdover && s.fld Reg.LO_FRAME 31 16 == f

/-- CANVAS_LINE: the next line of a composer's canvas, with its frame number (R292). -/
def execCanvasLine (composer : Fin 10) (line : Nat) (s : State) : Host.Outcome State Fault Refusal :=
  let c := composer.val
  let x := s.comp c
  let n := s.headOf c
  let inFrame := s.bit (Reg.CMP_STATUS c) 31 && (s.head n).begun && (decide (c < 8) || x.frame.isSome)
  if !inFrame || !s.canvasOn c || line ≠ x.lines || decide ((s.canvasRect c).2.2.2 ≤ line) then .next s
  else
    let f := if c < 8 then s.fld (Reg.CMP_STATUS c) 15 0 else (x.frame.map (·.1)).getD 0
    let (cx, cy, w, _) := s.canvasRect c
    let px := s.canvasLine c line
    let s0 := s.show c cx (cy + line) w 1
    let s1 := (s0.setComp c { s0.comp c with lines := line + 1 }).emit (.pixels c f line)
    let k := if c = s.loHead then 0 else c - 7
    if decide (c < 8) && c ≠ s.loHead then .next s1
    else if !s1.takesFrame f || (s1.lo.canv.getD k {}).next ≠ line then .next s1
    else .next (s1.takeLine k line px)

/-! ### Sources (R366–R368, R382) -/

/-- The live senders of input universe `i`. -/
def State.senders (s : State) (i : Nat) : List Sender := spGet (fun _ => []) s.lo.rx i

/-- The winning senders (R382). -/
def winners (l : List Sender) : List Sender := let p := (l.map (·.prio)).foldl max 0; l.filter fun x => x.prio == p

/-- The received slot count. -/
def rxSlots (l : List Sender) : Nat := ((winners l).map (·.slots.length)).foldl max 0

/-- The first-sender rule of input record `i`: the winner that has been live longest. -/
def State.rxVal (s : State) (i c : Nat) : Option Nat :=
  let w := winners (s.senders i)
  if (s.loAt 4 s.loBank i 2 1).testBit 3 then
    match w with
    | [] => none
    | x :: xs => (xs.foldl (fun a b => if b.since < a.since then b else a) x).slots[c]?
  else
    match w.filterMap fun x => x.slots[c]? with
    | [] => none
    | v :: vs => some (vs.foldl max v)

/-- The value that source `i` supplies for slot `c` of universe `u`, none where it supplies none or is not live. -/
def State.srcVal (s : State) (i u : Nat) (r : UniRec) (c : Nat) : Option Nat :=
  if !r.has i then none
  else
    match s.srcKind i with
    | 1 | 2 => if (s.src i).live.contains u then ((((s.src i).data.find? fun d => d.1 == u).map (·.2)).getD []).getD c none else none
    | 3 => if r.inIndex.getD i 0xFFFF = 0xFFFF then none else s.rxVal (r.inIndex.getD i 0) c
    | _ => none

/-- Priority of source `i` at universe `u`. -/
def State.srcPrioAt (s : State) (i : Nat) (r : UniRec) : Nat :=
  if s.srcKind i = 3 then ((s.senders (r.inIndex.getD i 0)).map (·.prio)).foldl max 0 else r.srcPrio.getD i 0

/-- The universes for which source `i` is live. -/
def State.liveUnis (s : State) (i : Nat) : List Nat :=
  if s.srcKind i = 3 then
    s.unisOn.filter fun u =>
      let r := s.uniRec s.loBank u
      r.has i && decide (r.inIndex.getD i 0xFFFF < 256) && !(s.senders (r.inIndex.getD i 0)).isEmpty
  else (s.src i).live

/-- A source is given data for a universe. -/
def LoSrc.give (x : LoSrc) (u t : Nat) (slots : List (Option Nat)) : LoSrc :=
  { x with
    data := (u, slots) :: x.data.filter fun d => d.1 != u
    changed := (u, t) :: x.changed.filter fun d => d.1 != u
    live := if x.live.contains u then x.live else x.live ++ [u] }

/-- A source loses its data. -/
def LoSrc.lose (x : LoSrc) : LoSrc := { x with data := [], changed := [], live := [] }

/-- Universes whose data has timed out stop being live (R367). -/
def State.expire (s : State) (i : Nat) : State :=
  let x := s.src i
  let ms := s.srcTimeout i
  if ms = 0 then s
  else s.setSrc i { x with live := x.live.filter fun u => x.changed.any fun d => d.1 == u && decide (s.clk.stm < d.2 + ms * 1000000) }

/-- A record says which universes source `i` is newly live for, or no longer. -/
def State.tellLive (s : State) (i : Nat) : State :=
  let now := s.liveUnis i
  let was := (s.src i).shown
  let gained := (now.filter fun u => !was.contains u).length
  let lost := (was.filter fun u => !now.contains u).length
  let s1 := (s.setSrc i { s.src i with shown := now }).setFld (Reg.LO_SRC_STATUS i) 10 0 now.length
  let s2 := if 0 < lost then (s1.offer 0x0A04 [(8, i), (32, lost)]).loEvent 3 else s1
  if 0 < gained then (s2.offer 0x0A05 [(8, i), (32, gained)]).loEvent 3 else s2

/-- SOURCE_TIMEOUT. -/
def execSourceTimeout (source : Fin 8) (s : State) : Host.Outcome State Fault Refusal := .next (s.expire source.val)

/-! ### LIGHT_WRITE (R368) -/

/-- Change a LIGHT_WRITE. -/
def State.modLoJob (s : State) (c sq : Nat) (f : LoJob → LoJob) : State :=
  { s with lo := { s.lo with jobs := s.lo.jobs.map fun j => if j.ctx = c ∧ j.sq = sq then f j else j } }

/-- Frame `k` of a LIGHT_WRITE: its address and length. -/
def Job.loFrame (j : Job) (k : Nat) : Nat × Nat := (j.f 0x18 8 + k * j.f 0x14 2 * 512, j.f 0x14 2 * 512)

/-- The engine reads a frame's data: from host memory through the port. -/
def State.loRead (s : State) (c : Nat) (j : Job) (k : Nat) : State :=
  if k < j.f 0x20 4 ∧ spaceOf (j.f 0x18 8) = .host then s.readHost c j.sq 0x18 (j.loFrame k).1 (j.loFrame k).2 else s

/-- LIGHT_WRITE: the job becomes ready to start, and starts once its source is free and no job became ready before it; else
it waits and starts at a further LIGHT_WRITE of its context. -/
def execLightWrite (ctx : Fin 1024) (s : State) : Host.Outcome State Fault Refusal :=
  let c := ctx.val
  match s.toStart c 7 with
  | none => .next s
  | some j =>
    let i := j.f 0x10 1 % 8
    let mine := fun (k : LoJob) => k.ctx == c && k.sq == j.sq
    let s1 := if s.lo.jobs.any mine then s else { s with lo := { s.lo with jobs := s.lo.jobs ++ [{ src := i, ctx := c, sq := j.sq }] } }
    if (s1.lo.jobs.find? fun k => k.src == i).any mine then
      let s2 := (s1.markStarted c j.sq).modJob c j.sq fun j => { j with extent := j.f 0x20 4 }
      .next ((s2.modLoJob c j.sq fun k => { k with running := true }).loRead c j 0)
    else .next s1

/-- The next frame of a LIGHT_WRITE becomes source data; the job ends with its last. -/
def State.applyJobFrame (s : State) (k : LoJob) (j : Job) (data : List Byte) : State :=
  let first := j.f 0x12 2
  let us := (List.range (j.f 0x14 2)).filter fun n => (s.uniRec s.loBank (first + n)).has k.src
  let x := us.foldl (fun x n => x.give (first + n) s.clk.stm (((data.drop (512 * n)).take 512).map fun b => some b.toNat)) (s.src k.src)
  let n := k.applied + 1
  let s1 := (s.setSrc k.src x).modJob k.ctx k.sq fun j => { j with count := n }
  let s2 := s1.modLoJob k.ctx k.sq fun q => { q with applied := n, next := none, due := false }
  if j.f 0x20 4 ≤ n then s2.endJob k.ctx k.sq 0 0 0 else s2.loRead k.ctx j n

/-- LIGHT_DATA_ARRIVE: the next frame's data arrives from memory; a frame that is due in the light frame in progress applies to
it. -/
def execLightDataArrive (ctx : Fin 1024) (host : List (Nat × Byte)) (s : State) : Host.Outcome State Fault Refusal :=
  let c := ctx.val
  match s.lo.jobs.find? fun k => k.ctx == c && k.running && k.next.isNone with
  | none => .next s
  | some k =>
    match s.job c k.sq with
    | none => .next s
    | some j =>
      let (a, n) := j.loFrame k.applied
      match s.reach c 0x18 a n false with
      | (_, some (st, d)) => .next (s.faultAt c k.sq st d 0)
      | (_, none) =>
        let bs := s.bufRead host a n
        if k.due then .next (s.applyJobFrame k j bs) else .next (s.modLoJob c k.sq fun q => { q with next := some bs })

/-- The running jobs at the light frame start: a frame whose data has arrived applies, and one that has not is due. -/
def State.jobsAtStart (s : State) : State :=
  s.each (fun k t =>
    match t.job k.ctx k.sq, t.lo.jobs.find? (fun q => q.ctx == k.ctx && q.sq == k.sq) with
    | some j, some q =>
      let ready := q.applied ≠ 0 || (match j.at? with | some g => decide (g ≤ t.lo.start) | none => true)
      match q.next with
      | some bs => if ready then t.applyJobFrame q j bs else t
      | none => if q.applied ≠ 0 then t.modLoJob k.ctx k.sq fun q => { q with due := true } else t
    | _, _ => t) (s.lo.jobs.filter (·.running))

/-- A frame that is due and has not arrived by the merge moves one light frame later: SOURCE_LATE. -/
def State.jobsLate (s : State) : State :=
  s.each (fun k t =>
    let t1 := (t.modLoJob k.ctx k.sq fun q => { q with due := false }).count (Reg.LO_SRC_STATUS k.src) 31 16 1
    (t1.offerRate 0x0A03 k.src 100000000 [(8, k.src), (16, k.ctx)] []).loEvent 2) (s.lo.jobs.filter fun k => k.running && k.due)

/-! ### The merge (R369, R370) -/

/-- Slot `c` is the low slot of a 16-bit pair. -/
def lowSlot (modes : List Nat) : Nat → Bool
  | 0 => false
  | c + 1 => decide (2 ≤ modes.getD c 0) && !lowSlot modes c

/-- What the merge makes of one slot or pair: its new state and value, none for the loss policy. -/
def mergeSlot (ltpMode : Bool) (old : LoSlot) (cands : List (Nat × Nat × Nat)) (t : Nat) : LoSlot × Option Nat :=
  match cands with
  | [] => (old, none)
  | _ =>
    let p := (cands.map (·.2.1)).foldl max 0
    let cs := (cands.filter fun k => k.2.1 == p).map fun k => (k.1, k.2.2)
    let valOf := fun i => ((cs.find? fun k => k.1 == i).map (·.2)).getD 0
    if ltpMode then
      let moved := (cs.filter fun k => !old.cand.contains k).map (·.1)
      let who := match moved with
        | m :: ms => ms.foldl min m
        | [] => match old.ltp with
          | some l => if cs.any fun k => k.1 == l then l else (cs.map (·.1)).foldl min 8
          | none => (cs.map (·.1)).foldl min 8
      ({ ltp := some who, cand := cs, lastCand := t }, some (valOf who))
    else ({ old with cand := cs, lastCand := t }, some ((cs.map (·.2)).foldl max 0))

/-- The candidates of slot `c`, or of the pair at `c`: source, priority, value. -/
def State.cands (s : State) (u : Nat) (r : UniRec) (c : Nat) (pair : Bool) : List (Nat × Nat × Nat) :=
  (List.range 8).filterMap fun i =>
    (s.srcVal i u r c).map fun v =>
      (i, s.srcPrioAt i r, if pair then 256 * v + (s.srcVal i u r (c + 1)).getD 0 else v)

/-- The loss value of a slot. -/
def lossValue (r : UniRec) (old t : Nat) (slot : LoSlot) : Nat :=
  match r.policy with
  | 1 => 0
  | 2 => if slot.lastCand + r.lossMs * 1000000 ≤ t then 0 else old
  | _ => old

/-- Universe `u` is merged: its new state and what it sends. -/
def State.mergeUni (s : State) (u : Nat) : LoUni × LoSend :=
  let r := s.uniRec s.loBank u
  let x := s.uni u
  let t := s.clk.stm
  let res := (List.range r.channels).map fun c =>
    if lowSlot r.modes c then none
    else
      let mode := r.modes.getD c 0
      some (mergeSlot (mode % 2 == 1) (x.slots.getD c {}) (s.cands u r c (decide (2 ≤ mode))) t)
  let slots := (List.range r.channels).map fun c => match res.getD c none with
    | some q => q.1
    | none => {}
  let out := (List.range r.channels).map fun c =>
    let hi := if lowSlot r.modes c then c - 1 else c
    match res.getD hi none with
    | some (_, some v) => if lowSlot r.modes c then v % 256 else if 2 ≤ r.modes.getD c 0 then v / 256 else v
    | _ => lossValue r (x.out.getD c 0) t (x.slots.getD hi {})
  let had := res.any fun q => q.any fun p => p.2.isSome
  let stopping := r.policy == 3 && !had
  let left := if had then 3 else x.stop
  let since := if out = x.out then x.since + 1 else 0
  let wanted := !r.flags.testBit 10 || decide (since ≤ 2) || decide (x.lastSent + 800000000 ≤ s.lo.start)
  ({ x with out := out, slots := slots, had := had, stop := if stopping then left - 1 else left, since := since, seq := (x.seq + 1) % 256 },
    { uni := u, slots := out, send := if stopping then decide (0 < left) else wanted, term := stopping, held := stopping })

/-- The merge of the light frame in progress; `fresh` says that the staging set is whole and becomes the canvas data. -/
def State.merge (s : State) (fresh : Bool) : State :=
  let s1 := s.jobsLate
  let s2 := if !fresh then s1
    else s1.each (fun i t =>
      if t.srcKind i = 1 then
        let st := t.lo.staging
        let us := ((st.map fun e => e.1 / 512).dedup)
        let x := us.foldl (fun x u => x.give u t.clk.stm ((List.range 512).map fun c =>
          (st.find? fun e => e.1 == 512 * u + c).map (·.2.2))) (t.src i)
        t.setSrc i x
      else t) (List.range 8)
  let s3 := s2.each (fun i t => t.expire i) (List.range 8)
  let res := s3.unisOn.map fun u => (u, s3.mergeUni u)
  let sends := res.map fun (r : Nat × LoUni × LoSend) => r.2.2
  let s4 := s3.each (fun (r : Nat × LoUni × LoSend) t => t.setUni r.1 r.2.1) res
  let s5 := { s4 with lo := { s4.lo with merged := true, staging := [], ready := s4.lo.ready ++ [(s4.lo.start, sends)] } }
  s5.each (fun i t => t.tellLive i) (List.range 8)

/-- Every canvas that an enabled cell uses has delivered its last line. -/
def State.canvasDone (s : State) : Bool := s.canvasesUsed.all fun k => (s.lo.canv.getD k {}).done

/-- Canvases are sampled in this light frame. -/
def State.samples (s : State) : Bool := !s.loFree && !s.holdover && !s.canvasesUsed.isEmpty

/-- MERGE_START (Table 14.1, step 3). -/
def execMergeStart (s : State) : Host.Outcome State Fault Refusal :=
  if !s.lightOn || !s.lo.isOpen || s.lo.merged || (s.samples && !s.canvasDone) then .next s
  else .next (s.merge s.samples)

/-! ### The light frame (R356–R359) -/

/-- The light frame that ends unmerged is merged now; canvases that have not delivered their last line are late (R359). -/
def State.mergeLate (s : State) : State :=
  if !s.lo.isOpen || s.lo.merged then s
  else if s.samples && !s.canvasDone then
    let s1 := s.each (fun k t =>
      (t.offerRate 0x0A02 k 100000000 [(16, t.fld Reg.LO_FRAME 15 0), (8, k)] []).loEvent 1)
      (s.canvasesUsed.filter fun k => !(s.lo.canv.getD k {}).done)
    s1.merge false
  else s.merge s.samples

/-! ### Groups (R388) -/

/-- Multicast address of a universe. -/
def sacnGroup (sacn : Nat) : Nat := 0xEFFF0000 + sacn % 65536

/-- The port on which PTP runs. -/
def State.ptpPort (s : State) : Nat := s.fld Reg.NET_PTP_STATUS 20 20
def State.ptpRole (s : State) : Nat := s.fld Reg.NET_PTP_CFG 21 20
def State.p2p (s : State) : Bool := s.bit Reg.NET_PTP_CFG 16

/-- Stream `k` is received on port `p`. -/
def State.aesRxOn (s : State) (k p : Nat) : Bool :=
  s.bit (Reg.NET_AES_RX_CFG k) 31 && (s.netPair || s.bit (Reg.NET_AES_RX_CFG k) (28 + p))

/-- An IPv4 multicast address. -/
def isGroup (a : Nat) : Bool := a / 2 ^ 28 == 0xE

/-- The groups that port `p` joins. -/
def State.joined (s : State) (p : Nat) : List Nat :=
  let ptp := if s.ptpRole ≠ 0 ∧ s.ptpPort = p then 0xE0000181 :: (if s.p2p then [0xE000006B] else []) else []
  let sacn := ((List.range 256).filter fun i =>
    let fl := s.loAt 4 s.loBank i 2 1
    s.lightOn && fl.testBit 0 && fl.testBit (1 + p)).map fun i => sacnGroup (s.loAt 4 s.loBank i 0 2)
  let aes := ((List.range 8).filter fun k => s.aesRxOn k p && isGroup (s.reg (Reg.NET_AES_RX_GROUP k))).map fun k =>
    s.reg (Reg.NET_AES_RX_GROUP k)
  (ptp ++ sacn ++ aes).dedup

/-- Membership reports for these groups: version 3, or 2 while a v2 querier is heard. -/
def State.report (s : State) (p : Nat) (gs : List Nat) : State :=
  s.each (fun g t => t.netSend p 7 [if t.net.igmpV2.getD p false then 2 else 3, g]) gs

/-- Groups joined since `old` are reported on their ports. -/
def State.joins (s old : State) : State :=
  s.each (fun p t => if t.netUp p then t.report p ((s.joined p).filter fun g => !(old.joined p).contains g) else t) [0, 1]

/-! ### The light frame (R356–R358) -/

/-- Output buffer, merge state and send state of a universe from zero. -/
def State.clearUni (s : State) (u : Nat) : State := { s with lo := { s.lo with unis := s.lo.unis.filter fun x => x.1 != u } }

/-- A checked light commit applies (R374, R375). -/
def State.applyLight (s : State) (m : LoCommit) : State :=
  let old := s.loBank
  let new := if m.switch then 1 - old else old
  let recs := (List.range 1024).map fun u => (u, s.uniRec old u, s.uniRec new u, s.uniOn u)
  let s1 := (s.applyWords m.words).setFld Reg.LO_STATUS 16 16 new
  let s2 := { s1 with lo := { s1.lo with allOff := false, commit := none } }
  let s3 := s2.each (fun r t =>
    let (u, a, b, was) := r
    if b.enable && !was then t.clearUni u
    else if a ≠ b then t.setUni u { t.uni u with slots := [] }
    else t) recs
  let s4 := s3.each (fun i t =>
    if s.srcKind i ≠ t.srcKind i ∨ s.srcOwner i ≠ t.srcOwner i then t.setSrc i (t.src i).lose
    else
      let newly := (recs.filter fun r => r.2.2.1.has i && !r.2.1.has i).map (·.1)
      let x := t.src i
      t.setSrc i { x with
        data := x.data.filter fun d => !newly.contains d.1
        changed := x.changed.filter fun d => !newly.contains d.1
        live := x.live.filter fun u => !newly.contains u }) (List.range 8)
  let s5 := (s4.setBit Reg.LO_STATUS 29 false).setBit Reg.LO_COMMIT_STATUS 0 true
  (((s5.uniSync).offer 0x0A01 [(8, choice 0x0A01 0), (8, 0), (32, 0)]).loEvent 0).joins s

/-- A light frame begins at show time `t` with head frame number `f` (Table 14.1, step 1). -/
def State.lightStart (s : State) (t f : Nat) : State :=
  let s1 := s.mergeLate
  if !s1.bit Reg.LO_CTRL 0 then
    { ((s1.setBit Reg.LO_STATUS 31 false).setBit Reg.LO_STATUS 30 false) with lo := { s1.lo with isOpen := false, merged := false } }
  else
    let light := (s1.fld Reg.LO_FRAME 15 0 + 1) % 65536
    let s2 := (s1.setReg Reg.LO_FRAME (f * 65536 + light)).setReg64 Reg.LO_FRAME_TIME_LO Reg.LO_FRAME_TIME_HI t
    let s3 := { s2 with lo := { s2.lo with isOpen := true, start := t, merged := false, canv := [{}, {}, {}], staging := [] } }
    let s4 := match s3.lo.commit with
      | some m => if m.checked && (match m.target with | some g => decide (g ≤ t) | none => true) then s3.applyLight m else s3
      | none => s3
    let s5 := s4.each (fun i u => if u.srcKind i = 2 ∧ u.pdkState (u.srcOwner i) ≠ 2 then u.setSrc i { u.src i with live := [] } else u)
      (List.range 8)
    let s6 := s5.jobsAtStart
    (s6.each (fun i u => u.expire i) (List.range 8)).each (fun i u => u.tellLive i) (List.range 8)

/-- LIGHT_FRAME_START: in mode HEAD at a frame start of the timing head not yet taken, in holdover or FREE on the engine's
timer (R356, R357). -/
def execLightFrameStart (s : State) : Host.Outcome State Fault Refusal :=
  let n := s.loHead
  let f := s.fld (Reg.HD_FRAME n) 31 16
  let keep := s.fld Reg.LO_FRAME 31 16
  if !s.lightOn then .next s
  else if s.loFree then .next (s.lightStart s.clk.stm keep)
  else if s.headOn n && (s.head n).begun && decide (s.lo.taken < (s.head n).starts) then
    let s1 := { s with lo := { s.lo with taken := (s.head n).starts } }
    let s2 := if s1.holdover then (s1.setBit Reg.LO_STATUS 30 false).offer 0x0A08 [(8, choice 0x0A08 1)] else s1
    if f % (s.fld Reg.LO_CFG 7 6 + 1) = 0 then .next (s2.lightStart (s2.frameTime n) f) else .next s2
  else if s.holdover then .next (s.lightStart s.clk.stm keep)
  else .next s

/-- LIGHT_HOLDOVER: the timing head has sent no frame start for twice its last frame period. -/
def execLightHoldover (s : State) : Host.Outcome State Fault Refusal :=
  if s.lightOn && !s.loFree && !s.holdover then
    .next ((s.setBit Reg.LO_STATUS 30 true).offer 0x0A08 [(8, choice 0x0A08 0)])
  else .next s

end Sys2Proof.Machine
end

