-- ==== Sys2Proof/Machine/LightOut.lean ====
section
/-! DEFINITION. The light output engine from emission outward: sACN sent and received (R376–R382), DMX512-A and RDM
(R383–R385), and its configuration (R371, R373–R375). -/

namespace Sys2Proof.Machine

/-! ### sACN packets sent (R376–R378). The packet is that of ANSI E1.31-2018, which the spec names (assumption 36). -/

/-- Big-endian bytes. -/
def beBytes (n v : Nat) : List Byte := (leBytes n v).reverse

/-- A PDU's flags and length. -/
def pduLen (n : Nat) : List Byte := beBytes 2 (0x7000 + n)

/-- The root layer up to its vector and CID, for `n` bytes of PDU after the length. -/
def State.acnRoot (s : State) (vector total : Nat) : List Byte :=
  beBytes 2 0x10 ++ beBytes 2 0 ++ [0x41, 0x53, 0x43, 0x2D, 0x45, 0x31, 0x2E, 0x31, 0x37, 0, 0, 0] ++ pduLen (total - 16)
    ++ beBytes 4 vector ++ (List.range 4).flatMap fun k => leBytes 4 (s.reg (Reg.LO_CID k))

/-- The source name. -/
def State.acnName (s : State) : List Byte := (List.range 16).flatMap fun k => leBytes 4 (s.reg (Reg.LO_NAME k))

/-- The UDP payload of a data packet: 126 bytes and the slots. -/
def State.sacnData (s : State) (sacn prio seq : Nat) (term : Bool) (slots : List Nat) : List Byte :=
  let total := 126 + slots.length
  s.acnRoot 4 total
    ++ pduLen (total - 38) ++ beBytes 4 2 ++ s.acnName ++ beBytes 1 prio ++ beBytes 2 0 ++ beBytes 1 seq
    ++ beBytes 1 (b2n term * 64) ++ beBytes 2 sacn
    ++ pduLen (total - 115) ++ beBytes 1 2 ++ beBytes 1 0xA1 ++ beBytes 2 0 ++ beBytes 2 1 ++ beBytes 2 (1 + slots.length)
    ++ beBytes 1 0 ++ slots.flatMap (beBytes 1)

/-- Ports on which universe record `r` is sent: both in redundant pair mode, else those its flags name (R377, R390). -/
def State.uniPorts (s : State) (r : UniRec) : List Nat :=
  (List.range 2).filter fun p => s.netPair || r.flags.testBit (1 + p)

/-- The packets of one universe in a light frame. -/
def State.uniPackets (s : State) (x : LoSend) : List LoPacket :=
  if x.send then
    let r := s.uniRec s.loBank x.uni
    let dest := if r.flags.testBit 3 then s.reg (Reg.LO_DEST (bitsOf r.flags 7 4)) else sacnGroup r.sacn
    (s.uniPorts r).map fun p => ⟨p, x.uni, dest, s.sacnData r.sacn r.txPrio (s.uni x.uni).seq x.term x.slots⟩
  else []

/-! ### DMX ports (R383) -/

def State.dmx (s : State) (p : Nat) : DmxPort := s.lo.dmx.getD p {}
def State.setDmx (s : State) (p : Nat) (x : DmxPort) : State := { s with lo := { s.lo with dmx := s.lo.dmx.set p x } }
def State.dmxOn (s : State) (p : Nat) : Bool := s.bit (Reg.LO_DMX_CFG p) 1
def State.dmxSending (s : State) (p : Nat) : Bool := s.bit (Reg.LO_DMX_STATUS p) 0

/-- A DMX port drives DE and REn. -/
def State.dmxDrive (s : State) (p de ren : Nat) : State :=
  (s.emitOn 8 (.pin ("DMX" ++ toString p ++ "_DE") de)).emitOn 8 (.pin ("DMX" ++ toString p ++ "_REn") ren)

/-- The port starts a packet from the newest output buffer whose emission has started; it holds at mark where its universe
sends none, or is stopped under STOP (R370). -/
def State.dmxStart (s : State) (p : Nat) : State :=
  let u := s.fld (Reg.LO_DMX_TIME p) 29 20
  let s1 := s.setDmx p { s.dmx p with due := false }
  match s.lo.sent.find? fun x => x.uni == u with
  | none => s1
  | some x =>
    if x.held then s1.setBit (Reg.LO_DMX_STATUS p) 1 true
    else ((s1.setBit (Reg.LO_DMX_STATUS p) 1 false).setBit (Reg.LO_DMX_STATUS p) 0 true).emitOn 8 (.dmx p u x.slots)

/-- A request goes to a broadcast UID; a DISC_UNIQUE_BRANCH expects a response none the less (R385, ANSI E1.20). -/
def rdmBroadcast (req : List Byte) : Bool :=
  let branch := dField req 20 1 == 0x10 && req.getD 21 0 == 0 && req.getD 22 0 == 1
  ((req.drop 5).take 4).all (· == 0xFF) && !branch

/-- Progress word of an RDM transaction (Table 6.11). -/
def Rdm.progress (r : Rdm) : Nat := r.got % 65536 + b2n r.none * 2 ^ 16 + b2n r.collision * 2 ^ 17 + b2n r.sent * 2 ^ 18

/-- The port's transaction takes this state, and its job's progress follows. -/
def State.setRdm (s : State) (p : Nat) (r : Rdm) : State :=
  (s.setDmx p { s.dmx p with rdm := some r }).modJob r.ctx r.sq fun j => { j with count := r.progress }

/-- The first waiting transaction starts: the request goes out, and the port listens unless it was a broadcast (Table 14.14,
steps 1 and 2). -/
def State.rdmStart (s : State) (p : Nat) : State :=
  match (s.dmx p).queue with
  | [] => s
  | r :: rs =>
    let s1 := (s.setDmx p { s.dmx p with queue := rs }).setBit (Reg.LO_DMX_STATUS p) 2 true
    let s2 := s1.emitOn 8 (.rdm p r.req)
    if rdmBroadcast r.req then s2.setRdm p { r with sent := true, none := true }
    else (s2.dmxDrive p 0 0).setRdm p { r with sent := true, listening := true }

/-- An idle port goes on: with a waiting transaction when it owes no DMX packet, else with a packet that is due. -/
def State.dmxNext (s : State) (p : Nat) : State :=
  let x := s.dmx p
  if !s.dmxOn p || s.dmxSending p || x.rdm.isSome then s
  else if !x.queue.isEmpty && !x.owed then s.rdmStart p
  else if x.due || !x.queue.isEmpty then s.dmxStart p
  else s

/-- DMX_PACKET_END. -/
def execDmxPacketEnd (port : Fin 8) (s : State) : Host.Outcome State Fault Refusal :=
  let p := port.val
  if !s.dmxSending p then .next s
  else
    let k := Reg.LO_DMX_STATUS p
    let s1 := (s.setBit k 0 false).setFld k 31 16 (s.fld k 31 16 + 1)
    .next ((s1.setDmx p { s1.dmx p with owed := false }).dmxNext p)

/-! ### Emission (R360) -/

/-- EMISSION_START: packets still queued of the previous light frame are discarded, those of this one are queued in ascending
universe order, and idle DMX ports start packets. -/
def execEmissionStart (s : State) : Host.Outcome State Fault Refusal :=
  match s.lo.ready with
  | [] => .next s
  | (t, sends) :: rest =>
    let s1 := s.each (fun p u =>
      let n := (u.lo.tx.filter fun x => x.port == p).length
      if n = 0 then u
      else
        let u1 := u.setReg Reg.LO_TX_DROPPED (u.reg Reg.LO_TX_DROPPED + n)
        (u1.offerRateN 0x0A07 p 100000000 n [(8, p)] []).loEvent 4) (List.range 2)
    let s2 := s1.setReg Reg.LO_MERGE_LAT (((s.clk.stm - t) / 1000) % 2 ^ 24)
    let s3 := { s2 with lo := { s2.lo with ready := rest, sent := sends, tx := sends.flatMap s2.uniPackets } }
    .next (s3.each (fun p u =>
      if u.dmxOn p then (u.setDmx p { u.dmx p with due := true }).dmxNext p else u) (List.range 8))

/-- SACN_PACKET_SENT: the first queued packet of a port leaves it. -/
def execSacnPacketSent (port : Fin 2) (s : State) : Host.Outcome State Fault Refusal :=
  match s.lo.tx.find? fun x => x.port == port.val with
  | none => .next s
  | some x =>
    let s1 := { s with lo := { s.lo with tx := s.lo.tx.erase x } }
    if s1.netOn port.val && s1.netUp port.val then
      let s2 := (s1.setUni x.uni { s1.uni x.uni with lastSent := s1.clk.stm }).setReg Reg.LO_TX_PACKETS (s1.reg Reg.LO_TX_PACKETS + 1)
      .next (s2.netSendLight port.val (x.dest :: x.payload.map (·.toNat)))
    else .next (s1.netDropped port.val 1)

/-- The pages of a universe discovery: at most 512 universes each. -/
def discPages (l : List Nat) : List (List Nat) := (List.range ((l.length + 511) / 512)).map fun k => (l.drop (512 * k)).take 512

/-- SACN_DISCOVERY_SEND: every 10 s the sACN universes sent on each port (Table 14.12). -/
def execSacnDiscoverySend (s : State) : Host.Outcome State Fault Refusal :=
  if !s.lightOn || !s.bit Reg.LO_TX_CFG 0 then .next s
  else
    .next (s.each (fun p t =>
      let us := (t.unisOn.map (t.uniRec t.loBank)).filter fun r => (t.uniPorts r).contains p
      let pages := discPages ((us.map (·.sacn)).mergeSort fun a b => decide (a ≤ b))
      t.each (fun pg t =>
        let total := 120 + 2 * pg.1.length
        let bs := t.acnRoot 8 total ++ pduLen (total - 38) ++ beBytes 4 2 ++ t.acnName ++ beBytes 4 0
          ++ pduLen (total - 112) ++ beBytes 4 1 ++ beBytes 1 pg.2 ++ beBytes 1 (pages.length - 1) ++ pg.1.flatMap (beBytes 2)
        t.netSend p 2 (0xEFFFFAD6 :: bs.map (·.toNat))) pages.zipIdx) (List.range 2))

/-! ### sACN received (R379–R382) -/

/-- LO_RX_i_STATUS follows the senders. -/
def State.rxSync (s : State) (i : Nat) : State :=
  let l := s.senders i
  let k := Reg.LO_RX_STATUS i
  let prio := (l.map (·.prio)).foldl max 0
  ((s.setFld k 30 28 l.length).setFld k 27 20 prio).setFld k 19 10 (rxSlots l)

/-- The senders of an input universe become these. -/
def State.setSenders (s : State) (i : Nat) (l : List Sender) : State :=
  ({ s with lo := { s.lo with rx := spSet (fun _ => []) s.lo.rx i l } }).rxSync i

/-- A packet is discarded and counted. -/
def State.rxDiscard (s : State) (i : Nat) : State :=
  s.setFld (Reg.LO_RX_STATUS i) 9 0 (s.fld (Reg.LO_RX_STATUS i) 9 0 + 1)

/-- The sequence rule (R381). -/
def seqOk (new last : Nat) : Bool :=
  let d := signedOf 8 ((new + 256 - last) % 256)
  decide (0 < d) || decide (d ≤ -20)

/-- A packet for input record `i` that has passed the rules of START code and preview (R379–R381). -/
def State.rxPacket (s : State) (i port : Nat) (k : SacnPacket) : State :=
  let l := s.senders i
  match l.find? fun x => x.cid == k.cid with
  | some x =>
    if x.seq = k.seq % 256 ∧ x.port ≠ port then s
    else if !seqOk (k.seq % 256) x.seq then s.rxDiscard i
    else if k.terminated then s.setSenders i (l.filter fun y => y.cid != k.cid)
    else s.setSenders i (l.map fun y =>
      if y.cid = k.cid then { y with prio := k.priority, seq := k.seq % 256, port := port, slots := (k.slots.take 512).map (·.toNat) }
      else y)
  | none =>
    if k.terminated then s
    else if 4 ≤ l.length then (s.rxDiscard i).offerRate 0x0A06 i 1000000000 [(16, i)] []
    else s.setSenders i (l ++ [⟨k.cid, k.priority, k.seq % 256, port, (k.slots.take 512).map (·.toNat), s.clk.stm⟩])

/-- Input records of the active bank that receive sACN universe `u` on a port. -/
def State.inRecords (s : State) (u port : Nat) : List Nat :=
  (List.range 256).filter fun i =>
    let fl := s.loAt 4 s.loBank i 2 1
    fl.testBit 0 && fl.testBit (1 + port) && s.loAt 4 s.loBank i 0 2 == u

/-- SACN_PACKET_RECEIVED (R376, R380). -/
def execSacnPacketReceived (port : Fin 2) (packet : SacnPacket) (s : State) : Host.Outcome State Fault Refusal :=
  if !s.lightOn then .next s
  else
    .next (s.each (fun i t =>
      if packet.kind ≠ 0 ∨ packet.start ≠ 0 ∨ (packet.preview ∧ t.bit Reg.LO_RX_CFG 0 = false) then t.rxDiscard i
      else t.rxPacket i port.val packet) (s.inRecords packet.sacn port.val))

/-- SACN_SENDER_TIMEOUT (R380). -/
def execSacnSenderTimeout (input : Fin 256) (cid : Nat) (s : State) : Host.Outcome State Fault Refusal :=
  .next (s.setSenders input.val ((s.senders input.val).filter fun x => x.cid != cid))

/-! ### RDM (R384, R385) -/

/-- RDM_TRANSACTION: the job starts and waits for its port; `host` brings a request that lies in host memory. -/
def execRdmTransaction (ctx : Fin 1024) (host : List (Nat × Byte)) (s : State) : Host.Outcome State Fault Refusal :=
  let c := ctx.val
  match s.toStart c 8 with
  | none => .next s
  | some j =>
    let s1 := s.markStarted c j.sq
    let p := j.f 0x10 1 % 8
    match s1.reach c 0x18 (j.f 0x18 8) (j.f 0x12 2) false with
    | (_, some (st, d)) => .next (s1.faultAt c j.sq st d 0)
    | (_, none) =>
      let r : Rdm := { ctx := c, sq := j.sq, req := s1.bufRead host (j.f 0x18 8) (j.f 0x12 2) }
      .next ((s1.setDmx p { s1.dmx p with queue := (s1.dmx p).queue ++ [r] }).dmxNext p)

/-- RDM_RESPONSE_BYTE: a byte, a break or a framing error while the port listens (step 4). -/
def State.rdmByte (s : State) (p : Nat) (what : RdmRx) : State :=
  match (s.dmx p).rdm with
  | none => s
  | some r =>
    if !r.listening then s
    else
      match what, s.job r.ctx r.sq with
      | .byte b, some j =>
        if j.f 0x14 2 ≤ r.got then s
        else
          match s.reach r.ctx 0x20 (j.f 0x20 8 + r.got) 1 true with
          | (_, some (st, d)) => s.faultAt r.ctx r.sq st d 0
          | (_, none) =>
            let s1 := s.bufWrite (s.ctxPaddock r.ctx) (j.f 0x20 8 + r.got) [b]
            match s.edgeFault r.ctx r.sq (j.f 0x20 8 + r.got) 1 s1 with
            | some t => t
            | none => s1.setRdm p { r with got := r.got + 1, listening := decide (r.got + 1 < j.f 0x14 2) }
      | .brk, _ => if r.got = 0 then s else s.setRdm p { r with collision := true }
      | .framing, _ => s.setRdm p { r with collision := true }
      | _, _ => s

def execRdmResponseByte (port : Fin 8) (what : RdmRx) (s : State) : Host.Outcome State Fault Refusal :=
  .next (s.rdmByte port.val what)

/-- RDM_RESPONSE_TIMEOUT: listening ends; without a first byte there is no response. -/
def execRdmResponseTimeout (port : Fin 8) (s : State) : Host.Outcome State Fault Refusal :=
  match (s.dmx port.val).rdm with
  | some r => if r.listening then .next (s.setRdm port.val { r with listening := false, none := decide (r.got = 0) }) else .next s
  | none => .next s

/-- RDM_TRANSACTION_END: 176 µs after listening ended the lines return, DMX output resumes and the job ends (step 5). -/
def execRdmTransactionEnd (port : Fin 8) (s : State) : Host.Outcome State Fault Refusal :=
  let p := port.val
  match (s.dmx p).rdm with
  | none => .next s
  | some r => if r.listening then .next s else .next ((s.endJob r.ctx r.sq 0 0 0).dmxStart p)

/-- A write of LO_DMX_p_CFG: the enable bit, and the RL fields while the port is disabled (R383). -/
def State.dmxCfg (s : State) (p value : Nat) : State :=
  let k := Reg.LO_DMX_CFG p
  let on := value.testBit 1
  let s1 := s.setReg k (if s.dmxOn p then putBits (s.reg k) 1 1 (b2n on) else value % 2 ^ 32 &&& 0xFFFF3F82)
  if on && !s.dmxOn p then (s1.ungate 18).dmxDrive p 1 1
  else if !on && s.dmxOn p then ((s1.setBit (Reg.LO_DMX_STATUS p) 0 false).setDmx p { s1.dmx p with due := false }).dmxDrive p 0 1
  else s1

/-! ### Loads (R373) -/

/-- A load command ends: 0 done, 1 refused, 2 failed, with its reason. -/
def State.loadEnds (s : State) (how reason : Nat) : State :=
  let k := Reg.LO_LOAD_STATUS
  let bit := [1, 2, 3].getD how 1
  let s1 := ((s.setBit k 0 false).setFld k 15 8 reason).setBit k bit true
  ({ s1 with lo := { s1.lo with load := none } }.offer 0x0A09 [(8, choice 0x0A09 how), (8, reason)]).mgrIrq
    k bit

/-- The granules of a source range that the manager may not read. -/
def State.mgrDenied (s : State) (a n : Nat) : Bool :=
  match spaceOf a with
  | .host => !s.mayMaster s.manager
  | .dram => (s.refusedIn .job s.manager false .dram (localOf a) n).isSome
  | .basin => (s.refusedIn .job s.manager false .basin (localOf a) n).isSome
  | .reserved => true

/-- A write of LO_LOAD_CMD. A command that arrives while one runs, or while a light commit is checked or pending, is refused
with BUSY and disturbs nothing. -/
def State.loadCmd (s : State) (op kind : Nat) : State :=
  let k := Reg.LO_LOAD_STATUS
  let first := s.fld Reg.LO_LOAD_FIRST 18 0
  let count := s.fld Reg.LO_LOAD_COUNT 18 0
  let src := s.reg64 Reg.LO_LOAD_SRC_LO Reg.LO_LOAD_SRC_HI
  let s0 := s.setReg Reg.LO_LOAD_CMD (kind % 8 * 16 + op % 4)
  let refuse := fun (r : Nat) => (((s0.setFld k 15 8 r).setBit k 2 true).offer 0x0A09 [(8, choice 0x0A09 1), (8, r)]).mgrIrq k 2
  if s.lo.load.isSome || s.lo.commit.isSome then refuse 1
  else if op = 0 ∨ op = 3 then refuse 2
  else if op = 1 ∧ (4 < kind ∨ count = 0 ∨ s.loCount kind < first + count ∨ src % 64 ≠ 0) then refuse 2
  else if op = 1 ∧ s.mgrDenied src (count * loElem kind) then refuse 3
  else
    let s1 := s0.setBit k 0 true
    { s1 with lo := { s1.lo with load := some [op, kind, first, count, src] } }

def execLoLoad (kind : Fin 8) (s : State) : Host.Outcome State Fault Refusal := .next (s.loadCmd 1 kind.val)

def execLoSync (kind : Fin 8) (s : State) : Host.Outcome State Fault Refusal := .next (s.loadCmd 2 kind.val)

/-- The bytes of one region of the active bank go to the inactive one. -/
def State.syncRegion (s : State) (kind : Nat) : State :=
  let b := s.loBank
  s.write .basin (s.loRegion kind (1 - b)) (s.bytes .basin (s.loRegion kind b) (s.loCount kind * loElem kind))

/-- LOAD_END: the copy has been made, whole or, after a host completion error, up to a free byte (R373); an
uncorrectable word of the source counts as one that is read (R170). -/
def execLoadEnd (host : List (Nat × Byte)) (hostError : Bool) (s : State) : Host.Outcome State Fault Refusal :=
  match s.lo.load with
  | some [op, kind, first, count, src] =>
    if op = 2 then .next ((s.each (fun k t => t.syncRegion k) (List.range 5)).loadEnds 0 0)
    else
      let s := (match s.poisonIn src (count * loElem kind) with
        | some w => s.eccSeen w
        | none => s).touchMem src (count * loElem kind)
      let bs := s.bufRead host src (count * loElem kind)
      let fails := hostError && spaceOf src == .host
      let n := if fails then s.free 24 % (bs.length + 1) else bs.length
      let s1 := (if fails then s.took else s).write .basin (s.loRegion kind (1 - s.loBank) + first * loElem kind) (bs.take n)
      .next (if fails then s1.loadEnds 2 4 else s1.loadEnds 0 0)
  | _ => .next s

/-! ### Light commits (R374, Table 14.11) -/

/-- A word of a commit, or of the active copy where the commit holds none. -/
def loWord (s : State) (ws : List (Nat × Nat)) (k : Nat) : Nat := ((ws.find? fun w => w.1 == k).map (·.2)).getD (s.actWord k)

/-- Shadow keys of a light commit. -/
def loKeys : List Nat := Reg.LO_EMIT :: (List.range 8).map Reg.LO_SRC_CFG

/-- Index of the first element below `n` for which `f` holds. -/
def firstIdx (n : Nat) (f : Nat → Bool) : Option Nat := (List.range n).find? f

/-- Reserved bits or codes of a cell, profile, universe record or input record. -/
def State.cellReserved (s : State) (b i : Nat) : Bool :=
  let v := s.loAt 0 b i 0 16
  bitsOf v 33 32 == 3 || v.testBit 35 || bitsOf v 39 36 != 0 || bitsOf v 79 74 != 0 || bitsOf v 94 89 != 0 || bitsOf v 127 96 != 0

def State.profReserved (s : State) (b i : Nat) : Bool :=
  let at' := fun o n => s.loAt 1 b i o n
  at' 2 1 / 4 != 0 || at' 0xD 3 != 0 || at' 0xC0 64 != 0
    || (List.range 32).any fun k => let d := at' (0x40 + 4 * k) 4; bitsOf d 1 0 == 3 || d.testBit 7 || d / 65536 != 0

def State.uniReserved (s : State) (b i : Nat) : Bool :=
  s.loAt 3 b i 2 2 / 2048 != 0 || s.loAt 3 b i 0x22 30 != 0 || s.loAt 3 b i 0xC0 64 != 0

def State.inReserved (s : State) (b i : Nat) : Bool := s.loAt 4 b i 2 1 / 16 != 0 || s.loAt 4 b i 3 13 != 0

/-- The canvas of an enabled cell cannot feed it (code 0x02). -/
def State.cellBad (s : State) (b : Nat) (c : Cell) : Bool :=
  let (cw, ch) := s.canvasSize c.canvas
  let r := s.uniRec b c.uni
  decide (16 * cw ≤ c.x ∨ 16 * ch ≤ c.y) || s.headOf (s.canvasComp c.canvas) != s.loHead || !r.enable
    || decide (r.channels < c.slot + s.loAt 1 b c.profile 0 1)

/-- The cells of one canvas in map order are in the order of their last lines (code 0x03): the first cell that breaks it. -/
def State.orderBad (s : State) (cells : List (Nat × Cell)) (k : Nat) : Option Nat :=
  let ch := (s.canvasSize k).2
  let l := (cells.filter fun c => c.2.canvas == k).map fun c => (c.1, c.2.lastLine ch)
  ((l.zip (l.drop 1)).find? fun p => decide (p.2.2 < p.1.2)).map fun p => p.2.1

/-- A profile that an enabled cell uses is out of range (code 0x04). -/
def State.profBad (s : State) (b i : Nat) : Bool :=
  let at' := fun o n => s.loAt 1 b i o n
  let ems := at' 1 1
  let curveBad := fun (c : Nat) => decide (63 < c) && c != 0xFF
  decide (at' 0 1 = 0 ∨ 32 < at' 0 1 ∨ ems = 0 ∨ 8 < ems)
    || (List.range (at' 0 1)).any (fun k => let d := at' (0x40 + 4 * k) 4; bitsOf d 1 0 == 1 && decide (ems ≤ bitsOf d 6 4))
    || (at' 2 1).testBit 1 && curveBad (at' 3 1) || (List.range ems).any (fun e => curveBad (at' (4 + e) 1)) || curveBad (at' 0xC 1)

/-- A universe record is out of range (code 0x05), but for repeated sACN numbers. -/
def uniBad (r : UniRec) (kind : Nat → Nat) : Bool :=
  decide (r.channels = 0 ∨ 512 < r.channels ∨ 200 < r.txPrio ∨ r.lossMs = 0)
    || (List.range 8).any (fun i => (kind i == 1 || kind i == 2) && decide (200 < r.srcPrio.getD i 0))
    || decide (2 ≤ r.modes.getD (r.channels - 1) 0)

/-- The checks of Table 14.11 against bank `b` and the words of a commit: code and index, code 0 when all hold. -/
def State.lightCheck (s : State) (b : Nat) (ws : List (Nat × Nat)) : Nat × Nat :=
  let cfg := fun i => loWord s ws (Reg.LO_SRC_CFG i)
  let kind := fun i => bitsOf (cfg i) 1 0
  let cells := s.cellsOn b
  let unis := ((List.range 1024).map fun u => (u, s.uniRec b u)).filter fun u => u.2.enable
  let ins := (List.range 256).filter fun i => (s.loAt 4 b i 2 1).testBit 0
  let inNo := fun i => s.loAt 4 b i 0 2
  let fail := fun (code : Nat) (i : Option Nat) => i.map fun n => (code, n)
  let regRes := loWord s ws Reg.LO_EMIT / 65536 != 0 || (List.range 8).any fun i => (cfg i) &&& 0xC0FC != 0
  let srcReg := decide (1 < ((List.range 8).filter fun i => kind i == 1).length)
    || (List.range 8).any fun i => kind i == 2 && s.pdkState (bitsOf (cfg i) 13 8) == 0
  let srcUni := unis.find? fun u => (List.range 8).any fun i => u.2.has i &&
    (kind i == 0 || (kind i == 3 && (u.2.inIndex.getD i 0xFFFF == 0xFFFF || !ins.contains (u.2.inIndex.getD i 0))))
  let noCanvas := !cells.isEmpty && (s.loFree || !(List.range 8).any fun i => kind i == 1)
  let pairs := (unis.map fun u => ((List.range 8).filter fun i => u.2.has i && (kind i == 1 || kind i == 2)).length).sum
  let tests : List (Option (Nat × Nat)) := [
    if regRes then some (1, 0) else none,
    fail 1 (firstIdx (s.loCount 0) (s.cellReserved b)), fail 1 (firstIdx 256 (s.profReserved b)),
    fail 1 (firstIdx 1024 (s.uniReserved b)), fail 1 (firstIdx 256 (s.inReserved b)),
    fail 2 ((cells.find? fun c => s.cellBad b c.2).map (·.1)),
    fail 3 ((List.range 3).findSome? (s.orderBad cells)),
    fail 4 (firstIdx 256 fun i => cells.any (fun c => c.2.profile == i) && s.profBad b i),
    fail 5 ((unis.find? fun u => uniBad u.2 kind || unis.any fun v => decide (v.1 < u.1) && v.2.sacn == u.2.sacn).map (·.1)),
    if srcReg then some (6, 0) else none,
    fail 6 (srcUni.map (·.1)),
    if noCanvas then some (6, ((cells.head?).map (·.1)).getD 0) else none,
    if s.fld Reg.LO_LAYOUT 31 16 < pairs then some (7, 0) else none,
    fail 8 (ins.find? fun i => decide (inNo i = 0 ∨ 63999 < inNo i) || ins.any fun j => decide (j < i) && inNo j == inNo i)]
  (tests.findSome? id).getD (0, 0)

/-- LIGHT_COMMIT: a write of LO_COMMIT with go set; refused with BUSY while another is checked or pending. -/
def execLightCommit (switch atTime : Bool) (s : State) : Host.Outcome State Fault Refusal :=
  if s.lo.commit.isSome then .next ((s.setFld Reg.LO_COMMIT_STATUS 13 8 0x3F).setBit Reg.LO_COMMIT_STATUS 2 true)
  else
    let m : LoCommit := {
      switch := switch
      target := if atTime then some (s.reg64 Reg.LO_COMMIT_TIME_LO Reg.LO_COMMIT_TIME_HI) else none
      words := s.copyWords loKeys }
    .next ({ s with lo := { s.lo with commit := some m } }.setBit Reg.LO_STATUS 29 true)

/-- The code and index of a check that fails go to LO_COMMIT_STATUS. -/
def State.lightCode (s : State) (code index : Nat) : State :=
  (s.setFld Reg.LO_COMMIT_STATUS 31 14 index).setFld Reg.LO_COMMIT_STATUS 13 8 code

/-- LIGHT_COMMIT_CHECKED: the commit is rejected whole, or waits for its light frame. -/
def execLightCommitChecked (s : State) : Host.Outcome State Fault Refusal :=
  match s.lo.commit with
  | none => .next s
  | some m =>
    if m.checked then .next s
    else
      let (code, index) := s.lightCheck (if m.switch then 1 - s.loBank else s.loBank) m.words
      if code = 0 then .next { s with lo := { s.lo with commit := some { m with checked := true } } }
      else
        let s1 := ({ s with lo := { s.lo with commit := none } }.setBit Reg.LO_STATUS 29 false).lightCode code index
        .next (((s1.setBit Reg.LO_COMMIT_STATUS 1 true).offer 0x0A01
          [(8, choice 0x0A01 1), (8, code), (32, index)]).loEvent 0)

/-- LO_CTRL_WRITE: a set enables the engine, checking bank 0 and the LIGHT section at the first; a clear acts at the next
light frame start (R375, Table 14.17). -/
def State.loCtrl (s : State) (value : Nat) : State :=
  let s0 := s.setReg Reg.LO_CTRL (value % 2)
  if !value.testBit 0 || s.lightOn then s0
  else
    let s1 := s0.ungate 12
    let s2 := if s1.lo.checkedOnce then s1
      else
        let (code, index) := s1.lightCheck s1.loBank []
        let t := { s1 with lo := { s1.lo with checkedOnce := true, allOff := decide (code ≠ 0) } }
        if code = 0 then t else t.lightCode code index
    let s3 := (s2.setBit Reg.LO_STATUS 31 true).setFld Reg.LO_FRAME 15 0 0
    ({ s3 with lo := { s3.lo with isOpen := false, merged := false, unis := [], taken := (s3.head s3.loHead).starts } }.uniSync).joins s

def execLoCtrlWrite (value : Nat) (s : State) : Host.Outcome State Fault Refusal := .next (s.loCtrl value)

end Sys2Proof.Machine
end

