-- ==== Sys2Proof/Machine/Network.lean ====
section
/-! DEFINITION. Network ports and show time (R387–R401): links, protocols, PTP and the servo, AES67 streams and the modules'
I2C. What IEEE 1588 gives, and the spec names only, is marked in assumption 37. -/

namespace Sys2Proof.Machine

/-! ### Show-time states (Table 15.3) -/

def State.stmState (s : State) : Nat := s.fld Reg.STM_STATUS 2 0

/-- The show-time counter takes another state: PTP_STATE and its event. -/
def State.ptpState (s : State) (new : Nat) : State :=
  let old := s.stmState
  if old = new then s
  else
    let id := ((s.net.leader.map fun l => l.ds.identity).getD 0) % 2 ^ 32
    ((s.setFld Reg.STM_STATUS 2 0 new).offer 0x0B04 [(8, old), (8, new), (8, s.ptpPort), (32, id)]).netEvent 2

/-- The rate of the counter, as a signed offset from nominal. -/
def State.setRate (s : State) (ppb : Int) : State := s.setFld Reg.STM_STATUS 31 12 (toSigned 20 ppb)

/-- HOLDOVER, from LOCKED or ACQUIRING. -/
def State.toHoldover (s : State) : State := if s.stmState = 1 ∨ s.stmState = 2 then s.ptpState 3 else s

/-- LEADER: the rate is that of HOLDOVER if there is one, else nominal (R395). -/
def State.toLeader (s : State) : State :=
  let s1 := { s with net := { s.net with leader := none, synced := false } }
  ((s1.ptpState 4).setRate (s.net.rate.getD 0)).setFld Reg.NET_PTP_STATUS 27 24 6

/-! ### Links (R391, R392) -/

/-- Frames queued for a port that has gone down are discarded (R392). -/
def State.flushPort (s : State) (p : Nat) : State :=
  let n := (s.lo.tx.filter fun x => x.port == p).length + (s.net.waiting.filter fun f => f.port == p).length
  { s.netDropped p n with
    lo := { s.lo with tx := s.lo.tx.filter fun x => x.port != p }
    net := { s.net with waiting := s.net.waiting.filter fun f => f.port != p } }

/-- The PTP port has gone down: PTP moves to the other port in pair mode, else show time is without it. -/
def State.ptpMoves (s : State) (p : Nat) : State :=
  if s.ptpPort ≠ p ∨ s.ptpRole = 0 then s
  else if s.netPair && s.netUp (1 - p) then (s.setFld Reg.NET_PTP_STATUS 20 20 (1 - p)).joins s
  else s.toHoldover

/-- TXFLT: TXDIS is driven high, and the fault is recorded. -/
def State.moduleFault (s : State) (p : Nat) : State :=
  let s1 := (s.setBit (Reg.NETP_STATUS p) 27 true).emitOn 1 (.pin ("NET" ++ toString p ++ "_TXDIS") 1)
  (s1.offer 0x0B03 [(8, p)]).netEvent 1

/-- Number of a cause as R391 lists them. -/
def faultNo : NetFault → Nat
  | .modabs => 0
  | .los => 1
  | .txflt => 2
  | .lock => 3

/-- NET_LINK_DOWN. -/
def execNetLinkDown (port : Fin 2) (cause : NetFault) (s : State) : Host.Outcome State Fault Refusal :=
  let p := port.val
  let k := Reg.NETP_STATUS p
  if !s.netOn p then .next s
  else
    let s1 := match cause with
      | .modabs => s.setBit k 30 false
      | .los => s.setBit k 29 true
      | .txflt => s.setBit k 28 true
      | .lock => s.setBit k 16 false
    let s2 := if s.netUp p then
        let t := ((s1.setBit k 31 false).count k 15 0 1).flushPort p
        ((t.offer 0x0B01 [(8, p), (8, choice 0x0B01 (faultNo cause))]).netEvent 0).ptpMoves p
      else s1
    .next (if cause = .txflt then s2.moduleFault p else s2)

/-- NET_LINK_UP: 10 ms of lock with every fault pin low. -/
def execNetLinkUp (port : Fin 2) (s : State) : Host.Outcome State Fault Refusal :=
  let p := port.val
  let k := Reg.NETP_STATUS p
  if !s.netOn p || s.netUp p then .next s
  else
    let s1 := s.setReg k (2 ^ 31 + 2 ^ 30 + s.fld k 27 27 * 2 ^ 27 + 2 ^ 16 + s.fld k 15 0)
    let s2 := (s1.offer 0x0B02 [(8, p), (8, s1.fld (Reg.NETP_CFG p) 0 0)]).netEvent 0
    let s3 := s2.report p (s2.joined p)
    if s3.ptpRole = 2 ∧ s3.ptpPort = p then .next s3.toLeader
    else if s3.ptpRole ≠ 0 ∧ s3.ptpPort = p ∧ s3.fld Reg.NET_PTP_STATUS 27 24 = 0 then
      .next (s3.setFld Reg.NET_PTP_STATUS 27 24 4)
    else .next s3

/-- TXDIS_PULSE_END. -/
def execTxdisPulseEnd (port : Fin 2) (s : State) : Host.Outcome State Fault Refusal :=
  if s.bit (Reg.NETP_STATUS port.val) 27 then
    .next ((s.setBit (Reg.NETP_STATUS port.val) 27 false).emitOn 1 (.pin ("NET" ++ toString port.val ++ "_TXDIS") 0))
  else .next s

/-- MODULE_FAULT_RETRY: NETn_TXFLT is still high. -/
def execModuleFaultRetry (port : Fin 2) (s : State) : Host.Outcome State Fault Refusal :=
  if s.netOn port.val && s.bit (Reg.NETP_STATUS port.val) 28 then .next (s.moduleFault port.val) else .next s

/-- A write of NET_CTRL: a port that is disabled carries nothing. -/
def State.netCtrl (s : State) (value : Nat) : State :=
  let s0 := s.setReg Reg.NET_CTRL (value % 4)
  let s1 := if value % 4 = 0 then s0 else s0.ungate 13
  s1.each (fun p t =>
    if t.netOn p || !s.netOn p then t
    else (((t.setBit (Reg.NETP_STATUS p) 31 false).setBit (Reg.NETP_STATUS p) 16 false).flushPort p).ptpMoves p) (List.range 2)

/-! ### Frames and the small protocols (R387, R388) -/

/-- A counter of a port advances, wrapping. -/
def State.netCount (s : State) (k : Nat) : State := s.setReg k (s.reg k + 1)

/-- ETHERNET_FRAME_RECEIVED: counted as an error, discarded and counted, or left to its protocol. -/
def execEthernetFrameReceived (port : Fin 2) (frame : EthFrame) (s : State) : Host.Outcome State Fault Refusal :=
  let p := port.val
  if !(s.netOn p && s.netUp p) then .next s
  else if !frame.fcsOk || !frame.sumsOk then .next (s.netCount (Reg.NETP_RX_ERRORS p))
  else
    let cfg := Reg.NETP_CFG p
    let vlanOk := decide (frame.vid = if s.bit cfg 16 then some (s.fld cfg 31 20) else none)
    let mine := match frame.dest with
      | .own | .broadcast => true
      | .group g => (s.joined p).contains g
      | .other => false
    let s1 := s.netCount (Reg.NETP_RX_FRAMES p)
    if vlanOk && mine && frame.known && !frame.fragment then .next s1 else .next (s1.netCount (Reg.NETP_RX_DISCARDS p))

/-- The port takes frames for its own address `a`. -/
def State.ownAddr (s : State) (p a : Nat) : Bool := s.netOn p && s.netUp p && a == s.reg (Reg.NETP_IP p)

/-- ARP_REQUEST: answered for the port's own address. -/
def execArpRequest (port : Fin 2) (mac ipv4 target : Nat) (s : State) : Host.Outcome State Fault Refusal :=
  let p := port.val
  if s.ownAddr p target then
    .next (s.netSend p 5 [mac, ipv4, s.reg64 (Reg.NETP_MAC_LO p) (Reg.NETP_MAC_HI p), target])
  else .next s

/-- ICMP_ECHO_REQUEST. -/
def execIcmpEchoRequest (port : Fin 2) (source target : Nat) (data : List Byte) (s : State) : Host.Outcome State Fault Refusal :=
  if s.ownAddr port.val target then .next (s.netSend port.val 6 (source :: target :: data.map (·.toNat))) else .next s

/-- IGMP_QUERY, of every group (0) or of one. -/
def execIgmpQuery (port : Fin 2) (v2 : Bool) (group : Nat) (s : State) : Host.Outcome State Fault Refusal :=
  let p := port.val
  if !(s.netOn p && s.netUp p) then .next s
  else
    let s1 := { s with net := { s.net with igmpV2 := s.net.igmpV2.set p v2 } }
    .next (s1.report p ((s1.joined p).filter fun g => decide (group = 0) || g == group))

/-- SFP_I2C_TRANSACTION: a go write, dropped while busy, and the end of the transaction in flight. -/
def State.i2cGo (s : State) (p value : Nat) : State :=
  let k := Reg.NETP_I2C p
  if s.bit k 30 then (if value.testBit 31 then s else s.setReg k (s.fld k 30 29 * 2 ^ 29 + (value &&& 0x017FFFFF)))
  else
    let s1 := s.setReg k (s.fld k 29 29 * 2 ^ 29 + (value &&& 0x017FFFFF))
    if value.testBit 31 then
      (s1.setBit k 30 true).emitOn 1 (.i2c p (bitsOf value 22 16) (bitsOf value 15 8) (if value.testBit 24 then 256 else bitsOf value 7 0))
    else s1

def execSfpI2cTransaction (port : Fin 2) (value : Nat) (ack : Bool) (data : Byte) (s : State) :
    Host.Outcome State Fault Refusal :=
  let k := Reg.NETP_I2C port.val
  let s1 := s.i2cGo port.val value
  if s1.bit k 30 then
    let s2 := (s1.setBit k 30 false).setBit k 29 (!ack)
    .next (if ack && s2.bit k 24 then s2.setFld k 7 0 data.toNat else s2)
  else .next s1

/-! ### PTP (R393–R396) -/

/-- The device's clock identity: the MAC address of NET0 with FF FE between its halves. -/
def State.clockId (s : State) : Nat :=
  let o := fun i => bitsOf (s.reg64 (Reg.NETP_MAC_LO 0) (Reg.NETP_MAC_HI 0)) (8 * i + 7) (8 * i)
  [o 0, o 1, o 2, 0xFF, 0xFE, o 3, o 4, o 5].foldl (fun a b => a * 256 + b) 0

/-- The device's own data set, as it announces it (R393). -/
def State.ownDs (s : State) : PtpDs :=
  ⟨s.clockId, s.fld Reg.NET_PTP_DS 31 24, s.fld Reg.NET_PTP_DS 15 8, 0xFE, 0xFFFF, s.fld Reg.NET_PTP_DS 23 16, 0⟩

/-- The data set comparison of IEEE 1588 clause 9.3: `a` is better than `b`. -/
def dsBetter (a b : PtpDs) : Bool :=
  if a.identity = b.identity then decide (a.steps < b.steps)
  else
    let ka := [a.priority1, a.clockClass, a.accuracy, a.variance, a.priority2, a.identity]
    let kb := [b.priority1, b.clockClass, b.accuracy, b.variance, b.priority2, b.identity]
    decide (ka < kb)

/-- The best of the qualified clocks: those heard at least twice. -/
def bestForeign (l : List Foreign) : Option Foreign :=
  match l.filter fun f => decide (2 ≤ f.heard) with
  | [] => none
  | f :: fs => some (fs.foldl (fun a b => if dsBetter b.ds a.ds then b else a) f)

/-- The leader that the role and the BMCA choose, from the clocks heard: some to follow, or the device itself. -/
def State.chooseLeader (s : State) : State :=
  match s.ptpRole, bestForeign s.net.foreign with
  | 1, some f => follow f
  | 3, some f =>
    if dsBetter s.ownDs f.ds then s.toLeader
    else if s.ownDs.clockClass < 128 then s.setFld Reg.NET_PTP_STATUS 27 24 7
    else follow f
  | _, _ => s
where
  /-- Follow a clock: the first Sync from it is still to come. -/
  follow (f : Foreign) : State :=
    let s1 := (s.setReg64 Reg.NET_PTP_LEADER_LO Reg.NET_PTP_LEADER_HI (ofLeBytes (leBytes 8 f.ds.identity).reverse)).setFld
      Reg.NET_PTP_STATUS 15 0 (f.ds.steps + 1)
    if s.net.leader.any fun l => l.source == f.source then { s1 with net := { s1.net with leader := some f } }
    else
      ({ s1 with net := { s1.net with leader := some f, synced := false, sync := none, pair := none, req := none, good := 0 } }).setFld
        Reg.NET_PTP_STATUS 27 24 8

/-- The port is leader: it sends Sync and Announce, and answers delay requests. -/
def State.ptpLeads (s : State) : Bool := s.fld Reg.NET_PTP_STATUS 27 24 == 6

/-- meanPathDelay and delayAsymmetry of the PTP port. -/
def State.pathDelay (s : State) : Int := signedOf 32 (s.reg Reg.NET_PTP_DELAY)
def State.asym (s : State) : Int := signedOf 32 (s.reg (Reg.NETP_ASYM s.ptpPort))

/-- The servo acts on a measured error (R396): a slew whose rate is free within max_slew_ppm, a step forward, or a growth of
STM_OFS. -/
def State.servo (s : State) (e : Int) : State :=
  let step : Int := (s.fld Reg.STM_CFG 15 0 : Int) * 1000
  let s1 := s.setReg Reg.NET_PTP_OFFSET (toSigned 32 (max (-2 ^ 31) (min (2 ^ 31 - 1) e)))
  if e < -step then
    let s2 := ({ s1 with clk := { s1.clk with stm := s1.clk.stm + e.natAbs } }).setBit Reg.STM_STATUS 8 true
    (s2.offer 0x0B05 [(64, e.natAbs)]).netEvent 3
  else if step < e then
    let ofs := s1.stmOfs + e.toNat
    let s2 := (s1.setReg64 Reg.STM_OFS_LO Reg.STM_OFS_HI (ofs % 2 ^ 64)).setBit Reg.STM_STATUS 9 true
    s2.offer 0x0B06 [(32, min e.toNat (2 ^ 32 - 1)), (64, ofs)]
  else
    let lim := s1.fld Reg.STM_CFG 24 16 * 1000
    let r : Int := ((s1.free 20 % (2 * lim + 1) : Nat) : Int) - (lim : Int)
    ({ s1 with net := { s1.net with rate := some r } }.took).setRate r

/-- A complete Sync of the leader, whose origin is PTP time `t1` and which arrived at show time `t2`: the measured error, the
servo, and the state of Table 15.3. -/
def State.measure (s : State) (t1 : Int) (t2 : Nat) : State :=
  let e : Int := (t2 : Int) - (t1 + s.pathDelay + s.asym + (s.stmOfs : Int))
  let s1 := { s with net := { s.net with pair := some (t1, t2), sync := none } }
  let s2 := if !s.net.synced || s.stmState = 3 then
      ({ s1 with net := { s1.net with synced := true, good := 0 } }.ptpState 1)
    else s1
  let s3 := s2.servo e
  let good := if e.natAbs ≤ 1000 then s3.net.good + 1 else 0
  let s4 := { s3 with net := { s3.net with good := good } }
  let s5 := s4.setFld Reg.NET_PTP_STATUS 27 24 9
  if 16 ≤ good ∧ s5.stmState = 1 then s5.ptpState 2 else s5

/-- meanPathDelay takes half of a sum; a half nanosecond falls freely (assumption 26). -/
def State.setDelay (s : State) (sum : Int) : State :=
  (s.setReg Reg.NET_PTP_DELAY (toSigned 32 ((sum + (s.free 1 : Int)) / 2))).took

/-- PTP_MESSAGE_RECEIVED (R393). -/
def State.ptpReceive (s : State) (p : Nat) (msg : PtpMsg) : State :=
  let now := s.clk.stm
  let isLeader := fun (src : Nat) => s.net.leader.any fun l => l.source == src
  match msg with
  | .management => s.netCount (Reg.NETP_RX_DISCARDS p)
  | .announce src ds =>
    if s.ptpRole = 2 then s
    else
      let old := s.net.foreign.find? fun f => f.source == src
      let f : Foreign := ⟨src, ds, ((old.map (·.heard)).getD 0) + 1, now⟩
      ({ s with net := { s.net with foreign := f :: s.net.foreign.filter fun f => f.source != src } }).chooseLeader
  | .sync src seq twoStep origin =>
    if !isLeader src then s
    else if twoStep then { s with net := { s.net with sync := some (seq, now) } }
    else s.measure origin now
  | .followUp src seq origin =>
    match s.net.sync with
    | some (q, t2) => if isLeader src && q == seq then s.measure origin t2 else s
    | none => s
  | .delayReq src seq => if s.ptpLeads && !s.p2p then s.netSend p 3 [9, seq, src, toSigned 80 s.ptpTime] else s
  | .delayResp src seq t4 =>
    match s.net.req, s.net.pair with
    | some (q, t3), some (t1, t2) =>
      if isLeader src && q == seq && !s.p2p then
        s.setDelay ((((t2 : Int) - (s.stmOfs : Int)) - t1) + (t4 - ((t3 : Int) - (s.stmOfs : Int))))
      else s
    | _, _ => s
  | .pdelayReq src seq => if s.p2p then s.netSend p 3 [3, seq, src, toSigned 80 s.ptpTime, toSigned 80 s.ptpTime] else s
  | .pdelayResp _ seq t2 t3 =>
    match s.net.req with
    | some (q, t1) => if s.p2p && q == seq then s.setDelay (((now : Int) - (t1 : Int)) - (t3 - t2)) else s
    | none => s

def execPtpMessageReceived (port : Fin 2) (domain : Nat) (msg : PtpMsg) (s : State) : Host.Outcome State Fault Refusal :=
  let p := port.val
  if s.netOn p && s.netUp p && s.ptpPort == p && s.ptpRole != 0 && domain == s.fld Reg.NET_PTP_CFG 31 24 then
    .next (s.ptpReceive p msg)
  else .next s

/-- The next sequence number of a kind of message. -/
def State.nextSeq (s : State) (i : Nat) : Nat × State :=
  let q := s.net.seqs.getD i 0
  (q, { s with net := { s.net with seqs := s.net.seqs.set i ((q + 1) % 65536) } })

/-- PTP_MESSAGE_SEND: an interval expires and its message goes out; a two-step Sync is followed up. -/
def execPtpMessageSend (what : PtpSend) (s : State) : Host.Outcome State Fault Refusal :=
  let p := s.ptpPort
  let t := toSigned 80 s.ptpTime
  if s.ptpRole = 0 then .next s
  else
    match what with
    | .sync =>
      if !s.ptpLeads then .next s
      else
        let (q, s1) := s.nextSeq 0
        if s.bit Reg.NET_PTP_CFG 15 then .next (s1.netSend p 3 [0, q, t])
        else .next ((s1.netSend p 3 [0, q, 0]).netSend p 3 [8, q, t])
    | .announce =>
      if !s.ptpLeads then .next s
      else
        let (q, s1) := s.nextSeq 1
        let d := s.ownDs
        .next (s1.netSend p 3 [11, q, d.priority1, d.clockClass, d.accuracy, d.variance, d.priority2, d.identity, d.steps,
          s.fld Reg.NET_PTP_DS 7 0])
    | .delayReq =>
      if !s.p2p && (s.ptpLeads || s.net.pair.isNone) then .next s
      else
        let (q, s1) := s.nextSeq 2
        .next ({ s1 with net := { s1.net with req := some (q, s.clk.stm) } }.netSend p 3 [if s.p2p then 2 else 1, q])

/-- PTP_RECEIPT_TIMEOUT: no Announce for the receipt timeout, or no Sync for four intervals (Table 15.3). Without an Announce
the BMCA makes the device leader. -/
def execPtpReceiptTimeout (announce : Bool) (s : State) : Host.Outcome State Fault Refusal :=
  if s.ptpRole = 0 ∨ s.stmState = 4 then .next s
  else
    let s1 := s.toHoldover
    if !announce then .next s1
    else
      let s2 := { s1 with net := { s1.net with foreign := [], leader := none, synced := false } }
      if s2.ptpRole = 3 then .next s2.toLeader else .next (s2.setFld Reg.NET_PTP_STATUS 27 24 4)

/-- PPS_PULSE (R398). -/
def execPpsPulse (s : State) : Host.Outcome State Fault Refusal :=
  if s.bit Reg.STM_PPS 0 then .next ((s.emitOn 9 (.pin "PPS_OUT" 1)).emitOn 9 (.pin "PPS_OUT" 0)) else .next s

/-! ### AES67 (R399, R400) -/

/-- Samples of a packet. -/
def ptime (cfg : Nat) : Nat := if cfg.testBit 30 then 6 else 48

def State.aesTx (s : State) (k : Nat) : AesTx := s.net.tx.getD k {}
def State.aesRx (s : State) (k : Nat) : AesRx := s.net.rx.getD k {}
def State.setAesRx (s : State) (k : Nat) (x : AesRx) : State := { s with net := { s.net with rx := s.net.rx.set k x } }

/-- AES67_TX_PACKET: a packet of the stream's next samples leaves its ports; its timestamp is the media-clock index of the
first. -/
def execAes67TxPacket (stream : Fin 8) (s : State) : Host.Outcome State Fault Refusal :=
  let k := stream.val
  let cfg := s.reg (Reg.NET_AES_TX_CFG k)
  if !cfg.testBit 31 then .next s
  else
    let n := ptime cfg
    let x := s.aesTx k
    let frames := (List.range n).map fun i => x.fifo.getD i (List.replicate 8 0)
    let stamp := ((s.mediaNow - (n : Int)) % 2 ^ 32).toNat
    let ssrc := bitsOf (s.reg (Reg.NETP_MAC_HI 0)) 7 0 * 2 ^ 24 + bitsOf (s.reg (Reg.NETP_MAC_HI 0)) 15 8 * 2 ^ 16 + k
    let payload := [s.reg (Reg.NET_AES_TX_DEST k), bitsOf cfg 15 0, bitsOf cfg 22 16, x.seq, stamp, ssrc]
      ++ frames.flatMap fun f => f.map (toSigned 24)
    let s1 := { s with net := { s.net with tx := s.net.tx.set k { seq := (x.seq + 1) % 65536, fifo := x.fifo.drop n } } }
    let ports := (List.range 2).filter fun p => s.netPair || cfg.testBit (28 + p)
    let s2 := s1.setReg (Reg.NET_AES_TX_STATUS k) (s1.reg (Reg.NET_AES_TX_STATUS k) + 1)
    .next (s2.each (fun p t => t.netSend p 4 payload) ports)

/-- A count of lost packets, wrapping. -/
def State.aesLost (s : State) (k n : Nat) : State :=
  s.setFld (Reg.NET_AES_RX_STATUS k) 15 0 (s.fld (Reg.NET_AES_RX_STATUS k) 15 0 + n)

/-- Packets still missing when their first sample plays are lost. -/
def State.aesMissed (s : State) (k : Nat) : State :=
  let x := s.aesRx k
  let due := fun (m : Nat × Nat) => decide ((m.2 : Int) < s.mediaNow)
  let gone := (x.missing.filter due).map fun m => (m.1, 2)
  (s.setAesRx k { x with missing := x.missing.filter fun m => !due m, seen := (gone ++ x.seen).take 1024 }).aesLost k gone.length

/-- AES67_RX_PACKET: dropped silently where it has arrived on the other port of a pair (R390), else scheduled for playout at its
RTP instant plus the stream's delay, or discarded as lost (R400). Numbers that it skips are missing until they arrive. -/
def State.aesReceive (s0 : State) (k p seq stamp : Nat) (samples : List (List Int)) : State :=
  let s := s0.aesMissed k
  let x := s.aesRx k
  if s.netPair && x.seen.contains (seq, 1 - p) then s
  else
    let now := s.mediaNow
    let play := now + signedOf 32 (((stamp : Int) - now) % 2 ^ 32).toNat + (s.fld (Reg.NET_AES_RX_DELAY k) 9 0 : Int)
    let n := ptime (s.reg (Reg.NET_AES_RX_CFG k))
    let d := match x.last with
      | some q => (seq + 65536 - q) % 65536
      | none => 1
    let newer := decide (0 < d ∧ d < 32768)
    let gap := if newer then (List.range (d - 1)).map fun i => ((seq + 65536 - (i + 1)) % 65536, (play - ((n * (i + 1) : Nat) : Int)).toNat) else []
    let y := { x with
      last := if newer then some seq else x.last
      seen := ((seq, p) :: x.seen).take 1024
      missing := gap ++ x.missing.filter fun m => m.1 != seq }
    if play < now ∨ 960 < play - now then
      (s.setAesRx k y).aesLost k (if x.seen.contains (seq, 2) then 0 else 1)
    else
      let new := samples.zipIdx.map fun f => (play.toNat + f.2, f.1)
      ((s.setAesRx k { y with buf := y.buf ++ new }).setBit (Reg.NET_AES_RX_STATUS k) 31 true).aesMissed k

def execAes67RxPacket (stream : Fin 8) (port : Fin 2) (seq stamp : Nat) (samples : List (List Int)) (s : State) :
    Host.Outcome State Fault Refusal :=
  if s.netOn port.val && s.netUp port.val && s.aesRxOn stream.val port.val then
    .next (s.aesReceive stream.val port.val (seq % 65536) (stamp % 2 ^ 32) (samples.take (ptime (s.reg (Reg.NET_AES_RX_CFG stream.val)))))
  else .next s

/-- A write of the enable of a stream takes effect: what waited for a stream that is disabled is gone, and a group joined or left
follows (R388). -/
def State.aesEnable (s old : State) (tx : Bool) (k : Nat) : State :=
  if tx then
    if s.bit (Reg.NET_AES_TX_CFG k) 31 then s
    else { s with net := { s.net with tx := s.net.tx.set k { s.aesTx k with fifo := [] } } }
  else if s.bit (Reg.NET_AES_RX_CFG k) 31 then s.joins old
  else (s.setAesRx k {}).setBit (Reg.NET_AES_RX_STATUS k) 31 false

/-- AES_RX_LOSS: 100 ms without an accepted packet; the mixer inputs that the stream feeds run dry (R400). -/
def execAesRxLoss (stream : Fin 8) (s : State) : Host.Outcome State Fault Refusal :=
  let k := stream.val
  if s.bit (Reg.NET_AES_RX_STATUS k) 31 then
    let s1 := ((s.setBit (Reg.NET_AES_RX_STATUS k) 31 false).offer 0x0B07 [(8, k)]).netEvent 4
    let fed := (List.range 128).filter fun i =>
      s.fld (Reg.AUD_IN_CFG_ACT i) 26 24 == 2 && s.fld (Reg.AUD_IN_CFG_ACT i) 22 16 / 8 == k
    .next (if s.bit Reg.AUD_STATUS 31 then s1.each (fun i t => t.inputDry i) fed else s1)
  else .next s

end Sys2Proof.Machine
end

