-- ==== Sys2Proof/Machine/Audio.lean ====
section
/-! DEFINITION. Audio routing and mixing (spec/18): sources, buffers, voices, crosspoints, buses, meters, blocks and commits. -/

namespace Sys2Proof.Machine

/-! ### Rate, ports and samples (R437, R440, R452) -/

/-- 96 kHz is in force; the audio clock is AUD_MCLK_IN. -/
def State.fast (s : State) : Bool := s.bit Reg.AUD_CFG 0
def State.mclkIn (s : State) : Bool := s.bit Reg.AUD_STATUS 29

/-- Inputs, buses, voices and slots per port that the rate offers. -/
def State.inputsOn (s : State) : Nat := if s.fast then 64 else 128
def State.busesOn (s : State) : Nat := if s.fast then 32 else 64
def State.voicesOn (s : State) : Nat := if s.fast then 32 else 64
def State.slotsOn (s : State) : Nat := if s.fast then 8 else 16

/-- Port `p` is enabled and locked; a master always is locked. -/
def State.tdmLocked (s : State) (p : Nat) : Bool :=
  s.bit (Reg.AUD_TDM_CFG p) 0 && (s.bit (Reg.AUD_TDM_CFG p) 1 || s.bit (Reg.AUD_TDM_STATUS p) 31)

/-- AUD_TDM_p_STATUS.locked of the ports that are masters or disabled. -/
def State.tdmSync (s : State) : State :=
  s.each (fun p t =>
    if !t.bit (Reg.AUD_TDM_CFG p) 0 then t.setBit (Reg.AUD_TDM_STATUS p) 31 false
    else if t.bit (Reg.AUD_TDM_CFG p) 1 then t.setBit (Reg.AUD_TDM_STATUS p) 31 true else t) (List.range 8)

/-- Slot `c` of port `p` exists in the port's frame. -/
def State.slotOn (s : State) (p c : Nat) : Bool := decide (c < 2 * 2 ^ s.fld (Reg.AUD_TDM_CFG p) 3 2) && decide (c < s.slotsOn)

/-- The value of a sample word, and of a 24-bit sample. -/
def sampleQ (w : Nat) : ℚ := (f32.rat? w).getD 0
def fixedQ (i : Int) : ℚ := (i : ℚ) / 8388608

/-- The binary32 word of a value: a rounding the spec does not state (assumption 26). -/
def toSample (q : ℚ) : Nat := f32.roundFree q

/-- The largest value a sink sends, and the clamp to [−1, 1 − 2^−23] (R441, R446). -/
def topQ : ℚ := 1 - 1 / 8388608
def clampQ (q : ℚ) : ℚ := max (-1) (min topQ q)

/-- A sample of a guest's buffer as a word (R441): format 0 S24, 1 S16, 2 FP32. -/
def guestSample (fmt : Nat) (bs : List Byte) : Nat :=
  let v := ofLeBytes bs
  match fmt with
  | 0 => toSample (fixedQ (signedOf 24 v))
  | 1 => toSample (fixedQ (256 * signedOf 16 v))
  | _ => match f32.val v with
    | .nan => 0
    | .inf n => toSample (if n then -1 else topQ)
    | .fin n q => if -1 ≤ sgn n q ∧ sgn n q ≤ topQ then v else toSample (clampQ (sgn n q))

/-- Bytes of a sample. -/
def sampleBytes (fmt : Nat) : Nat := if fmt = 1 then 2 else 4

/-- A bus sample in a job's format: an integer one clamped and rounded to nearest even, FP32 as it is held (R441, R442). -/
def captured (fmt w : Nat) : List Byte :=
  let q := clampQ (sampleQ w)
  match fmt with
  | 0 => leBytes 4 (toSigned 32 (min 8388607 (intNearest (q * 8388608))))
  | 1 => leBytes 2 (toSigned 16 (min 32767 (intNearest (q * 32768))))
  | _ => leBytes 4 w

/-! ### Guest buffers (R440, R441) -/

def State.guestBuf (s : State) (i : Nat) : GuestBuf := spGet (fun _ => {}) s.aud.bufs i
def State.setGuestBuf (s : State) (i : Nat) (b : GuestBuf) : State :=
  { s with aud := { s.aud with bufs := spSet (fun _ => {}) s.aud.bufs i b } }

/-- Change a running play job. -/
def State.modPlay (s : State) (c sq : Nat) (f : PlayJob → PlayJob) : State :=
  { s with aud := { s.aud with plays := s.aud.plays.map fun j => if j.ctx = c ∧ j.sq = sq then f j else j } }

/-- A play job fills its input's buffer of 256 samples from memory as far as there is room (R441). -/
def State.fillPlay (s : State) (p : PlayJob) : State :=
  match s.job p.ctx p.sq with
  | none => s
  | some j =>
    let b := s.guestBuf p.input
    let w := sampleBytes (j.f 0x12 1)
    let n := min (256 - b.samples.length) (j.f 0x14 4 - p.entered)
    let a := j.f 0x18 8 + w * p.entered
    if n = 0 || b.discard then s
    else match s.reach p.ctx 0x18 a (w * n) false with
      | (_, some (st, d)) => s.faultAt p.ctx p.sq st d 0
      | (_, none) =>
        let bs := s.bufRead p.host a (w * n)
        let new := (List.range n).map fun k => guestSample (j.f 0x12 1) ((bs.drop (w * k)).take w)
        let s1 := s.setGuestBuf p.input { b with samples := b.samples ++ new }
        (s1.modPlay p.ctx p.sq fun q => { q with entered := p.entered + n }).modJob p.ctx p.sq fun k => { k with count := p.entered + n }

/-- AUDIO_BUFFER with dir play: it starts, or goes on filling. Its first sample plays not before its target time, unless earlier
samples remain in the buffer. -/
def execAudioBufferPlay (ctx : Fin 1024) (host : List (Nat × Byte)) (s : State) : Host.Outcome State Fault Refusal :=
  let c := ctx.val
  match s.aud.plays.find? fun p => p.ctx == c with
  | some p =>
    let q := { p with host := host ++ p.host }
    .next ((s.modPlay c p.sq fun _ => q).fillPlay q)
  | none =>
    match s.toStart c 9 with
    | none => .next s
    | some j =>
      if (j.f 0x11 1).testBit 0 then .next s
      else
        let i := j.f 0x10 1 % 128
        let p : PlayJob := { ctx := c, sq := j.sq, input := i, host := host }
        let b := s.guestBuf i
        let s1 := (s.markStarted c j.sq).modJob c j.sq fun k => { k with extent := j.f 0x14 4 }
        let s2 := if b.samples.isEmpty || b.discard then s1.setGuestBuf i { b with notBefore := j.at? } else s1
        let s3 : State := { s2 with aud := { s2.aud with plays := s2.aud.plays ++ [p] } }
        let n := sampleBytes (j.f 0x12 1) * j.f 0x14 4
        let s4 := if spaceOf (j.f 0x18 8) = .host && s3.mayMaster (s3.ctxPaddock c) then s3.hostRead c j.sq 0x18 (j.f 0x18 8) n else s3
        .next (s4.fillPlay p)

/-- AUDIO_BUFFER_PLAY_DONE: the last sample has entered the buffer. -/
def execAudioBufferPlayDone (ctx : Fin 1024) (s : State) : Host.Outcome State Fault Refusal :=
  let c := ctx.val
  match s.aud.plays.find? fun p => p.ctx == c with
  | none => .next s
  | some p =>
    match s.job c p.sq with
    | none => .next s
    | some j =>
      if j.f 0x14 4 ≤ p.entered then
        let s1 : State := { s with aud := { s.aud with plays := s.aud.plays.filter fun q => !(q.ctx == c && q.sq == p.sq) } }
        .next (s1.endJob c p.sq 0 0 0)
      else .next s

/-- The samples that GUEST input `i` plays in the block that starts: none while it waits, or runs dry (SOURCE_UNDERRUN). -/
def State.pullGuest (s : State) (i : Nat) : State :=
  let b0 := s.guestBuf i
  let b := if b0.discard then { b0 with samples := [], discard := false } else b0
  let early := match b.notBefore with
    | some t => decide (s.clk.stm < t)
    | none => false
  if !early && decide (64 ≤ b.samples.length) then
    let s1 := s.setGuestBuf i { b with samples := b.samples.drop 64, notBefore := none, playing := true }
    { s1 with aud := { s1.aud with guest := s1.aud.guest ++ [(i, b.samples.take 64)] } }
  else
    let s1 := s.setGuestBuf i { b with playing := false }
    if b.playing then s1.inputDry i else s1

/-! ### Clips and voices (R449, R450) -/

def State.audBytes (s : State) : Nat := s.fld (Reg.BSN_PART_SIZE 6) 10 0 * 65536

/-- `n` bytes at offset `o` of the directory entry of clip `k`. -/
def State.clip (s : State) (k o n : Nat) : Nat := ofLeBytes (s.bytes .basin (s.audBase + 16 * k + o) n)

/-- State of clip `k`: 0 empty, 1 valid, 2 range, 3 CRC, 4 reserved. -/
def State.clipCheck (s : State) (k : Nat) : Nat :=
  if s.clip k 4 4 = 0 then 0
  else checkClip (fun o n => s.bytes .basin (s.audBase + o) n) s.audBytes (s.clip k 0 4) (s.clip k 4 4) 4 (s.clip k 12 4) (s.clip k 9 3 != 0)

/-- CLIP_CHECK_DONE (R450). -/
def execClipCheckDone (s : State) : Host.Outcome State Fault Refusal :=
  if !s.aud.enabledOnce || !s.aud.clips.isEmpty then .next s
  else
    let l := (List.range 256).map s.clipCheck
    let bad := l.zipIdx.filter fun e => decide (2 ≤ e.1)
    .next (State.each (fun (e : Nat × Nat) t => t.offer 0x0E06 [(8, e.2), (8, e.1 - 2)]) bad { s with aud := { s.aud with clips := l } })

def State.voice (s : State) (v : Nat) : Voice := spGet (fun _ => {}) s.aud.voices v
def State.setVoice (s : State) (v : Nat) (x : Voice) : State :=
  State.setBit { s with aud := { s.aud with voices := spSet (fun _ => {}) s.aud.voices v x } } (Reg.AUD_VOICE_STATUS v) 0 x.pos.isSome

def State.voiceClip (s : State) (v : Nat) : Nat := s.fld (Reg.AUD_VOICE_CFG_ACT v) 7 0

/-- A start or stop at a block boundary (R449, R450). The cause that CLIP_BAD names for an empty clip is not stated
(assumption 1). -/
def State.voiceAct (s : State) (v : Nat) (start : Bool) : State :=
  if !start then (if (s.voice v).pos.isSome then s.setVoice v { s.voice v with fade := true } else s)
  else
    let k := s.voiceClip v
    match s.aud.clips.getD k 0 with
    | 1 => if v < s.voicesOn then s.setVoice v { pos := some 0 } else s
    | 0 => if s.aud.clips.isEmpty then s else s.took.offer 0x0E06 [(8, k), (8, s.free 8)]
    | e => s.offer 0x0E06 [(8, k), (8, e - 2)]

/-- Samples of voice `v` in a block that starts at sample `i` of its clip; a fade falls over the block by factors from 0 to 1
that the spec does not state (assumption 1). -/
def State.voiceSamples (s : State) (v i : Nat) (fade : Bool) : List Nat :=
  let k := s.voiceClip v
  let len := s.clip k 4 4
  (List.range 64).map fun j =>
    let at' := if s.bit (Reg.AUD_VOICE_CFG_ACT v) 8 then (i + j) % max 1 len else i + j
    let x := if at' < len then fixedQ (signedOf 24 (ofLeBytes (s.bytes .basin (s.audBase + 64 * s.clip k 0 4 + 4 * at') 4))) else 0
    let f : ℚ := if fade then ((Config.freeBits 16 (2 ^ 125 + j)).toNat : ℚ) / 65535 else 1
    toSample (x * (s.clip k 8 1 : ℚ) / 255 * f)

/-- The playing voices give their samples for the block that starts, and move on. -/
def State.pullVoice (s : State) (v : Nat) : State :=
  match (s.voice v).pos with
  | none => s
  | some i =>
    let x := s.voice v
    let loop := s.bit (Reg.AUD_VOICE_CFG_ACT v) 8
    let len := s.clip (s.voiceClip v) 4 4
    let next := if x.fade || (!loop && decide (len ≤ i + 64)) then none else some (if loop then (i + 64) % max 1 len else i + 64)
    let s1 : State := { s with aud := { s.aud with voice := s.aud.voice ++ [(v, s.voiceSamples v i x.fade)] } }
    s1.setVoice v { pos := next }

def execVoiceStart (voice : Fin 64) (s : State) : Host.Outcome State Fault Refusal :=
  .next { s with aud := { s.aud with asks := s.aud.asks ++ [(voice.val, true)] } }

def execVoiceStop (voice : Fin 64) (s : State) : Host.Outcome State Fault Refusal :=
  .next { s with aud := { s.aud with asks := s.aud.asks ++ [(voice.val, false)] } }

/-! ### Crosspoints (R443) -/

/-- The gain of entry `e` of bank `b`. -/
def State.gainIn (s : State) (b e : Nat) : Nat := ofLeBytes (s.bytes .basin (s.xpAt b + 2 * e) 2)

/-- A write of AUD_XP_DATA: the inactive bank's gain, and the next entry; dropped while a copy runs. -/
def State.xpData (s : State) (value : Nat) : State :=
  if s.aud.sync.isSome then (s.offer 0x0E09 [(32, Reg.AUD_XP_DATA)]).audEvent 6
  else
    let e := s.fld Reg.AUD_XP_ADDR 12 0
    (s.write .basin (s.xpAt (1 - s.audBank) + 2 * e) (leBytes 2 value)).setFld Reg.AUD_XP_ADDR 12 0 (e + 1)

def execAudXpDataWrite (value : Nat) (s : State) : Host.Outcome State Fault Refusal := .next (s.xpData value)

/-- A write of AUD_XP_ADDR; with sync the copy of the active bank begins. -/
def State.xpAddr (s : State) (value : Nat) : State :=
  let s1 := s.setFld Reg.AUD_XP_ADDR 12 0 value
  if value.testBit 31 && s.aud.sync.isNone then { s1 with aud := { s1.aud with sync := some s.audBank } } else s1

def execAudXpSync (value : Nat) (s : State) : Host.Outcome State Fault Refusal := .next (s.xpAddr value)

/-- AUD_XP_SYNC_DONE: the bank copied from stands in the other one. -/
def execAudXpSyncDone (s : State) : Host.Outcome State Fault Refusal :=
  match s.aud.sync with
  | none => .next s
  | some b =>
    let s1 := s.write .basin (s.xpAt (1 - b)) (s.bytes .basin (s.xpAt b) 16384)
    .next { s1 with aud := { s1.aud with sync := none } }

/-! ### Mixing a block (R439, R440, R445–R448) -/

/-- What a block takes in beside the state: TDM samples by slot 16p + c. -/
structure Intake where
  tdm : List (Nat × List Int)
  /-- AES67 samples by channel. -/
  aes : List (Nat × List Int)

/-- The samples of a source (an AUD_IN_i_CFG word) of input `i` in the block, none where the source is not live (R440). -/
def State.sourceOf (s : State) (x : Intake) (i cfg : Nat) : Option (List ℚ) :=
  let idx := bitsOf cfg 22 16
  let pick := fun (l : List (Nat × List Int)) => (l.find? fun e => e.1 == idx).map fun e => (List.range 64).map fun k => fixedQ (e.2.getD k 0)
  match bitsOf cfg 26 24 with
  | 1 =>
    let p := idx / 16
    if s.tdmLocked p && s.bit (Reg.AUD_TDM_CFG p) 8 && s.slotOn p (idx % 16) then
      some ((pick x.tdm).getD (List.replicate 64 0)) else none
  | 2 => if s.bit (Reg.NET_AES_RX_STATUS (idx / 8)) 31 then some ((pick x.aes).getD (List.replicate 64 0)) else none
  | 3 => (s.aud.guest.find? fun e => e.1 == i).map fun e => e.2.map sampleQ
  | 4 => (s.aud.voice.find? fun e => e.1 == idx).map fun e => e.2.map sampleQ
  | _ => none

/-- The word from which the block moves away (R445), and the word in force. -/
def State.oldWord (s : State) (k : Nat) : Nat := ((s.aud.fade.words.find? fun w => w.1 == k).map (·.2)).getD (s.reg k)

/-- cos and sin of πk/128. -/
def cosFade (k : Nat) : ℚ := sinPiR (1 / 2 + (k : ℚ) / 128)
def sinFade (k : Nat) : ℚ := sinPiR ((k : ℚ) / 128)

/-- The samples of input `i` in the block: a changed source crosses from old to new. -/
def State.inputOf (s : State) (x : Intake) (i : Nat) : List ℚ :=
  let new := s.reg (Reg.AUD_IN_CFG_ACT i)
  let old := s.oldWord (Reg.AUD_IN_CFG_ACT i)
  let b := (s.sourceOf x i new).getD (List.replicate 64 0)
  if bitsOf old 26 16 = bitsOf new 26 16 then b
  else
    let a := (s.sourceOf x i old).getD (List.replicate 64 0)
    (List.range 64).map fun k => a.getD k 0 * cosFade k + b.getD k 0 * sinFade k

/-- The gain of crosspoint entry `e` at sample `k` of the block. -/
def State.gainAt (s : State) (e k : Nat) : ℚ :=
  let g : ℚ := (s.gainIn s.audBank e : ℚ) / 16384
  match s.aud.fade.gains.find? fun w => w.1 == e with
  | none => g
  | some w =>
    let o : ℚ := (w.2 : ℚ) / 16384
    if w.2 = 0 then g * sinFade k else if g = 0 then o * cosFade k else o + (g - o) * (k : ℚ) / 64

/-- The factor of a bus: law 0 mute, 1 one over n, 2 one over √n, else 1 (R447). -/
def factorQ (f : Nat × Nat) : ℚ :=
  match f.1 with
  | 0 => 0
  | 1 => 1 / (f.2 : ℚ)
  | 2 => 1 / sqrtQ (f.2 : ℚ)
  | _ => 1

/-- The factor that a bus word and n_b call for. -/
def factorOf (cfg n : Nat) : Nat × Nat :=
  if cfg.testBit 0 then (0, 0)
  else if cfg.testBit 1 && decide (1 < n) then (if cfg.testBit 2 then (2, n) else (1, n))
  else (3, 0)

/-- 10^(−d/40), and 1 while not ducked (R448). -/
def duckQ (d : Option Nat) : ℚ :=
  match d with
  | some n => exp2R (-((n : ℚ) / 40) * log2R 10)
  | none => 1

/-- A linear move over the block. -/
def rampQ (a b : ℚ) (k : Nat) : ℚ := a + (b - a) * (k : ℚ) / 64

/-- An input of the block: number, samples, whether it is live, and of class ALARM. -/
structure MixIn where
  i : Nat
  x : List ℚ
  live : Bool
  alarm : Bool
  deriving DecidableEq, Repr

/-- The inputs of the block that completes. -/
def State.mixIns (s : State) (x : Intake) : List MixIn :=
  (List.range s.inputsOn).map fun i =>
    let w := s.reg (Reg.AUD_IN_CFG_ACT i)
    ⟨i, s.inputOf x i, (s.sourceOf x i w).isSome, w.testBit 15⟩

/-- One bus of the block: its samples, and its scale from now on with n_b. -/
def State.mixBus (s : State) (ins : List MixIn) (b : Nat) : List Nat × BusScale × Nat :=
  let cfg := s.reg (Reg.AUD_BUS_CFG_ACT b)
  let fed := ins.filter fun m => s.gainIn s.audBank (64 * m.i + b) != 0 || s.aud.fade.gains.any fun w => w.1 == 64 * m.i + b
  let live := fed.filter fun m => m.live && s.gainIn s.audBank (64 * m.i + b) != 0
  let n := (live.filter fun m => !m.alarm).length
  let old := spGet (fun _ => {}) s.aud.scales b
  let now := factorOf cfg n
  let to' := old.next.getD now
  let from' := old.scale.getD to'
  let duck := if cfg.testBit 3 && live.any (·.alarm) then some (bitsOf cfg 15 8) else none
  let sum := fun (alarm : Bool) k => ((fed.filter fun m => m.alarm == alarm).map fun m => m.x.getD k 0 * s.gainAt (64 * m.i + b) k).sum
  let out := (List.range 64).map fun k =>
    toSample (sum false k * rampQ (factorQ from') (factorQ to') k * rampQ (duckQ old.duck) (duckQ duck) k + sum true k)
  (out, ⟨some to', some now, duck⟩, n)

/-- The samples that sink `k` sends of the block's buses: a changed bus crosses from old to new (R445, R446). -/
def State.sinkOf (s : State) (buses : List (Nat × List Nat)) (k : Nat) : List Int :=
  let pick := fun (w j : Nat) => if w.testBit 8 then (((buses.find? fun b => b.1 == w % 64).map (·.2)).getD []).getD j 0 else 0
  let new := s.reg (Reg.AUD_SINK_ACT k)
  let old := s.oldWord (Reg.AUD_SINK_ACT k)
  (List.range 64).map fun j =>
    let q := if old = new then sampleQ (pick new j) else sampleQ (pick old j) * cosFade j + sampleQ (pick new j) * sinFade j
    max (-8388608) (min 8388607 (intFree (clampQ q * 8388608)))

/-! ### Meters (R451) -/

/-- A meter takes a block's peak: _METER at `k`, _HOLD at `k + 4`. -/
def State.meter (s : State) (k : Nat) (xs : List ℚ) : State :=
  let peak := (xs.map fun q => min 0xFFFFFF (intFree (|q| * 8388608)).toNat).foldl max 0
  let s1 := s.setFld k 23 0 peak
  let since := spGet (fun _ => 0) s.aud.holdT k
  if s1.fld (k + 4) 23 0 < peak ∨ since + s.fld Reg.AUD_METER_CFG 15 0 * 1000000 ≤ s.clk.stm then
    State.setFld { s1 with aud := { s1.aud with holdT := spSet (fun _ => 0) s1.aud.holdT k s.clk.stm } } (k + 4) 23 0 peak
  else s1

/-- A bus sample at or beyond full scale sets clip. -/
def State.clipped (s : State) (k : Nat) (xs : List ℚ) : State :=
  if xs.any fun q => decide (q ≤ -1) || decide (topQ ≤ q) then s.setBit k 31 true else s

/-! ### Captures (R442) -/

def State.captBuf (s : State) (b : Nat) : CaptBuf := spGet (fun _ => {}) s.aud.kept b
def State.setCaptBuf (s : State) (b : Nat) (x : CaptBuf) : State := { s with aud := { s.aud with kept := spSet (fun _ => {}) s.aud.kept b x } }

/-- Change a running capture. -/
def State.modCapt (s : State) (c sq : Nat) (f : CaptJob → CaptJob) : State :=
  { s with aud := { s.aud with caps := s.aud.caps.map fun j => if j.ctx = c ∧ j.sq = sq then f j else j } }

/-- Samples go to a capture's buffer in memory; those beyond its last stay in the bus's buffer. -/
def State.captWrite (s : State) (q : CaptJob) (xs : List Nat) : State :=
  match s.job q.ctx q.sq with
  | none => s
  | some j =>
    let fmt := j.f 0x12 1
    let n := min xs.length (j.f 0x14 4 - q.written)
    let a := j.f 0x18 8 + sampleBytes fmt * q.written
    if n = 0 then s
    else match s.reach q.ctx 0x18 a (sampleBytes fmt * n) true with
      | (_, some (st, d)) => s.faultAt q.ctx q.sq st d 0
      | (_, none) =>
        let s1 := s.bufWrite (s.ctxPaddock q.ctx) a ((xs.take n).flatMap (captured fmt))
        let s2 := (s1.modCapt q.ctx q.sq fun k => { k with written := q.written + n }).modJob q.ctx q.sq fun k => { k with count := q.written + n }
        s2.setCaptBuf q.bus { primed := true, samples := xs.drop n }

/-- A block of bus `b` has left the mixer: its captures take it, or its buffer keeps the newest 256 samples. -/
def State.captBlock (s : State) (b : Nat) (xs : List Nat) : State :=
  match s.aud.caps.filter fun q => q.bus == b && q.begun with
  | [] =>
    let x := s.captBuf b
    if !x.primed then s
    else
      let l := x.samples ++ xs
      s.setCaptBuf b { x with samples := l.drop (l.length - 256), lost := x.lost + (l.length - 256) }
  | qs => s.each (fun q t => t.captWrite q xs) qs

/-- AUDIO_BUFFER with dir capture: from the first block that starts from now on, or at its target time; a capture that follows
another on its bus goes on from what the bus kept. -/
def execAudioBufferCapture (ctx : Fin 1024) (s : State) : Host.Outcome State Fault Refusal :=
  let c := ctx.val
  match s.toStart c 9 with
  | none => .next s
  | some j =>
    if !(j.f 0x11 1).testBit 0 then .next s
    else
      let b := j.f 0x10 1 % 64
      let x := s.captBuf b
      let s1 := (s.markStarted c j.sq).modJob c j.sq fun k => { k with extent := j.f 0x14 4 }
      let goesOn := x.primed && j.at?.isNone
      let q : CaptJob := { ctx := c, sq := j.sq, bus := b, begun := goesOn }
      let s2 : State := { s1 with aud := { s1.aud with caps := s1.aud.caps ++ [q] } }
      if !goesOn then .next s2
      else
        let s3 := if x.lost = 0 then s2
          else ((s2.count (Reg.AUD_BUS_STATUS b) 31 16 x.lost).offerRateN 0x0E03 b 100000000 x.lost [(8, b)] []).audEvent 2
        .next ((s3.setCaptBuf b { x with lost := 0 }).captWrite q x.samples)

/-- AUDIO_CAPTURE_DONE: the last sample is visible in memory. -/
def execAudioCaptureDone (ctx : Fin 1024) (s : State) : Host.Outcome State Fault Refusal :=
  let c := ctx.val
  match s.aud.caps.find? fun q => q.ctx == c with
  | none => .next s
  | some q =>
    match s.job c q.sq with
    | none => .next s
    | some j =>
      if j.f 0x14 4 ≤ q.written then
        let s1 : State := { s with aud := { s.aud with caps := s.aud.caps.filter fun r => !(r.ctx == c && r.sq == q.sq) } }
        .next (s1.endJob c q.sq 0 0 0)
      else .next s

/-! ### Commits (R444) -/

/-- The shadows of a commit. -/
def audKeys : List Nat :=
  (List.range 128).map Reg.AUD_IN_CFG ++ (List.range 64).map Reg.AUD_BUS_CFG ++ (List.range 192).map Reg.AUD_SINK
    ++ (List.range 64).map Reg.AUD_VOICE_CFG

/-- A source word of input `i` names nothing that exists at the rate and clock in force. -/
def State.badSource (s : State) (i w : Nat) : Bool :=
  let idx := bitsOf w 22 16
  match bitsOf w 26 24 with
  | 0 => false
  | 1 => decide (s.inputsOn ≤ i) || decide (s.slotsOn ≤ idx % 16)
  | 2 => decide (s.inputsOn ≤ i) || decide (64 ≤ idx) || s.fast || s.mclkIn
  | 3 => decide (s.inputsOn ≤ i)
  | 4 => decide (s.inputsOn ≤ i) || decide (s.voicesOn ≤ idx)
  | _ => true

/-- Sink `k` is absent at the rate or clock in force. -/
def State.badSink (s : State) (k : Nat) : Bool := if k < 128 then decide (s.slotsOn ≤ k % 16) else s.fast || s.mclkIn

/-- The code of the first failing check of an audio commit, or 0. -/
def State.audCheck (s : State) : Nat :=
  let w := s.reg
  let ins := List.range 128
  let sinks := List.range 192
  if (ins.any fun i => decide (w (Reg.AUD_IN_CFG i) &&& 0xF880407F ≠ 0)) ∨ ((List.range 64).any fun b => decide (w (Reg.AUD_BUS_CFG b) &&& 0xFFFF00F0 ≠ 0))
      ∨ (sinks.any fun k => decide (w (Reg.AUD_SINK k) &&& 0xFFFFFEC0 ≠ 0)) ∨ (List.range 64).any fun v => decide (w (Reg.AUD_VOICE_CFG v) / 1024 ≠ 0) then 1
  else if (ins.any fun i => s.badSource i (w (Reg.AUD_IN_CFG i))) ∨ sinks.any fun k => (w (Reg.AUD_SINK k)).testBit 8 && s.badSink k then 2
  else if ins.any fun i => bitsOf (w (Reg.AUD_IN_CFG i)) 26 24 == 3 && !(w (Reg.AUD_IN_CFG i)).testBit 7 then 3
  else if sinks.any fun k => (w (Reg.AUD_SINK k)).testBit 8 && decide (s.busesOn ≤ w (Reg.AUD_SINK k) % 64) then 4
  else 0

/-- AUD_COMMIT: a write of AUD_COMMIT with go. -/
def State.audCommit (s : State) (switch atTime : Bool) : State :=
  if s.aud.commit.isSome then s.setBit Reg.AUD_COMMIT_STATUS 4 true
  else
    let code := s.audCheck
    if code = 0 then
      let m : AudCommit := ⟨switch, if atTime then some (s.reg64 Reg.AUD_COMMIT_TIME_LO Reg.AUD_COMMIT_TIME_HI) else none, s.copyWords audKeys⟩
      (State.setBit { s with aud := { s.aud with commit := some m } } Reg.AUD_COMMIT_STATUS 0 true).setBit Reg.AUD_STATUS 28 true
    else
      let s1 := (s.setBit Reg.AUD_COMMIT_STATUS 3 true).setFld Reg.AUD_COMMIT_STATUS 15 8 code
      (s1.offer 0x0E01 [(8, choice 0x0E01 1), (8, code)]).audEvent 0

def execAudCommit (switch atTime : Bool) (s : State) : Host.Outcome State Fault Refusal := .next (s.audCommit switch atTime)

/-- A passed commit applies at a block boundary that its target allows; the block moves from the old settings to the new. -/
def State.audApply (s : State) : State :=
  match s.aud.commit with
  | none => s
  | some m =>
    if match m.target with | some t => decide (s.clk.stm < t) | none => false then s
    else
      let old := s.audBank
      let words := m.words.filterMap fun w => (actKey w.1).bind fun a => if s.reg a = w.2 then none else some (a, s.reg a)
      let gains := if m.switch then (List.range 8192).filterMap fun e =>
          if s.gainIn old e = s.gainIn (1 - old) e then none else some (e, s.gainIn old e)
        else []
      let s1 : State := { s.applyWords m.words with aud := { s.aud with commit := none, fade := ⟨words, gains⟩ } }
      let s2 := if m.switch then s1.setFld Reg.AUD_STATUS 16 16 (1 - old) else s1
      let s3 := (((s2.setBit Reg.AUD_STATUS 28 false).setBit Reg.AUD_COMMIT_STATUS 0 false).setBit Reg.AUD_COMMIT_STATUS 1 true).setFld
        Reg.AUD_COMMIT_STATUS 15 8 0
      (s3.offer 0x0E01 [(8, choice 0x0E01 0), (8, 0)]).audEvent 0

/-! ### Blocks (R438, R439) -/

/-- AES67 samples whose playout falls in the block that completes, by channel (R400, R440). -/
def State.aesIn (s : State) : List (Nat × List Int) :=
  (List.range 64).map fun ch =>
    let buf := (s.aesRx (ch / 8)).buf
    (ch, (List.range 64).map fun k => (((buf.find? fun e => (e.1 : Int) == s.aud.media + (k : Int)).map (·.2)).getD []).getD (ch % 8) 0)

/-- AES67 samples that have been played are gone. -/
def State.aesTrim (s : State) : State :=
  s.each (fun k t =>
    let u := t.aesMissed k
    let x := u.aesRx k
    u.setAesRx k { x with buf := x.buf.filter fun e => decide (u.aud.media + 64 ≤ (e.1 : Int)) }) (List.range 8)

/-- The block in progress completes: its inputs are mixed, metered and routed; what left the mixer during it is captured. -/
def State.endBlock (s : State) (tdm : List (Nat × List Int)) : State :=
  let ins := s.mixIns ⟨tdm, s.aesIn⟩
  let mixed := (List.range s.busesOn).map fun b => (b, s.mixBus ins b)
  let buses := mixed.map fun m => (m.1, m.2.1)
  let s1 := s.each (fun m t => t.meter (Reg.AUD_IN_METER m.i) m.x) ins
  let s2 := s1.each (fun (m : Nat × List Nat × BusScale × Nat) t =>
    let xs := m.2.1.map sampleQ
    let t1 := ((t.meter (Reg.AUD_BUS_METER m.1) xs).clipped (Reg.AUD_BUS_METER m.1) xs).setFld (Reg.AUD_BUS_STATUS m.1) 7 0 m.2.2.2
    { t1 with aud := { t1.aud with scales := spSet (fun _ => {}) t1.aud.scales m.1 m.2.2.1 } }) mixed
  let s3 := s2.each (fun (b : Nat × List Nat) t => t.captBlock b.1 b.2) s.aud.leaving
  let sinks := (List.range 192).map fun k => (k, s.sinkOf buses k)
  State.aesTrim { s3 with aud := { s3.aud with
    ready := sinks, buses := buses, leaving := s.aud.buses, guest := [], voice := [], fade := {} } }

/-- The samples mixed a block before leave the mixer: TDM slots, and AES67 transmit streams (R446). An unlocked port sends
zeros, which is no sample of a sink. -/
def State.sendSinks (s : State) (ready : List (Nat × List Int)) : State :=
  let s1 := s.each (fun (e : Nat × List Int) t =>
    let p := e.1 / 16
    if e.1 < 128 && t.tdmLocked p && t.bit (Reg.AUD_TDM_CFG p) 9 && t.slotOn p (e.1 % 16) then t.emitOn 7 (.audio e.1 e.2) else t) ready
  if s.fast || s.mclkIn then s1
  else s1.each (fun k t =>
    let frames := (List.range 64).map fun j => (List.range 8).map fun ch =>
      (((ready.find? fun e => e.1 == 128 + 8 * k + ch).map (·.2)).getD []).getD j 0
    let x := t.aesTx k
    if t.bit (Reg.NET_AES_TX_CFG k) 31 then { t with net := { t.net with tx := t.net.tx.set k { x with fifo := x.fifo ++ frames } } } else t)
    (List.range 8)

/-- Samples of the rate since the media clock's zero, in units of which a block starts at a multiple of 64. -/
def State.blockIndex (s : State) : Int := (s.mediaNow + 32) / 64 * 64

/-- A block starts: due commits apply, voices start and stop, guest and voice samples are taken, captures begin. -/
def State.startBlock (s : State) : State :=
  let s1 := s.audApply
  let s2 := State.each (fun (a : Nat × Bool) t => t.voiceAct a.1 a.2) s1.aud.asks { s1 with aud := { s1.aud with asks := [] } }
  let guests := (List.range s2.inputsOn).filter fun i =>
    s2.fld (Reg.AUD_IN_CFG_ACT i) 26 24 == 3 || bitsOf (s2.oldWord (Reg.AUD_IN_CFG_ACT i)) 26 24 == 3
  let s3 := s2.each (fun i t => t.pullGuest i) guests
  let s4 := s3.each (fun v t => t.pullVoice v) (List.range 64)
  let s5 := s4.each (fun p t => t.fillPlay p) s4.aud.plays
  let caps := s5.aud.caps.map fun q => if q.begun then q else
    match (s5.job q.ctx q.sq).bind Job.at? with
    | some t => { q with begun := decide (t ≤ s5.clk.stm) }
    | none => { q with begun := true }
  let s6 : State := { s5 with aud := { s5.aud with caps := caps, inBlock := true, media := s5.blockIndex } }
  ((s6.setReg Reg.AUD_BLOCK (s6.reg Reg.AUD_BLOCK + 1)).setReg64 Reg.AUD_BLOCK_TIME_LO Reg.AUD_BLOCK_TIME_HI s6.clk.stm).tdmSync

/-- A slave port dropped or repeated a sample during the block (R452). -/
def State.tdmSlip (s : State) (p : Nat) (dropped : Bool) : State :=
  if s.tdmLocked p && !s.bit (Reg.AUD_TDM_CFG p) 1 then
    ((s.count (Reg.AUD_TDM_STATUS p) 15 0 1).offer 0x0E04 [(8, p), (8, choice 0x0E04 (b2n (!dropped)))]).audEvent 3
  else s

/-- AUDIO_BLOCK_START: `tdm` are the samples that TDM slots received during the block that ends, `slips` the ports that dropped
or repeated one. -/
def execAudioBlockStart (tdm : List (Nat × List Int)) (slips : List (Fin 8 × Bool)) (s : State) : Host.Outcome State Fault Refusal :=
  if !s.bit Reg.AUD_STATUS 31 then .next s
  else
    let s1 := s.each (fun (p : Fin 8 × Bool) t => t.tdmSlip p.1.val p.2) slips
    let ready := s1.aud.ready
    let s2 := if s1.aud.inBlock then s1.endBlock tdm else s1
    .next ((s2.sendSinks ready).startBlock)

/-- REALIGN (R438): show time has stepped and the block in progress is shortened or lengthened by `shift` ns. -/
def execRealign (shift : Int) (s : State) : Host.Outcome State Fault Refusal :=
  if s.bit Reg.AUD_STATUS 31 && !s.mclkIn then .next ((s.offer 0x0E08 [(32, toSigned 32 shift)]).audEvent 5) else .next s

/-- TDM_LOST (R452): a slave port is unlocked. -/
def execTdmLost (port : Fin 8) (s : State) : Host.Outcome State Fault Refusal :=
  let p := port.val
  if s.tdmLocked p && !s.bit (Reg.AUD_TDM_CFG p) 1 then
    .next (((s.setBit (Reg.AUD_TDM_STATUS p) 31 false).offer 0x0E05 [(8, p)]).audEvent 3)
  else .next s

/-- TDM_LOCKED (R452). -/
def execTdmLocked (port : Fin 8) (s : State) : Host.Outcome State Fault Refusal :=
  let p := port.val
  .next (if s.bit (Reg.AUD_TDM_CFG p) 0 && s.bit Reg.AUD_STATUS 31 then s.setBit (Reg.AUD_TDM_STATUS p) 31 true else s)

/-- A write of AUD_CTRL: the first enable zeroes both matrix banks and starts the clip check (R450); a disabled block holds no
samples. AUD_MCLK_OUT carries the audio clock (1) or none (R438). -/
def State.audCtrl (s : State) (value : Nat) : State :=
  let on := value.testBit 0
  let s0 := ((s.setReg Reg.AUD_CTRL (b2n on)).setBit Reg.AUD_STATUS 31 on).setBit Reg.AUD_STATUS 30 on
  let s1 := State.emitOn (if on then s0.ungate 16 else s0) 7 (.pin "AUD_MCLK_OUT" (b2n (on && s.bit Reg.AUD_CFG 4)))
  if !on then
    { s1 with aud := { s1.aud with guest := [], voice := [], inBlock := false, ready := [], buses := [], leaving := [], scales := [], fade := {} } }
  else if s.bit Reg.AUD_STATUS 31 then s1
  else
    let s2 := s1.setReg Reg.AUD_BLOCK 0
    if s2.aud.enabledOnce then s2.tdmSync
    else
      let s3 : State := { s2 with aud := { s2.aud with enabledOnce := true } }
      (s3.write .basin (s3.xpAt 0) (List.replicate 32768 0)).tdmSync

def execAudCtrlWrite (value : Nat) (s : State) : Host.Outcome State Fault Refusal := .next (s.audCtrl value)

end Sys2Proof.Machine
end

