-- ==== Sys2Proof/Machine/Power.lean ====
section
/-! DEFINITION. Power states, clocks and the AVSBus link (spec/20). -/

namespace Sys2Proof.Machine

/-- Power state in force (Table 20.1): 0 GALLOP, 1 TROT, 2 WALK, 3 GRAZE, 4 STABLED. -/
def State.power (s : State) : Nat := s.fld Reg.PCR_STATUS 31 29

/-- The claim bit of power block `b` (Table 20.2). -/
def claimBit (b : Nat) : Option Nat :=
  match b with
  | 11 => some 8
  | 12 => some 12
  | 13 => some 13
  | 14 => some 9
  | 15 => some 11
  | 16 => some 10
  | 17 => some 14
  | 18 => some 15
  | _ => if b < 8 then some b else none

/-- Power block `b` is claimed (R103). -/
def State.claimed (s : State) (b : Nat) : Bool :=
  match claimBit b with
  | some i => s.bit Reg.SEC_CLAIM i
  | none => false

/-- The block is enabled (Tables 20.4, R469). The context engine, host ports, memories and Koroft always are. -/
def State.blockOn (s : State) (b : Nat) : Bool :=
  if b < 8 then s.bit (Reg.HD_CTRL b) 0 || s.bit (Reg.CMP_CTRL b) 0
  else match b with
  | 8 | 9 => s.bit (Reg.CMP_CTRL b) 0
  | 10 => s.bit Reg.JA_CTRL 0
  | 11 => (List.range 8).any fun n => s.bit (Reg.HD_CTRL n) 0
  | 12 => s.bit Reg.LO_CTRL 0
  | 13 => s.fld Reg.NET_CTRL 1 0 != 0
  | 14 => s.fld Reg.TCH_CTRL 8 0 != 0
  | 15 => s.bit Reg.HAP_CTRL 0
  | 16 => s.bit Reg.AUD_CTRL 0
  | 17 => s.bit Reg.EVR_CTRL 0
  | 18 => (List.range 8).any fun p => s.bit (Reg.LO_DMX_CFG p) 1
  | _ => true

/-- A jets job runs or holds a home string. -/
def State.jetsBusy (s : State) : Bool := s.ctxs.any fun x => x.2.jobs.any fun j => j.started && engineOf j.typ == 0

/-- What a block answers to a request for state `target` (Table 20.4); Koroft's answer is its code's. -/
def State.answerOf (s : State) (b target : Nat) (koroft : HsAnswer) : HsAnswer :=
  if s.claimed b then .refuse 1
  else if b = 10 then (if (target = 2 ∨ target = 3 ∨ target = 4) ∧ s.jetsBusy then .delay else .accept)
  else if target < 3 then .accept
  else if b = 22 then koroft
  else if b = 19 then
    (if s.ctxs.any fun x => s.ctxState x.1 == 1 || s.ctxState x.1 == 2 || s.ctxState x.1 == 3 then .delay else .accept)
  else if b = 17 ∨ b = 20 ∨ b = 21 then .accept
  else if s.blockOn b then .refuse 2 else .accept

/-! ### Jet points (Table 20.7, R475) -/

/-- f_jet in MHz and VDD_JET in mV of a point. -/
def pointMhz (p : Nat) : Nat := [400, 533, 667, 800, 1000, 1200, 1400, 1600].getD p 1600
def pointMv (p : Nat) : Nat := [550, 600, 630, 670, 720, 780, 840, 900].getD p 900

/-- The point that should be in force (R475). -/
def State.targetPoint (s : State) : Nat :=
  let a := min (s.fld Reg.PCR_JET_POINT 2 0) (s.fld Reg.PCR_JET_STATE 26 24)
  if s.power = 1 then min a (s.fld Reg.PCR_CFG 18 16) else a

/-- The clock of a point is in force. -/
def State.setPoint (s : State) (p : Nat) : State :=
  ((s.setFld Reg.PCR_JET_STATE 18 16 p).setReg Reg.JA_FREQ (p * 65536 + pointMhz p)).jetClockAt
    (if s.jaOn && decide (s.power ≤ 1) then pointMhz p else 0)

/-- VDD_JET at a setpoint, in mV. -/
def State.setMv (s : State) (mv : Nat) : State :=
  State.setFld { s with pins := { s.pins with jetMv := mv } } Reg.PCR_JET_STATE 10 0 mv

/-! ### AVSBus (R39, R478)

Command 0 is Voltage and command 5 Power Mode, the numbers of PMBus Part III, with value 0 for off (assumption 18). -/

/-- A transaction is asked for: it starts at once, or after those that wait. -/
def State.avsSend (s : State) (x : Nat × Nat × Nat) : State :=
  let s1 : State := { s with pwr := { s.pwr with avs := s.pwr.avs ++ [(x.1, x.2.1, x.2.2, 0)] } }
  if s.pwr.avs.isEmpty then s1.emitOn 9 (.avs x.1 x.2.1 x.2.2) else s1

/-- The transaction in flight is over, and the next one starts. -/
def State.avsNext (s : State) : State :=
  let s1 : State := { s with pwr := { s.pwr with avs := s.pwr.avs.tail } }
  match s1.pwr.avs with
  | (r, c, v, _) :: _ => s1.emitOn 9 (.avs r c v)
  | [] => s1

/-- The rail stands at its new setpoint. -/
def State.railSet (s : State) (rail cmd v : Nat) : State :=
  if rail = 0 ∧ (cmd = 0 ∨ v = 0) then s.setMv v
  else if rail = 1 ∧ (cmd = 0 ∨ v = 0) then { s with pins := { s.pins with coreMv := v } }
  else s

/-- A change of VDD_JET to the setpoint of point `t` begins (R475). -/
def State.changeTo (s : State) (t : Nat) : State :=
  State.avsSend { s with pwr := { s.pwr with dvfs := none, moving := some t } } (0, 0, pointMv t)

/-- core_mv (R474). -/
def State.fusedMv (s : State) : Nat := s.fld Reg.PCR_CORE 10 0

/-- A change is requested when the target differs from the point in force or on its way; a new target replaces one not yet
begun (R475). -/
def State.requestPoint (s : State) : State :=
  let now := s.pwr.moving.getD (s.fld Reg.PCR_JET_STATE 18 16)
  let t := s.targetPoint
  { s with pwr := { s.pwr with dvfs := if t = now then none else some t } }

/-- The change begins: downward the clock falls first, then VDD_JET moves over AVSBus. -/
def State.beginChange (s : State) : State :=
  match s.pwr.dvfs, s.pwr.moving with
  | some t, none =>
    if s.power ≤ 1 then
      (if t < s.fld Reg.PCR_JET_STATE 18 16 then s.setPoint t else s).changeTo t
    else s
  | _, _ => s

/-- A completed change: VDD_JET at its setpoint, upward the clock then rises, and DVFS is written (R475). -/
def State.endChange (s : State) : State :=
  match s.pwr.moving with
  | some t =>
    let s1 := ({ s with pwr := { s.pwr with moving := none } }.setMv (pointMv t)).setPoint t
    (s1.offer 0x1004 [(8, t), (16, pointMv t)]).requestPoint
  | none => s

/-- DVFS (R475): deferred while a target job exists. -/
def execDvfs (s : State) : Host.Outcome State Fault Refusal :=
  .next (if s.bit Reg.JA_PREEMPT_STATUS 31 then s else s.beginChange)

/-- DVFS_DEFERRAL_EXPIRY: a change deferred for 2 ms proceeds (R475). -/
def execDvfsDeferralExpiry (s : State) : Host.Outcome State Fault Refusal := .next s.beginChange

/-- A write of PCR_JET_POINT requests a point (R475). -/
def State.jetPointWrite (s : State) (v : Nat) : State := (s.setFld Reg.PCR_JET_POINT 2 0 v).requestPoint

def execPcrJetPointWrite (value : Nat) (s : State) : Host.Outcome State Fault Refusal := .next (s.jetPointWrite value)

/-- AVS_TRANSACTION_END (R478): acknowledged, retried, or failed a third time. -/
def execAvsTransactionEnd (ack : Bool) (s : State) : Host.Outcome State Fault Refusal :=
  match s.pwr.avs with
  | [] => .next s
  | (r, c, v, f) :: rest =>
    let ours := decide (r = 0 ∧ c = 0 ∧ s.pwr.moving.map pointMv = some v)
    if ack then
      let s1 := s.railSet r c v
      .next (if ours then s1.endChange else s1).avsNext
    else if f < 2 then .next (State.emitOn { s with pwr := { s.pwr with avs := (r, c, v, f + 1) :: rest } } 9 (.avs r c v))
    else
      let s1 : State := { s with pwr := { s.pwr with moving := if ours then none else s.pwr.moving } }
      let s2 := (s1.setBit Reg.PCR_AVS_STATUS 8 true).setFld Reg.PCR_AVS_STATUS 2 0 r
      .next (((s2.setEvent Reg.PCR_EVENT Reg.PCR_EVENT_EN 4).offer 0x1006 [(8, r), (8, c)]).avsNext)

/-- THERMAL_SAMPLE (R477): junction temperature in 1/16 °C as a 16-bit word, and VDD_JET current in 10 mA units. -/
def execThermalSample (tj ma10 : Nat) (s : State) : Host.Outcome State Fault Refusal :=
  .next (s.setReg Reg.PCR_TEMP (ma10 % 65536 * 65536 + tj % 65536))

/-- THROTTLE (R477): the cap one point down while a limit is exceeded, one up once both are clear. Which of the two the
record names when both limits hold, or for a step up, the spec does not say: a free value (assumption 19). -/
def execThrottle (s : State) : Host.Outcome State Fault Refusal :=
  let tj := signedOf 16 (s.fld Reg.PCR_TEMP 15 0)
  let i := s.fld Reg.PCR_TEMP 31 16
  let c : Int := s.fld Reg.PCR_THERMAL 15 8
  let a := s.fld Reg.PCR_THERMAL 7 0
  let hot := decide (16 * c ≤ tj)
  let high := decide (100 * a ≤ i)
  let cap := s.fld Reg.PCR_JET_STATE 26 24
  let step := fun (n : Nat) =>
    let (which, s0) := if hot != high then (b2n high, s) else (s.free 8, s.took)
    let s1 := (s0.setFld Reg.PCR_JET_STATE 26 24 n).setEvent Reg.PCR_EVENT Reg.PCR_EVENT_EN 3
    (s1.offer 0x1005 [(8, which), (8, n)]).requestPoint
  if hot || high then .next (if 0 < cap then step (cap - 1) else s)
  else if decide (tj < 16 * (c - 5)) && decide (i < 90 * a) && decide (cap < 7) then .next (step (cap + 1))
  else .next s

/-! ### Transitions (R465–R470) -/

/-- A request or transition ends refused by a block (R467). -/
def State.pwrRefuse (s : State) (block reason target : Nat) : State :=
  let s1 := ((s.setFld Reg.PCR_STATUS 20 16 block).setFld Reg.PCR_STATUS 15 8 reason).setBit Reg.PCR_STATUS 2 true
  (s1.setEvent Reg.PCR_EVENT Reg.PCR_EVENT_EN 1).offer 0x1002 [(8, block), (8, reason), (8, target)]

/-- The transition in progress is abandoned: nothing changes (R467). -/
def State.abandon (s : State) (block reason : Nat) : State :=
  match s.pwr.trans with
  | some (t, _) =>
    let s1 : State := { s with pwr := { s.pwr with trans := none } }
    (s1.setBit Reg.PCR_STATUS 23 false).pwrRefuse block reason t
  | none => s

/-- The wake sequence starts with the source's code in PCR_WAKE_INFO: VDD_JET on at 0.55 V, VDD_CORE to core_mv (R471,
Table 20.5). -/
def State.startWake (s : State) (src : Nat) : State :=
  let s1 : State := { s with pwr := { s.pwr with wake := some (src, 1, 0) } }
  (s1.setFld Reg.PCR_WAKE_INFO 31 24 src).each (fun x s => s.avsSend x) [(0, 5, 1), (0, 0, 550), (1, 0, s.fusedMv)]

/-- The exit from STABLED (R473): the rails come up in the order of Table 2.6 at their boot setpoints, their monitors work
again, BOOT is entered with entry_cause 0x05, and HPn_WAKEn is low on every port that PLATFORM enables. -/
def State.leaveStabled (s : State) (src : Nat) : State :=
  let ports := (List.range 4).filter fun n => s.boot.hpWidth.getD n 0 != 0
  let s1 := (s.setFld Reg.PCR_WAKE_INFO 31 24 src).each (fun r s => s.emit (.avs r 5 1)) [5, 7, 2, 1, 0, 3, 4, 6]
  let s2 : State := { s1 with pins := { s1.pins with jetMv := 750, coreMv := 800, maskedRails := [], pgoodMasked := false } }
  ((s2.blocksReset false).enterBoot 5).each (fun n s =>
    (s.modPort n fun q => { q with wakeLow := true }).emit (.pin ("HP" ++ toString n ++ "_WAKEn") 0)) ports

/-- DRAM channels that PLATFORM populates rest in or leave self-refresh. -/
def State.selfRefresh (s : State) (on : Bool) : State :=
  s.each (fun c s => if s.bit Reg.MEM_STATUS (16 + c) then s.setBit (Reg.MEM_CH_STATUS c) 8 on else s) (List.range 8)

/-- Entry to the accepted state (R466, R470), with its rails commanded over AVSBus (Table 20.1): in STABLED every rail but
VDD_AON off, in the reverse order of Table 2.6. -/
def State.enterPower (s : State) (t : Nat) : State :=
  let old := s.power
  let s1 : State := { s with pwr := { s.pwr with trans := none } }
  let s2 := (s1.setFld Reg.PCR_STATUS 31 29 t).setBit Reg.PCR_STATUS 23 false
  let s3 :=
    if t = 2 then (s2.jetClockAt 0).avsSend (0, 0, 550)
    else if t ≤ 1 then (if old = 2 then s2.changeTo s2.targetPoint else s2.requestPoint)
    else if t = 3 then
      let s' : State := { s2 with
        pwr := { s2.pwr with back := old, grazeTicks := 0 }
        sec := { s2.sec with paused := true }
        tch := { s2.tch with graze := {} }
        pins := { s2.pins with maskedRails := [0], pgoodMasked := true } }
      ((s'.jetClockAt 0).selfRefresh true).each (fun x s => s.avsSend x) [(0, 5, 0), (1, 0, 600)]
    else
      let s' : State := { s2 with
        pwr := { s2.pwr with back := old }
        sec := { s2.sec with paused := true }
        pins := { s2.pins with maskedRails := [0, 1, 2, 4, 5, 6, 7, 8], pgoodMasked := true } }
      ((s'.jetClockAt 0).each (fun n s => s.declareDown n 0) (List.range 4)).each (fun r s => s.avsSend (r, 5, 0))
        [6, 4, 3, 0, 1, 2, 7, 5]
  let s4 := (s3.setBit Reg.PCR_STATUS 1 true).setEvent Reg.PCR_EVENT Reg.PCR_EVENT_EN 0
  s4.offer 0x1001 [(8, old), (8, t)]

/-- A claim set on a block that had already accepted: once the transition completes the controller wakes the block (R104);
the source of that wake is in no table (assumption 20). -/
def State.wakeClaimed (s : State) (t : Nat) : State :=
  if (t = 3 ∨ t = 4) ∧ (List.range 19).any s.claimed then
    let src := s.free 8
    if t = 3 then s.took.startWake src else s.took.leaveStabled src
  else s

/-- A write of PCR_REQ with go (R465). -/
def State.powerRequest (s : State) (value : Nat) : State :=
  let t := bitsOf value 2 0
  if !value.testBit 31 || s.devState ≠ 3 then s
  else if s.pwr.trans.isSome then s.took.pwrRefuse (s.free 5) 3 t
  else
    let s1 := s.setFld Reg.PCR_STATUS 26 24 t
    if 4 < t ∨ t = s.power ∨ (t = 3 ∧ !s.bit Reg.PCR_CFG 30) ∨ (t = 4 ∧ !s.bit Reg.PCR_CFG 31) then
      s1.took.pwrRefuse (s1.free 5) 5 t
    else
      let asked := if t ≤ 2 then [10] else List.range 23
      State.setBit { s1 with pwr := { s1.pwr with trans := some (t, asked) } } Reg.PCR_STATUS 23 true

def execPowerStateRequest (value : Nat) (s : State) : Host.Outcome State Fault Refusal := .next (s.powerRequest value)

/-- BLOCK_HANDSHAKE_ANSWER (R467, R468): the block's answer by Table 20.4 (Koroft's is the operand), and entry after the
last ACCEPT. -/
def execBlockHandshakeAnswer (block : Fin 23) (answer : HsAnswer) (s : State) : Host.Outcome State Fault Refusal :=
  let b := block.val
  match s.pwr.trans with
  | some (t, asked) =>
    if asked.contains b then
      match s.answerOf b t answer with
      | .delay => .next s
      | .refuse r => .next (s.abandon b r.val)
      | .accept =>
        let rest := asked.erase b
        if rest.isEmpty then .next ((s.enterPower t).wakeClaimed t)
        else .next { s with pwr := { s.pwr with trans := some (t, rest) } }
    else .next s
  | none => .next s

/-- HANDSHAKE_TIMEOUT: a block still delaying counts as REFUSE with TIMEOUT (R467); of several, the lowest-numbered is
named (assumption 21). -/
def execHandshakeTimeout (s : State) : Host.Outcome State Fault Refusal :=
  match s.pwr.trans with
  | some (_, b :: _) => .next (s.abandon b 4)
  | _ => .next s

/-- A dropped write that would gate or power down a claimed block (R103, R469). -/
def State.pwrDenied (s : State) (block off : Nat) : State :=
  let s1 := (s.setFld Reg.PCR_DENIED 4 0 block).setBit Reg.PCR_EVENT 2 true
  (s1.offer 0x1003 [(8, block), (32, off)]).mgrIrq Reg.PCR_EVENT 2

/-- A write of PCR_GATE (R103, R469). -/
def State.gateWrite (s : State) (value : Nat) : State :=
  let newly := (List.range 23).filter fun b => value.testBit b && !s.bit Reg.PCR_GATE b
  match newly.find? s.claimed with
  | some b => s.pwrDenied b Reg.PCR_GATE
  | none =>
    if newly.any s.blockOn then
      (s.setEvent Reg.PCR_EVENT Reg.PCR_EVENT_EN 5).offer 0x1008 [(32, Reg.PCR_GATE)]
    else s.setFld Reg.PCR_GATE 22 0 value

def execPcrGateWrite (value : Nat) (s : State) : Host.Outcome State Fault Refusal := .next (s.gateWrite value)

/-! ### Wake (R471–R473) -/

/-- A wake source asserts (R468, R472): it refuses a transition to GRAZE or STABLED that has not entered, starts the wake
from GRAZE, or the reboot from STABLED. -/
def State.wakeBy (s : State) (src : Nat) : State :=
  if s.devState ≠ 3 ∨ !s.bit Reg.PCR_WAKE_CFG src then s
  else match s.pwr.trans with
  | some (t, _) => if 3 ≤ t then s.abandon (if src = 2 then 20 else 14) 6 else s
  | none =>
    if s.power = 3 ∧ s.pwr.wake.isNone ∧ src ≤ 2 then s.startWake src
    else if s.power = 4 ∧ src = 1 then s.leaveStabled 1
    else s

def execWakeSource (source : Fin 3) (s : State) (bootsel : Fin 4 := 0) : Host.Outcome State Fault Refusal :=
  .next ((s.jumpers bootsel).wakeBy source.val)

/-- STABLED_TIMER_EXPIRY (R472): source 3, STABLED only. -/
def execStabledTimerExpiry (s : State) (bootsel : Fin 4 := 0) : Host.Outcome State Fault Refusal :=
  .next (if s.devState = 3 ∧ s.power = 4 ∧ s.bit Reg.PCR_WAKE_CFG 3 ∧ s.reg Reg.PCR_STABLED_TIMER ≠ 0 then
    (s.jumpers bootsel).leaveStabled 3 else s)

/-- Nanoseconds of whole 32.768 kHz ticks in `n` lengths of 5/6 ns (R470). -/
def aonNs (n : Nat) : Nat :=
  let ticks := n * 5 * 32768 / (6 * 1000000000)
  ticks * 1000000000 / 32768

/-- Step 4 is ready: show time advances by the always-on count, Koroft and the watchdog resume with a full period, and the
state before GRAZE is in force again (R470, R471); after a touch wake GRAZE_WAKE is written too (R423). -/
def State.awake (s : State) (src ticks : Nat) : State :=
  let us := ticks * 5 / 6000
  let stm := s.clk.stm + aonNs s.pwr.grazeTicks
  let s1 : State := { s with
    clk := { s.clk with stm := stm }
    sec := { s.sec with paused := false, lastKick := stm }
    pwr := { s.pwr with wake := none, grazeTicks := 0 } }
  let s2 := (s1.setFld Reg.PCR_STATUS 31 29 s.pwr.back).setFld Reg.PCR_WAKE_INFO 12 0 (min us 8191)
  let s3 := if s.pwr.back = 2 then s2 else s2.changeTo s2.targetPoint
  let s4 := s3.offer 0x1007 [(8, src), (32, us)]
  match s.tch.graze.woke with
  | some (mode, node) =>
    (({ s4 with tch := { s4.tch with graze := {} } }).setEvent Reg.TCH_EVENT Reg.TCH_EVENT_EN 10).offer 0x0C0B
      [(8, mode), (16, node)]
  | none => s4

/-- WAKE_STEP_READY (Table 20.5). -/
def execWakeStepReady (s : State) : Host.Outcome State Fault Refusal :=
  match s.pwr.wake with
  | none => .next s
  | some (src, step, ticks) =>
    if step = 4 then .next (s.awake src ticks)
    else
      let s1 : State := { s with pwr := { s.pwr with wake := some (src, step + 1, ticks) } }
      if step = 1 then .next { s1 with pins := { s1.pins with maskedRails := [], pgoodMasked := false } }
      else if step = 3 then .next (s1.selfRefresh false)
      else .next s1

/-- WAKE_STEP_TIMEOUT (R471): the chip resets with entry_cause 0x03, and PCR_WAKE_INFO keeps the step. -/
def execWakeStepTimeout (s : State) : Host.Outcome State Fault Refusal :=
  match s.pwr.wake with
  | none => .next s
  | some (_, step, _) => .next ((s.setFld Reg.PCR_WAKE_INFO 18 16 step).chipReset 3)

end Sys2Proof.Machine
end

