-- ==== Sys2Proof/Machine/Secure.lean ====
section
/-! DEFINITION. The secure world (spec/04): ownership requests, keys, the secure watchdog and secure claims. -/

namespace Sys2Proof.Machine

/-- Koroft executes KOROFT_CODE in RUN and is not being restarted. -/
def State.koroftUp (s : State) : Bool := s.devState == 3 && !s.bit Reg.SEC_WDT_STATUS 16

/-- The granules of a request: first, first + 1, … -/
def reqGranules (first count : Nat) : List Nat := (List.range count).map (· + first)

/-- Granules of a request count: 0 is read as 16,384 (Table 4.8). -/
def reqCount (n : Nat) : Nat := if n = 0 then 16384 else n

/-- A granule that a request may name: visible DRAM or Basin (R112). -/
def State.granuleOk (s : State) (g : Nat) : Bool :=
  decide (g < s.fld Reg.MEM_CAPACITY 20 0) || (decide (0x100000 ≤ g) && decide (g ≤ 0x1005FF))

/-- first + count runs past the end of the memory that holds first (R112). -/
def pastEnd (first count : Nat) : Bool :=
  if first < 0x100000 then decide (0x100000 < first + count) else decide (0x100600 < first + count)

/-- The paddock is QUIESCED or ABSENT (R102). -/
def State.inactive (s : State) (p : Nat) : Bool := s.pdkState p == 4 || s.pdkState p == 0

/-- key_index of the header at flash offset `b`. -/
def State.headerKey (s : State) (b : Nat) : Option Nat :=
  match s.headerCheck b with
  | .ok h => some h.keyIndex
  | .error _ => none

/-- A key slot in use: the active slot's key, or the key of a slot in state TRIAL (R93). -/
def State.keyInUse (s : State) (n : Nat) : Bool :=
  s.boot.keyIndex == n || [0, 1].any fun sl =>
    (match s.boot.dir with | some d => d.slotState sl == 2 | none => false) && s.headerKey (slotBase sl) == some n

/-- The reason of the first case of R112 that applies to a request, or 0. A count above the 16,384 granules of R102 is
refused with RANGE, and the spec gives ops 0 and 7 to 15 no meaning: outside the state of their number they are refused with
STATE, and inside it they carry out nothing (DESIGN CHOICE, assumption 91). -/
def State.secReason (s : State) (op first count arg : Nat) : Nat :=
  let gs := reqGranules first (min count 16385)
  let own := op = 1 ∨ op = 2 ∨ op = 3
  let ents := gs.map s.owner
  if s.bit Reg.SEC_WDT_STATUS 16 then 0x01
  else if s.bit Reg.SYS_SECREQ_STATUS 0 then 0x07
  else if (op ≤ 4 ∧ s.devState ≠ 3) ∨ (5 ≤ op ∧ s.devState ≠ 5) then 0x09
  else if own ∧ (16384 < count ∨ pastEnd first count ∨ gs.any fun g => !s.granuleOk g) then 0x02
  else if (op = 4 ∨ op = 5) ∧ 3 < arg then 0x02
  else if own ∧ ents.any fun e => decide (2 ≤ entClass e) then 0x03
  else if op = 1 ∧ s.pdkState arg = 0 then 0x06
  else if (op = 2 ∨ op = 3) ∧ ents.any fun e => entClass e == 0 then 0x05
  else if (op = 1 ∧ ents.any fun e => entClass e == 1 && entOwner e != arg && !s.inactive (entOwner e))
      ∨ (op = 2 ∧ ents.any fun e => entClass e == 1 && !s.inactive (entOwner e)) then 0x04
  else if (op = 4 ∧ s.keyInUse arg) ∨ (op = 5 ∧ s.fuses.keyProg.testBit arg) ∨ (op = 6 ∧ s.fuses.imageKeyProg) then 0x08
  else 0

/-- The end of a request: done or refused, the manager interrupt, SECREQ_END, and SYS_SECREQ_DATA cleared (R112). -/
def State.secEnd (s : State) (op reason first count : Nat) : State :=
  let s1 := if reason = 0 then s.setBit Reg.SYS_SECREQ_STATUS 1 true
    else (s.setBit Reg.SYS_SECREQ_STATUS 2 true).setFld Reg.SYS_SECREQ_STATUS 15 8 reason
  let s2 : State := if reason = 7 then s1 else { s1 with sec := { s1.sec with data := List.replicate 12 0 } }
  (s2.offer 0x0301 [(8, op), (8, b2n (reason ≠ 0)), (8, reason), (32, first), (32, count)]).mgrIrq
    Reg.SYS_SECREQ_STATUS (if reason = 0 then 1 else 2)

/-- Zero one granule (R102). -/
def State.zeroGranule (s : State) (g : Nat) : State :=
  let lo := (if g < 0x100000 then g else g - 0x100000) * 65536
  let keep := fun (l : List Host.Cell) => l.filter fun c => !(decide (lo ≤ c.1) && decide (c.1 < lo + 65536))
  let m : MemSel := if g < 0x100000 then .dram else .basin
  let mem := { s.mem with
    bad := s.mem.bad.filter fun p => !(p.1 == m && decide (lo ≤ 8 * p.2) && decide (8 * p.2 < lo + 65536)) }
  match m with
  | .dram => { s with mem := { mem with dram := keep mem.dram } }
  | .basin => { s with mem := { mem with basin := keep mem.basin } }

/-- Bytes 0 to n − 1 of SYS_SECREQ_DATA. -/
def State.secData (s : State) (n : Nat) : List Byte := (s.sec.data.flatMap (leBytes 4)).take n

/-- The effect of a request that is not refused. -/
def State.secEffect (s : State) (op first count arg : Nat) (ro : Bool) (share : Nat) : State :=
  let gs := reqGranules first count
  let f := s.fuses
  match op with
  | 1 => s.each (fun g s => s.newEntry g (mkEnt 1 ro share arg)) gs
  | 2 => s.each (fun g s => (s.zeroGranule g).newEntry g 0) gs
  | 3 => s.each (fun g s => let e := s.owner g; s.newEntry g (mkEnt (entClass e) (entRo e) share (entOwner e))) gs
  | 4 => State.loadFuses { s with fuses := { f with keyRevoked := f.keyRevoked ||| 2 ^ arg } }
  | 5 => State.loadFuses { s with fuses := { f with keyProg := f.keyProg ||| 2 ^ arg, keyHash := f.keyHash.set arg (s.secData 48) } }
  | 6 => State.loadFuses { s with fuses := { f with imageKeyProg := true, imageKey := ofLeBytes (s.secData 32) } }
  | _ => s

/-- A write of SYS_SECREQ_CMD (R101, R112). Bits that must be zero are ignored when they are set (DESIGN CHOICE, assumption
91). -/
def State.secRequest (s : State) (op arg : Nat) (ro : Bool) (share : Nat) : State :=
  let s0 := s.setReg Reg.SYS_SECREQ_CMD (share * 65536 + b2n ro * 32768 + arg * 256 + op)
  let first := s.fld Reg.SYS_SECREQ_FIRST 20 0
  let count := reqCount (s.fld Reg.SYS_SECREQ_COUNT 14 0)
  let r := s.secReason op first count arg
  if r ≠ 0 then s0.secEnd op r first count
  else
    let s1 := s0.setBit Reg.SYS_SECREQ_STATUS 0 true
    State.secEffect { s1 with sec := { s1.sec with req := some [op, first, count] } } op first count arg ro share

def execOwnAssign (arg : Fin 64) (ro : Bool) (share : Fin 16) (s : State) : Host.Outcome State Fault Refusal :=
  .next (s.secRequest 1 arg.val ro share.val)

def execOwnRelease (s : State) : Host.Outcome State Fault Refusal := .next (s.secRequest 2 0 false 0)

def execOwnShare (share : Fin 16) (s : State) : Host.Outcome State Fault Refusal :=
  .next (s.secRequest 3 0 false share.val)

def execRevokeKey (slot : Fin 64) (s : State) : Host.Outcome State Fault Refusal :=
  .next (s.secRequest 4 slot.val false 0)

def execOtpKey (slot : Fin 64) (s : State) : Host.Outcome State Fault Refusal :=
  .next (s.secRequest 5 slot.val false 0)

def execOtpImageKey (s : State) : Host.Outcome State Fault Refusal := .next (s.secRequest 6 0 false 0)

/-- SECREQ_END (R101): every access checked under the old entries has completed, and done sets. -/
def execSecreqEnd (s : State) : Host.Outcome State Fault Refusal :=
  match s.sec.req with
  | some [op, first, count] =>
    let s1 : State := { s with sec := { s.sec with req := none } }
    .next ((s1.setBit Reg.SYS_SECREQ_STATUS 0 false).secEnd op 0 first count)
  | _ => .next s

/-! ### Secure watchdog (R106–R109) -/

/-- WDT_KICK: 0x0000_C0DE kicks; other values are ignored. -/
def State.kick (s : State) (value : Nat) : State :=
  if value % 2 ^ 32 = 0xC0DE then { s with sec := { s.sec with lastKick := s.clk.stm } } else s

def execWdtKick (value : Nat) (s : State) : Host.Outcome State Fault Refusal :=
  .next (if s.koroftUp then s.kick value else s)

/-- The chip resets as WDT_CHIP with its reason and secure record (R109). -/
def State.wdtChip (s : State) (reason : Nat) : State :=
  let s1 := s.setFld Reg.SEC_RESET_INFO 1 0 reason
  (s1.secHardware 0x0307 [(8, reason), (32, s.fld Reg.SEC_WDT_STATUS 7 0)]).chipReset 2

/-- Restarts within the last 60 s (R109). -/
def State.recent (s : State) : List Nat := s.sec.expiries.filter fun t => decide (s.clk.stm < t + 60000000000)

/-- WDT_EXPIRY (R107, R109): Koroft alone held in reset, or, at the third expiry within 60 s, the chip reset. -/
def execWdtExpiry (s : State) : Host.Outcome State Fault Refusal :=
  if s.koroftUp && !s.sec.paused then
    let win := s.recent ++ [s.clk.stm]
    let s1 := (s.setBit Reg.SEC_WDT_STATUS 16 true).setBit Reg.SEC_STATUS 0 false
    let s2 := (s1.setFld Reg.SEC_WDT_STATUS 9 8 (min win.length 3)).secHardware 0x0302
      [(32, s.fld Reg.SEC_WDT_STATUS 7 0), (32, win.length)]
    let s3 : State := { s2 with sec := { s2.sec with expiries := win, restartAt := s.clk.stm } }
    .next (if 3 ≤ win.length then s3.wdtChip 1 else s3.mgrIrqSticky)
  else .next s

/-- The measured copy of KOROFT_CODE. -/
def State.measured (s : State) : List Byte := s.bytes .basin codeBase s.boot.codeLen

/-- Step 2 of Table 4.6: the measured copy goes into the execution area, and the Koroft data area, the rest of the secure
region, is zeroed (places: assumption 12). -/
def State.reloadKoroft (s : State) : State :=
  let a := execBase s.boot.codeLen
  let s1 := { s with mem := { s.mem with
    basin := s.mem.basin.filter fun c => !(decide (a ≤ c.1) && decide (c.1 < 0x400000))
    bad := s.mem.bad.filter fun p => !(p.1 == MemSel.basin && decide (a ≤ 8 * p.2) && decide (8 * p.2 < 0x400000)) } }
  s1.write .basin a s.measured

/-- The digest of the measured copy is the one in SEC_ANCHOR_0 to SEC_ANCHOR_11 (R107). -/
def State.anchorMatches (s : State) : Bool :=
  (List.range 12).all fun n => s.reg (Reg.SEC_ANCHOR n) == digestWord (Config.sha384 s.measured) n

/-- Step 4 of Table 4.6: Koroft leaves reset, and the watchdog is armed anew (assumption 22). -/
def State.koroftRestart (s : State) : State :=
  let s1 := ((s.setBit Reg.SEC_WDT_STATUS 16 false).count Reg.SEC_WDT_STATUS 7 0 1).setBit Reg.SEC_STATUS 0 true
  let s2 : State := { s1 with sec := { s1.sec with lastKick := s.clk.stm } }
  s2.secHardware 0x0303 [(32, s2.fld Reg.SEC_WDT_STATUS 7 0), (32, (s.clk.stm - s.sec.restartAt) / 1000)]

/-- KOROFT_RESTARTED (R107, R109): the measured copy is in the execution area, the data area is zero, and the digest of the
copy is compared with the anchor; Koroft leaves reset, or the chip resets as WDT_CHIP. `ecc` is what the reading of the
copy found (R169, R170); a copy read poisoned does not match (assumption 22). -/
def execKoroftRestarted (ecc : EccFind) (s : State) : Host.Outcome State Fault Refusal :=
  if s.devState = 3 && s.bit Reg.SEC_WDT_STATUS 16 then
    let r := s.eccFind .basin false codeBase s.boot.codeLen ecc
    let t := r.1.reloadKoroft
    .next (if !r.2 && t.anchorMatches then t.koroftRestart else t.wdtChip 2)
  else .next s

/-! ### Secure claims (R103–R105) -/

/-- The power block of a claim bit (Table 20.2). -/
def blockOfClaim (i : Nat) : Nat := ((List.range 23).find? fun b => claimBit b == some i).getD 22

/-- SECURE_CLAIM_SET (R104): a block that has not answered a handshake refuses it, a gated block is ungated, and a block
that GRAZE or STABLED has powered down is woken. -/
def State.claimSet (s : State) (i : Nat) : State :=
  let b := blockOfClaim i
  let s1 := (s.setBit Reg.SEC_CLAIM i true).setBit Reg.PCR_GATE b false
  match s.pwr.trans with
  | some (_, asked) => if asked.contains b then s1.abandon b 1 else s1
  | none => if s.pwr.wake.isSome then s1 else s1.wakeClaimed s.power

def execSecureClaimSet (bit : Fin 16) (s : State) : Host.Outcome State Fault Refusal :=
  .next (if s.koroftUp then s.claimSet bit.val else s)

/-- SECURE_CLAIM_CLEAR (R104): no power state changes. -/
def execSecureClaimClear (bit : Fin 16) (s : State) : Host.Outcome State Fault Refusal :=
  .next (if s.koroftUp then s.setBit Reg.SEC_CLAIM bit.val false else s)

end Sys2Proof.Machine
end

