-- ==== Sys2Proof/Machine/Cvu.lean ====
section
/-! DEFINITION. Check-value units (R349–R354). -/

namespace Sys2Proof.Machine

def State.cvu (s : State) (m : Nat) : Cvu := s.im.cvus.getD m {}
def State.setCvu (s : State) (m : Nat) (x : Cvu) : State := { s with im := { s.im with cvus := s.im.cvus.set m x } }

/-- The registers of a CVU follow its running value and count. -/
def State.cvuSync (s : State) (m : Nat) : State :=
  let x := s.cvu m
  let k := Reg.CVU_CTRL m
  ((s.setReg64 (k + 0x20) (k + 0x24) x.run).setReg64 (k + 0x28) (k + 0x2C) (x.run ^^^ crcXorout x.poly)).setReg64 (k + 0x30)
    (k + 0x34) (x.count % 2 ^ 64)

/-- Bytes are fed. -/
def State.cvuFeed (s : State) (m : Nat) (bs : List Byte) : State :=
  let x := s.cvu m
  (s.setCvu m { x with run := crcFeedAll x.poly x.run bs, count := x.count + bs.length }).cvuSync m

/-- An INIT write, or a run that starts without restore: the running value is init and the count 0, and in alive-counter
mode the alive word is fed first (R350, R352). -/
def State.cvuInit (s : State) (m : Nat) : State :=
  let ctrl := Reg.CVU_CTRL m
  let poly := s.fld ctrl 1 0
  let s1 := (s.setCvu m { s.cvu m with poly := poly, run := crcInit poly, count := 0 }).cvuSync m
  if s1.bit ctrl 4 then
    let a := s1.fld (Reg.CVU_ALIVE m) 15 0
    let s2 := s1.cvuFeed m (aliveWord (s1.fld ctrl 15 8) a)
    let s3 := (s2.setFld (Reg.CVU_STATUS m) 31 16 a).setFld (Reg.CVU_ALIVE m) 15 0 (a + 1)
    (s3.setBit (Reg.CVU_STATUS m) 1 false).setCvu m { s3.cvu m with lastAlive := s3.clk.stm }
  else s1

/-- Whether a view writes CVU `m` (R14, R354); a U view without the grant is recorded. -/
def State.cvuReaches (s : State) (m : Nat) (view : View) (off : Nat) : Bool × State :=
  match view with
  | .u p => if s.holds p.val 1 m then (true, s) else (false, s.notGranted p.val (0x8000 + 0x400 * m + off))
  | .p => (false, s)
  | .s => (s.bit Reg.SEC_CVU_MASK m && s.koroftUp, s)

/-- A write is dropped while a job runs: the status bit, IM_EVENT and the record (R350). -/
def State.cvuBusy (s : State) (m bit off : Nat) : State :=
  ((s.setBit (Reg.CVU_STATUS m) bit true).offer 0x0909 [(8, m), (32, 0x8000 + 0x400 * m + off)]).imEvent0 8

/-- A data or INIT write that reaches the CVU, or is dropped. -/
def State.cvuData (s : State) (m : Nat) (view : View) (off : Nat) (f : State → State) : State :=
  match s.cvuReaches m view off with
  | (false, t) => t
  | (true, t) => if t.bit (Reg.CVU_STATUS m) 0 then t.cvuBusy m 3 off else f t

def execCvuInit (cvu : Fin 16) (view : View) (value : Nat) (s : State) : Host.Outcome State Fault Refusal :=
  .next (s.cvuData cvu.val view 0x08 fun t => if value.testBit 0 then t.cvuInit cvu.val else t)

def execCvuData (cvu : Fin 16) (view : View) (value : Nat) (s : State) : Host.Outcome State Fault Refusal :=
  .next (s.cvuData cvu.val view 0x0C fun t => t.cvuFeed cvu.val (leBytes 4 value))

def execCvuDataB (cvu : Fin 16) (view : View) (value : Nat) (s : State) : Host.Outcome State Fault Refusal :=
  .next (s.cvuData cvu.val view 0x10 fun t => t.cvuFeed cvu.val (leBytes 1 value))

/-- A write of CTRL, ALIVE or PERIOD, at offset 0x00, 0x14 or 0x18. -/
def State.cvuCfg (s : State) (m : Nat) (view : View) (off value : Nat) : State :=
  match s.cvuReaches m view off with
  | (false, t) => t
  | (true, t) =>
    if t.bit (Reg.CVU_STATUS m) 0 then t.cvuBusy m 2 off
    else if off = 0x14 && t.bit (Reg.CVU_CTRL m) 4 then t.setBit (Reg.CVU_STATUS m) 2 true
    else t.setReg (Reg.CVU_CTRL m + off) (value % 2 ^ 32 &&& (if off = 0 then 0xFF13 else 0xFFFF))

def execCvuCfgWrite (cvu : Fin 16) (view : View) (reg : CvuReg) (value : Nat) (s : State) : Host.Outcome State Fault Refusal :=
  .next (s.cvuCfg cvu.val view (match reg with | .ctrl => 0x00 | .alive => 0x14 | .period => 0x18) value)

/-- CVU_STALE: no alive word was fed for CVU_m_PERIOD ms (R353). -/
def execCvuStale (cvu : Fin 16) (s : State) : Host.Outcome State Fault Refusal :=
  let m := cvu.val
  if s.fld (Reg.CVU_PERIOD m) 15 0 = 0 || s.bit (Reg.CVU_STATUS m) 1 then .next s
  else
    let s1 := s.setBit (Reg.CVU_STATUS m) 1 true
    let a := s.fld (Reg.CVU_ALIVE m) 15 0
    let s2 := if s1.bit Reg.SEC_CVU_MASK m then s1.secHardware 0x0908 [(8, m), (8, 0xBF), (16, a)]
      else s1.offer 0x0908 [(8, m), (8, ((List.range 64).find? fun p => s.holds p 1 m).getD 0xBF), (16, a)]
    .next (s2.imEvent0 7)

/-! ### CVU_RUN (R350, R351) -/

/-- A save area (Table 13.6). -/
def saveArea (poly alive run count : Nat) : List Byte :=
  let body := leBytes 4 0x43565531 ++ leBytes 1 poly ++ leBytes 1 0 ++ leBytes 2 alive ++ leBytes 8 run ++ leBytes 8 count
    ++ leBytes 4 0
  body ++ leBytes 4 (crc32c body)

/-- The checks of a save area on restore. -/
def saveOk (poly : Nat) (bs : List Byte) : Bool :=
  dField bs 0 4 == 0x43565531 && dField bs 4 1 == poly && dField bs 5 1 == 0 && dField bs 0x18 4 == 0
    && dField bs 0x1C 4 == crc32c (bs.take 0x1C)

/-- A run starts: restored from its save area, or as an INIT write. -/
def State.cvuStart (s : State) (c m : Nat) (j : Job) (host : List (Nat × Byte)) : State :=
  let s1 := (s.markStarted c j.sq).modJob c j.sq fun j => { j with extent := j.f 0x14 4 }
  let go := fun (t : State) =>
    let t1 := t.setBit (Reg.CVU_STATUS m) 0 true
    let t2 := { t1 with im := { t1.im with
      jobs := (t1.im.jobs.filter fun k => !(k.ctx == c && k.sq == j.sq)) ++ [⟨m, c, j.sq, true, 0⟩] } }
    if spaceOf (j.f 0x18 8) = .host then t2.readHost c j.sq 0x18 (j.f 0x18 8) (j.f 0x14 4) else t2
  if (j.f 0x11 1).testBit 0 then
    match s1.reach c 0x20 (j.f 0x20 8) 32 false with
    | (_, some (st, d)) => s1.faultAt c j.sq st d 0
    | (_, none) =>
      let bs := s1.bufRead host (j.f 0x20 8) 32
      let poly := s1.fld (Reg.CVU_CTRL m) 1 0
      if saveOk poly bs then
        go ((s1.setCvu m { s1.cvu m with poly := poly, run := dField bs 8 8 % 2 ^ crcWidth poly, count := dField bs 0x10 8 }).cvuSync m)
      else s1.faultJob c j.sq 0x21 0x0420 0
  else go (s1.cvuInit m)

/-- CVU_RUN: the job becomes ready to start. It starts when its CVU is idle and every run that became ready before it on that
CVU has started; until then it waits, and starts at a further CVU_RUN of its context. -/
def execCvuRun (ctx : Fin 1024) (host : List (Nat × Byte)) (s : State) : Host.Outcome State Fault Refusal :=
  let c := ctx.val
  match s.toStart c 11 with
  | none => .next s
  | some j =>
    let m := j.f 0x10 1 % 16
    let known := s.im.jobs.any fun k => k.ctx == c && k.sq == j.sq
    let s1 := if known then s else { s with im := { s.im with jobs := s.im.jobs ++ [⟨m, c, j.sq, false, 0⟩] } }
    let first := (s1.im.jobs.find? fun k => k.cvu == m).any fun k => k.ctx == c && k.sq == j.sq
    if s1.bit (Reg.CVU_STATUS m) 0 || !first then .next s1 else .next (s1.cvuStart c m j host)

/-- A running job feeds the first `n` bytes of its data. -/
def State.cvuJobFeed (s : State) (c m : Nat) (j : Job) (host : List (Nat × Byte)) (n : Nat) : State :=
  let a := j.f 0x18 8
  let bs := if spaceOf a = .host ∧ !j.data.isEmpty then j.data.take n else s.bufRead host a n
  (s.cvuFeed m bs).modJob c j.sq fun j => { j with count := n }

/-- CVU_RUN_DONE: the bytes are fed as far as nothing stops them, the save area is written if asked, and the job ends. -/
def execCvuRunDone (ctx : Fin 1024) (host : List (Nat × Byte)) (s : State) : Host.Outcome State Fault Refusal :=
  let c := ctx.val
  match s.im.jobs.find? fun k => k.ctx == c && k.running with
  | none => .next s
  | some k =>
    match s.job c k.sq with
    | none => .next s
    | some j =>
      let (n, stop) := s.reach c 0x18 (j.f 0x18 8) (j.f 0x14 4) false
      let s1 := s.cvuJobFeed c k.cvu j host n
      match stop with
      | some (st, d) => .next (s1.faultAt c j.sq st d 0)
      | none =>
        if (j.f 0x11 1).testBit 1 then
          match s1.reach c 0x20 (j.f 0x20 8) 32 true with
          | (_, some (st, d)) => .next (s1.faultAt c j.sq st d 0)
          | (_, none) =>
            let x := s1.cvu k.cvu
            .next ((s1.bufWrite (s1.ctxPaddock c) (j.f 0x20 8)
              (saveArea x.poly (s1.fld (Reg.CVU_ALIVE k.cvu) 15 0) x.run x.count)).endJob c j.sq 0 0 0)
        else .next (s1.endJob c j.sq 0 0 0)

/-- A rein stops a running job at a 256-byte burst; how many bursts were fed is free (R351, assumption 1). -/
def State.cvuRein (s : State) (c sq : Nat) : State :=
  match s.im.jobs.find? (fun k => k.ctx == c && k.sq == sq && k.running), s.job c sq with
  | some k, some j =>
    let len := j.f 0x14 4
    let (n, _) := s.reach c 0x18 (j.f 0x18 8) len false
    let m := min n (256 * (s.free 24 % (len / 256 + 1)))
    s.took.cvuJobFeed c k.cvu j [] m
  | _, _ => s

end Sys2Proof.Machine
end

