-- ==== Sys2Proof/Machine/Descriptor.lean ====
section
/-! DEFINITION. Fetching a descriptor and admitting its job (R141, R145, R146, R149, R151, R489): the checks in the order of
R146, and those that other chapters define. -/

namespace Sys2Proof.Machine

/-! ### The descriptor's own fields (R145, R146 step 1) -/

/-- The type allows at_time (Table 6.5). -/
def atTimeOk (typ : Nat) : Bool := typ == 6 || typ == 7 || typ == 9 || typ == 10

/-- Checks of a field at `o` that names a buffer aligned to `m` bytes (Table 6.3): used only when `used`. -/
def addrChks (raw : List Byte) (used : Bool) (o m : Nat) : List Chk :=
  [⟨used && badSpace (dField raw o 8), o, 1, 4⟩, ⟨used && dField raw o 8 % m != 0, o, 2, 3⟩]

/-- Checks of the header (Table 6.4). -/
def headerChks (raw : List Byte) : List Chk :=
  let t := dField raw 0 1
  let fl := dField raw 1 1
  [⟨t == 0 || decide (12 < t), 0, 1, 1⟩, ⟨decide (16 ≤ fl), 1, 0, 2⟩, ⟨fl.testBit 3 && !atTimeOk t, 1, 1, 4⟩]
    ++ zeroChks raw 2 4 ++ addrChks raw (fl.testBit 2) 8 64

/-- Checks of the body (Table 6.6): bytes it does not list are zero. Where a job names no effect of the library, once it is
checked, the effect field is out of range (R431). -/
def State.bodyChks (s : State) (raw : List Byte) : List Chk :=
  let f := dField raw
  let z := zeroChks raw
  let out := fun (o lo hi n : Nat) => (⟨decide (f o n < lo) || decide (hi < f o n), o, 1, 4⟩ : Chk)
  let top := 2 ^ 32 - 1
  match f 0 1 with
  | 1 => addrChks raw true 0x10 64 ++ [out 0x18 64 4096 4] ++ z 0x1C 0x40
  | 2 =>
    addrChks raw true 0x10 1 ++ addrChks raw true 0x18 1
      ++ [out 0x20 1 top 4, out 0x24 1 top 4, out 0x28 1 top 4, ⟨decide (2 ^ 31 < f 0x20 4 * f 0x24 4 * f 0x28 4), 0x20, 1, 4⟩]
      ++ z 0x2C 0x40
  | 3 =>
    let fill := (f 0x24 1).testBit 0
    addrChks raw (!fill) 0x10 1 ++ addrChks raw true 0x18 1
      ++ [⟨!fill && spaceOf (f 0x10 8) == .host && spaceOf (f 0x18 8) == .host, 0x18, 1, 4⟩, out 0x20 1 top 4,
          ⟨decide (2 ≤ f 0x24 1), 0x24, 0, 2⟩]
      ++ z 0x25 0x28 ++ z 0x2C 0x40
  | 4 => [⟨decide (4096 ≤ f 0x10 2), 0x10, 0, 2⟩] ++ z 0x12 0x18 ++ z 0x20 0x40
  | 5 =>
    [⟨decide (4096 ≤ f 0x10 2), 0x10, 0, 2⟩, ⟨decide (2 ≤ f 0x12 1), 0x12, 0, 2⟩]
      ++ z 0x13 0x18 ++ addrChks raw ((f 0x12 1).testBit 0) 0x20 8 ++ z 0x28 0x40
  | 6 => [out 0x10 0 9 1] ++ z 0x11 0x38
  | 7 =>
    [out 0x10 0 7 1, out 0x12 0 1023 2, out 0x14 1 1024 2, ⟨decide (1024 < f 0x12 2 + f 0x14 2), 0x14, 1, 4⟩, out 0x20 1 top 4]
      ++ addrChks raw true 0x18 1 ++ z 0x11 0x12 ++ z 0x16 0x18 ++ z 0x24 0x38
  | 8 =>
    [out 0x10 0 7 1, out 0x12 26 257 2, out 0x14 0 257 2] ++ addrChks raw true 0x18 1 ++ addrChks raw true 0x20 1
      ++ z 0x11 0x12 ++ z 0x16 0x18 ++ z 0x28 0x40
  | 9 =>
    let capture := (f 0x11 1).testBit 0
    [out 0x10 0 (if capture then 63 else 127) 1, ⟨decide (2 ≤ f 0x11 1), 0x11, 0, 2⟩, out 0x12 0 2 1, out 0x14 1 top 4]
      ++ addrChks raw true 0x18 1 ++ z 0x13 0x14 ++ z 0x20 0x38
  | 10 =>
    [out 0x10 0 15 1, ⟨s.bit Reg.HAP_STATUS 16 && !s.effectOk (f 0x11 1), 0x11, 1, 4⟩, ⟨decide (2 ≤ f 0x12 1), 0x12, 0, 2⟩]
      ++ z 0x14 0x38
  | 11 =>
    [out 0x10 0 15 1, ⟨decide (4 ≤ f 0x11 1), 0x11, 0, 2⟩, out 0x14 1 top 4] ++ addrChks raw true 0x18 1
      ++ addrChks raw (f 0x11 1 != 0) 0x20 8 ++ z 0x12 0x14 ++ z 0x28 0x40
  | 12 => z 0x12 0x14 ++ z 0x18 0x40
  | _ => []

/-- Step 1 of R146. -/
def State.fieldChks (s : State) (raw : List Byte) : Except Bad Unit :=
  match firstChk (headerChks raw ++ s.bodyChks raw) with
  | none => .ok ()
  | some c => .error ⟨0x21, c.reason * 256 + c.off, 0⟩

/-! ### Buffers and resources (R146 steps 2 and 3) -/

/-- The owner-table check of a buffer that the field at `off` names; whether the function can master its port is not checked
(R490). -/
def State.bufChk (s : State) (c off a n : Nat) (write : Bool) : Except Bad Unit :=
  if spaceOf a = .host then .ok ()
  else match s.jobRefused c off a n write with
    | some d => .error ⟨0x20, d, 0⟩
    | none => .ok ()

/-- Fail with this reason at this field unless a condition holds. -/
def holdsOr (ok : Bool) (reason off : Nat) : Except Bad Unit := if ok then .ok () else .error ⟨0x21, reason * 256 + off, 0⟩

/-- The progress area, `n` bytes (Table 6.11). -/
def State.areaChk (s : State) (c : Nat) (raw : List Byte) (n : Nat) : Except Bad Unit :=
  if (dField raw 1 1).testBit 2 then s.bufChk c 8 (dField raw 8 8) n true else .ok ()

/-- A fence right (R149): the owner signals, and the owner or, with public_wait, anyone waits. -/
def State.fenceChk (s : State) (p f : Nat) (signal : Bool) : Except Bad Unit :=
  let k := Reg.CQ_FENCE_CFG f
  let mine := s.fld k 5 0 == p
  if s.bit k 8 && (mine || (!signal && s.bit k 9)) then .ok () else .error ⟨0x20, 0x10 * 2 ^ 24 + f % 4096, 0⟩

/-- The descriptor at ring index `i` of a context, where its fetch is not refused. -/
def State.ringEntry (s : State) (c i : Nat) (host : List (Nat × Byte)) : Option (List Byte) :=
  let a := (s.ctx c).sqBase + 64 * i
  if (s.jobRefused c 0 a 64 false).isSome || (s.poisonIn a 64).isSome then none else some (s.bufRead host a 64)

/-- A FENCE_SIGNAL of fence `f` at or above `v` stands among the `n` entries from ring index `i` on, before the tail (R151). -/
def State.signalAhead (s : State) (c f v : Nat) (host : List (Nat × Byte)) : Nat → Nat → Bool
  | 0, _ => false
  | n + 1, i =>
    let x := s.ctx c
    if i = x.tail then false
    else
      let here := match s.ringEntry c i host with
        | some r => dField r 0 1 == 5 && dField r 0x10 2 % 4096 == f && decide (v ≤ dField r 0x18 8)
        | none => false
      here || State.signalAhead s c f v host n ((i + 1) % x.sqSize)

/-- The request of an RDM_TRANSACTION, read and checked as the structure it is (R146 step 2, R384). -/
def State.rdmChk (s : State) (c : Nat) (raw : List Byte) (host : List (Nat × Byte)) : Except Bad Unit := do
  let a := dField raw 0x18 8
  let n := dField raw 0x12 2
  match s.jobRefused c 0x18 a n false with
  | some d => throw ⟨0x20, d, 0⟩
  | none => pure ()
  match s.poisonIn a n with
  | some g => throw ⟨0x23, g, 0⟩
  | none => pure ()
  let b := s.bufRead host a n
  let at' := fun (o : Nat) => (b.getD o 0).toNat
  if at' 0 ≠ 0xCC then throw ⟨0x21, 0x0418, 0⟩
  if at' 1 ≠ 1 then throw ⟨0x21, 0x0418, 1⟩
  holdsOr (n == at' 2 + 2) 4 0x12
  let sum := ((b.take (n - 2)).map (·.toNat)).sum % 65536
  if at' (n - 2) * 256 + at' (n - 1) ≠ sum then throw ⟨0x21, 0x0418, n - 2⟩

/-- Steps 2 and 3 of R146 for a job that is not a jets job, and R151 after them. -/
def State.resourceChks (s : State) (c : Nat) (raw : List Byte) (sq : Nat) (host : List (Nat × Byte)) : Except Bad Unit := do
  let f := dField raw
  let p := s.ctxPaddock c
  let t := f 0 1
  if t = 8 then s.rdmChk c raw host
  s.areaChk c raw 32
  match t with
  | 3 =>
    if !(f 0x24 1).testBit 0 then s.bufChk c 0x10 (f 0x10 8) (f 0x20 4) false
    s.bufChk c 0x18 (f 0x18 8) (f 0x20 4) true
  | 4 =>
    s.fenceChk p (f 0x10 2) false
    holdsOr (!s.signalAhead c (f 0x10 2) (f 0x18 8) host 255 ((sq + 1) % (s.ctx c).sqSize)) 5 0x10
  | 5 =>
    s.fenceChk p (f 0x10 2) true
    if (f 0x12 1).testBit 0 then s.bufChk c 0x20 (f 0x20 8) 8 true
  | 6 => holdsOr (!(s.heldLayers p (f 0x10 1)).isEmpty || s.safetyOwner (f 0x10 1) == some p) 6 0x10
  | 7 =>
    let src := f 0x10 1
    let inMask := (List.range (f 0x14 2)).all fun i => (s.uniRec s.loBank (f 0x12 2 + i)).has src
    holdsOr (s.srcKind src == 2 && s.srcOwner src == p && inMask) 6 0x10
    s.bufChk c 0x18 (f 0x18 8) (f 0x20 4 * f 0x14 2 * 512) false
  | 8 =>
    let k := Reg.LO_DMX_CFG (f 0x10 1)
    holdsOr (s.bit k 7 && s.fld k 13 8 == p) 6 0x10
    holdsOr (s.bit k 1) 4 0x10
    s.bufChk c 0x20 (f 0x20 8) (f 0x14 2) true
  | 9 =>
    let e := f 0x10 1
    let capture := (f 0x11 1).testBit 0
    let k := Reg.AUD_IN_CFG_ACT e
    holdsOr (if capture then decide (e < s.busesOn)
      else decide (e < s.inputsOn) && s.fld k 26 24 == 3 && s.bit k 7 && s.fld k 13 8 == p) 6 0x10
    s.bufChk c 0x18 (f 0x18 8) (f 0x14 4 * sampleBytes (f 0x12 1)) capture
  | 10 =>
    let k := Reg.HAPC_CFG_ACT (f 0x10 1)
    holdsOr (s.bit k 23 && s.fld k 29 24 == p) 6 0x10
  | 11 =>
    holdsOr (s.holds p 1 (f 0x10 1)) 6 0x10
    s.bufChk c 0x18 (f 0x18 8) (f 0x14 4) false
    if (f 0x11 1).testBit 0 then s.bufChk c 0x20 (f 0x20 8) 32 false
    if (f 0x11 1).testBit 1 then s.bufChk c 0x20 (f 0x20 8) 32 true
  | _ => pure ()

/-- What the checks of R146 give: the jets job that the array then holds, where the type is one. -/
def State.admitChks (s : State) (c : Nat) (raw : List Byte) (sq : Nat) (host : List (Nat × Byte)) :
    Except Bad (Option JetJob) := do
  s.fieldChks raw
  if dField raw 0 1 ≤ 2 then
    let j ← s.loadJets c host raw sq (s.areaChk c raw)
    return some j
  else
    s.resourceChks c raw sq host
    return none

/-! ### Fetch (R141, R489) -/

/-- The context admits a job of these bytes at ring index `sq`: its checks decide whether it goes on (R146). -/
def State.admitJob (s : State) (c : Nat) (raw : List Byte) (sq : Nat) (host : List (Nat × Byte)) : State :=
  let x := s.ctx c
  let s1 := s.setCtx c { x with
    sqHead := (sq + 1) % x.sqSize
    jobs := x.jobs ++ [{ sq := sq, raw := raw }] }
  match s.admitChks c raw sq host with
  | .error b => s1.faultAt c sq b.status b.detail b.off
  | .ok (some j) => { s1 with ja := { s1.ja with jobs := s1.ja.jobs ++ [j] } }.settle c
  | .ok none => s1.settle c

/-- A fetch that failed ends a job of tag 0 and type 0 at that index, and CQ_U_SQ_HEAD stays (R489). -/
def State.fetchFails (s : State) (c status detail : Nat) : State :=
  let x := s.ctx c
  let s1 := s.setCtx c { x with jobs := x.jobs ++ [{ sq := x.sqHead, raw := List.replicate 64 0 }] }
  s1.faultJob c x.sqHead status detail 0

/-- The context fetches: it is ACTIVE or WAITING with no fault decided, descriptors wait, and there is room among its 8
admitted jobs and held entries (R141, R142). -/
def State.fetches (s : State) (c : Nat) : Bool :=
  let x := s.ctx c
  s.ctxAssigned c && (s.ctxState c == 1 || s.ctxState c == 2) && x.faulting.isNone && x.sqHead != x.tail
    && decide (x.jobs.length + x.held.length < 8)

/-- DESCRIPTOR_FETCHED: the descriptor at CQ_U_SQ_HEAD arrives; a ring in host memory is answered by its port, and a function
that cannot master its port issues no fetch. -/
def execDescriptorFetched (ctx : Fin 1024) (reply : HostReply) (host : List (Nat × Byte)) (s : State) :
    Host.Outcome State Fault Refusal :=
  let c := ctx.val
  if !s.fetches c then .next s
  else
    let x := s.ctx c
    let a := x.sqBase + 64 * x.sqHead
    match spaceOf a with
    | .host =>
      let n := portOf (s.ctxPaddock c)
      let admitted := fun (bs : List Byte) =>
        s.admitJob c ((List.range 64).map fun i => bs.getD i (Config.freeBits 8 (2 ^ 64 + localOf a + i))) x.sqHead host
      if !s.mayMaster (s.ctxPaddock c) then .next s
      else match reply with
        | .poisoned => .next ((s.poisonedTlp n false).fetchFails c 0x23 (2 ^ 31))
        | .urCa => .next ((s.urTlp n).fetchFails c 0x20 (2 ^ 31))
        | .data bs => .next (admitted bs)
        | .ecrc bs =>
          if (s.hp.ports.getD n {}).ecrcChk then .next ((s.poisonedTlp n true).fetchFails c 0x23 (2 ^ 31)) else .next (admitted bs)
    | .reserved => .next (s.fetchFails c 0x20 0)
    | _ =>
      match s.jobRefused c 0 a 64 false, s.poisonIn a 64 with
      | some d, _ => .next (s.fetchFails c 0x20 d)
      | none, some g => .next ((s.eccSeen g).fetchFails c 0x23 (eccGran g))
      | none, none => .next (s.admitJob c (s.bufRead [] a 64) x.sqHead host)

end Sys2Proof.Machine
end

