-- ==== Sys2Proof/Machine/JetArray.lean ====
section
/-! DEFINITION. The jet array's work: home strings, the binner and the trough, queues, dispatch and siphon, tiles and their
write-out, and what the retirement of a jet does (spec/08, R271–R277). -/

namespace Sys2Proof.Machine

/-! ### End of jets jobs -/

/-- Nanoseconds that a job has run, without its context's ring-full waits (R152). -/
def State.ranNs (s : State) (c : Nat) (j : Job) : Nat :=
  let x := s.ctx c
  let full := x.fullNs - j.full0 + (match x.fullSince with | some t => s.clk.stm - max t j.startT | none => 0)
  s.clk.stm - j.startT - full

/-- A jets job faults at offset `off` of the structure concerned (R196). -/
def State.jetFault (s : State) (c sq : Nat) (b : Bad) : State := s.faultAt c sq b.status b.detail b.off

/-- DEADLINE_MISS is due for a job that has run to its D (R259); one whose last item is written at `D` itself has met it
(`late` 1, R266). -/
def State.missCheck (s : State) (j : JetJob) (late : Nat) : State :=
  match j.dl with
  | some d =>
    if d + late ≤ s.clk.stm ∧ !j.missed then
      let n := s.fld (Reg.CQ_CTX_CLASS j.ctx) 6 4
      let s1 := (s.modJjob j.ctx j.sq fun j => { j with missed := true }).count (Reg.JA_DL_MISSES n) 31 0 1
      (s1.offer 0x0624 [(16, j.ctx), (8, n), (64, d)]).dlEvent 1
    else s
  | none => s

/-- End of a jets job whose items are all done, with the status of Table 10.5. -/
def State.jetsDone (s : State) (j : JetJob) : State :=
  let s1 := s.missCheck j 1
  let l := (s1.jetProgress j).2.2.1
  if !j.torn.isEmpty then s1.endJob j.ctx j.sq 0x09 l (j.tornSeq.getD 0)
  else if !j.lost.isEmpty then s1.endJob j.ctx j.sq 0x08 l (j.retiredSeq.getD 0)
  else if j.unitRetired then s1.endJob j.ctx j.sq 0x02 0 (j.retiredSeq.getD 0)
  else if 0 < j.spills then s1.endJob j.ctx j.sq 0x01 j.spills j.spillSeq
  else s1.endJob j.ctx j.sq 0 0 0

/-- Every tile of the round is written or torn. -/
def JetJob.roundDone (j : JetJob) : Bool :=
  j.phase == 3 && j.todo.isEmpty && decide (j.total ≤ j.written.length + j.tornNow.length)

/-- A render pass ends with the last tile of its last round. -/
def State.renderCheck (s : State) (c sq : Nat) : State :=
  match s.jjob c sq with
  | some j => if j.render ∧ j.roundDone ∧ !j.spilling then s.jetsDone j else s
  | none => s

/-! ### Home strings (R209, R466) -/

/-- The home string that a job takes now. -/
def State.homeFor (s : State) (j : JetJob) : Option Nat :=
  let free := (List.range 8).filter fun n => !(s.str n).dry && (s.homeJob n).isNone
  if !s.jaOn || !(s.bit Reg.JA_CTRL 0) || s.power == 2 then none
  else if s.ctxClass j.ctx = 2 then ((free.find? fun n => s.heldStr n).orElse fun _ => free.head?)
  else free.find? fun n => !s.heldStr n

/-- The binner begins a round: every head is empty and the dynamic area is free (R202, R204). Chunks lie at multiples of 64
bytes (Table 8.8), the first at or after the end of the head table. -/
def State.startRound (s : State) (c sq : Nat) : State :=
  match s.jjob c sq with
  | some j =>
    let n := j.home.getD 0
    let base := s.ja.force.base.getD n 0 * 65536
    let t := j.pass.tiles
    let s1 := s.write .basin (base + 256) (List.replicate (16 * t) 0)
    s1.modJjob c sq fun j => { j with
      low := (256 + 16 * t + 63) / 64 * 64, high := s.ja.force.size.getD n 0 * 65536, heads := [], prims := [], written := [], tornNow := []
      spilling := false, phase := 2 }
  | none => s

/-- A waiting job takes string `n` as its home, and its geometry phase or its feeder begins. -/
def State.takeHome (s : State) (j : JetJob) (n : Nat) : State :=
  let s1 := s.modJjob j.ctx j.sq fun j => { j with home := some n, suspended := false, phase := if j.render then 2 else 4 }
  (if j.render then s1.startRound j.ctx j.sq else s1).jaSync

/-- Rank of a waiting job (R209, R268): a suspended compute job, then by class, then by arrival. -/
def State.waitRank (s : State) (j : JetJob) : Nat :=
  let cls := s.ctxClass j.ctx
  (if j.suspended then 0 else if cls = 2 then 1 else if cls = 1 then 2 else 3) * 2 ^ 64 + j.arrival

/-- Insert a job by its rank. -/
def State.insertJob (s : State) (j : JetJob) : List JetJob → List JetJob
  | [] => [j]
  | k :: ks => if s.waitRank j ≤ s.waitRank k then j :: k :: ks else k :: s.insertJob j ks

/-- Items of the home job of string `n` are pushed as queue space allows, ahead of a later push by that string (R209, the tile
phase); a compute job that is wholly queued gives its home up. -/
def State.feed (s : State) (n : Nat) : State :=
  match s.homeJob n with
  | none => s
  | some j =>
    let q := s.serves n
    let t := s.str q
    let room := 256 - t.queue.length
    if j.render then
      if j.phase = 3 then
        let now := (j.todo.take room).map fun i => (⟨j.ctx, j.sq, true, i, j.round⟩ : Item)
        (s.setStr q { t with queue := t.queue ++ now }).modJjob j.ctx j.sq fun j => { j with todo := j.todo.drop room }
      else s
    else if j.phase = 4 then
      let k := min room (j.total - j.next)
      let now := (List.range k).map fun i => (⟨j.ctx, j.sq, false, j.next + i, 0⟩ : Item)
      let all := decide (j.total ≤ j.next + k)
      (s.setStr q { t with queue := t.queue ++ now }).modJjob j.ctx j.sq fun j => { j with
        next := j.next + k, home := if all then none else j.home, phase := if all then 5 else 4 }
    else s

/-- Waiting jobs take homes in their order. -/
def State.assignHomes (s : State) : State :=
  let waiting := (s.ja.jobs.filter fun j => j.phase == 1).foldr s.insertJob []
  s.each (fun j s => match s.homeFor j with
    | some n => ((s.takeHome j n).feed n).jaSync
    | none => s) waiting

/-- A jets job starts (R209, R257, R276): it ends at once when no jet is live, and otherwise takes a home or waits. -/
def State.startJets (s : State) (c : Nat) (j : Job) : State :=
  let s1 := (s.markStarted c j.sq).modJjob c j.sq fun k => { k with
    phase := 1, arrival := s.ja.arrivals, dl := s.deadlineOf c }
  let s2 : State := { s1 with ja := { s1.ja with arrivals := s1.ja.arrivals + 1 } }
  if s.liveJets = 0 then s2.faultJob c j.sq 0x22 0 0 else s2.assignHomes

/-! ### Draw list and vertex batches (R198, R199) -/

/-- A draw record from its 32 bytes. -/
def parseDraw (b : List Byte) : Draw :=
  let f := dField b
  { topology := f 0 1, flags := f 1 1, func := f 2 1, entry := f 3 1, count := f 4 4, index := f 8 8, first := f 0x10 4,
    voff := f 0x14 4, x0 := f 0x18 2, y0 := f 0x1A 2, x1 := f 0x1C 2, y1 := f 0x1E 2 }

/-- Bytes of an index. -/
def Draw.indexSize (d : Draw) : Nat := if d.flags.testBit 1 then 2 else 4

/-- The checks of a draw record (Table 8.7, R226). -/
def drawChks (j : JetJob) (d : Draw) : List Chk :=
  let ix := d.flags.testBit 0
  [⟨decide (3 < d.topology), 0, 1, 4⟩, ⟨decide (128 ≤ d.flags), 1, 0, 2⟩,
   ⟨j.pass.depth.isNone && d.flags / 4 % 4 != 0, 1, 1, 4⟩, ⟨decide (7 < d.func), 2, 1, 4⟩,
   ⟨decide (j.prog.entries.length / 2 ≤ d.entry), 3, 1, 4⟩,
   ⟨if ix then badSpace d.index else d.index != 0, 8, 1, 4⟩, ⟨ix && d.index % d.indexSize != 0, 8, 2, 3⟩]

/-- DRAW_RECORD_READ (R198). -/
def State.drawRead (s : State) (c sq : Nat) (host : List (Nat × Byte)) : State :=
  match s.jjob c sq with
  | none => s
  | some j =>
    if j.phase ≠ 2 ∨ j.spilling ∨ j.drw.isSome ∨ j.pass.draws ≤ j.drawNo then s
    else
      let a := j.pass.draw + 32 * j.drawNo
      match s.rangesStop c false [(a, 32)] with
      | some (st, d) => s.jetFault c sq ⟨st, d, 32 * j.drawNo⟩
      | none =>
        let s := s.touchMem a 32
        let d := parseDraw (s.bufRead host a 32)
        match firstChk (drawChks j d) with
        | some k => s.jetFault c sq ⟨0x21, k.reason * 256 + 0x10, 32 * j.drawNo + k.off⟩
        | none =>
          if d.count = 0 then s.modJjob c sq fun j => { j with drawNo := j.drawNo + 1 }
          else
            let ranges := if d.flags.testBit 0 then [(d.index + d.first * d.indexSize, d.count * d.indexSize)] else []
            match (ranges.filter fun r => spaceOf r.1 != .host).findSome? fun r => s.jobRefused c 0x10 r.1 r.2 false with
            | some g => s.jetFault c sq ⟨0x20, g, 32 * j.drawNo + 8⟩
            | none => s.modJjob c sq fun j => { j with drw := some d, vpos := 0, strip := [], stripN := 0, primId := 0 }

def execDrawRecordRead (ctx : Fin 1024) (sq : Nat) (host : List (Nat × Byte)) (s : State) :
    Host.Outcome State Fault Refusal := .next (s.drawRead ctx.val sq host)

/-- The vertices of positions [from, from + n) of a draw: VERTEX_ID, or none for a strip restart (Table 8.7, Table 9.13). -/
def State.vertexIds (s : State) (host : List (Nat × Byte)) (d : Draw) (first n : Nat) : List (Option Nat) :=
  (List.range n).map fun i =>
    if d.flags.testBit 0 then
      let k := d.indexSize
      let ix := ofLeBytes (s.bufRead host (d.index + (d.first + first + i) * k) k)
      if d.topology = 1 ∧ ix = 2 ^ (8 * k) - 1 then none else some ((ix + d.voff) % 2 ^ 32)
    else some ((d.first + first + i) % 2 ^ 32)

/-- Lists of up to 16. -/
def chunks16 {α : Type} : Nat → List α → List (List α)
  | 0, _ => []
  | n + 1, l => if l.isEmpty then [] else l.take 16 :: chunks16 n (l.drop 16)

/-- The teams of a vertex batch (Table 9.1). -/
def batchTeams (j : JetJob) (d : Draw) (ids : List (Option Nat)) : List (Nat × Team) :=
  let e := j.prog.entries.getD (2 * d.entry) {}
  let cs := chunks16 3 (ids.filterMap fun i => i)
  (List.range cs.length).map fun n =>
    let l := cs.getD n []
    (n, { stage := 1, entry := 2 * d.entry, pc := e.start, present := 2 ^ l.length - 1, no := n, ids := l : Team })

/-- The jets that may take work of string `n`'s queue for this job: its own jets that are not lent, then jets lent to the job
(R261), idle, lowest first. -/
def State.takers (s : State) (n : Nat) (c sq : Nat) : List Nat :=
  let own := ((List.range 8).map (8 * n + ·)).filter fun k =>
    s.jetIdle k && (s.jet k).lent.isNone && (s.str n).resume.isEmpty
  let lent := (List.range 64).filter fun k => s.jetIdle k && (s.jet k).lent == some (c, sq)
  let home := (s.jjob c sq).bind (·.home)
  own ++ (if home.map s.serves == some n then lent else [])

/-- Assembly of one delivered vertex (or restart) (R199 step 1). -/
def JetJob.assemble (j : JetJob) (d : Draw) (v : Option VOut) : JetJob :=
  match v with
  | none => { j with strip := [], stripN := 0 }
  | some v =>
    let emit := fun (vs : List VOut) (keep : List VOut) => { j with
      pend := j.pend ++ [.raw vs j.drawNo j.primId d], primId := j.primId + 1, strip := keep, stripN := j.stripN + 1 }
    let hold := { j with strip := j.strip ++ [v], stripN := j.stripN + 1 }
    match d.topology, j.strip with
    | 0, [a, b] => emit [a, b, v] []
    | 1, [a, b] => if j.stripN % 2 = 0 then emit [a, b, v] [b, v] else emit [b, a, v] [b, v]
    | 2, [a] => emit [a, v] []
    | 3, _ => emit [v] []
    | _, _ => hold

/-- Batches delivered at the front of the job's list are assembled in order, and the draw record ends with its last. -/
def JetJob.settleBatches (j : JetJob) : Nat → JetJob
  | 0 => j
  | n + 1 =>
    match j.drw, j.batches with
    | some d, b :: bs =>
      match b.outs with
      | some outs =>
        let (vs, _) := b.ids.foldl (fun (acc : List (Option VOut) × List VOut) i => match i, acc.2 with
          | some _, o :: os => (acc.1 ++ [some o], os)
          | some _, [] => (acc.1 ++ [some {}], [])
          | none, os => (acc.1 ++ [none], os)) ([], outs)
        JetJob.settleBatches (vs.foldl (fun j v => j.assemble d v) { j with batches := bs }) n
      | none => j
    | some d, [] =>
      if d.count ≤ j.vpos then { j with drw := none, drawNo := j.drawNo + 1, strip := [], stripN := 0 } else j
    | none, _ => j

/-- VERTEX_BATCH (R199): a batch that lost its jet runs again first, and otherwise the next of the draw, on the lowest idle jet
that may take it. -/
def State.vertexBatch (s : State) (c sq : Nat) (host : List (Nat × Byte)) : State :=
  match s.jjob c sq with
  | none => s
  | some j =>
    match j.drw, (s.takers (s.serves (j.home.getD 0)) c sq).head? with
    | some d, some k =>
      if j.phase ≠ 2 ∨ j.spilling then s
      else
        let run := fun (s : State) (ids : List (Option Nat)) =>
          (s.setJet k { s.jet k with holds := .batch c sq, teams := batchTeams j d ids, last := s.clk.stm
                                     origin := j.home.getD 0 }).jaSync
        match j.batches.findIdx? fun (b : Batch) => b.jet.isNone && b.outs.isNone with
        | some i =>
          let b : Batch := j.batches.getD i ⟨[], none, none⟩
          run (s.modJjob c sq fun j => { j with batches := j.batches.set i { b with jet := some k } }) b.ids
        | none =>
          let n := min 48 (d.count - j.vpos)
          if n = 0 then s
          else
            let ranges := if d.flags.testBit 0 then [(d.index + (d.first + j.vpos) * d.indexSize, n * d.indexSize)] else []
            match s.rangesStop c false ranges with
            | some (st, g) => s.jetFault c sq ⟨st, g, 32 * j.drawNo + 8⟩
            | none =>
              let s := s.touchRanges ranges
              let ids := s.vertexIds host d j.vpos n
              if ids.all (·.isNone) then
                s.modJjob c sq fun j => JetJob.settleBatches { j with vpos := j.vpos + n, batches := j.batches ++ [⟨ids, none, some []⟩] } 64
              else
                run (s.modJjob c sq fun j => { j with vpos := j.vpos + n, batches := j.batches ++ [⟨ids, some k, none⟩] }) ids
    | _, _ => s

def execVertexBatch (ctx : Fin 1024) (sq : Nat) (host : List (Nat × Byte)) (s : State) :
    Host.Outcome State Fault Refusal := .next (s.vertexBatch ctx.val sq host)

/-! ### Binning (R202–R204) -/

/-- Bytes of a primitive record (Table 8.8). -/
def recordSize (varyings : Nat) : Nat := 64 + 64 * ((12 * varyings + 63) / 64)

/-- The bytes of a primitive record: three positions with 1/w, draw index, entry, facing, and the varyings of its vertices. -/
def Prim.bytes (p : Prim) (varyings : Nat) : List Byte :=
  let v := fun i => p.vs.getD i {}
  let pos := (List.range 3).flatMap fun i => leBytes 4 (v i).x ++ leBytes 4 (v i).y ++ leBytes 4 (v i).z ++ leBytes 4 (v i).iw
  let vary := (List.range 3).flatMap fun i => (List.range varyings).flatMap fun k => leBytes 4 ((v i).vary.getD k 0)
  let b := pos ++ leBytes 4 p.drawNo ++ leBytes 1 p.draw.entry ++ leBytes 1 (b2n p.front) ++ List.replicate 10 0 ++ vary
  b ++ List.replicate (recordSize varyings - b.length) 0

/-- The head of tile `t`. -/
def JetJob.head (j : JetJob) (t : Nat) : TroughHead := spGet (fun _ => {}) j.heads t

/-- An entry needs a new chunk for a tile (R203). -/
def TroughHead.opens (h : TroughHead) : Bool := decide (2 ≤ h.entries.length) && (h.entries.length - 2) % 15 == 0

/-- A bin entry (Table 8.8). -/
def binEntry (prim : Nat) (whole : Bool) : Nat := prim % 2 ^ 24 + b2n whole * 2 ^ 24

/-- Append an entry to a tile's list, in the state and in the trough. -/
def State.appendEntry (s : State) (c sq prim : Nat) (tw : Nat × Bool) : State :=
  match s.jjob c sq with
  | none => s
  | some j =>
    let base := s.ja.force.base.getD (j.home.getD 0) 0 * 65536
    let h := j.head tw.1
    let n := h.entries.length
    let at0 := base + 256 + 16 * tw.1
    let chunks := if h.opens then h.chunks ++ [j.low / 64] else h.chunks
    let low := if h.opens then j.low + 64 else j.low
    let put := fun (s : State) a v => s.mergeWrite .basin a (leBytes 4 v)
    let s1 := put s at0 (n + 1)
    let s2 := if h.opens then
        let s' := s1.write .basin (base + j.low / 64 * 64) (List.replicate 64 0)
        if h.chunks.isEmpty then put s' (at0 + 4) (j.low / 64) else put s' (base + 64 * h.chunks.getLastD 0) (j.low / 64)
      else s1
    let s3 := if n < 2 then put s2 (at0 + 8 + 4 * n) (binEntry prim tw.2)
      else put s2 (base + 64 * chunks.getLastD 0 + 4 + 4 * ((n - 2) % 15)) (binEntry prim tw.2)
    s3.modJjob c sq fun j => { j with
      low := low, heads := spSet (fun _ => {}) j.heads tw.1 ⟨h.entries ++ [(prim, tw.2)], chunks⟩ }

/-- Byte ranges of Basin that hold a tile's head. -/
def State.headRange (s : State) (j : JetJob) (t : Nat) : Nat × Nat :=
  (s.ja.force.base.getD (j.home.getD 0) 0 * 65536 + 256 + 16 * t, 16)

/-- Byte ranges of Basin that hold a tile's bin list: its head, its chunks and the records of its primitives (Table 8.8). -/
def State.troughRanges (s : State) (j : JetJob) (t : Nat) : List (Nat × Nat) :=
  let n := j.home.getD 0
  let base := s.ja.force.base.getD n 0 * 65536
  let top := base + s.ja.force.size.getD n 0 * 65536
  let recB := recordSize j.pass.varyings
  let h := j.head t
  s.headRange j t :: h.chunks.map (fun k => (base + 64 * k, 64))
    ++ h.entries.map fun e => (top - recB * (e.1 + 1), recB)

/-- The first uncorrectable word of byte ranges of Basin. -/
def State.troughBadWord (s : State) (l : List (Nat × Nat)) : Option Nat :=
  l.findSome? fun r => s.poisonIn (basinAddr r.1) r.2

/-- Place a primitive, or run a spill pass (R203, R204). The binner reads the heads of its tiles: a poisoned one ends the job
(R170). -/
def State.place (s : State) (c sq : Nat) (p : Prim) : State :=
  match s.jjob c sq with
  | none => s
  | some j =>
    let tiles := j.pass.overlapped p
    let recB := recordSize j.pass.varyings
    let need := recB + 64 * (tiles.filter fun t => (j.head t.1).opens).length
    match s.troughBadWord (tiles.map fun t => s.headRange j t.1) with
    | some g => s.jetFault c sq ⟨0x23, g, 0⟩
    | none =>
    if j.high - j.low < need ∨ j.prims.length = 2 ^ 24 then
      let n := j.home.getD 0
      let s1 := (s.count (Reg.JA_STR_SPILLS n) 31 0 1).recordNow 0x0627 [(16, c), (8, n), (32, j.round)]
      (s1.jaEvent 2).modJjob c sq fun j => { j with spilling := true, spills := j.spills + 1, spillSeq := s1.lastSeq }
    else
      let base := s.ja.force.base.getD (j.home.getD 0) 0 * 65536
      let k := j.prims.length
      let s1 := s.write .basin (base + j.high - recB) (p.bytes j.pass.varyings)
      let s2 := s1.modJjob c sq fun j => { j with high := j.high - recB, prims := j.prims ++ [p], pend := j.pend.drop 1 }
      s2.each (fun t s => s.appendEntry c sq k t) tiles

/-- Place the primitives ready at the front, until one does not fit. -/
def State.placeReady (s : State) (c sq : Nat) : Nat → State
  | 0 => s
  | n + 1 =>
    match s.jjob c sq with
    | some j => match j.spilling, j.pend with
      | false, .ready p :: _ => State.placeReady (s.place c sq p) c sq n
      | _, _ => s
    | none => s

/-- BIN_PRIMITIVE (R199 steps 2 to 5, R203): the oldest assembled primitive is clipped, mapped, culled and placed. -/
def State.binPrimitive (s : State) (c sq : Nat) : State :=
  match s.jjob c sq with
  | none => s
  | some j =>
    if j.phase ≠ 2 ∨ j.spilling then s
    else match j.pend with
      | .raw vs dn id d :: rest =>
        let ps := j.pass.process vs dn id d
        (s.modJjob c sq fun j => { j with pend := ps.map Pend.ready ++ rest }).placeReady c sq 8
      | .ready _ :: _ => s.placeReady c sq 8
      | [] => s

def execBinPrimitive (ctx : Fin 1024) (sq : Nat) (s : State) : Host.Outcome State Fault Refusal :=
  .next (s.binPrimitive ctx.val sq)

/-! ### Write-out (R206, R207) -/

/-- Malformed blocks met by a job: one record per surface (R186). -/
def State.noteMalformed (s : State) (c sq : Nat) (l : List (Nat × Nat)) : State :=
  s.each (fun m s => match s.jjob c sq with
    | some j => if j.malformed.contains m.1 then s
      else (s.modJjob c sq fun j => { j with malformed := m.1 :: j.malformed }).offer 0x062C [(16, c), (32, m.2)]
    | none => s) l

/-- A tile's write-out in whole: refused writes end the job (R97), and otherwise data, then headers, are written and the tile
counts as written; a write that meets an uncorrectable word in part ends the job after the others (R171). -/
def State.writeTile (s : State) (host : List (Nat × Byte)) (c sq t : Nat) (buf : List (Nat × Nat)) (dirty : List Nat)
    (skipLoaded : Bool) : State :=
  match s.jjob c sq with
  | none => s
  | some j =>
    let rows := j.rowWrites t buf skipLoaded
    let (data, hdrs) := s.blockWrites host j t buf dirty skipLoaded
    let all := data ++ rows ++ hdrs
    match s.runsRefused c all with
    | some d => s.jetFault c sq ⟨0x20, d, 0⟩
    | none =>
      match s.jobRuns c all with
      | (s1, some w) => s1.faultJob c sq 0x23 (eccGran w) 0
      | (s1, none) => s1.modJjob c sq fun j => { j with written := j.written ++ [t] }

/-- The write-out unit handles an empty tile by itself (R206). -/
def State.emptyTile (s : State) (host : List (Nat × Byte)) (c sq t : Nat) : State :=
  match s.jjob c sq with
  | none => s
  | some j =>
    let needs := j.pass.atts.any fun na => j.loadOp na.2 == 0 && j.resolves na.2
    let (rs, bad) := if needs then s.loadRanges host j t else ([], [])
    match s.rangesStop c false rs with
    | some (st, d) => s.jetFault c sq ⟨st, d, 0⟩
    | none =>
      let s := s.touchRanges rs
      let buf := if needs then s.loadTile host j t
        else s.loadTile host { j with pass := { j.pass with
          depth := j.pass.depth.map fun a => if j.loadOp a = 0 then { a with load := 2 } else a
          colours := j.pass.colours.map fun a => if j.loadOp a = 0 then { a with load := 2 } else a }, round := 0 } t
      (s.noteMalformed c sq bad).writeTile host c sq t buf [] true

/-- GEOMETRY_PHASE_END (R206): the round's tiles are pushed in row-major order, and empty tiles go to the write-out unit. -/
def State.geometryEnd (s : State) (c sq : Nat) (host : List (Nat × Byte)) : State :=
  match s.jjob c sq with
  | none => s
  | some j =>
    if j.phase = 2 ∧ (j.spilling ∨ (j.drw.isNone ∧ j.pass.draws ≤ j.drawNo ∧ j.pend.isEmpty)) then
      let ts := List.range j.total
      let full := ts.filter fun t => !(j.head t).entries.isEmpty
      let s1 := s.modJjob c sq fun j => { j with phase := 3, todo := full }
      let s2 := s1.each (fun t s => s.emptyTile host c sq t) (ts.filter fun t => (j.head t).entries.isEmpty)
      ((s2.feed (j.home.getD 0)).renderCheck c sq).jaSync
    else s

def execGeometryPhaseEnd (ctx : Fin 1024) (sq : Nat) (host : List (Nat × Byte)) (s : State) :
    Host.Outcome State Fault Refusal := .next (s.geometryEnd ctx.val sq host)

/-- ROUND_END (R204 steps 3 and 4): once every tile of a spilled round is written, the next round begins. -/
def State.roundEnd (s : State) (c sq : Nat) : State :=
  match s.jjob c sq with
  | none => s
  | some j =>
    if j.spilling ∧ j.roundDone then
      ((s.modJjob c sq fun j => { j with round := j.round + 1 }).startRound c sq).jaSync
    else s

def execRoundEnd (ctx : Fin 1024) (sq : Nat) (s : State) : Host.Outcome State Fault Refusal := .next (s.roundEnd ctx.val sq)

/-! ### Pixel teams (R221, R249, Table 9.1) -/

/-- The entry that a tile's primitive runs. -/
def Prim.pixelEntry (p : Prim) : Nat := 2 * p.draw.entry + 1
def JetJob.entryOf (j : JetJob) (n : Nat) : Entry := j.prog.entries.getD n {}

/-- The depth test runs early (R249). -/
def Entry.early (e : Entry) : Bool := !e.flags.testBit 0 && !e.flags.testBit 1

/-- Teams of an entry that one jet holds. -/
def Entry.residents (e : Entry) : Nat := min 16 (1024 / max 1 e.vregs)

/-- Pixel of lane i of a quad, and the tile-buffer position of its sample k. -/
def Quad.pixel (q : Quad) (i : Nat) : Nat × Nat := (q.x + i % 2, q.y + i / 2)

/-- Two quads share a covered sample. -/
def Quad.shares (a b : Quad) : Bool :=
  a.x == b.x && a.y == b.y && (List.zipWith (fun m n => m &&& n) a.cov b.cov).any (· != 0)

/-- One sample's depth test and depth write against a tile buffer (R249): the buffer after, and whether it passes. -/
def JetJob.depthSample (j : JetJob) (p : Prim) (o : Nat × Nat) (xy : Nat × Nat) (k zbits : Nat)
    (buf : List (Nat × Nat)) : List (Nat × Nat) × Bool :=
  match j.pass.depth with
  | none => (buf, true)
  | some a =>
    let key := tileKey 8 j.pass.samples (xy.1 - o.1) (xy.2 - o.2) k
    let old := spGet (fun _ => 0) buf key
    let oldBits := if a.fmt = 0x80 then bitsOf old 15 0 else if a.fmt = 0x81 then bitsOf old 23 0 else bitsOf old 31 0
    let pass := !p.draw.flags.testBit 2 || depthTest a.fmt p.draw.func zbits oldBits
    (if pass ∧ p.draw.flags.testBit 3 then spSet (fun _ => 0) buf key (depthPut a.fmt old zbits) else buf, pass)

/-- The depth of a primitive at a sample, as bits of the depth format. -/
def JetJob.zAt (j : JetJob) (p : Prim) (xy : Nat × Nat) (k : Nat) : Nat :=
  let s := (samplePos j.pass.samples).getD k (128, 128)
  let z := p.depthAt (((256 * xy.1 + s.1 : Nat) : Int), ((256 * xy.2 + s.2 : Nat) : Int))
  match j.pass.depth with
  | some a => depthBits a.fmt z
  | none => z

/-- The early test of a quad: the buffer, the quad's coverage after it, and the keys of depth written. -/
def JetJob.earlyQuad (j : JetJob) (p : Prim) (o : Nat × Nat) (q : Quad) (buf : List (Nat × Nat)) : List (Nat × Nat) × Quad :=
  let step := fun (acc : List (Nat × Nat) × List Nat) (i : Nat) =>
    let xy := q.pixel i
    let (buf, m) := (List.range j.pass.samples).foldl (fun (a : List (Nat × Nat) × Nat) k =>
      if (q.cov.getD i 0).testBit k then
        let (b, ok) := j.depthSample p o xy k (j.zAt p xy k) a.1
        (b, if ok then a.2 + 2 ^ k else a.2)
      else a) (acc.1, 0)
    (buf, acc.2 ++ [m])
  let (buf', cov) := (List.range 4).foldl step (buf, [])
  (buf', { q with cov := cov })

/-- The quads of a per_sample entry: one for each covered sample of a quad. -/
def JetJob.splitQuad (j : JetJob) (q : Quad) : List Quad :=
  (List.range j.pass.samples).filterMap fun k =>
    let cov := q.cov.map fun m => m &&& 2 ^ k
    if cov.all (· == 0) then none else some { q with sample := k, cov := cov }

/-- Keys of depth elements that differ between two buffers. -/
def changedKeys (a b : List (Nat × Nat)) : List Nat :=
  (b.filter fun e => spGet (fun _ => 0) a e.1 != e.2).map (·.1)

/-- Lowest free team slot of a jet. -/
def Jet.freeSlot (j : Jet) : Option Nat := (List.range 16).find? fun n => !(j.teams.any fun t => t.1 == n)

/-- Launch pixel teams while there is room and work: primitives in bin order, up to 4 quads of one primitive a team (those of
4 / S pixel quads in a per_sample entry), and a
primitive with an early test waits for a resident team with a late test that shares a sample (R201, R249). -/
def State.launch (s : State) (n : Nat) : Nat → State
  | 0 => s
  | fuel + 1 =>
    let jet := s.jet n
    match jet.holds with
    | .tile t =>
      match s.jjob t.item.ctx t.item.sq with
      | none => s
      | some j =>
        if t.quads.isEmpty then
          match t.prims with
          | [] => s
          | k :: ks =>
            let p := j.prims.getD k {}
            State.launch (s.setJet n { jet with holds := .tile { t with
              prims := ks, cur := k, quads := j.pass.quads p t.item.idx } }) n fuel
        else
          let p := j.prims.getD t.cur {}
          let en := p.pixelEntry
          let e := j.entryOf en
          match jet.freeSlot with
          | none => s
          | some slot =>
            if e.residents ≤ jet.teams.length then s
            else
              let per := e.flags.testBit 2
              let room := if per then 4 / j.pass.samples else 4
              let qs := t.quads.take room
              let blocked := e.early && jet.teams.any fun u =>
                !(j.entryOf u.2.entry).early && u.2.quads.any fun a => qs.any a.shares
              if blocked then s
              else
                let o := j.pass.origin t.item.idx
                let (buf, qs') := if e.early then qs.foldl (fun (acc : List (Nat × Nat) × List Quad) q =>
                    let (b, q') := j.earlyQuad p o q acc.1
                    (b, acc.2 ++ [q'])) (t.buf, []) else (t.buf, qs)
                let whole := (qs'.filter fun q => q.cov.any (· != 0)).map fun q => { q with all := q.cov }
                let live := if per then whole.flatMap j.splitQuad else whole
                let run := { t with quads := t.quads.drop room, buf := buf, dirty := changedKeys t.buf buf ++ t.dirty }
                let team : Team := { stage := 2, entry := en, pc := e.start, present := 2 ^ (4 * live.length) - 1,
                                     prim := t.cur, quads := live }
                let teams := if live.isEmpty then jet.teams else jet.teams ++ [(slot, team)]
                State.launch (s.setJet n { jet with holds := .tile run, teams := teams }) n fuel
    | _ => s

/-- Enough rounds of launching for a tile's remaining work. -/
def State.refill (s : State) (n : Nat) : State :=
  match (s.jet n).holds with
  | .tile t => s.launch n (2 * t.prims.length + 300 * (t.prims.length + 1))
  | _ => s

/-! ### Retirement of a jet (R271–R276) -/

/-- Items return to the front of the queue they were dispatched from (Table 10.4). -/
def State.requeue (s : State) (n : Nat) (is : List Item) : State :=
  let q := s.serves n
  s.setStr q { s.str q with queue := is ++ (s.str q).queue }

/-- What a retirement does to what the jet holds (Table 10.4). -/
def State.dropHeld (s : State) (k : Nat) : State :=
  let jet := s.jet k
  let s1 := s.setJet k { jet with holds := .nothing, teams := [], preempt := none, lent := none, icache := [] }
  match jet.holds with
  | .nothing => s1
  | .tile t => s1.requeue jet.origin [t.item]
  | .batch c sq => s1.modJjob c sq fun j => { j with
      batches := j.batches.map fun b => if b.jet = some k ∧ b.outs.isNone then { b with jet := none } else b }
  | .groups c sq ws =>
    let back := (ws.filter fun w => !w.wrote).map fun w => (⟨c, sq, false, w.idx, 0⟩ : Item)
    (s1.requeue jet.origin back).modJjob c sq fun j => { j with
      lost := j.lost ++ (ws.filter fun w => w.wrote).map fun w => w.idx }

/-- A string with no live jet goes dry, and its queue moves to the front of the string that serves it (R212). -/
def State.dryCheck (s : State) (n : Nat) : State :=
  if (s.str n).dry || decide (0 < s.liveIn n) then s
  else
    let q := (s.str n).queue
    let s1 := s.setStr n { s.str n with dry := true, queue := [] }
    let m := s1.serves n
    if m = n then s1.setStr n { s1.str n with queue := q }
    else (s1.setStr m { s1.str m with queue := q ++ (s1.str m).queue }).offer 0x0622 [(8, n), (8, m)]

/-- The job whose last workgroup is retired or lost ends (R254, R274). -/
def State.computeCheck (s : State) (c sq : Nat) : State :=
  match s.jjob c sq with
  | some j => if !j.render ∧ j.phase = 5 ∧ j.total ≤ j.written.length + j.lost.length then s.jetsDone j else s
  | none => s

/-- Every jets job that runs or waits ends FAULT_TIMEOUT once no jet is live (R276). -/
def State.deadCheck (s : State) : State :=
  if s.liveJets = 0 then
    s.each (fun j s => match s.job j.ctx j.sq with
      | some k => s.faultJob j.ctx j.sq 0x22 (s.ranNs j.ctx k / 1000000) 0
      | none => s) (s.ja.jobs.filter fun j => decide (1 ≤ j.phase))
  else s

/-- A jet is retired (R271, R272, R274, R275); `job` is the job of the half in which the write-out unit found the error. -/
def State.retireJet (s : State) (k cause : Nat) (job : Option (Nat × Nat)) : State :=
  if (s.jet k).retired then s
  else
    let held := (s.jet k).holds.job
    let mine := held.orElse fun _ => job
    let jobs := held.toList ++ (job.toList.filter fun q => some q != held)
    let s1 := s.setJet k { s.jet k with retired := true }
    let s2 := if k < 32 then s1.setBit Reg.JA_HEALTH_LO k true else s1.setBit Reg.JA_HEALTH_HI (k - 32) true
    let s3 := s2.dropHeld k
    let s4 := s3.recordNow 0x0620 [(8, k), (8, cause), (16, (mine.map (·.1)).getD 0x3FF)]
    let s5 := s4.each (fun q s => s.modJjob q.1 q.2 fun j => { j with
      unitRetired := true, retiredSeq := some (j.retiredSeq.getD s4.lastSeq) }) jobs
    let s6 : State := ((s5.jaEvent 0).setFld Reg.JA_FAIL 17 16 cause).setFld Reg.JA_FAIL 5 0 k
    let s7 := if decide (s6.liveJets < 56) && !s6.bit Reg.JA_STATUS 30 then
        ((s6.setBit Reg.JA_STATUS 30 true).offer 0x0621 [(32, s6.liveJets)]).jaEvent 1 else s6
    let s8 := (s7.dryCheck (k / 8)).deadCheck
    (s8.each (fun q s => s.computeCheck q.1 q.2) jobs).jaSync

/-! ### Dispatch (R210, R211, R222) -/

/-- Workgroups of a job that one jet holds (R222). -/
def JetJob.perJet (j : JetJob) : Nat :=
  let e := j.entryOf 0
  let a := min (16 / max 1 e.teams) (1024 / max 1 (e.vregs * e.teams))
  if e.shared = 0 then a else min a (131072 / e.shared)

/-- A jet may take this item now: a tile needs an idle jet with a free half; a workgroup a jet that holds workgroups of the same
job with room, or is idle, and whose halves the write-out unit has released (R207, R222). -/
def State.mayTake (s : State) (k : Nat) (i : Item) : Bool :=
  let jet := s.jet k
  if i.tile then s.jetIdle k
  else !jet.retired && (jet.preempt.bind (·.arrived)).isNone && s.halves k == 0 &&
    (match jet.holds, s.jjob i.ctx i.sq with
    | .nothing, some _ => true
    | .groups c sq ws, some j => c == i.ctx && sq == i.sq && decide (ws.length < j.perJet)
    | _, _ => false)

/-- Free team slots. -/
def Jet.freeSlots (j : Jet) : List Nat := (List.range 16).filter fun n => !(j.teams.any fun t => t.1 == n)

/-- A jet starts an item that came from the queue of string `n` (R210, Table 8.9): a tile is loaded, a workgroup's teams start
with fresh registers (R224). A poisoned word of the bin list ends the job (R170); `tileBad` says that an early depth test of
the tile's first teams finds an uncorrectable error in the tile buffer, which retires the jet (Table 10.2). -/
def State.startItem (s : State) (host : List (Nat × Byte)) (k n : Nat) (i : Item) (tileBad : Bool) : State :=
  match s.jjob i.ctx i.sq with
  | none => s
  | some j =>
    let s0 := s.setReg (Reg.JA_STR_ITEMS (k / 8)) (s.reg (Reg.JA_STR_ITEMS (k / 8)) + 1)
    let jet := s0.jet k
    if i.tile then
      let (rs, bad) := s0.loadRanges host j i.idx
      let stop := ((s0.troughBadWord (s0.troughRanges j i.idx)).map fun g => (0x23, g)).orElse fun _ =>
        s0.rangesStop i.ctx false rs
      match stop with
      | some (st, d) => s0.jetFault i.ctx i.sq ⟨st, d, 0⟩
      | none =>
        let s1 := (s0.touchRanges rs).noteMalformed i.ctx i.sq bad
        let run : TileRun := { item := i, prims := (j.head i.idx).entries.map (·.1), buf := s1.loadTile host j i.idx }
        let s2 := (s1.setJet k { jet with holds := .tile run, teams := [], origin := n, last := s.clk.stm }).refill k
        if tileBad && j.pass.depth.isSome then s2.retireJet k 1 none else s2
    else
      let e := j.entryOf 0
      let old := match jet.holds with
        | .groups _ _ ws => ws
        | _ => []
      let teams := (List.range e.teams).map fun t =>
        (jet.freeSlots.getD t 0, { stage := 3, entry := 0, pc := e.start, present := 65535, no := t, wg := i.idx : Team })
      s0.setJet k { jet with
        holds := .groups i.ctx i.sq (old ++ [{ idx := i.idx, start := s.clk.stm }])
        teams := jet.teams ++ teams, origin := n, last := s.clk.stm }

/-- The jet that the oldest item of string `n` goes to: the lowest own jet that may take it, then a jet lent to its job. -/
def State.takerOf (s : State) (n : Nat) (i : Item) : Option Nat :=
  let own := ((List.range 8).map (8 * n + ·)).filter fun k =>
    (s.jet k).lent.isNone && s.mayTake k i && ((s.str n).resume.isEmpty || (s.jet k).holds != .nothing)
  let home := (s.jjob i.ctx i.sq).bind (·.home)
  let lent := (List.range 64).filter fun k => (s.jet k).lent == some (i.ctx, i.sq) && s.mayTake k i
  (own ++ (if home.map s.serves == some n then lent else [])).head?

/-- DISPATCH (R210): one dispatch, then the pushes of every home that this queue serves. -/
def State.dispatch (s : State) (n : Nat) (host : List (Nat × Byte)) (tileBad : Bool) : State :=
  let s1 := match (s.str n).queue with
    | i :: is =>
      match s.takerOf n i with
      | some k => (s.setStr n { s.str n with queue := is }).startItem host k n i tileBad
      | none => s
    | [] => s
  (s1.each (fun m s => if s.serves m = n then s.feed m else s) (List.range 8)).jaSync

def execDispatch (str : Fin 8) (host : List (Nat × Byte)) (s : State) (tileBad : Bool := false) : Host.Outcome State Fault Refusal :=
  .next (if s.jaOn then s.dispatch str.val host tileBad else s)

/-- The victim of a steal for string `n` (R211): held queues first, then the largest, ties to the first found. -/
def State.victim (s : State) (n : Nat) : Option Nat :=
  let pick := fun (best : Option Nat × Nat) (i : Nat) =>
    let v := (n + i) % 8
    let q := (s.str v).queue.length
    let key := b2n (s.heldStr v) * 1024 + q
    if (s.heldStr n && !s.heldStr v) || decide (q < 2) || decide (key ≤ best.2) then best else (some v, key)
  ((List.range 7).map (· + 1)).foldl pick (none, 0) |>.1

/-- SIPHON_STEAL (R33, R211). -/
def State.steal (s : State) (k : Nat) (host : List (Nat × Byte)) (tileBad : Bool) : State :=
  let n := k / 8
  if !s.jaOn || !s.bit Reg.JA_SIPHON 0 || !s.jetIdle k || (s.jet k).lent.isSome || !(s.str n).queue.isEmpty
      || !(s.str n).resume.isEmpty || (s.str n).dry then s
  else match s.victim n with
    | none => s
    | some v =>
      let q := (s.str v).queue
      let m := q.length / 2
      let s1 := (s.setStr v { s.str v with queue := q.take (q.length - m) }).setStr n { s.str n with
        queue := q.drop (q.length - m) }
      let s2 := (s1.setReg (Reg.JA_STR_STEALS_IN n) (s.reg (Reg.JA_STR_STEALS_IN n) + 1)).setReg (Reg.JA_STR_STEALS_OUT v)
        (s.reg (Reg.JA_STR_STEALS_OUT v) + 1)
      match (s2.str n).queue with
      | i :: is =>
        if s2.mayTake k i then ((s2.setStr n { s2.str n with queue := is }).startItem host k n i tileBad).jaSync else s2.jaSync
      | [] => s2.jaSync

def execSiphonSteal (jet : Fin 64) (host : List (Nat × Byte)) (s : State) (tileBad : Bool := false) :
    Host.Outcome State Fault Refusal := .next (s.steal jet.val host tileBad)

/-! ### Tiles (R207, R208, R273) -/

/-- A cause-1 error stops a tile's write-out after its first `rows` row writes: those rows stand; the tile is torn when a linear
attachment with effective load LOAD has received one, and otherwise is rendered again (R273). -/
def State.stopWriteOut (s : State) (k : Nat) (o : TileOut) (rows : Nat) : State :=
  let c := o.item.ctx
  let sq := o.item.sq
  match s.jjob c sq with
  | none => s
  | some j =>
    let t := o.item.idx
    let runs := (j.rowWrites t o.buf false).take rows
    let s1 := s.runs (s.ctxPaddock c) runs
    let r := j.pass.tileRect t
    let torn := j.pass.atts.any fun na =>
      na.2.layout == 0 && j.loadOp na.2 == 0 && j.stores na.2
        && runs.any fun w => decide (na.2.surf ≤ w.1) && decide (w.1 < na.2.surf + r.2.2.2 * na.2.stride)
    let s2 := if torn then
        let s' := s1.recordNow 0x0626 [(16, c), (32, t), (32, j.round)]
        s'.modJjob c sq fun j => { j with
          torn := if j.torn.contains t then j.torn else j.torn ++ [t], tornNow := j.tornNow ++ [t]
          written := j.written.filter (· != t), tornSeq := some (j.tornSeq.getD s'.lastSeq) }
      else s1.requeue o.origin [o.item]
    (s2.retireJet k 1 (some (c, sq))).renderCheck c sq

/-- TILE_RETIRE (Table 8.9 step 4, R207): the jet hands its half to its string's write-out unit. `fail` says that the unit's read
of the half finds an uncorrectable error after that many row writes. -/
def State.tileRetire (s : State) (k : Nat) (fail : Option Nat) : State :=
  let jet := s.jet k
  match jet.holds with
  | .tile t =>
    if !t.prims.isEmpty || !t.quads.isEmpty || !jet.teams.isEmpty || decide (2 ≤ s.halves k) then s
    else
      let o : TileOut := { jet := k, item := t.item, buf := t.buf, dirty := t.dirty, origin := jet.origin }
      let s1 := s.setJet k { jet with holds := .nothing, last := s.clk.stm }
      match fail with
      | some rows => s1.stopWriteOut k o rows
      | none => (s1.setStr (k / 8) { s1.str (k / 8) with out := (s1.str (k / 8)).out ++ [o] }).jaSync
  | _ => s

def execTileRetire (jet : Fin 64) (fail : Option Nat) (s : State) : Host.Outcome State Fault Refusal :=
  .next (s.tileRetire jet.val fail)

/-- TILE_WRITTEN (R207, R208): the oldest half that a write-out unit holds is written whole, or stopped after `fail` row
writes by an uncorrectable error in it (Table 10.4), which also takes the jet's next item off it. -/
def State.tileWritten (s : State) (n : Nat) (host : List (Nat × Byte)) (fail : Option Nat) : State :=
  match (s.str n).out with
  | [] => s
  | o :: os =>
    let c := o.item.ctx
    let sq := o.item.sq
    let s1 := s.setStr n { s.str n with out := os }
    match fail with
    | some rows => (s1.stopWriteOut o.jet o rows).jaSync
    | none => ((s1.writeTile host c sq o.item.idx o.buf o.dirty false).renderCheck c sq).jaSync

def execTileWritten (str : Fin 8) (host : List (Nat × Byte)) (s : State) (fail : Option Nat := none) :
    Host.Outcome State Fault Refusal := .next (s.tileWritten str.val host fail)

/-! ### Starts and enable -/

/-- RENDER_PASS (R209). -/
def execRenderPass (ctx : Fin 1024) (s : State) : Host.Outcome State Fault Refusal :=
  match s.toStart ctx.val 1 with
  | some j => .next (s.startJets ctx.val j)
  | none => .next s

/-- COMPUTE (R209). -/
def execCompute (ctx : Fin 1024) (s : State) : Host.Outcome State Fault Refusal :=
  match s.toStart ctx.val 2 with
  | some j => .next (s.startJets ctx.val j)
  | none => .next s

/-- HOME_STRING_ASSIGN (R209). -/
def execHomeStringAssign (s : State) : Host.Outcome State Fault Refusal := .next s.assignHomes

/-- The RL values written since come into force (R217). -/
def State.jaForce (s : State) : State :=
  { s with ja := { s.ja with force := {
      held := s.fld Reg.JA_HELD 2 0
      maxW := s.fld Reg.JA_MAX_TARGET 15 0
      maxH := s.fld Reg.JA_MAX_TARGET 31 16
      base := (List.range 8).map fun n => s.fld (Reg.JA_STR_TROUGH n) 10 0
      size := (List.range 8).map fun n => s.fld (Reg.JA_STR_TROUGH n) 26 16
      maxJets := s.fld Reg.JA_PREEMPT 4 0
      saveBase := s.fld Reg.JA_SAVE 10 0 * 65536
      saveSlots := s.fld Reg.JA_SAVE 26 16 * 65536 / 204800 } } }

/-- Jets that JA_PRERETIRE names are retired with cause 0 (R271). -/
def State.preretire (s : State) : State :=
  s.each (fun k s =>
    let named := if k < 32 then s.bit Reg.JA_PRERETIRE_LO k else s.bit Reg.JA_PRERETIRE_HI (k - 32)
    if named then s.retireJet k 0 none else s) (List.range 64)

/-- A write of JA_CTRL (Table 8.12, R217, R242). -/
def State.jaCtrl (s : State) (value : Nat) : State :=
  let on := value.testBit 0
  let s1 := s.setBit Reg.JA_CTRL 0 on
  if on then
    if s.jaOn then s1
    else
      let s2 := ((s1.ungate 10).jaForce.setBit Reg.JA_STATUS 31 true).preretire
      let s3 : State := { s2 with ja := { s2.ja with
        clkAcc := 0, clkAt := s2.clk.stm
        clkMhz := if s2.power = 2 then 0 else pointMhz (s2.fld Reg.PCR_JET_STATE 18 16) } }
      s3.assignHomes.jaSync
  else s1.jaDisable

def execJaCtrlWrite (value : Nat) (s : State) : Host.Outcome State Fault Refusal := .next (s.jaCtrl value)

/-- ICACHE_FILL (R228): a line of the job's code arrives at a jet that runs it; a refused or uncorrectable line ends the job. -/
def State.icacheFill (s : State) (k c sq line : Nat) (host : List (Nat × Byte)) : State :=
  match (s.jet k).holds.job, s.jjob c sq with
  | some (c', sq'), some j =>
    let n := min 64 (j.prog.codeBytes - 64 * line)
    if c' ≠ c ∨ sq' ≠ sq ∨ j.prog.codeBytes ≤ 64 * line then s
    else
      let a := j.prog.addr + j.prog.codeOff + 64 * line
      match s.rangesStop c false [(a, n)] with
      | some (st, d) => s.jetFault c sq ⟨st, d, j.prog.codeOff + 64 * line⟩
      | none =>
        let s := s.touchMem a n
        let jet := s.jet k
        let rest := jet.icache.filter fun l => !(l.1 == c && l.2.1 == sq && l.2.2.1 == line)
        s.setJet k { jet with icache := (c, sq, line, s.bufRead host a n) :: rest.take 255 }
  | _, _ => s

def execIcacheFill (jet : Fin 64) (ctx : Fin 1024) (sq line : Nat) (host : List (Nat × Byte)) (s : State) :
    Host.Outcome State Fault Refusal := .next (s.icacheFill jet.val ctx.val sq line host)

end Sys2Proof.Machine
end

