-- ==== Sys2Proof/Machine/JetIssue.lean ====
section
/-! DEFINITION. How a jet issues one instruction of a team (R219, R223, R232–R235): the fields of an instruction, which
operands each opcode takes, what is illegal, and reading and writing a team's registers. -/

namespace Sys2Proof.Machine

/-! ### Fields (Table 9.8) -/

/-- An instruction by its fields. -/
structure Ins where
  op : Nat
  gn : Bool
  g : Nat
  imm : Bool
  mod : Nat
  d : Nat
  a : Nat
  b : Nat
  c : Nat
  x : Nat
  imm32 : Nat
  deriving DecidableEq, Repr

/-- The fields of a 64-bit instruction. -/
def insOf (w : Nat) : Ins :=
  { op := bitsOf w 63 56, gn := w.testBit 55, g := bitsOf w 54 52, imm := w.testBit 51, mod := bitsOf w 50 48,
    d := bitsOf w 47 40, a := bitsOf w 39 32, b := bitsOf w 31 24, c := bitsOf w 23 16, x := bitsOf w 15 0,
    imm32 := bitsOf w 31 0 }

/-! ### What each opcode takes (Table 9.11) -/

/-- Kind of destination: none; v, s or discarded; p; s or discarded; a data source. -/
inductive Dst
  | none | vs | p | s | data
  deriving DecidableEq, Repr

/-- Kind of source: none; v, s, zero or (for b) the immediate; p; s; v. -/
inductive Src
  | none | gen | p | s | v
  deriving DecidableEq, Repr

/-- What an opcode takes: operands, form (0 either, 1 R, 2 I), mod values, stages (none listed: all), the kind of slot it
names (0 none, 1 buffer, 2 texture), and whether it is of class M, T or B. -/
structure OpSpec where
  dst : Dst := .none
  a : Src := .none
  b : Src := .none
  c : Src := .none
  form : Nat := 0
  mods : List Nat := [0]
  stages : List Nat := []
  slot : Nat := 0
  long : Bool := false
  deriving DecidableEq, Repr

/-- Table 9.11. -/
def opSpec (op : Nat) : Option OpSpec :=
  let all := [0, 1, 2, 3, 4, 5, 6, 7]
  let bin : OpSpec := { dst := .vs, a := .gen, b := .gen }
  let one : OpSpec := { dst := .vs, b := .gen }
  let tri : OpSpec := { dst := .vs, a := .gen, b := .gen, c := .gen, form := 1 }
  let tex : OpSpec := { dst := .vs, a := .gen, form := 1, slot := 2, long := true }
  let sizes := [0, 1, 2, 3, 4, 5, 6]
  match op with
  | 0x00 | 0x04 | 0x07 => some {}
  | 0x01 => some { form := 2, mods := [0, 1, 2, 3] }
  | 0x02 => some { dst := .s, form := 2 }
  | 0x03 => some { a := .s }
  | 0x05 => some { stages := [2] }
  | 0x06 => some { stages := [3] }
  | 0x10 => some one
  | 0x11 | 0x12 => some { bin with mods := [0, 4] }
  | 0x13 | 0x14 | 0x15 | 0x17 | 0x18 | 0x19 | 0x1A | 0x1B | 0x1C => some bin
  | 0x16 => some tri
  | 0x1D | 0x1E => some { bin with mods := [0, 1] }
  | 0x1F => some { one with mods := [0, 1, 2, 3] }
  | 0x20 | 0x21 | 0x22 | 0x24 | 0x25 => some { bin with mods := all }
  | 0x23 => some { tri with mods := all }
  | 0x26 | 0x27 => some { one with mods := all }
  | 0x30 | 0x31 | 0x33 | 0x34 => some { bin with mods := all }
  | 0x32 => some { tri with mods := all }
  | 0x40 | 0x41 | 0x42 | 0x43 | 0x44 | 0x45 | 0x46 => some { one with mods := all }
  | 0x50 | 0x51 | 0x52 | 0x53 | 0x55 | 0x56 => some { one with mods := [0, 1, 2, 3] }
  | 0x54 => some { bin with form := 1, mods := all }
  | 0x60 => some { dst := .p, a := .gen, b := .gen, mods := all }
  | 0x61 | 0x62 => some { dst := .p, a := .gen, b := .gen, mods := [0, 1, 2, 3, 4, 5] }
  | 0x63 | 0x64 | 0x65 => some { dst := .p, a := .p, b := .p, form := 1 }
  | 0x66 => some { dst := .p, b := .p, form := 1 }
  | 0x67 => some { dst := .vs, a := .gen, b := .gen, c := .p, form := 1 }
  | 0x68 => some { dst := .s, a := .p, form := 1 }
  | 0x69 => some { dst := .p, b := .gen }
  | 0x70 => some { dst := .vs, a := .gen, b := .gen, mods := [0, 1, 2, 3] }
  | 0x71 | 0x72 => some { dst := .vs, a := .gen, form := 1, stages := [2] }
  | 0x73 => some { dst := .s, a := .v, form := 1, mods := [0, 1, 2, 3, 4, 5] }
  | 0x74 => some { dst := .s, a := .v, b := .gen }
  | 0x75 => some { dst := .vs, form := 1 }
  | 0x80 => some { dst := .vs, a := .gen, mods := sizes, slot := 1, long := true }
  | 0x81 => some { dst := .data, a := .gen, mods := sizes, stages := [3], slot := 1, long := true }
  | 0x82 => some { tri with mods := all, stages := [3], slot := 1, long := true }
  | 0x83 => some { dst := .vs, a := .gen, mods := sizes, long := true }
  | 0x90 => some { dst := .vs, a := .gen, mods := sizes, stages := [3], long := true }
  | 0x91 => some { dst := .data, a := .gen, mods := sizes, stages := [3], long := true }
  | 0x92 => some { tri with mods := all, stages := [3], long := true }
  | 0xA0 | 0xA2 | 0xA4 => some { tex with stages := [2] }
  | 0xA1 | 0xA3 | 0xA5 => some tex
  | 0xA6 => some { dst := .vs, b := .gen, form := 1, slot := 2, long := true }
  | 0xB0 => some { dst := .vs, a := .gen, form := 1, stages := [2], long := true }
  | 0xB1 => some { dst := .data, a := .gen, form := 1, stages := [2], long := true }
  | 0xC0 => some { dst := .vs, form := 1, mods := [0, 1, 2, 3, 4], stages := [2] }
  | 0xD0 => some { b := .gen, form := 1, stages := [1] }
  | 0xD1 => some { b := .gen, stages := [2] }
  | _ => none

/-- BIT with mod 3 takes three operands in the R-form. -/
def Ins.spec (i : Ins) : Option OpSpec :=
  if i.op = 0x1F ∧ i.mod = 3 then some { dst := .vs, a := .gen, b := .gen, c := .gen, form := 1, mods := [3] } else opSpec i.op

/-- Bytes of a memory access by mod (R243). -/
def accessBytes (mod : Nat) : Nat :=
  match mod with
  | 0 | 5 => 1
  | 1 | 6 => 2
  | 3 => 8
  | 4 => 16
  | _ => 4

/-- The attachment that TBLD and TBST name, and the raw flag (R247). -/
def Ins.att (i : Ins) : Nat := i.x % 16
def Ins.raw (i : Ins) : Bool := i.x.testBit 4

/-- Consecutive registers of the destination or data source. -/
def Ins.nd (p : Pass) (i : Ins) : Nat :=
  match i.op with
  | 0x80 | 0x81 | 0x83 | 0x90 | 0x91 => (accessBytes i.mod + 3) / 4
  | 0xA0 | 0xA1 | 0xA2 | 0xA3 | 0xA4 | 0xA5 => 4
  | 0xA6 => 3
  | 0xB0 | 0xB1 =>
    if i.att = 9 then 1
    else if i.raw then (if fmtE ((p.att? i.att).getD {}).fmt = 8 then 2 else 1)
    else if i.att = 8 then 1 else 4
  | _ => 1

/-- Consecutive registers of operand a. -/
def Ins.na (i : Ins) : Nat :=
  match i.op with
  | 0xA0 => 2
  | 0xA1 | 0xA2 | 0xA4 | 0xA5 => 3
  | 0xA3 => 6
  | _ => 1

/-- The slot that an instruction names. -/
def Ins.slotNo (i : Ins) : Nat := if i.imm then i.imm32 % 256 else i.x % 256

/-! ### Legality (R233, R234) -/

def isV (c : Nat) : Bool := decide (c < 0x80)
def isS (c : Nat) : Bool := decide (0x80 ≤ c ∧ c < 0xC0)
def isP (c : Nat) : Bool := decide (0xC0 ≤ c ∧ c < 0xC8)
def isZero (c : Nat) : Bool := c == 0xF1

/-- An operand code, over `n` registers, that is not allowed: reason 2 when the code is reserved, and otherwise 4. -/
def codeBad (vregs n c : Nat) (v s p z : Bool) : Option Nat :=
  if !(isV c || isS c || isP c || isZero c) then some 2
  else if isV c then (if v && decide (c + n ≤ vregs) then none else some 4)
  else if isS c then (if s && decide (c + n ≤ 0xC0) then none else some 4)
  else if isP c then (if p then none else some 4)
  else if z then none else some 4

/-- A source of kind `k` that is not allowed: a scalar instruction reads no v and no p register (R233). -/
def srcBad (vregs n c : Nat) (scalar : Bool) : Src → Option Nat
  | .none => none
  | .gen => codeBad vregs n c (!scalar) true false true
  | .p => (codeBad vregs n c false false true false).orElse fun _ => if scalar then some 4 else none
  | .s => codeBad vregs n c false true false false
  | .v => codeBad vregs n c true false false false

/-- A destination of kind `k` that is not allowed. -/
def dstBad (vregs n c : Nat) : Dst → Option Nat
  | .none => none
  | .vs | .data => codeBad vregs n c true true false true
  | .p => codeBad vregs n c false false true true
  | .s => codeBad vregs n c false true false true

/-- A special register: whether it is a vector register; none for a reserved number (Table 9.13). -/
def srgVector (r : Nat) : Option Bool :=
  if r = 0x00 ∨ r = 0x0A ∨ r = 0x0B ∨ (0x0F ≤ r ∧ r ≤ 0x13) then some true
  else if r ≤ 0x15 then some false else none

/-- The target of a branch: next + imm32, signed (R236). -/
def branchTo (pc imm : Nat) : Int := (pc : Int) + 1 + signedOf 32 imm

/-- The first of several reasons, a reserved field before the others. -/
def firstReason (l : List (Option Nat)) : Option Nat :=
  if l.contains (some 2) then some 2 else if l.contains (some 4) then some 4 else none

/-- What makes an instruction of a team illegal (R234): reason 2 or 4, or none. `ret` is the value of operand a of RET. -/
def illegal (j : JetJob) (e : Entry) (pc ret : Nat) (i : Ins) : Option Nat :=
  match i.spec with
  | none => some 2
  | some sp =>
    let scalar := isS i.d && (sp.dst == .vs || sp.dst == .s)
    let excused := [0x73, 0x74, 0x68, 0x75, 0x83].contains i.op
    let ifn := fun (c : Bool) (r : Nat) => if c then some r else none
    let code := (j.prog.codeBytes / 8 : Nat)
    let outside := fun (t : Int) => decide (t < 0) || decide ((code : Int) ≤ t)
    firstReason [
      ifn (!sp.mods.contains i.mod) 2,
      ifn ((sp.form == 1 && i.imm) || (sp.form == 2 && !i.imm)) 4,
      ifn (!sp.stages.isEmpty && !sp.stages.contains e.stage) 4,
      dstBad e.vregs (i.nd j.pass) i.d sp.dst,
      srcBad e.vregs i.na i.a (scalar && !excused || i.op == 0x83 && scalar) sp.a,
      (if i.imm then none else srcBad e.vregs 1 i.b (scalar || i.op == 0x74) sp.b),
      srcBad e.vregs 1 i.c scalar sp.c,
      ifn (scalar && !excused && (i.g != 0 || i.gn)) 4,
      ifn (i.op == 0x06 && (i.g != 0 || i.gn)) 4,
      (if sp.slot = 0 then none else match j.slots[i.slotNo]? with
        | some (.buffer w _ _) => ifn (sp.slot != 1 || ((i.op == 0x81 || i.op == 0x82) && !w)) 4
        | some (.texture _) => ifn (sp.slot != 2) 4
        | none => some 4),
      ifn ((i.op == 0x81 || i.op == 0x82) && !e.flags.testBit 3) 4,
      ifn (i.op == 0x05 && !e.flags.testBit 1) 4,
      ifn (i.op == 0xD1 && !e.flags.testBit 0) 4,
      ifn (i.op == 0xC0 && decide (3 ≤ i.mod) && !e.flags.testBit 2) 4,
      ifn ((i.op == 0x01 || i.op == 0x02) && outside (branchTo pc i.imm32)) 4,
      ifn (i.op == 0x03 && outside ret) 4,
      (if i.op = 0x75 then match srgVector (i.x % 256) with
        | none => some 2
        | some v => ifn (!isZero i.d && v != isV i.d) 4
      else none),
      ifn ((i.op == 0xB0 || i.op == 0xB1) && (
        (if i.att = 9 then !((j.pass.depth.map fun a => fmtStencil a.fmt).getD false) else (j.pass.att? i.att).isNone)
        || (i.op == 0xB1 && i.att == 8) || (e.flags.testBit 2 && !isZero i.a))) 4]

/-! ### Registers (R220–R224) -/

/-- Key of a register code for a lane. -/
def regKey (code lane : Nat) : Nat :=
  if isV code then 16 * code + lane else if isS code then 2048 + (code - 0x80) else 2112 + (code - 0xC0)

/-- Register `code` as lane `lane` sees it: v its own element, s and zero for every lane, p its bit. -/
def Team.rd (t : Team) (code lane : Nat) : Nat :=
  if isZero code then 0
  else if isP code then (if code = 0xC0 then 1 else spGet (fun _ => 0) t.regs (regKey code 0) / 2 ^ lane % 2)
  else spGet (fun _ => 0) t.regs (regKey code lane)

/-- A predicate register as a mask; p0 is all ones (R223). -/
def Team.pred (t : Team) (n : Nat) : Nat := if n = 0 then 65535 else spGet (fun _ => 0) t.regs (2112 + n)

/-- Operand a, b or c plus `k` registers; an I-form takes its immediate as b. -/
def Team.a (t : Team) (i : Ins) (k lane : Nat) : Nat := t.rd (if isZero i.a then i.a else i.a + k) lane
def Team.b (t : Team) (i : Ins) (lane : Nat) : Nat := if i.imm then i.imm32 else t.rd i.b lane
def Team.c (t : Team) (i : Ins) (lane : Nat) : Nat := t.rd i.c lane

/-- Lanes that pass the guard, and those of them that are present (R223). -/
def Team.guard (t : Team) (i : Ins) : Nat := if i.gn then 65535 - t.pred i.g else t.pred i.g
def Team.active (t : Team) (i : Ins) (lane : Nat) : Bool := t.present.testBit lane && (t.guard i).testBit lane

/-- The instruction writes an s register. -/
def Ins.scalar (i : Ins) : Bool := isS i.d

/-- Set one key of the team's registers. -/
def Team.setKey (t : Team) (k v : Nat) : Team := { t with regs := spSet (fun _ => 0) t.regs k v }
def Team.setKeys (t : Team) (l : List (Nat × Nat)) : Team := l.foldl (fun t e => t.setKey e.1 e.2) t

/-- The register writes of a result: `f lane` gives the words for d, d + 1, …; a vector instruction writes its active lanes,
a scalar one its s registers, and code 0xF1 discards (R223, Table 9.9). -/
def Team.results (t : Team) (i : Ins) (f : Nat → List Nat) : List (Nat × Nat) :=
  let one := fun lane => let l := f lane; (List.range l.length).map fun k => (regKey (i.d + k) lane, l.getD k 0 % 2 ^ 32)
  if isZero i.d then []
  else if i.scalar then one 0
  else ((List.range 16).filter (t.active i)).flatMap one

/-- Write a predicate destination: bit `f lane` in the active lanes; p0 discards (R223). -/
def Team.setPred (t : Team) (i : Ins) (f : Nat → Bool) : Team :=
  if !isP i.d || i.d == 0xC0 then t
  else
    let old := t.pred (i.d - 0xC0)
    t.setKey (regKey i.d 0) ((List.range 16).map fun l =>
      (if t.active i l then b2n (f l) else old / 2 ^ l % 2) * 2 ^ l).sum

/-- The register codes an instruction reads or writes. -/
def Ins.codes (i : Ins) (p : Pass) (sp : OpSpec) : List Nat :=
  let run := fun (c n : Nat) => (List.range n).map (c + ·)
  (if sp.dst = .none then [] else run i.d (i.nd p)) ++ (if sp.a = .none then [] else run i.a i.na)
    ++ (if sp.b = .none ∨ i.imm then [] else [i.b]) ++ (if sp.c = .none then [] else [i.c])
    ++ (if i.g = 0 then [] else [0xC0 + i.g])

/-! ### Issue (R219, R228, R235) -/

/-- The team in slot `n` of a jet. -/
def Jet.team (j : Jet) (n : Nat) : Option Team := (j.teams.find? fun t => t.1 == n).map (·.2)

/-- Change a team of a jet, which has now issued. -/
def State.setTeam (s : State) (k n : Nat) (t : Team) : State :=
  let j := s.jet k
  s.setJet k { j with teams := j.teams.map fun u => if u.1 = n then (n, t) else u, last := s.clk.stm }

/-- The team's next instruction, where its line is in the jet's instruction cache. -/
def Jet.fetch (j : Jet) (c sq pc : Nat) : Option Nat :=
  (j.icache.find? fun l => l.1 == c && l.2.1 == sq && l.2.2.1 == pc / 8).bind fun l =>
    let b := (l.2.2.2.drop (8 * (pc % 8))).take 8
    if b.length = 8 then some (ofLeBytes b) else none

/-- The team may issue: it has not ended, does not wait at a barrier, and its workgroup heads for no save (R255, R262). -/
def Jet.mayIssue (j : Jet) (t : Team) : Bool :=
  !t.ended && !t.waiting &&
    (match j.holds with
    | .groups _ _ ws => !(ws.any fun w => w.idx == t.wg && w.saving)
    | _ => true)

/-- An instruction waits: an earlier one in flight writes a register it names, or 16 of classes M, T and B are in flight. -/
def Team.hazard (t : Team) (i : Ins) (p : Pass) (sp : OpSpec) : Bool :=
  (t.flights.any fun f => f.codes.any (i.codes p sp).contains) || (sp.long && decide (16 ≤ t.flights.length))

/-- An illegal instruction ends its job (R234). -/
def State.illegalEnd (s : State) (j : JetJob) (t : Team) (reason : Nat) : State :=
  let s1 := s.offer 0x062B [(16, j.ctx), (8, t.entry), (32, t.pc)]
  s1.jetFault j.ctx j.sq ⟨0x21, reason * 256 + 0x10, j.prog.codeOff + 8 * t.pc⟩

/-- What a team's next instruction is when the jet may issue it now. -/
inductive Ready
  | no
  | fetchError
  | illegal (j : JetJob) (t : Team) (reason : Nat)
  | go (j : JetJob) (t : Team) (i : Ins)
  deriving DecidableEq, Repr

/-- Whether the team in slot `n` of jet `k` issues an instruction of opcode `op` now; `bad` says that its check bits fail at
issue (R228). An instruction with a reserved opcode issues with NOP, as illegal. -/
def State.ready (s : State) (k n op : Nat) (bad : Bool) : Ready :=
  let jet := s.jet k
  match jet.team n, jet.holds.job with
  | some t, some (c, sq) =>
    match s.jjob c sq, jet.fetch c sq t.pc with
    | some j, some w =>
      let i := insOf w
      if !s.jaOn || jet.retired || !jet.mayIssue t || !(i.op == op || (op == 0 && (opSpec i.op).isNone)) then .no
      else if bad then .fetchError
      else match i.spec with
        | none => .illegal j t 2
        | some sp =>
          if t.hazard i j.pass sp then .no
          else match illegal j (j.entryOf t.entry) t.pc (t.rd i.a 0) i with
            | some r => .illegal j t r
            | none => .go j t i
    | _, _ => .no
  | _, _ => .no

/-- One issue: `f` is the instruction's own effect. -/
def State.issue (s : State) (k n op : Nat) (bad : Bool) (f : JetJob → Team → Ins → State → State) : State :=
  match s.ready k n op bad with
  | .no => s
  | .fetchError => s.retireJet k 2 none
  | .illegal j t r => s.illegalEnd j t r
  | .go j t i => f j t i s

/-- The team goes on to its next instruction. -/
def Team.next (t : Team) : Team := { t with pc := t.pc + 1 }

/-- An instruction of class A, H or Q whose result each lane computes from its operands. -/
def State.issueAlu (s : State) (k n op : Nat) (bad : Bool) (f : Ins → Nat → Nat → Nat → Nat) : State :=
  s.issue k n op bad fun _ t i s =>
    s.setTeam k n (t.setKeys (t.results i fun l => [f i (t.a i 0 l) (t.b i l) (t.c i l)])).next

/-- An instruction that writes a predicate, bit by bit, from what each lane reads. -/
def State.issuePred (s : State) (k n op : Nat) (bad : Bool) (f : Ins → Team → Nat → Bool) : State :=
  s.issue k n op bad fun _ t i s => s.setTeam k n (t.setPred i (f i t)).next

/-- LOAD_DATA_RETURN (R235): the oldest or another read in flight returns and writes its registers. -/
def State.loadReturn (s : State) (k n idx : Nat) : State :=
  match (s.jet k).team n with
  | some t =>
    match t.flights[idx]? with
    | some f => s.setTeam k n { t.setKeys f.writes with flights := t.flights.eraseIdx idx }
    | none => s
  | none => s

def execLoadDataReturn (jet : Fin 64) (team : Fin 16) (idx : Fin 16) (s : State) : Host.Outcome State Fault Refusal :=
  .next (s.loadReturn jet.val team.val idx.val)

end Sys2Proof.Machine
end

