-- ==== Sys2Proof/Machine/JetAlu.lean ====
section
/-! DEFINITION. The jet instructions that compute from registers alone: control, integer, FP32, FP16x2, transcendental,
conversion, compare, predicate and lane instructions (groups 0x0 to 0x7 of Table 9.11). -/

namespace Sys2Proof.Machine

abbrev Out := Host.Outcome State Fault Refusal

/-! ### Integer group (R238) -/

/-- An exact integer result saturated to the signed range when sat is set, and otherwise wrapped (R238). -/
def intResult (i : Ins) (v : Int) : Nat :=
  if i.mod = 4 then toSigned 32 (max (-(2 ^ 31)) (min (2 ^ 31 - 1) v)) else toSigned 32 v

def aluMov (_ : Ins) (_ b _ : Nat) : Nat := b
def aluIadd (i : Ins) (a b _ : Nat) : Nat := intResult i (signedOf 32 a + signedOf 32 b)
def aluIsub (i : Ins) (a b _ : Nat) : Nat := intResult i (signedOf 32 a - signedOf 32 b)
def aluImul (_ : Ins) (a b _ : Nat) : Nat := a * b % 2 ^ 32
def aluImulhi (_ : Ins) (a b _ : Nat) : Nat := toSigned 32 (signedOf 32 a * signedOf 32 b / 2 ^ 32)
def aluUmulhi (_ : Ins) (a b _ : Nat) : Nat := a * b / 2 ^ 32
def aluImula (_ : Ins) (a b c : Nat) : Nat := (a * b + c) % 2 ^ 32
def aluAnd (_ : Ins) (a b _ : Nat) : Nat := a &&& b
def aluOr (_ : Ins) (a b _ : Nat) : Nat := a ||| b
def aluXor (_ : Ins) (a b _ : Nat) : Nat := a ^^^ b
def aluShl (_ : Ins) (a b _ : Nat) : Nat := a * 2 ^ (b % 32) % 2 ^ 32
def aluShr (_ : Ins) (a b _ : Nat) : Nat := a / 2 ^ (b % 32)
def aluSar (_ : Ins) (a b _ : Nat) : Nat := toSigned 32 (signedOf 32 a / 2 ^ (b % 32))
def aluMin (i : Ins) (a b _ : Nat) : Nat :=
  if i.mod = 1 then min a b else if signedOf 32 a ≤ signedOf 32 b then a else b
def aluMax (i : Ins) (a b _ : Nat) : Nat :=
  if i.mod = 1 then max a b else if signedOf 32 a ≤ signedOf 32 b then b else a

/-- Number of set bits, and the bits in reverse order. -/
def popc (w : Nat) : Nat := ((List.range 32).map fun i => w / 2 ^ i % 2).sum
def brev (w : Nat) : Nat := ((List.range 32).map fun i => w / 2 ^ i % 2 * 2 ^ (31 - i)).sum

/-- BIT by mod: population count, leading zeros, reversal, field extract (Table 9.11). -/
def aluBit (i : Ins) (a b c : Nat) : Nat :=
  match i.mod with
  | 0 => popc b
  | 1 => 32 - bitLen b
  | 2 => brev b
  | _ => a / 2 ^ (b % 32) % 2 ^ (c % 64)

/-! ### FP32 and FP16x2 groups (R239) -/

/-- Rounding mode and sat (Table 9.8). -/
def Ins.rm (i : Ins) : Nat := i.mod % 4
def Ins.sat (i : Ins) : Bool := i.mod.testBit 2

/-- A source after its modifiers of x, abs before neg: `k` is 0 for a, 1 for b, 2 for c (R233). -/
def srcMod (f : FpFmt) (i : Ins) (k v : Nat) : Nat :=
  if i.imm then v
  else
    let v1 := if i.x.testBit (2 * k) then f.abs v else v
    if i.x.testBit (2 * k + 1) then f.neg v1 else v1

/-- sat on a result. -/
def satOf (f : FpFmt) (i : Ins) (v : Nat) : Nat := if i.sat then f.sat v else v

/-- An FP32 operation on modified sources. -/
def fpOp (i : Ins) (op : Nat → Nat → Nat → Nat) (a b c : Nat) : Nat :=
  satOf f32 i (op (srcMod f32 i 0 a) (srcMod f32 i 1 b) (srcMod f32 i 2 c))

/-- The same on each half of the words, low half in [15:0]. -/
def hpOp (i : Ins) (op : Nat → Nat → Nat → Nat) (a b c : Nat) : Nat :=
  let half := fun (h : Nat) =>
    let g := fun (k v : Nat) => srcMod f16 i k (v / 2 ^ (16 * h) % 2 ^ 16)
    satOf f16 i (op (g 0 a) (g 1 b) (g 2 c))
  half 0 + 2 ^ 16 * half 1

def aluFadd (i : Ins) (a b c : Nat) : Nat := fpOp i (fun a b _ => f32.add i.rm a b) a b c
def aluFsub (i : Ins) (a b c : Nat) : Nat := fpOp i (fun a b _ => f32.add i.rm a (f32.neg b)) a b c
def aluFmul (i : Ins) (a b c : Nat) : Nat := fpOp i (fun a b _ => f32.mul i.rm a b) a b c
def aluFma (i : Ins) (a b c : Nat) : Nat := fpOp i (fun a b c => f32.fma i.rm a b c) a b c
def aluFmin (i : Ins) (a b c : Nat) : Nat := fpOp i (fun a b _ => f32.min a b) a b c
def aluFmax (i : Ins) (a b c : Nat) : Nat := fpOp i (fun a b _ => f32.max a b) a b c
def aluFround (i : Ins) (a b c : Nat) : Nat := fpOp i (fun _ b _ => fround i.rm b) a b c
def aluFfrac (i : Ins) (a b c : Nat) : Nat := fpOp i (fun _ b _ => ffrac i.rm b) a b c
def aluHpadd (i : Ins) (a b c : Nat) : Nat := hpOp i (fun a b _ => f16.add i.rm a b) a b c
def aluHpmul (i : Ins) (a b c : Nat) : Nat := hpOp i (fun a b _ => f16.mul i.rm a b) a b c
def aluHpfma (i : Ins) (a b c : Nat) : Nat := hpOp i (fun a b c => f16.fma i.rm a b c) a b c
def aluHpmin (i : Ins) (a b c : Nat) : Nat := hpOp i (fun a b _ => f16.min a b) a b c
def aluHpmax (i : Ins) (a b c : Nat) : Nat := hpOp i (fun a b _ => f16.max a b) a b c

/-! ### Transcendental group and conversions (R240) -/

def aluTransc (i : Ins) (_ b _ : Nat) : Nat := transc i.op b
def aluF2i (i : Ins) (_ b _ : Nat) : Nat := f2int i.rm (-(2 ^ 31)) (2 ^ 31 - 1) b
def aluF2u (i : Ins) (_ b _ : Nat) : Nat := f2int i.rm 0 (2 ^ 32 - 1) b
def aluI2f (i : Ins) (_ b _ : Nat) : Nat := int2f i.rm (signedOf 32 b)
def aluU2f (i : Ins) (_ b _ : Nat) : Nat := int2f i.rm (b : Int)
def aluFpackh (i : Ins) (a b _ : Nat) : Nat :=
  let h := fun (v : Nat) => packHalf i.rm (satOf f32 i v)
  h a + 2 ^ 16 * h b
def aluHunpl (_ : Ins) (_ b _ : Nat) : Nat := fpConv f16 f32 0 (b % 2 ^ 16)
def aluHunph (_ : Ins) (_ b _ : Nat) : Nat := fpConv f16 f32 0 (b / 2 ^ 16)

/-! ### Compares, predicates and lanes (R241) -/

/-- The integer conditions EQ, NE, LT, LE, GT, GE. -/
def intCmp (cond : Nat) (a b : Int) : Bool :=
  match cond with
  | 0 => a == b
  | 1 => a != b
  | 2 => decide (a < b)
  | 3 => decide (a ≤ b)
  | 4 => decide (b < a)
  | _ => decide (b ≤ a)

/-- PICK: c ? a : b. -/
def aluPick (_ : Ins) (a b c : Nat) : Nat := if c % 2 = 1 then a else b

/-- LXCH: operand a from the source lane that mod and b choose (R241). -/
def Team.exchange (t : Team) (i : Ins) (lane : Nat) : Nat :=
  let b := t.b i lane
  let src : Int := match i.mod with
    | 0 => ((b % 16 : Nat) : Int)
    | 1 => (((lane ^^^ b) % 16 : Nat) : Int)
    | 2 => (lane : Int) - signedOf 32 b
    | _ => (lane : Int) + signedOf 32 b
  if src < 0 ∨ 15 < src then t.a i 0 lane
  else if t.present.testBit src.toNat then t.a i 0 src.toNat else 0

/-- QDX and QDY: pixel (1, 0) or (0, 1) of the lane's quad minus pixel (0, 0) (R241). -/
def Team.quadDiff (t : Team) (i : Ins) (vertical : Bool) (lane : Nat) : Nat :=
  let q := lane / 4 * 4
  f32.add 0 (t.a i 0 (q + if vertical then 2 else 1)) (f32.neg (t.a i 0 q))

/-- One level of the pairwise tree of an FP32 sum: an absent partner adds nothing. -/
def pairUp : List (Option Nat) → List (Option Nat)
  | a :: b :: l => (match a, b with
    | some x, some y => some (f32.add 0 x y)
    | some x, none => some x
    | none, y => y) :: pairUp l
  | l => l

/-- The canonical NaN for a NaN (R239). -/
def canonNan (v : Nat) : Nat := if f32.isNan v then f32.nan else v

/-- LRED over the active lanes (R241); every NaN result is the canonical one (R239). -/
def Team.reduce (t : Team) (i : Ins) : Nat :=
  let vs := (List.range 16).map fun l => if t.active i l then some (t.a i 0 l) else none
  let l := vs.filterMap fun v => v
  match i.mod with
  | 0 => l.sum % 2 ^ 32
  | 1 =>
    match (pairUp (pairUp (pairUp (pairUp vs)))).head?.join with
    | some v => canonNan v
    | none => f32.signed ((Config.freeBits 1 (2 ^ 295)).toNat == 1) 0
  | 2 => match l with
    | [] => f32.inf
    | v :: vs => canonNan (vs.foldl f32.min v)
  | 3 => match l with
    | [] => f32.sign + f32.inf
    | v :: vs => canonNan (vs.foldl f32.max v)
  | 4 => l.foldl min (2 ^ 32 - 1)
  | _ => l.foldl max 0

/-! ### Special registers (R242) -/

/-- A value of Table 9.13 for a lane. -/
def State.special (s : State) (j : JetJob) (t : Team) (r lane : Nat) : Nat :=
  let e := j.entryOf t.entry
  let pixel := t.stage == 2
  let q := t.quads.getD (lane / 4) ⟨0, 0, 0, [], []⟩
  let xy := q.pixel (lane % 4)
  let p := j.prims.getD t.prim {}
  let per := e.flags.testBit 2
  if r = 0x00 then lane
  else if r = 0x01 then t.no
  else if r = 0x02 then t.present
  else if r = 0x14 then s.jetClocks % 2 ^ 32
  else if r = 0x15 then t.clockHi.getD (s.jetClocks / 2 ^ 32 % 2 ^ 32)
  else if t.stage = 3 then
    (if r = 0x04 then t.wg % j.gx
     else if r = 0x05 then t.wg / j.gx % j.gy
     else if r = 0x06 then t.wg / (j.gx * j.gy)
     else if r = 0x07 then j.gx
     else if r = 0x08 then j.gy
     else if r = 0x09 then j.gz
     else if r = 0x0A then 16 * t.no + lane
     else 0)
  else if t.stage = 1 then (if r = 0x0B then t.ids.getD lane 0 else if r = 0x0C then j.drawNo else 0)
  else if pixel then
    (if r = 0x03 then ((List.range 16).map fun l =>
        b2n ((t.quads.getD (l / 4) ⟨0, 0, 0, [], []⟩).cov.getD (l % 4) 0 != 0) * 2 ^ l).sum
     else if r = 0x0C then p.drawNo
     else if r = 0x0D then p.id
     else if r = 0x0E then b2n p.front
     else if r = 0x0F then xy.1
     else if r = 0x10 then xy.2
     else if r = 0x11 then (if per then q.sample else 0)
     else if r = 0x12 then q.all.getD (lane % 4) 0
     else if r = 0x13 then
       let sp := if per then (samplePos j.pass.samples).getD q.sample (128, 128) else (128, 128)
       p.depthAt (((256 * xy.1 + sp.1 : Nat) : Int), ((256 * xy.2 + sp.2 : Nat) : Int))
     else 0)
  else 0

/-! ### End of a team (R237, R249, R252) -/

/-- A barrier releases once every team of the workgroup waits or has ended (R252). -/
def releaseBarrier (wg : Nat) (ts : List (Nat × Team)) : List (Nat × Team) :=
  let mine := fun (u : Nat × Team) => u.2.stage == 3 && u.2.wg == wg
  if (ts.filter mine).all fun u => u.2.waiting || u.2.ended then
    ts.map fun u => if mine u then (u.1, { u.2 with waiting := false }) else u
  else ts

/-- The outputs of an ended vertex team, lane by lane (R251). -/
def Team.outputs (t : Team) (varyings : Nat) : List VOut :=
  (List.range t.ids.length).map fun l =>
    let o := fun slot => spGet (fun _ => 0) t.outs (16 * slot + l)
    { pos := [o 0, o 1, o 2, o 3], vary := (List.range varyings).map fun v => o (4 + v) }

/-- A vertex team ends; with its batch's last the outputs are delivered in order and the jet is free. -/
def State.endVertex (s : State) (k n : Nat) (j : JetJob) (t : Team) : State :=
  let s1 := s.setTeam k n { t with ended := true, flights := [] }
  let jet := s1.jet k
  if jet.teams.all fun u => u.2.ended then
    let outs := jet.teams.flatMap fun u => u.2.outputs j.pass.varyings
    let s2 := s1.setJet k { jet with holds := .nothing, teams := [] }
    (s2.modJjob j.ctx j.sq fun j => JetJob.settleBatches { j with
      batches := j.batches.map fun b => if b.jet = some k ∧ b.outs.isNone then { b with outs := some outs } else b } 64).jaSync
  else s1

/-- An older resident team holds a sample of this one (R248). -/
def Jet.olderShares (j : Jet) (n : Nat) (qs : List Quad) : Bool :=
  (j.teams.takeWhile fun u => u.1 != n).any fun u => u.2.quads.any fun a => qs.any a.shares

/-- The late depth test of a pixel team, and its held writes on the samples that pass (R249). -/
def JetJob.lateTest (j : JetJob) (t : Team) (o : Nat × Nat) (buf : List (Nat × Nat)) : List (Nat × Nat) :=
  let p := j.prims.getD t.prim {}
  let lanes := (List.range (4 * t.quads.length)).flatMap fun l => (List.range j.pass.samples).map fun k => (l, k)
  lanes.foldl (fun buf lk =>
    let q := t.quads.getD (lk.1 / 4) ⟨0, 0, 0, [], []⟩
    if (q.cov.getD (lk.1 % 4) 0).testBit lk.2 then
      let xy := q.pixel (lk.1 % 4)
      let z := match t.zout.find? fun e => e.1 == lk.1, j.pass.depth with
        | some e, some a => depthBits a.fmt (if f32.isNan e.2 then 0 else e.2)
        | _, _ => j.zAt p xy lk.2
      let (b, ok) := j.depthSample p o xy lk.2 z buf
      if ok then
        let base := tileKey 0 j.pass.samples (xy.1 - o.1) (xy.2 - o.2) lk.2
        (t.held.filter fun e => e.1 % 2 ^ 20 == base).foldl (fun b e =>
          if e.1 / 2 ^ 20 = 9 then
            let a := (j.pass.depth).getD {}
            let key := 8 * 2 ^ 20 + base
            spSet (fun _ => 0) b key (stencilPut a.fmt (spGet (fun _ => 0) b key) e.2)
          else spSet (fun _ => 0) b e.1 e.2) b
      else b
    else buf) buf

/-- A pixel team leaves its jet, and further teams are launched. -/
def State.leavePixel (s : State) (k n : Nat) (buf : Option (List (Nat × Nat))) : State :=
  let jet := s.jet k
  match jet.holds with
  | .tile run =>
    let run' := match buf with
      | some b => { run with buf := b, dirty := changedKeys run.buf b ++ run.dirty }
      | none => run
    (s.setJet k { jet with holds := .tile run', teams := jet.teams.filter fun u => u.1 != n, last := s.clk.stm }).refill k
  | _ => s

/-- A pixel team ends: an early one leaves; a late one is tested once no older team holds one of its samples (R201, R249). -/
def State.endPixel (s : State) (k n : Nat) (j : JetJob) (t : Team) : State :=
  let jet := s.jet k
  match jet.holds with
  | .tile run =>
    if (j.entryOf t.entry).early then s.leavePixel k n none
    else if jet.olderShares n t.quads then s
    else s.leavePixel k n (some (j.lateTest t (j.pass.origin run.item.idx) run.buf))
  | _ => s

/-- A compute team ends; its barrier may release. -/
def State.endCompute (s : State) (k n : Nat) (t : Team) : State :=
  let s1 := s.setTeam k n { t with ended := true, flights := [] }
  let jet := s1.jet k
  s1.setJet k { jet with teams := releaseBarrier t.wg jet.teams }

/-! ### Control group -/

def execJNop (jet : Fin 64) (team : Fin 16) (bad : Bool) (s : State) : Out :=
  .next (s.issue jet.val team.val 0x00 bad fun _ t _ s => s.setTeam jet.val team.val t.next)

/-- Lanes that are present, and those of them that pass the guard. -/
def Team.anyActive (t : Team) (i : Ins) : Bool := (List.range 16).any (t.active i)
def Team.allActive (t : Team) (i : Ins) : Bool := (List.range 16).all fun l => !t.present.testBit l || t.active i l

/-- The branch of BRA is taken (R237). -/
def Team.taken (t : Team) (i : Ins) : Bool :=
  match i.mod with
  | 0 => true
  | 1 => t.anyActive i
  | 2 => t.allActive i
  | _ => !t.anyActive i

def execJBra (jet : Fin 64) (team : Fin 16) (bad : Bool) (s : State) : Out :=
  .next (s.issue jet.val team.val 0x01 bad fun _ t i s =>
    s.setTeam jet.val team.val (if t.taken i then { t with pc := (branchTo t.pc i.imm32).toNat } else t.next))

def execJCall (jet : Fin 64) (team : Fin 16) (bad : Bool) (s : State) : Out :=
  .next (s.issue jet.val team.val 0x02 bad fun _ t i s =>
    s.setTeam jet.val team.val { t.setKeys (t.results i fun _ => [t.pc + 1]) with pc := (branchTo t.pc i.imm32).toNat })

def execJRet (jet : Fin 64) (team : Fin 16) (bad : Bool) (s : State) : Out :=
  .next (s.issue jet.val team.val 0x03 bad fun _ t i s => s.setTeam jet.val team.val { t with pc := t.a i 0 0 })

/-- END (R237). `tileBad`: a depth test that it makes or lets begin finds an uncorrectable error in the tile buffer, which
retires the jet with cause 1 (Table 10.2). -/
def execJEnd (jet : Fin 64) (team : Fin 16) (bad : Bool) (s : State) (tileBad : Bool := false) : Out :=
  .next (s.issue jet.val team.val 0x04 bad fun j t _ s =>
    if tileBad && t.stage == 2 && j.pass.depth.isSome then s.retireJet jet.val 1 none
    else if t.stage = 1 then s.endVertex jet.val team.val j t
    else if t.stage = 2 then s.endPixel jet.val team.val j t
    else s.endCompute jet.val team.val t)

/-- The quads of a team with the active covered lanes discarded. -/
def Team.dropped (t : Team) (i : Ins) : List Quad :=
  (List.range t.quads.length).map fun q =>
    let u := t.quads.getD q ⟨0, 0, 0, [], []⟩
    { u with cov := (List.range 4).map fun l => if t.active i (4 * q + l) then 0 else u.cov.getD l 0 }

def execJDrop (jet : Fin 64) (team : Fin 16) (bad : Bool) (s : State) : Out :=
  .next (s.issue jet.val team.val 0x05 bad fun _ t i s =>
    let qs := t.dropped i
    let s1 := s.setTeam jet.val team.val { t.next with quads := qs }
    if qs.all fun q => q.cov.all (· == 0) then s1.leavePixel jet.val team.val none else s1)

def execJWsync (jet : Fin 64) (team : Fin 16) (bad : Bool) (s : State) : Out :=
  .next (s.issue jet.val team.val 0x06 bad fun _ t _ s =>
    let s1 := s.setTeam jet.val team.val { t.next with waiting := true }
    let j := s1.jet jet.val
    s1.setJet jet.val { j with teams := releaseBarrier t.wg j.teams })

/-- MVIS (R244): a GST or GATOM of this model is visible to every master as it issues. -/
def execJMvis (jet : Fin 64) (team : Fin 16) (bad : Bool) (s : State) : Out :=
  .next (s.issue jet.val team.val 0x07 bad fun _ t _ s => s.setTeam jet.val team.val t.next)

/-! ### Integer, floating-point, transcendental and conversion groups -/

def execJMov (jet : Fin 64) (team : Fin 16) (bad : Bool) (s : State) : Out :=
  .next (s.issueAlu jet.val team.val 0x10 bad aluMov)

def execJIadd (jet : Fin 64) (team : Fin 16) (bad : Bool) (s : State) : Out :=
  .next (s.issueAlu jet.val team.val 0x11 bad aluIadd)

def execJIsub (jet : Fin 64) (team : Fin 16) (bad : Bool) (s : State) : Out :=
  .next (s.issueAlu jet.val team.val 0x12 bad aluIsub)

def execJImul (jet : Fin 64) (team : Fin 16) (bad : Bool) (s : State) : Out :=
  .next (s.issueAlu jet.val team.val 0x13 bad aluImul)

def execJImulhi (jet : Fin 64) (team : Fin 16) (bad : Bool) (s : State) : Out :=
  .next (s.issueAlu jet.val team.val 0x14 bad aluImulhi)

def execJUmulhi (jet : Fin 64) (team : Fin 16) (bad : Bool) (s : State) : Out :=
  .next (s.issueAlu jet.val team.val 0x15 bad aluUmulhi)

def execJImula (jet : Fin 64) (team : Fin 16) (bad : Bool) (s : State) : Out :=
  .next (s.issueAlu jet.val team.val 0x16 bad aluImula)

def execJAnd (jet : Fin 64) (team : Fin 16) (bad : Bool) (s : State) : Out :=
  .next (s.issueAlu jet.val team.val 0x17 bad aluAnd)

def execJOr (jet : Fin 64) (team : Fin 16) (bad : Bool) (s : State) : Out :=
  .next (s.issueAlu jet.val team.val 0x18 bad aluOr)

def execJXor (jet : Fin 64) (team : Fin 16) (bad : Bool) (s : State) : Out :=
  .next (s.issueAlu jet.val team.val 0x19 bad aluXor)

def execJShl (jet : Fin 64) (team : Fin 16) (bad : Bool) (s : State) : Out :=
  .next (s.issueAlu jet.val team.val 0x1A bad aluShl)

def execJShr (jet : Fin 64) (team : Fin 16) (bad : Bool) (s : State) : Out :=
  .next (s.issueAlu jet.val team.val 0x1B bad aluShr)

def execJSar (jet : Fin 64) (team : Fin 16) (bad : Bool) (s : State) : Out :=
  .next (s.issueAlu jet.val team.val 0x1C bad aluSar)

def execJMin (jet : Fin 64) (team : Fin 16) (bad : Bool) (s : State) : Out :=
  .next (s.issueAlu jet.val team.val 0x1D bad aluMin)

def execJMax (jet : Fin 64) (team : Fin 16) (bad : Bool) (s : State) : Out :=
  .next (s.issueAlu jet.val team.val 0x1E bad aluMax)

def execJBit (jet : Fin 64) (team : Fin 16) (bad : Bool) (s : State) : Out :=
  .next (s.issueAlu jet.val team.val 0x1F bad aluBit)

def execJFadd (jet : Fin 64) (team : Fin 16) (bad : Bool) (s : State) : Out :=
  .next (s.issueAlu jet.val team.val 0x20 bad aluFadd)

def execJFsub (jet : Fin 64) (team : Fin 16) (bad : Bool) (s : State) : Out :=
  .next (s.issueAlu jet.val team.val 0x21 bad aluFsub)

def execJFmul (jet : Fin 64) (team : Fin 16) (bad : Bool) (s : State) : Out :=
  .next (s.issueAlu jet.val team.val 0x22 bad aluFmul)

def execJFma (jet : Fin 64) (team : Fin 16) (bad : Bool) (s : State) : Out :=
  .next (s.issueAlu jet.val team.val 0x23 bad aluFma)

def execJFmin (jet : Fin 64) (team : Fin 16) (bad : Bool) (s : State) : Out :=
  .next (s.issueAlu jet.val team.val 0x24 bad aluFmin)

def execJFmax (jet : Fin 64) (team : Fin 16) (bad : Bool) (s : State) : Out :=
  .next (s.issueAlu jet.val team.val 0x25 bad aluFmax)

def execJFround (jet : Fin 64) (team : Fin 16) (bad : Bool) (s : State) : Out :=
  .next (s.issueAlu jet.val team.val 0x26 bad aluFround)

def execJFfrac (jet : Fin 64) (team : Fin 16) (bad : Bool) (s : State) : Out :=
  .next (s.issueAlu jet.val team.val 0x27 bad aluFfrac)

def execJHpadd (jet : Fin 64) (team : Fin 16) (bad : Bool) (s : State) : Out :=
  .next (s.issueAlu jet.val team.val 0x30 bad aluHpadd)

def execJHpmul (jet : Fin 64) (team : Fin 16) (bad : Bool) (s : State) : Out :=
  .next (s.issueAlu jet.val team.val 0x31 bad aluHpmul)

def execJHpfma (jet : Fin 64) (team : Fin 16) (bad : Bool) (s : State) : Out :=
  .next (s.issueAlu jet.val team.val 0x32 bad aluHpfma)

def execJHpmin (jet : Fin 64) (team : Fin 16) (bad : Bool) (s : State) : Out :=
  .next (s.issueAlu jet.val team.val 0x33 bad aluHpmin)

def execJHpmax (jet : Fin 64) (team : Fin 16) (bad : Bool) (s : State) : Out :=
  .next (s.issueAlu jet.val team.val 0x34 bad aluHpmax)

def execJRcp (jet : Fin 64) (team : Fin 16) (bad : Bool) (s : State) : Out :=
  .next (s.issueAlu jet.val team.val 0x40 bad aluTransc)

def execJRsq (jet : Fin 64) (team : Fin 16) (bad : Bool) (s : State) : Out :=
  .next (s.issueAlu jet.val team.val 0x41 bad aluTransc)

def execJSqrt (jet : Fin 64) (team : Fin 16) (bad : Bool) (s : State) : Out :=
  .next (s.issueAlu jet.val team.val 0x42 bad aluTransc)

def execJExp2 (jet : Fin 64) (team : Fin 16) (bad : Bool) (s : State) : Out :=
  .next (s.issueAlu jet.val team.val 0x43 bad aluTransc)

def execJLog2 (jet : Fin 64) (team : Fin 16) (bad : Bool) (s : State) : Out :=
  .next (s.issueAlu jet.val team.val 0x44 bad aluTransc)

def execJSinpi (jet : Fin 64) (team : Fin 16) (bad : Bool) (s : State) : Out :=
  .next (s.issueAlu jet.val team.val 0x45 bad aluTransc)

def execJCospi (jet : Fin 64) (team : Fin 16) (bad : Bool) (s : State) : Out :=
  .next (s.issueAlu jet.val team.val 0x46 bad aluTransc)

def execJF2i (jet : Fin 64) (team : Fin 16) (bad : Bool) (s : State) : Out :=
  .next (s.issueAlu jet.val team.val 0x50 bad aluF2i)

def execJF2u (jet : Fin 64) (team : Fin 16) (bad : Bool) (s : State) : Out :=
  .next (s.issueAlu jet.val team.val 0x51 bad aluF2u)

def execJI2f (jet : Fin 64) (team : Fin 16) (bad : Bool) (s : State) : Out :=
  .next (s.issueAlu jet.val team.val 0x52 bad aluI2f)

def execJU2f (jet : Fin 64) (team : Fin 16) (bad : Bool) (s : State) : Out :=
  .next (s.issueAlu jet.val team.val 0x53 bad aluU2f)

def execJFpackh (jet : Fin 64) (team : Fin 16) (bad : Bool) (s : State) : Out :=
  .next (s.issueAlu jet.val team.val 0x54 bad aluFpackh)

def execJHunpl (jet : Fin 64) (team : Fin 16) (bad : Bool) (s : State) : Out :=
  .next (s.issueAlu jet.val team.val 0x55 bad aluHunpl)

def execJHunph (jet : Fin 64) (team : Fin 16) (bad : Bool) (s : State) : Out :=
  .next (s.issueAlu jet.val team.val 0x56 bad aluHunph)

def execJPick (jet : Fin 64) (team : Fin 16) (bad : Bool) (s : State) : Out :=
  .next (s.issueAlu jet.val team.val 0x67 bad aluPick)

/-! ### Compares and predicates -/

def execJFcmp (jet : Fin 64) (team : Fin 16) (bad : Bool) (s : State) : Out :=
  .next (s.issuePred jet.val team.val 0x60 bad fun i t l => fpCmp i.mod (t.a i 0 l) (t.b i l))

def execJIcmp (jet : Fin 64) (team : Fin 16) (bad : Bool) (s : State) : Out :=
  .next (s.issuePred jet.val team.val 0x61 bad fun i t l => intCmp i.mod (signedOf 32 (t.a i 0 l)) (signedOf 32 (t.b i l)))

def execJUcmp (jet : Fin 64) (team : Fin 16) (bad : Bool) (s : State) : Out :=
  .next (s.issuePred jet.val team.val 0x62 bad fun i t l => intCmp i.mod (t.a i 0 l) (t.b i l))

def execJPand (jet : Fin 64) (team : Fin 16) (bad : Bool) (s : State) : Out :=
  .next (s.issuePred jet.val team.val 0x63 bad fun i t l => (t.a i 0 l &&& t.b i l) == 1)

def execJPor (jet : Fin 64) (team : Fin 16) (bad : Bool) (s : State) : Out :=
  .next (s.issuePred jet.val team.val 0x64 bad fun i t l => (t.a i 0 l ||| t.b i l) == 1)

def execJPxor (jet : Fin 64) (team : Fin 16) (bad : Bool) (s : State) : Out :=
  .next (s.issuePred jet.val team.val 0x65 bad fun i t l => (t.a i 0 l ^^^ t.b i l) == 1)

def execJPnot (jet : Fin 64) (team : Fin 16) (bad : Bool) (s : State) : Out :=
  .next (s.issuePred jet.val team.val 0x66 bad fun i t l => t.b i l == 0)

def execJPput (jet : Fin 64) (team : Fin 16) (bad : Bool) (s : State) : Out :=
  .next (s.issuePred jet.val team.val 0x69 bad fun i t l => (t.b i l).testBit l)

/-- PGET: a predicate, zero-extended. -/
def execJPget (jet : Fin 64) (team : Fin 16) (bad : Bool) (s : State) : Out :=
  .next (s.issue jet.val team.val 0x68 bad fun _ t i s =>
    s.setTeam jet.val team.val (t.setKeys (t.results i fun _ => [t.pred (i.a - 0xC0)])).next)

/-! ### Lanes and special registers -/

/-- An instruction whose lanes read other lanes of the team. -/
def State.issueLanes (s : State) (k n op : Nat) (bad : Bool) (f : Team → Ins → Nat → Nat) : State :=
  s.issue k n op bad fun _ t i s => s.setTeam k n (t.setKeys (t.results i fun l => [f t i l])).next

def execJLxch (jet : Fin 64) (team : Fin 16) (bad : Bool) (s : State) : Out :=
  .next (s.issueLanes jet.val team.val 0x70 bad Team.exchange)

def execJQdx (jet : Fin 64) (team : Fin 16) (bad : Bool) (s : State) : Out :=
  .next (s.issueLanes jet.val team.val 0x71 bad fun t i l => t.quadDiff i false l)

def execJQdy (jet : Fin 64) (team : Fin 16) (bad : Bool) (s : State) : Out :=
  .next (s.issueLanes jet.val team.val 0x72 bad fun t i l => t.quadDiff i true l)

def execJLred (jet : Fin 64) (team : Fin 16) (bad : Bool) (s : State) : Out :=
  .next (s.issueLanes jet.val team.val 0x73 bad fun t i _ => t.reduce i)

def execJLread (jet : Fin 64) (team : Fin 16) (bad : Bool) (s : State) : Out :=
  .next (s.issueLanes jet.val team.val 0x74 bad fun t i _ => t.a i 0 (t.b i 0 % 16))

/-- SRG (R242): a read of CLOCK_LO captures CLOCK_HI for the team's next read of it. -/
def execJSrg (jet : Fin 64) (team : Fin 16) (bad : Bool) (s : State) : Out :=
  .next (s.issue jet.val team.val 0x75 bad fun j t i s =>
    let r := i.x % 256
    let t1 := (t.setKeys (t.results i fun l => [s.special j t r l])).next
    s.setTeam jet.val team.val (if r = 0x14 then { t1 with clockHi := some (s.jetClocks / 2 ^ 32 % 2 ^ 32) }
      else if r = 0x15 then { t1 with clockHi := none } else t1))

end Sys2Proof.Machine
end

