-- ==== Sys2Proof/Machine/JetMem.lean ====
section
/-! DEFINITION. The jet instructions that reach memory, the tile buffer and a stage's outputs (R243–R251, R253): groups 0x8,
0x9, 0xB, 0xC and 0xD of Table 9.11. -/

namespace Sys2Proof.Machine

/-! ### Lane accesses (R243) -/

/-- Lanes that an instruction acts for: the active ones, or one for a scalar instruction. -/
def Team.lanes (t : Team) (i : Ins) : List Nat := if i.scalar then [0] else (List.range 16).filter (t.active i)

/-- Byte offset of a lane's access: operand a plus the I-form's signed offset, modulo 2^32, rounded down to a multiple of the
access size. -/
def Team.offset (t : Team) (i : Ins) (n lane : Nat) : Nat :=
  let off : Int := if i.imm then signedOf 24 (i.imm32 / 256) else 0
  toSigned 32 ((t.a i 0 lane : Int) + off) / n * n

/-- The words that the bytes of a load give (R243). -/
def loadWords (mod : Nat) (bs : List Byte) : List Nat :=
  let v := ofLeBytes bs
  match mod with
  | 0 | 1 | 2 => [v]
  | 3 => [v % 2 ^ 32, v / 2 ^ 32]
  | 4 => [v % 2 ^ 32, v / 2 ^ 32 % 2 ^ 32, v / 2 ^ 64 % 2 ^ 32, v / 2 ^ 96]
  | 5 => [toSigned 32 (signedOf 8 v)]
  | _ => [toSigned 32 (signedOf 16 v)]

/-- The bytes that a lane stores. -/
def Team.storeBytes (t : Team) (i : Ins) (n lane : Nat) : List Byte :=
  ((List.range ((n + 3) / 4)).flatMap fun k => leBytes 4 (t.rd (if isZero i.d then i.d else i.d + k) lane)).take n

/-- One event record a job for accesses outside their slot (R243, Table 21.4). -/
def State.rangeNote (s : State) (j : JetJob) (slot entry : Nat) (out : Bool) : State :=
  if out && !((s.jjob j.ctx j.sq).map (·.rangeDone)).getD true then
    (s.modJjob j.ctx j.sq fun j => { j with rangeDone := true }).offer 0x062A [(16, j.ctx), (8, slot), (8, entry)]
  else s

/-- The team after it has issued a load whose words `f` gives by lane. -/
def Team.loads (t : Team) (i : Ins) (nd : Nat) (f : Nat → List Nat) : Team :=
  { t.next with flights := t.flights ++ [⟨(List.range nd).map (i.d + ·), t.results i f⟩] }

/-- A load of every lane from a buffer of `size` bytes at `base`. -/
def State.loadFrom (s : State) (k n : Nat) (host : List (Nat × Byte)) (j : JetJob) (t : Team) (i : Ins)
    (base size slot : Nat) : State :=
  let b := accessBytes i.mod
  let inside := fun l => decide (t.offset i b l + b ≤ size)
  let ls := t.lanes i
  match s.rangesStop j.ctx false ((ls.filter inside).map fun l => (base + t.offset i b l, b)) with
  | some (st, d) => s.jetFault j.ctx j.sq ⟨st, d, 0⟩
  | none =>
    let word := fun l => if inside l then loadWords i.mod (s.bufRead host (base + t.offset i b l) b)
      else List.replicate (i.nd j.pass) 0
    let s := s.touchRanges ((ls.filter inside).map fun l => (base + t.offset i b l, b))
    (s.setTeam k n (t.loads i (i.nd j.pass) word)).rangeNote j slot t.entry (ls.any fun l => !inside l)

/-- The buffer slot that an instruction names. -/
def JetJob.bufferSlot (j : JetJob) (i : Ins) : Nat × Nat :=
  match j.slots[i.slotNo]? with
  | some (.buffer _ size base) => (base, size)
  | _ => (0, 0)

/-- GLD (R243). -/
def execJGld (jet : Fin 64) (team : Fin 16) (bad : Bool) (host : List (Nat × Byte)) (s : State) : Out :=
  .next (s.issue jet.val team.val 0x80 bad fun j t i s =>
    let (base, size) := j.bufferSlot i
    s.loadFrom jet.val team.val host j t i base size i.slotNo)

/-- CLD (R243): from the constant pool of the container. -/
def execJCld (jet : Fin 64) (team : Fin 16) (bad : Bool) (host : List (Nat × Byte)) (s : State) : Out :=
  .next (s.issue jet.val team.val 0x83 bad fun j t i s =>
    s.loadFrom jet.val team.val host j t i (j.prog.addr + j.prog.constOff) j.prog.constBytes 0)

/-! ### Workgroups -/

/-- Change the workgroup `idx` of a jet. -/
def State.modWg (s : State) (k idx : Nat) (f : Wg → Wg) : State :=
  let j := s.jet k
  match j.holds with
  | .groups c sq ws => s.setJet k { j with holds := .groups c sq (ws.map fun w => if w.idx = idx then f w else w) }
  | _ => s

/-- Shared memory of the workgroup `idx` of a jet. -/
def Jet.shared (j : Jet) (idx : Nat) : List Host.Cell :=
  match j.holds with
  | .groups _ _ ws => ((ws.find? fun w => w.idx == idx).map (·.shared)).getD []
  | _ => []

/-- GST (R243, R244, R253): the lanes in ascending order, so that the highest lane's data stands; a lane that meets an
uncorrectable word in part ends the job after the stores (R171). -/
def execJGst (jet : Fin 64) (team : Fin 16) (bad : Bool) (s : State) : Out :=
  .next (s.issue jet.val team.val 0x81 bad fun j t i s =>
    let b := accessBytes i.mod
    let (base, size) := j.bufferSlot i
    let ls := (List.range 16).filter (t.active i)
    let inside := fun l => decide (t.offset i b l + b ≤ size)
    let ok := ls.filter inside
    let runs := ok.map fun l => (base + t.offset i b l, t.storeBytes i b l)
    let s0 := s.rangeNote j i.slotNo t.entry (ls.any fun l => !inside l)
    match s0.runsRefused j.ctx runs with
    | some d => s0.jetFault j.ctx j.sq ⟨0x20, d, 0⟩
    | none =>
      let (s1, w) := s0.jobRuns j.ctx runs
      let s2 := if ok.isEmpty then s1 else s1.modWg jet.val t.wg fun w => { w with wrote := true }
      let s3 := s2.setTeam jet.val team.val t.next
      match w with
      | some g => s3.faultJob j.ctx j.sq 0x23 (eccGran g) 0
      | none => s3)

/-- The operation of an atomic (R245). -/
def atomOp (mod old b c : Nat) : Nat :=
  match mod with
  | 0 => (old + b) % 2 ^ 32
  | 1 => if signedOf 32 old ≤ signedOf 32 b then old else b
  | 2 => if signedOf 32 old ≤ signedOf 32 b then b else old
  | 3 => old &&& b
  | 4 => old ||| b
  | 5 => old ^^^ b
  | 6 => b
  | _ => if old = c then b else old

/-- Atomics of the lanes in ascending order over words read by `rd`: the final words, and the old word of each lane. -/
def Team.atomics (t : Team) (i : Ins) (rd : Nat → Nat) (size : Nat) : List (Nat × Nat) × List (Nat × Nat) :=
  (t.lanes i).foldl (fun acc l =>
    let a := t.offset { i with mod := 2 } 4 l
    if size < a + 4 then acc
    else
      let old := ((acc.1.find? fun e => e.1 == a).map (·.2)).getD (rd a)
      let new := atomOp i.mod old (t.b i l) (t.c i l)
      ((a, new) :: acc.1.filter fun e => e.1 != a, (l, old) :: acc.2)) ([], [])

/-- The old word of a lane. -/
def oldOf (l : List (Nat × Nat)) (lane : Nat) : Nat := ((l.find? fun e => e.1 == lane).map (·.2)).getD 0

/-- GATOM (R245, R253). -/
def execJGatom (jet : Fin 64) (team : Fin 16) (bad : Bool) (host : List (Nat × Byte)) (s : State) : Out :=
  .next (s.issue jet.val team.val 0x82 bad fun j t i s =>
    let (base, size) := j.bufferSlot i
    let (words, olds) := t.atomics i (fun a => ofLeBytes (s.bufRead host (base + a) 4)) size
    let ranges := words.map fun w => (base + w.1, 4)
    match (s.rangesStop j.ctx true ranges).orElse fun _ => s.rangesStop j.ctx false ranges with
    | some (st, d) => s.jetFault j.ctx j.sq ⟨st, d, 0⟩
    | none =>
      let s1 := s.runs (s.ctxPaddock j.ctx) (words.map fun w => (base + w.1, leBytes 4 w.2))
      let s2 := if words.isEmpty then s1 else s1.modWg jet.val t.wg fun w => { w with wrote := true }
      let out := decide (olds.length < (t.lanes i).length)
      (s2.setTeam jet.val team.val (t.loads i 1 fun l => [oldOf olds l])).rangeNote j i.slotNo t.entry out)

/-- SHLD (R243): against shared_bytes. `tileBad`: its read of the tile buffer, which holds shared memory (R222), finds an
uncorrectable error (Table 10.2). -/
def execJShld (jet : Fin 64) (team : Fin 16) (bad : Bool) (s : State) (tileBad : Bool := false) : Out :=
  .next (s.issue jet.val team.val 0x90 bad fun j t i s =>
    if tileBad then s.retireJet jet.val 1 none else
    let b := accessBytes i.mod
    let size := (j.entryOf t.entry).shared
    let sh := (s.jet jet.val).shared t.wg
    let inside := fun l => decide (t.offset i b l + b ≤ size)
    let word := fun l => if inside l then loadWords i.mod (getBytes sh (t.offset i b l) b) else List.replicate (i.nd j.pass) 0
    (s.setTeam jet.val team.val (t.loads i (i.nd j.pass) word)).rangeNote j 0 t.entry ((t.lanes i).any fun l => !inside l))

/-- SHST (R243, R244). -/
def execJShst (jet : Fin 64) (team : Fin 16) (bad : Bool) (s : State) : Out :=
  .next (s.issue jet.val team.val 0x91 bad fun j t i s =>
    let b := accessBytes i.mod
    let size := (j.entryOf t.entry).shared
    let ls := (List.range 16).filter (t.active i)
    let inside := fun l => decide (t.offset i b l + b ≤ size)
    let s1 := s.modWg jet.val t.wg fun w => { w with
      shared := (ls.filter inside).foldl (fun m l => putBytes m (t.offset i b l) (t.storeBytes i b l)) w.shared }
    (s1.setTeam jet.val team.val t.next).rangeNote j 0 t.entry (ls.any fun l => !inside l))

/-- SHATOM (R245); `tileBad` as for SHLD. -/
def execJShatom (jet : Fin 64) (team : Fin 16) (bad : Bool) (s : State) (tileBad : Bool := false) : Out :=
  .next (s.issue jet.val team.val 0x92 bad fun j t i s =>
    if tileBad then s.retireJet jet.val 1 none else
    let sh := (s.jet jet.val).shared t.wg
    let (words, olds) := t.atomics i (fun a => ofLeBytes (getBytes sh a 4)) (j.entryOf t.entry).shared
    let s1 := s.modWg jet.val t.wg fun w => { w with
      shared := words.foldl (fun m e => putBytes m e.1 (leBytes 4 e.2)) w.shared }
    let out := decide (olds.length < (t.lanes i).length)
    (s1.setTeam jet.val team.val (t.loads i 1 fun l => [oldOf olds l])).rangeNote j 0 t.entry out)

/-- WORKGROUP_RETIRE (R254): all teams of the workgroup have ended; with the last the job ends. -/
def State.wgRetire (s : State) (k idx : Nat) : State :=
  let jet := s.jet k
  match jet.holds with
  | .groups c sq ws =>
    let mine := fun (u : Nat × Team) => u.2.wg == idx
    if ws.any (fun w => w.idx == idx) && (jet.teams.filter mine).all fun u => u.2.ended then
      let rest := ws.filter fun w => w.idx != idx
      let s1 := s.setJet k { jet with
        holds := if rest.isEmpty then .nothing else .groups c sq rest
        teams := jet.teams.filter fun u => !mine u, last := s.clk.stm }
      (((s1.modJjob c sq fun j => { j with written := j.written ++ [idx] }).freePreempts).computeCheck c sq).jaSync
    else s
  | _ => s

def execWorkgroupRetire (jet : Fin 64) (group : Nat) (s : State) : Host.Outcome State Fault Refusal :=
  .next (s.wgRetire jet.val group)

/-! ### Tile buffer (R247, R248) -/

/-- An older resident team covers, of an earlier primitive, a pixel of this one (R248): any pixel of its quads for a read,
which helper lanes make too (R221), and a covered one for a write. -/
def Jet.olderMeets (j : Jet) (n : Nat) (t : Team) (reads : Bool) : Bool :=
  (j.teams.takeWhile fun u => u.1 != n).any fun u => u.2.prim != t.prim && u.2.quads.any fun a => t.quads.any fun b =>
    a.x == b.x && a.y == b.y && (List.zipWith (fun m k => m != 0 && (reads || k != 0)) a.cov b.cov).any id

/-- The quad, pixel and covered samples of a lane. -/
def Team.quadOf (t : Team) (lane : Nat) : Quad := t.quads.getD (lane / 4) ⟨0, 0, 0, [], []⟩
def Team.covOf (t : Team) (lane : Nat) : Nat := (t.quadOf lane).cov.getD (lane % 4) 0

/-- Element (or stencil byte, attachment 9) at a tile-buffer key: what the team wrote itself, or the buffer's. -/
def Team.tileRead (t : Team) (buf : List (Nat × Nat)) (p : Pass) (key : Nat) : Nat :=
  match t.held.find? fun e => e.1 == key with
  | some e => e.2
  | none =>
    if key / 2 ^ 20 = 9 then stencilOf ((p.depth).getD {}).fmt (spGet (fun _ => 0) buf (8 * 2 ^ 20 + key % 2 ^ 20))
    else spGet (fun _ => 0) buf key

/-- Key of a lane's sample `k` in attachment `att`. -/
def Team.tileKeyOf (t : Team) (p : Pass) (o : Nat × Nat) (att lane k : Nat) : Nat :=
  let xy := (t.quadOf lane).pixel (lane % 4)
  tileKey att p.samples (xy.1 - o.1) (xy.2 - o.2) k

/-- The words that TBLD gives a lane (R247): free where its sample is outside the pass, and for an s destination, for which
the rules name no pixel (assumption 98). -/
def Team.tileWords (t : Team) (i : Ins) (p : Pass) (per : Bool) (buf : List (Nat × Nat)) (o : Nat × Nat) (lane : Nat) :
    List Nat :=
  let k := if per then (t.quadOf lane).sample else if isZero i.a then 0 else t.a i 0 lane
  let fmt := if 8 ≤ i.att then ((p.depth).getD {}).fmt else ((p.att? i.att).getD {}).fmt
  let v := t.tileRead buf p (t.tileKeyOf p o i.att lane k)
  if p.samples ≤ k ∨ i.scalar then List.replicate (i.nd p) (Config.freeBits 32 (2 ^ 296 + k)).toNat
  else if i.att = 9 then [v]
  else if i.att = 8 ∧ !i.raw then [depthWord fmt v]
  else if i.raw then (if fmtE fmt = 8 then [v % 2 ^ 32, v / 2 ^ 32] else [v])
  else fmtWords fmt v

/-- TBLD (R247, R248). `tileBad`: its read of the tile buffer finds an uncorrectable error, which retires the jet with
cause 1 (Table 10.2). -/
def execJTbld (jet : Fin 64) (team : Fin 16) (bad tileBad : Bool) (s : State) : Out :=
  .next (s.issue jet.val team.val 0xB0 bad fun j t i s =>
    let jt := s.jet jet.val
    match jt.holds with
    | .tile run =>
      if tileBad then s.retireJet jet.val 1 none
      else if jt.olderMeets team.val t true then s
      else
        let per := (j.entryOf t.entry).flags.testBit 2
        let o := j.pass.origin run.item.idx
        s.setTeam jet.val team.val (t.loads i (i.nd j.pass) (t.tileWords i j.pass per run.buf o))
    | _ => s)

/-- The samples that a lane's TBST writes: covered ones, of the mask in a (R247). -/
def Team.storeMask (t : Team) (i : Ins) (per : Bool) (lane : Nat) : Nat :=
  if per || isZero i.a then t.covOf lane else t.covOf lane &&& t.a i 0 lane

/-- The element that TBST leaves: a stencil value clamps to its byte unless raw (R247). -/
def Team.tileNew (t : Team) (i : Ins) (p : Pass) (lane old : Nat) : Nat :=
  let d := fun k => t.rd (if isZero i.d then i.d else i.d + k) lane
  let mask := i.x / 32 % 16
  if i.att = 9 then (if i.raw then d 0 % 256 else if mask.testBit 0 then min (d 0) 255 else old)
  else
    let fmt := ((p.att? i.att).getD {}).fmt
    if i.raw then (if fmtE fmt = 8 then d 0 + 2 ^ 32 * d 1 else d 0 % 2 ^ (8 * fmtE fmt))
    else fmtStore fmt old mask [d 0, d 1, d 2, d 3]

/-- The writes of a TBST: keys and elements. -/
def Team.tileWrites (t : Team) (i : Ins) (p : Pass) (per : Bool) (buf : List (Nat × Nat)) (o : Nat × Nat) :
    List (Nat × Nat) :=
  ((List.range 16).filter (t.active i)).flatMap fun l =>
    ((List.range p.samples).filter fun k => (t.storeMask i per l).testBit k).map fun k =>
      let key := t.tileKeyOf p o i.att l k
      (key, t.tileNew i p l (t.tileRead buf p key))

/-- TBST (R247–R249): an early team writes the buffer; a late team's writes are held to its end. `tileBad` as for TBLD: a write
of some channels reads the element first. -/
def execJTbst (jet : Fin 64) (team : Fin 16) (bad : Bool) (s : State) (tileBad : Bool := false) : Out :=
  .next (s.issue jet.val team.val 0xB1 bad fun j t i s =>
    let jt := s.jet jet.val
    match jt.holds with
    | .tile run =>
      if tileBad then s.retireJet jet.val 1 none
      else if jt.olderMeets team.val t false then s
      else
        let e := j.entryOf t.entry
        let ws := t.tileWrites i j.pass (e.flags.testBit 2) run.buf (j.pass.origin run.item.idx)
        if e.early then
          let buf := ws.foldl (fun b w =>
            if w.1 / 2 ^ 20 = 9 then
              let key := 8 * 2 ^ 20 + w.1 % 2 ^ 20
              spSet (fun _ => 0) b key (stencilPut ((j.pass.depth).getD {}).fmt (spGet (fun _ => 0) b key) w.2)
            else spSet (fun _ => 0) b w.1 w.2) run.buf
          let keys := ws.map fun w => if w.1 / 2 ^ 20 = 9 then 8 * 2 ^ 20 + w.1 % 2 ^ 20 else w.1
          (s.setJet jet.val { jt with holds := .tile { run with buf := buf, dirty := keys ++ run.dirty } }).setTeam jet.val
            team.val t.next
        else
          let held := ws.foldl (fun h w => (w.1, w.2) :: h.filter fun e => e.1 != w.1) t.held
          s.setTeam jet.val team.val { t.next with held := held }
    | _ => s)

/-! ### Interpolation and outputs (R249–R251) -/

/-- The point at which a lane interpolates: pixel centre, or its sample in modes 3 and 4 (R250). -/
def Team.pointOf (t : Team) (p : Pass) (mode lane : Nat) : Int × Int :=
  let q := t.quadOf lane
  let xy := q.pixel (lane % 4)
  let sp := if 3 ≤ mode then (samplePos p.samples).getD q.sample (128, 128) else (128, 128)
  (((256 * xy.1 + sp.1 : Nat) : Int), ((256 * xy.2 + sp.2 : Nat) : Int))

/-- VINT (R250): a free value for an s destination, for which the rules name no pixel (assumption 98). -/
def execJVint (jet : Fin 64) (team : Fin 16) (bad : Bool) (s : State) : Out :=
  .next (s.issue jet.val team.val 0xC0 bad fun j t i s =>
    let v := i.x % 64
    let p := j.prims.getD t.prim {}
    let f := fun l => if j.pass.varyings ≤ v then 0
      else if i.scalar then (Config.freeBits 32 (2 ^ 297 + v)).toNat
      else p.interp i.mod (t.pointOf j.pass i.mod l) fun w => w.vary.getD v 0
    s.setTeam jet.val team.val (t.setKeys (t.results i fun l => [f l])).next)

/-- OUT (R251). -/
def execJOut (jet : Fin 64) (team : Fin 16) (bad : Bool) (s : State) : Out :=
  .next (s.issue jet.val team.val 0xD0 bad fun _ t i s =>
    let outs := ((List.range 16).filter (t.active i)).foldl (fun o l =>
      spSet (fun _ => 0) o (16 * (i.x % 64) + l) (t.b i l)) t.outs
    s.setTeam jet.val team.val { t.next with outs := outs })

/-- ZOUT (R249): helper lanes write no depth (R221). -/
def execJZout (jet : Fin 64) (team : Fin 16) (bad : Bool) (s : State) : Out :=
  .next (s.issue jet.val team.val 0xD1 bad fun _ t i s =>
    let ls := (List.range 16).filter fun l => t.active i l && t.covOf l != 0
    let z := ls.foldl (fun z l => (l, t.b i l) :: z.filter fun e => e.1 != l) t.zout
    s.setTeam jet.val team.val { t.next with zout := z })

end Sys2Proof.Machine
end

