-- ==== Sys2Proof/Machine/JetDeadline.lean ====
section
/-! DEFINITION. The deadline arbiter (R257–R270): slack, urgency and misses; lending, preemption and restoring of jets; and the
stall and clock-gate events of R271 and R272. -/

namespace Sys2Proof.Machine

/-- Vertex batches not yet run in the geometry phase: those that lost their jet, and those left of the draw that is read. -/
def JetJob.batchesLeft (j : JetJob) : Nat :=
  if j.phase = 2 then
    (j.batches.filter fun b => b.jet.isNone && b.outs.isNone).length
      + (match j.drw with
        | some d => (d.count - j.vpos + 47) / 48
        | none => 0)
  else 0

/-- Items of a job not yet dispatched, vertex batches among them (R261). -/
def State.undispatched (s : State) (j : JetJob) : Nat :=
  let queued := (s.ja.strs.map fun t => (t.queue.filter fun i => i.ctx == j.ctx && i.sq == j.sq).length).sum
  queued + j.batchesLeft + (if j.render then j.todo.length else if j.phase = 0 then 0 else j.total - j.next)

/-- Slack in ns of a job with a D (R259). -/
def State.slackOf (s : State) (d : Nat) : Int := (d : Int) - (s.clk.stm : Int)

/-- pending of R259. -/
def State.pendingJob (s : State) (j : JetJob) : Bool :=
  decide (0 < s.undispatched j) || j.phase == 2 || j.home.isNone

/-- Urgency and miss of one job at a tick (R259, R266); a job that a rein has reached is no longer urgent (R270). -/
def State.evalJob (s : State) (c sq : Nat) : State :=
  match s.jjob c sq with
  | none => s
  | some j =>
    match j.dl with
    | none => s
    | some d =>
      let n := s.fld (Reg.CQ_CTX_CLASS c) 6 4
      let urgent := s.ctxState c != 3 && s.pendingJob j && decide (s.slackOf d < s.fld Reg.JA_SLACK_MIN 15 0 * 1000)
      let s1 := if urgent && !j.urgent then
          (s.offer 0x0623 [(16, c), (8, n), (32, toSigned 32 (s.slackOf d / 1000))]).dlEvent 0 else s
      let s2 := s1.modJjob c sq fun j => { j with urgent := urgent }
      match s2.jjob c sq with
      | some j => s2.missCheck j 0
      | none => s2

/-- An urgent DEADLINE job without a home takes the home of the non-DEADLINE COMPUTE job on the highest string (R268). -/
def State.suspendFor (s : State) (c sq : Nat) : State :=
  match s.jjob c sq with
  | none => s
  | some j =>
    let usable := (List.range 8).filter fun n => !(s.str n).dry
    if !j.urgent || j.home.isSome || j.phase != 1 || usable.any fun n => (s.homeJob n).isNone then s
    else
      match (usable.reverse.findSome? fun n => match s.homeJob n with
        | some k => if k.render ∨ s.ctxClass k.ctx = 2 then none else some (n, k)
        | none => none) with
      | none => s
      | some (n, k) =>
        let s1 := s.modJjob k.ctx k.sq fun k => { k with home := none, phase := 1, suspended := true }
        (((s1.offer 0x062D [(16, c), (8, n), (16, k.ctx)]).dlEvent 3).takeHome j n).feed n

/-- The target: the urgent job with the smallest D, then the lowest context (R259). -/
def State.pickTarget (s : State) : Option (Nat × Nat) :=
  let better := fun (a b : JetJob) => decide (a.dl.getD 0 < b.dl.getD 0)
    || (a.dl.getD 0 == b.dl.getD 0 && decide (a.ctx < b.ctx))
  ((s.ja.jobs.filter fun j => j.urgent && j.dl.isSome).foldl (fun (best : Option JetJob) j => match best with
    | none => some j
    | some b => if better j b then some j else some b) none).map fun j => (j.ctx, j.sq)

/-- Jets lent or asked for. -/
def State.lentJets (s : State) : Nat := (s.ja.jets.filter fun j => j.lent.isSome || j.preempt.isSome).length

/-- A jet that holds only workgroups of a non-DEADLINE COMPUTE job (R260). -/
def State.preemptible (s : State) (k : Nat) : Bool :=
  match (s.jet k).holds with
  | .groups c _ _ => s.ctxClass c != 2
  | _ => false

/-- Lowest free save slot (R262, R263). -/
def State.freeSaveSlot (s : State) : Option Nat :=
  let used := s.ja.jets.filterMap (fun j => j.preempt.map (·.slot)) ++ s.ja.strs.flatMap fun t => t.resume.map (·.slot)
  (List.range s.ja.force.saveSlots).find? fun n => !used.contains n

/-- Lend one jet, or ask for it (R260, R262): idle jets first, then compute jets, lowest number first, of strings not held. -/
def State.lendOne (s : State) (t : Nat × Nat) (k : Nat) : State :=
  let jet := s.jet k
  match s.jjob t.1 t.2 with
  | none => s
  | some j =>
    if s.heldStr (k / 8) || jet.retired || jet.lent.isSome || jet.preempt.isSome
        || decide (min s.ja.force.maxJets (s.undispatched j) ≤ s.lentJets) then s
    else if s.jetIdle k then s.setJet k { jet with lent := some t }
    else if s.preemptible k then
      match s.freeSaveSlot with
      | some n => s.setJet k { jet with preempt := some { slot := n, decided := s.clk.stm } }
      | none => s
    else s

/-- The jets in the order in which the arbiter takes them (R260). -/
def State.lendOrder (s : State) : List Nat :=
  let all := List.range 64
  (all.filter fun k => (s.jet k).holds == .nothing) ++ all.filter fun k => (s.jet k).holds != .nothing

/-- Idle jets lent to a job that is no longer the target are lent again at once (R261). -/
def State.relend (s : State) : State :=
  s.mapJets fun j => if j.lent.isSome && (j.holds == .nothing) && s.ja.target.isSome && (j.lent != s.ja.target) then
    { j with lent := s.ja.target } else j

/-- DEADLINE_ARBITER_TICK (R259). -/
def State.arbiterTick (s : State) : State :=
  let jobs := s.ja.jobs.filter fun j => j.dl.isSome
  let s1 := s.each (fun j s => s.evalJob j.ctx j.sq) jobs
  let s2 := s1.each (fun j s => s.suspendFor j.ctx j.sq) jobs
  let t := s2.pickTarget
  let s3 : State := { s2 with ja := { s2.ja with target := t } }
  let s4 := s3.relend
  (match t with
    | some t => s4.each (fun k s => s.lendOne t k) s4.lendOrder
    | none => s4).jaSync

def execDeadlineArbiterTick (s : State) : Host.Outcome State Fault Refusal := .next s.arbiterTick

/-- PREEMPT_REQUEST_ARRIVE (R262 steps 2 and 3). -/
def State.preemptArrive (s : State) (k : Nat) : State :=
  let jet := s.jet k
  match jet.preempt, jet.holds with
  | some p, .groups c sq ws =>
    if p.arrived.isSome then s
    else s.setJet k { jet with
      preempt := some { p with arrived := some s.clk.stm }
      holds := .groups c sq (ws.map fun w => if 50000 ≤ w.ran + (s.clk.stm - w.start) then { w with saving := true } else w) }
  | _, _ => s

def execPreemptRequestArrive (jet : Fin 64) (s : State) : Host.Outcome State Fault Refusal := .next (s.preemptArrive jet.val)

/-- GRACE_LIMIT (R262 step 4). -/
def State.graceLimit (s : State) (k : Nat) : State :=
  let jet := s.jet k
  match jet.preempt, jet.holds with
  | some p, .groups c sq ws =>
    if p.arrived.isNone then s
    else s.setJet k { jet with
      preempt := some { p with grace := true }, holds := .groups c sq (ws.map fun w => { w with saving := true }) }
  | _, _ => s

def execGraceLimit (jet : Fin 64) (s : State) : Host.Outcome State Fault Refusal := .next (s.graceLimit jet.val)

/-- A team at its instruction boundary: everything in flight has written its registers (R255). -/
def Team.atBoundary (t : Team) : Team := { t.setKeys (t.flights.flatMap (·.writes)) with flights := [] }

/-- Byte of Basin at which save slot `n` begins, and the bytes that the state of `w` workgroups takes there (R263). -/
def State.slotAt (s : State) (n : Nat) : Nat := s.ja.force.saveBase + 204800 * n
def JetJob.saveBytes (j : JetJob) (w : Nat) : Nat :=
  let e := j.entryOf 0
  w * (e.teams * (64 * e.vregs + 304) + e.shared)

/-- The state of `w` workgroups is written to save slot `n`: what each byte holds is not stated (assumption 98). -/
def State.fillSaveSlot (s : State) (j : JetJob) (n w : Nat) : State :=
  s.took.mergeWrite .basin (s.slotAt n) ((List.range (j.saveBytes w)).map fun i =>
    Config.freeBits 8 (2 ^ 600 + s.clk.free * 2 ^ 20 + i))

/-- PREEMPT_SAVE (R262 step 5, R264): the resident workgroups, all at their boundaries, go into the slot, and the jet is lent. -/
def State.preemptSave (s : State) (k : Nat) : State :=
  let jet := s.jet k
  match jet.preempt, jet.holds with
  | some p, .groups c sq ws =>
    if p.arrived.isNone || !(ws.all fun w => w.saving) then s
    else
      let v : Saved := { slot := p.slot, ctx := c, sq := sq, wgs := ws.map fun w => { w with saving := false, ran := w.ran + (s.clk.stm - w.start) },
                         teams := jet.teams.map fun t => (t.1, t.2.atBoundary) }
      let n := k / 8
      let lat := (s.clk.stm - p.decided) / 10
      let s1 := (s.setStr n { s.str n with resume := (s.str n).resume ++ [v] }).setJet k { jet with
        holds := .nothing, teams := [], preempt := none, lent := s.ja.target }
      let s2 := (s1.setReg Reg.JA_PREEMPT_COUNT (s.reg Reg.JA_PREEMPT_COUNT + 1)).setFld Reg.JA_PREEMPT_MAXLAT 15 0
        (max (s.fld Reg.JA_PREEMPT_MAXLAT 15 0) (min lat 65535))
      let s3 := match s.jjob c sq with
        | some j => s2.fillSaveSlot j p.slot ws.length
        | none => s2
      ((s3.offer 0x0625 [(8, k), (16, c), (32, ws.length), (32, lat)]).dlEvent 2).jaSync
  | _, _ => s

def execPreemptSave (jet : Fin 64) (s : State) : Host.Outcome State Fault Refusal := .next (s.preemptSave jet.val)

/-- LENT_JET_RETURN (R261): a lent jet without an item returns, or is lent to a new target at once. -/
def State.lentReturn (s : State) (k : Nat) : State :=
  let jet := s.jet k
  match jet.lent with
  | none => s
  | some t =>
    let left := match s.jjob t.1 t.2 with
      | some j => s.undispatched j
      | none => 0
    if jet.holds != .nothing || (s.ja.target == some t && decide (0 < left)) then s
    else (s.setJet k { jet with lent := if s.ja.target = some t then none else s.ja.target }).jaSync

def execLentJetReturn (jet : Fin 64) (s : State) : Host.Outcome State Fault Refusal := .next (s.lentReturn jet.val)

/-- RESUME_RESTORE (R265): an idle jet that is not lent takes the oldest entry of its string's resume list. A poisoned word in
the slot ends the job (R170). -/
def State.restore (s : State) (k : Nat) : State :=
  let jet := s.jet k
  let n := k / 8
  match (s.str n).resume with
  | v :: vs =>
    if !s.jaOn || !s.jetIdle k || jet.lent.isSome || s.halves k != 0 then s
    else match (s.jjob v.ctx v.sq).bind fun j => s.poisonIn (basinAddr (s.slotAt v.slot)) (j.saveBytes v.wgs.length) with
      | some g => s.jetFault v.ctx v.sq ⟨0x23, g, 0⟩
      | none => ((s.setStr n { s.str n with resume := vs }).setJet k { jet with
          holds := .groups v.ctx v.sq (v.wgs.map fun w => { w with start := s.clk.stm })
          teams := v.teams, origin := n, last := s.clk.stm }).jaSync
  | [] => s

def execResumeRestore (jet : Fin 64) (s : State) : Host.Outcome State Fault Refusal := .next (s.restore jet.val)

/-- JET_STALL_TIMEOUT (R271 cause 3). -/
def execJetStallTimeout (jet : Fin 64) (s : State) : Host.Outcome State Fault Refusal :=
  .next (if (s.jet jet.val).holds = .nothing then s else s.retireJet jet.val 3 none)

/-- JET_CLOCK_GATE (Table 10.3 step 5). -/
def execJetClockGate (jet : Fin 64) (s : State) : Host.Outcome State Fault Refusal :=
  .next (if (s.jet jet.val).retired ∧ s.halves jet.val = 0 then s.setJet jet.val { s.jet jet.val with gated := true } else s)

end Sys2Proof.Machine
end

