-- ==== Sys2Proof/Machine/JetTex.lean ====
section
/-! DEFINITION. Texture sampling (R214–R216, R229, R230, R246): level of detail, addressing, filtering, compare and fetch. -/

namespace Sys2Proof.Machine

/-- One texel of a sample: its weight, its level, and its place (none reads the border colour). -/
structure Tap where
  weight : ℚ
  level : Nat
  at' : Option (Nat × Nat)
  deriving DecidableEq, Repr

/-- A texel index under an address mode (Table 9.7): none for the border. -/
def texAddr (mode n : Nat) (i : Int) : Option Nat :=
  let m : Int := n
  match mode with
  | 0 => some (i % m).toNat
  | 1 => let r := i % (2 * m); some (if r < m then r.toNat else (2 * m - 1 - r).toNat)
  | 2 => some (max 0 (min (m - 1) i)).toNat
  | 3 => if 0 ≤ i ∧ i < m then some i.toNat else none
  | _ => some (min (m - 1) (if i < 0 then -1 - i else i)).toNat

/-- The texel at integer coordinates of a level. -/
def Tex.tap (t : Tex) (w : ℚ) (level : Nat) (i j : Int) : Tap :=
  match texAddr (t.address % 8) (levelSize t.width level) i, texAddr (t.address / 8 % 8) (levelSize t.height level) j with
  | some x, some y => ⟨w, level, some (x, y)⟩
  | _, _ => ⟨w, level, none⟩

/-- The texels of one level at (u, v): the nearest one, or four with weights of 8 fraction bits (R215). -/
def Tex.levelTaps (t : Tex) (linear : Bool) (w : ℚ) (level : Nat) (u v : ℚ) : List Tap :=
  let x := u * levelSize t.width level
  let y := v * levelSize t.height level
  if !linear then [t.tap w level x.floor y.floor]
  else
    let (x', y') := (x - 1/2, y - 1/2)
    let (i, j) := (x'.floor, y'.floor)
    let fx : ℚ := (intFree ((x' - i) * 256) : ℚ) / 256
    let fy : ℚ := (intFree ((y' - j) * 256) : ℚ) / 256
    ([t.tap (w * (1 - fx) * (1 - fy)) level i j, t.tap (w * fx * (1 - fy)) level (i + 1) j,
      t.tap (w * (1 - fx) * fy) level i (j + 1), t.tap (w * fx * fy) level (i + 1) (j + 1)]).filter fun p => p.weight != 0

/-- The texels of a sample at (u, v) and level of detail l (R246): mag filter at l ≤ 0 and min filter above, levels by mip. -/
def Tex.lodTaps (t : Tex) (w l u v : ℚ) : List Tap :=
  let linear := if l ≤ 0 then t.filter % 4 == 1 else t.filter / 4 % 4 == 1
  let top := t.levels - 1
  match t.filter / 16 % 4 with
  | 0 => t.levelTaps linear w 0 u v
  | 1 => t.levelTaps linear w (min top (l + 1/2).floor.toNat) u v
  | _ =>
    let k := min top l.floor.toNat
    let f : ℚ := max 0 (l - k)
    if f = 0 ∨ top ≤ k then t.levelTaps linear w k u v
    else t.levelTaps linear (w * (1 - f)) k u v ++ t.levelTaps linear (w * f) (k + 1) u v

/-- A footprint axis in level-0 texels, squared. -/
def Tex.axis2 (t : Tex) (g : ℚ × ℚ) : ℚ := (g.1 * t.width) ^ 2 + (g.2 * t.height) ^ 2

/-- log2 of the square root of q as the FP32 level of detail, far below every level for q = 0 (R215; assumption 29). -/
def lodOf (q : ℚ) : ℚ := if q ≤ 0 then -1000 else (f32.rat? (f32.roundFree (log2R q / 2))).getD 0

/-- Taps along the major axis (R215): the ratio of the axes rounded up to 1, 2, 4, 8 or 16, at most max_aniso. -/
def anisoTaps (cap : Nat) (major2 minor2 : ℚ) : Nat :=
  let need := fun (n : Nat) => decide (major2 ≤ minor2 * (n * n : Nat))
  min cap (if need 1 then 1 else if need 2 then 2 else if need 4 then 4 else if need 8 then 8 else 16)

/-- λ after the biases, clamped to [lod_min, min(lod_max, levels − 1)] (R246). -/
def Tex.clampLod (t : Tex) (l bias : ℚ) : ℚ :=
  let b : ℚ := (signedOf 16 t.bias : ℚ) / 256
  max ((t.lodMin : ℚ) / 16) (min (min ((t.lodMax : ℚ) / 16) ((t.levels - 1 : Nat) : ℚ)) (l + b + bias))

/-- The texels of a sample from its gradients. -/
def Tex.gradTaps (t : Tex) (u v : ℚ) (gx gy : ℚ × ℚ) (bias : ℚ) : List Tap :=
  let (x2, y2) := (t.axis2 gx, t.axis2 gy)
  let (major, major2, minor2) := if y2 ≤ x2 then (gx, x2, y2) else (gy, y2, x2)
  if t.aniso = 1 then t.lodTaps 1 (t.clampLod (lodOf major2) bias) u v
  else
    let n := anisoTaps t.aniso major2 minor2
    let l := t.clampLod (lodOf (minor2 / (n * n : Nat))) bias
    (List.range n).flatMap fun k =>
      let o : ℚ := ((2 * k + 1 : Nat) : ℚ) / (2 * n : Nat) - 1/2
      t.lodTaps (1 / n) l (u + o * major.1) (v + o * major.2)

/-- The surface of a level (R230). -/
def Tex.surface (t : Tex) (level : Nat) : Surf :=
  let (a, d) := t.bases level
  ⟨a, d, t.clear, t.layout, t.strideOf level, fmtE t.fmt, levelSize t.width level⟩

/-- The words of a texel: its channels, a depth format's depth in the first, or the border colour in the format's numeric
domain; a channel that the format lacks reads 0, and a missing alpha 1.0 (R246). -/
def State.texelWords (s : State) (host : List (Nat × Byte)) (t : Tex) (p : Tap) : List Nat :=
  match p.at' with
  | some (x, y) =>
    let e := s.elem host (t.surface p.level) x y
    if fmtDepth t.fmt then [depthWord t.fmt e, 0, 0, f32.one] else fmtWords t.fmt e
  | none => (List.range 4).map fun c =>
    let b := bitsOf t.border (8 * c + 7) (8 * c)
    if (if fmtDepth t.fmt then c == 0 else (fmtChans t.fmt).any fun f => f.ch == c) then
      (if fmtInteger t.fmt then b else f32.roundFree ((b : ℚ) / 255))
    else if c = 3 then f32.one else 0

/-- A filtered channel: one texel's word as it is, and otherwise the weighted sum, whose rounding is open. -/
def filterWords (integer : Bool) (l : List (ℚ × Nat)) : Nat :=
  match l with
  | [(_, w)] => w
  | _ =>
    if integer then (intFree ((l.map fun p => p.1 * (p.2 : ℚ)).sum)).toNat
    else match weighted (l.map (·.1)) (l.map (·.2)) with
      | some v => f32.roundFree v
      | none => freeOf (l.map (·.2)) (0, 0)

/-- The four words of a sample; `ref` compares each texel first (SMPC). -/
def State.sampleWords (s : State) (host : List (Nat × Byte)) (t : Tex) (ref : Option Nat) (l : List Tap) : List Nat :=
  let texels := l.map fun p => (p.weight, s.texelWords host t p)
  match ref with
  | some r =>
    let v := filterWords false (texels.map fun p =>
      (p.1, if depthTest 0x82 t.func r (p.2.getD 0 0) then f32.one else 0))
    [v, v, v, v]
  | none => (List.range 4).map fun c => filterWords (fmtInteger t.fmt) (texels.map fun p => (p.1, p.2.getD c 0))

/-- Taps of a lane that read memory. -/
def State.tapRanges (s : State) (host : List (Nat × Byte)) (t : Tex) (l : List Tap) : List (Nat × Nat) :=
  l.flatMap fun p => match p.at' with
    | some (x, y) => s.elemRanges host (t.surface p.level) x y
    | none => []

/-- Malformed blocks that taps meet. -/
def State.tapMalformed (s : State) (host : List (Nat × Byte)) (t : Tex) (l : List Tap) : List (Nat × Nat) :=
  l.flatMap fun p => match p.at' with
    | some (x, y) => (s.elemMalformed host (t.surface p.level) x y).toList.map fun k => ((t.surface p.level).base, k)
    | none => []

/-- The texture slot that an instruction names. -/
def JetJob.texSlot (j : JetJob) (i : Ins) : Tex :=
  match j.slots[i.slotNo]? with
  | some (.texture t) => t
  | _ => {}

/-- Operand a + k of a lane as a number, none where it is not finite. -/
def Team.num (t : Team) (i : Ins) (k lane : Nat) : Option ℚ := f32.rat? (t.a i k lane)

/-- Quad differences of u and v: ∂/∂x and ∂/∂y as FP32 (R246). -/
def Team.uvGrad (t : Team) (i : Ins) (lane : Nat) : Option ((ℚ × ℚ) × (ℚ × ℚ)) :=
  let q := lane / 4 * 4
  let d := fun k o => f32.rat? (f32.add 0 (t.a i k (q + o)) (f32.neg (t.a i k q)))
  match d 0 1, d 1 1, d 0 2, d 1 2 with
  | some a, some b, some c, some e => some ((a, b), (c, e))
  | _, _, _, _ => none

/-- Where the level of detail of a sample comes from. -/
inductive Lod
  | implicit (bias : Bool)
  | level
  | grads
  deriving DecidableEq, Repr

/-- The texels of a lane's sample, none where a coordinate or gradient is not finite. -/
def Team.taps (t : Team) (i : Ins) (x : Tex) (how : Lod) (lane : Nat) : Option (List Tap) :=
  match t.num i 0 lane, t.num i 1 lane with
  | some u, some v =>
    match how with
    | .level => (t.num i 2 lane).map fun l => x.lodTaps 1 (x.clampLod l 0) u v
    | .grads =>
      match t.num i 2 lane, t.num i 3 lane, t.num i 4 lane, t.num i 5 lane with
      | some a, some b, some c, some d => some (x.gradTaps u v (a, b) (c, d) 0)
      | _, _, _, _ => none
    | .implicit biased =>
      match t.uvGrad i lane, (if biased then t.num i 2 lane else some 0) with
      | some (gx, gy), some bias => some (x.gradTaps u v gx gy bias)
      | _, _ => none
  | _, _ => none

/-- A sampling instruction (R216, R246). -/
def State.sample (s : State) (k n op : Nat) (bad : Bool) (host : List (Nat × Byte)) (how : Lod) (compare : Bool) : State :=
  s.issue k n op bad fun j t i s =>
    let x := j.texSlot i
    let ls := t.lanes i
    let all := ls.flatMap fun l => (t.taps i x how l).getD []
    match s.rangesStop j.ctx false (s.tapRanges host x all) with
    | some (st, d) => s.jetFault j.ctx j.sq ⟨st, d, 0⟩
    | none =>
      let word := fun l => match t.taps i x how l with
        | some ps => s.sampleWords host x (if compare then some (t.a i 2 l) else none) ps
        | none => (List.range 4).map fun c => freeOf [t.a i 0 l, t.a i 1 l, t.a i 2 l] (c, 0)
      ((s.touchRanges (s.tapRanges host x all)).setTeam k n (t.loads i 4 word)).noteMalformed j.ctx j.sq (s.tapMalformed host x all)

def execJSmp (jet : Fin 64) (team : Fin 16) (bad : Bool) (host : List (Nat × Byte)) (s : State) : Out :=
  .next (s.sample jet.val team.val 0xA0 bad host (.implicit false) false)
def execJSmpl (jet : Fin 64) (team : Fin 16) (bad : Bool) (host : List (Nat × Byte)) (s : State) : Out :=
  .next (s.sample jet.val team.val 0xA1 bad host .level false)
def execJSmpb (jet : Fin 64) (team : Fin 16) (bad : Bool) (host : List (Nat × Byte)) (s : State) : Out :=
  .next (s.sample jet.val team.val 0xA2 bad host (.implicit true) false)
def execJSmpg (jet : Fin 64) (team : Fin 16) (bad : Bool) (host : List (Nat × Byte)) (s : State) : Out :=
  .next (s.sample jet.val team.val 0xA3 bad host .grads false)
def execJSmpc (jet : Fin 64) (team : Fin 16) (bad : Bool) (host : List (Nat × Byte)) (s : State) : Out :=
  .next (s.sample jet.val team.val 0xA4 bad host (.implicit false) true)

/-- The texel that TFETCH names, none outside the level (R246). -/
def Team.fetchTap (t : Team) (i : Ins) (x : Tex) (lane : Nat) : Option Tap :=
  let (a, b, l) := (t.a i 0 lane, t.a i 1 lane, t.a i 2 lane)
  if l < x.levels ∧ a < levelSize x.width l ∧ b < levelSize x.height l then some ⟨1, l, some (a, b)⟩ else none

/-- TFETCH (R246). -/
def execJTfetch (jet : Fin 64) (team : Fin 16) (bad : Bool) (host : List (Nat × Byte)) (s : State) : Out :=
  .next (s.issue jet.val team.val 0xA5 bad fun j t i s =>
    let x := j.texSlot i
    let all := (t.lanes i).filterMap (t.fetchTap i x)
    match s.rangesStop j.ctx false (s.tapRanges host x all) with
    | some (st, d) => s.jetFault j.ctx j.sq ⟨st, d, 0⟩
    | none =>
      let word := fun l => match t.fetchTap i x l with
        | some p => s.texelWords host x p
        | none => [0, 0, 0, 0]
      ((s.touchRanges (s.tapRanges host x all)).setTeam jet.val team.val (t.loads i 4 word)).noteMalformed j.ctx j.sq (s.tapMalformed host x all))

/-- TDIM (Table 9.11): width and height of level b, and the number of levels. -/
def execJTdim (jet : Fin 64) (team : Fin 16) (bad : Bool) (s : State) : Out :=
  .next (s.issue jet.val team.val 0xA6 bad fun j t i s =>
    let x := j.texSlot i
    s.setTeam jet.val team.val (t.loads i 3 fun l =>
      [levelSize x.width (t.b i l), levelSize x.height (t.b i l), x.levels]))

end Sys2Proof.Machine
end

