-- ==== Sys2Proof/Machine/Recorder.lean ====
section
/-! DEFINITION. The event recorder (spec/19, R488). -/

namespace Sys2Proof.Machine

/-- RECORD_ACCEPT (R455): every record offered so far is accepted in its order, numbered, and stored where it has a slot. -/
def execRecordAccept (s : State) : Host.Outcome State Fault Refusal := .next (s.acceptAll)

/-- EVR_STATUS.enabled follows EVR_CTRL.enable. -/
def State.evrEnable (s : State) (on : Bool) : State :=
  let s1 := if on then s.ungate 17 else s
  (s1.setBit Reg.EVR_CTRL 0 on).setBit Reg.EVR_STATUS 31 on

/-- The rearm of R459: oldest and base at the next number, halted clear, EVR_CFG in force, and the REARM record first. -/
def State.rearm (s : State) : State :=
  let old := s.evr.base
  let dropped := s.evr.droppedSince
  let s1 : State := { s with evr := { s.evr with
    oldest := s.evr.next, base := s.evr.next, droppedSince := 0
    mode := s.fld Reg.EVR_CFG 31 31, keepK := s.fld Reg.EVR_CFG 9 0 } }
  let s2 := (s1.setBit Reg.EVR_STATUS 30 false).evrSync
  s2.accept (mkRec 0x0F01 [(32, old % 2 ^ 32), (32, dropped)] s.clk.stm)

/-- A write of EVR_CTRL (R459): rearm, or enable from disabled, rearms; a clear of enable stops storing. -/
def State.evrCtrl (s : State) (value : Nat) : State :=
  let on := value.testBit 0
  let re := value.testBit 1 || (on && !s.bit Reg.EVR_CTRL 0)
  let s1 := s.evrEnable on
  if re then s1.rearm else s1

def execRearm (value : Nat) (s : State) : Host.Outcome State Fault Refusal := .next (s.evrCtrl value)

def execEvrDisable (value : Nat) (s : State) : Host.Outcome State Fault Refusal := .next (s.evrCtrl value)

/-- A write of EVR_ACK arms the level bit again (R464). -/
def State.evrAck (s : State) (value : Nat) : State :=
  let s1 := s.setReg Reg.EVR_ACK value
  State.levelCheck { s1 with evr := { s1.evr with levelArmed := true } }

def execEvrAckWrite (value : Nat) (s : State) : Host.Outcome State Fault Refusal := .next (s.evrAck value)

/-- RATE_LIMIT_INTERVAL_END (R488): with a count, one record with the items and time of the first event counted, and a new
interval; without one, the interval closes. -/
def execRateLimitIntervalEnd (code unit : Nat) (s : State) : Host.Outcome State Fault Refusal :=
  match s.evr.rate.find? fun r => r.code == code && r.unit == unit with
  | none => .next s
  | some r =>
    let others := s.evr.rate.filter fun x => !(x.code == code && x.unit == unit)
    if r.count = 0 then .next { s with evr := { s.evr with rate := others } }
    else
      let rec' := mkRec code (r.pre ++ [(32, r.count)] ++ r.post) r.time
      .next { s with evr := { s.evr with
        offered := s.evr.offered ++ [rec']
        rate := others ++ [{ r with ends := s.clk.stm + r.len, count := 0, pre := [], post := [] }] } }

end Sys2Proof.Machine
end

