-- ==== Sys2Proof/Machine/ReinEnd.lean ====
section
/-! DEFINITION. The end of a rein (R155–R163) and of a run limit (R152). -/

namespace Sys2Proof.Machine

/-- A running COPY that is stopped has moved a free number of 256-byte bursts (Table 6.10 step 3, assumption 1); a host source
that has not come brings none. -/
def State.copyStop (s : State) (c : Nat) (j : Job) : State :=
  let n := (s.copyReach c j).1
  let waits := (j.f 0x24 1) % 2 = 0 ∧ spaceOf (j.f 0x10 8) = .host ∧ j.data.isEmpty
  let m := if waits then 0 else min n (256 * (s.free 32 % (n / 256 + 2)))
  (s.took.copyRun c j [] m).modJob c j.sq fun k => { k with count := m }

/-- The job stops where its engine stands: what it has done is known (Table 6.10 step 3). -/
def State.stopJob (s : State) (c : Nat) (j : Job) : State :=
  if !j.started then s
  else if j.typ = 3 then s.copyStop c j
  else if j.typ = 11 then s.cvuRein c j.sq
  else s.syncProgress c j.sq

/-- The progress record of a job that ends REINED (R162, R163). -/
def State.reinRecord (s : State) (c t : Nat) (j : Job) : State :=
  if j.started && j.flag 2 then s.bufWrite (s.ctxPaddock c) (j.f 8 8) (j.recordBytes 0x10 t) else s

/-- The completion entry of a job that a rein ends: REINED, or REINED_BEFORE_START with progress word 0. -/
def State.reinEntry (s : State) (c t seq : Nat) (j : Job) : State :=
  let n := if j.started then j.count % 2 ^ 32 else 0
  s.pushEntry c (entryBytes (j.f 4 4) (if j.started then 0x10 else 0x11) j.typ j.sq n (b2n (j.started && j.flag 2)) c t 0 seq) false

/-- The jobs of a context end at the rein timestamp (R158): its CTX_REINED record first, then progress records, then entries in
ring order, the entries that find no room held, and one message unless the rein found the context IDLE (R144, R160, R161). -/
def State.endRein (s0 : State) (c : Nat) : State :=
  let s := s0.each (fun (j : Job) t => t.stopJob c j) (s0.ctx c).jobs
  let jobs := (s.ctx c).jobs
  let t := s.clk.stm
  let s1 := (s.each (fun (j : Job) u => u.dropRefs c j.sq) jobs).orphan c none
  let s2 := s1.recordNow 0x0201 [(16, c), (8, (s1.ctx c).reinSrc), (32, jobs.length)]
  let s4 := s2.each (fun (j : Job) u => u.reinRecord c t j) jobs
  let s5 := s4.setCtx c { s4.ctx c with jobs := [] }
  let s6 := s5.each (fun (j : Job) u => u.reinEntry c t s2.lastSeq j) jobs
  let s7 := s6.setBit (Reg.CQ_CTX_STATUS c) 5 (!(s6.ctx c).held.isEmpty)
  (if (s7.ctx c).reinIdle then s7 else s7.ctxMsg c).drainPorts

/-- The context is REINED (Table 6.2), and then does what waited for the rein: a RESET (Table 6.9), or an unassignment or
FLR (Table 6.2). -/
def State.afterRein (s : State) (c : Nat) : State :=
  let x := s.ctx c
  let s1 := ((s.setCtx c { x with faulting := none }).setCtxState c 4).setFld (Reg.CQ_CTX_STATUS c) 15 8 0x10
  if x.idleAfter then (s1.clearCtx c).endReset (s.ctxPaddock c) else if x.resetAfter then s1.resetCtx c else s1

/-- REIN_COMPLETE (R155): a context in REINING leaves it. -/
def execReinComplete (ctx : Fin 1024) (s : State) : Host.Outcome State Fault Refusal :=
  let c := ctx.val
  if s.ctxState c = 3 then .next ((s.endRein c).afterRein c) else .next s

/-! ### Run limit (R152) -/

/-- The run limit of a context in ms: its own, or its class's; class 3 is read as BULK. -/
def State.runLimit (s : State) (c : Nat) : Nat :=
  let own := s.fld (Reg.CQ_CTX_LIMIT c) 15 0
  if own ≠ 0 then own
  else match s.fld (Reg.CQ_CTX_CLASS c) 1 0 with
    | 1 => s.fld Reg.CQ_RUNLIMIT_INTERACTIVE 15 0
    | 2 => s.fld Reg.CQ_RUNLIMIT_DEADLINE 15 0
    | _ => s.fld Reg.CQ_RUNLIMIT_BULK 15 0

/-- RUN_LIMIT_EXPIRY: the first job of the context that has run as long as its limit ends FAULT_TIMEOUT. -/
def execRunLimitExpiry (ctx : Fin 1024) (s : State) : Host.Outcome State Fault Refusal :=
  let c := ctx.val
  let limit := s.runLimit c * 1000000
  if s.ctxState c = 1 ∨ s.ctxState c = 2 then
    match (s.ctx c).jobs.find? fun j => j.started && decide (limit ≤ s.ranNs c j) with
    | none => .next s
    | some j => .next ((s.stopJob c j).faultJob c j.sq 0x22 (s.ranNs c j / 1000000) 0)
  else .next s

end Sys2Proof.Machine
end

