-- ==== Sys2Proof/Machine/TouchField.lean ====
section
/-! DEFINITION. The arithmetic of a touch frame as functions of plain data (R403, R408, R410, R412–R414): grids, baseline
tracking, contacts, and slider values. -/

namespace Sys2Proof.Machine

/-! ### Nodes -/

/-- A set of nodes: of each, its sense line and its neighbours (R408). -/
structure Grid where
  lines : List Nat
  near : List (List Nat)
  deriving DecidableEq, Repr

def Grid.size (g : Grid) : Nat := g.lines.length

/-- The grid of a field: node k × sns + j stands for its k-th TX line and j-th SNS line, its neighbours eight-connected. -/
def fieldGrid (tx sns first : Nat) : Grid :=
  ⟨(List.range (tx * sns)).map fun i => first + i % sns,
   (List.range (tx * sns)).map fun i =>
     let k := i / sns
     let j := i % sns
     ((List.range 3).flatMap fun a => (List.range 3).map fun b => (a, b)).filterMap fun d =>
       if d = (1, 1) ∨ k + d.1 < 1 ∨ tx < k + d.1 ∨ j + d.2 < 1 ∨ sns < j + d.2 then none
       else some ((k + d.1 - 1) * sns + (j + d.2 - 1))⟩

/-- A nearest integer whose tie the spec leaves open (assumption 26). -/
def roundTie (q : ℚ) : Int := if q - (q.floor : ℚ) = 1 / 2 then intFree q else intNearest q

/-- A 16-bit value near a rational, by assumption 26. -/
def raw16 (q : ℚ) : Nat := (max 0 (min (intFree q) 0xFFFF)).toNat

/-- The frozen nodes (R408): those at or above their limit, and their neighbours. `skip` are nodes being recaptured. -/
def frozenNodes (g : Grid) (d limit : List Int) (skip : List Nat) : List Nat :=
  let hot := fun i => !skip.contains i && decide (limit.getD i 0 ≤ d.getD i 0)
  (List.range g.size).filter fun i => hot i || (g.near.getD i []).any hot

/-- Baselines after tracking (R408): an unfrozen node moves by its own difference over 2^shift, a frozen one by the mean
difference of the unfrozen nodes of its sense line, where that has any. -/
def trackNodes (g : Grid) (base raw frozen skip : List Nat) (shift : Nat) : List Nat :=
  let diff := fun i => ((raw.getD i 0 : ℚ) - (base.getD i 0 : ℚ))
  let free := (List.range g.size).filter fun i => !frozen.contains i && !skip.contains i
  (List.range g.size).map fun i =>
    let b : ℚ := (base.getD i 0 : ℚ)
    if skip.contains i then base.getD i 0
    else if frozen.contains i then
      match free.filter fun j => g.lines.getD j 0 == g.lines.getD i 0 with
      | [] => base.getD i 0
      | js => raw16 (b + (js.map diff).sum / (js.length : ℚ) / ((2 ^ shift : Nat) : ℚ))
    else raw16 (b + diff i / ((2 ^ shift : Nat) : ℚ))

/-- delta = baseline − raw (R406). -/
def deltas (base raw : List Nat) : List Int := base.zipIdx.map fun b => (b.1 : Int) - (raw.getD b.2 0 : Int)

/-! ### Stationary touches (R410) -/

/-- The stationary time goes on while the position stays within 1/4 pitch and the peak within ±12.5 % of the start's; else
it starts anew. -/
def Still.next (o : Still) (t : Nat) (x y : ℚ) (peak : Int) : Still :=
  if (x - o.x) * (x - o.x) + (y - o.y) * (y - o.y) ≤ 1 / 16 ∧ 8 * (peak - o.peak) ≤ |o.peak| ∧ 8 * (o.peak - peak) ≤ |o.peak| then o
  else ⟨t, x, y, peak⟩

/-! ### Contacts (R412) -/

/-- A maximum of delta: its node, centroid in node pitches, delta, and the nodes at or above touch_off connected with it. -/
structure Peak where
  node : Nat
  px : ℚ
  py : ℚ
  peak : Int
  nodes : List Nat
  deriving DecidableEq, Repr

/-- Node `i` stands above its neighbours; of equal ones the lowest-numbered does. -/
def isMax (g : Grid) (v : List Int) (i : Nat) : Bool :=
  (g.near.getD i []).all fun j => decide (v.getD j 0 < v.getD i 0) || (v.getD j 0 == v.getD i 0 && decide (i < j))

/-- Insert a node before those of lower value, and of equal value and higher number. -/
def insertMax (v : List Int) (i : Nat) : List Nat → List Nat
  | [] => [i]
  | j :: js => if v.getD j 0 < v.getD i 0 ∨ (v.getD j 0 = v.getD i 0 ∧ i < j) then i :: j :: js else j :: insertMax v i js

/-- Of two maxima closer than 2 pitches the greater stays. -/
def mergeMax (sns : Nat) (kept : List Nat) : List Nat → List Nat
  | [] => kept.reverse
  | i :: is =>
    let close := fun (j : Nat) =>
      let dk : Int := (i / sns : Nat) - (j / sns : Nat)
      let dj : Int := (i % sns : Nat) - (j % sns : Nat)
      decide (dk * dk + dj * dj < 4)
    if kept.any close then mergeMax sns kept is else mergeMax sns (i :: kept) is

/-- The nodes of `hot` connected with those of `got`. -/
def connected (g : Grid) (hot : List Nat) : Nat → List Nat → List Nat
  | 0, got => got
  | n + 1, got =>
    match hot.filter fun i => !got.contains i && (g.near.getD i []).any got.contains with
    | [] => got
    | new => connected g hot n (got ++ new)

/-- The maximum at node `i`: x along the sense lines, y along the drive lines; negative deltas weigh nothing. -/
def peakAt (g : Grid) (sns : Nat) (v : List Int) (hot : List Nat) (i : Nat) : Peak :=
  let ns := i :: g.near.getD i []
  let w := fun j => ((max 0 (v.getD j 0) : ℤ) : ℚ)
  let total := (ns.map w).sum
  ⟨i, (ns.map fun j => w j * ((j % sns : Nat) : ℚ)).sum / total, (ns.map fun j => w j * ((j / sns : Nat) : ℚ)).sum / total,
    v.getD i 0, connected g hot g.size [i]⟩

/-- The maxima that reach touch_off, greatest first. -/
def peaks (g : Grid) (sns : Nat) (v : List Int) (off : Int) : List Peak :=
  let hot := (List.range g.size).filter fun i => decide (off ≤ v.getD i 0)
  let ms := (hot.filter fun i => decide (0 < v.getD i 0) && isMax g v i).foldr (insertMax v) []
  (mergeMax sns [] ms).map (peakAt g sns v hot)

/-- Squared distance of a position from a maximum. -/
def Peak.dist (p : Peak) (x y : ℚ) : ℚ := (p.px - x) * (p.px - x) + (p.py - y) * (p.py - y)

/-- The nearest pair of a position and a maximum, the first on ties. -/
def nearest (cs : List (Nat × ℚ × ℚ)) (ps : List Peak) : Option ((Nat × ℚ × ℚ) × Peak) :=
  (cs.flatMap fun c => ps.map fun p => (c, p)).foldl (fun (best : Option ((Nat × ℚ × ℚ) × Peak)) cp =>
    match best with
    | none => some cp
    | some b => if cp.2.dist cp.1.2.1 cp.1.2.2 < b.2.dist b.1.2.1 b.1.2.2 then some cp else best) none

/-- Nearest match of positions, named by a number, to maxima: the pairs, and the maxima left over. -/
def matchPeaks : Nat → List (Nat × ℚ × ℚ) → List Peak → List (Nat × Peak) × List Peak
  | 0, _, ps => ([], ps)
  | n + 1, cs, ps =>
    match nearest cs ps with
    | none => ([], ps)
    | some (c, p) =>
      let (pairs, rest) := matchPeaks n (cs.filter fun d => d.1 != c.1) (ps.filter fun q => q.node != p.node)
      ((c.1, p) :: pairs, rest)

/-- A coordinate of 0 … n − 1 pitches scaled to 0 … top. -/
def scaleTo (n top : Nat) (q : ℚ) : Nat := if n ≤ 1 then 0 else (max 0 (min (intFree (q / ((n - 1 : Nat) : ℚ) * (top : ℚ))) (top : Int))).toNat

/-- The reported position (R412): scaled, flipped, and swapped as TCH_Fn_MAP states. -/
def reportPos (map tx sns : Nat) (px py : ℚ) : Nat × Nat :=
  let xm := bitsOf map 13 0
  let ym := bitsOf map 29 16
  let x := scaleTo sns xm px
  let y := scaleTo tx ym py
  let x1 := if map.testBit 14 then xm - x else x
  let y1 := if map.testBit 15 then ym - y else y
  if map.testBit 30 then (y1, x1) else (x1, y1)

/-! ### Controls (R413, R414) -/

/-- Position in segment pitches, none where every delta is zero. -/
def sliderPos (wheel : Bool) (d : List Nat) : Option ℚ :=
  let n := d.length
  let top := d.foldl max 0
  let i := d.findIdx (· == top)
  let dl := if wheel then d.getD ((i + n - 1) % n) 0 else if 0 < i then d.getD (i - 1) 0 else 0
  let dr := if wheel then d.getD ((i + 1) % n) 0 else if i + 1 < n then d.getD (i + 1) 0 else 0
  if top = 0 then none else some ((i : ℚ) + ((dr : ℚ) - (dl : ℚ)) / ((dl + d.getD i 0 + dr : Nat) : ℚ))

/-- The value of a slider or wheel of `n` segments at a position; of one segment a slider's is not stated (assumption 1). -/
def sliderValue (wheel : Bool) (n : Nat) (pos : ℚ) : Nat :=
  if wheel then
    let r := pos - (n : ℚ) * ((pos / (n : ℚ)).floor : ℚ)
    (roundTie (r * 65536 / (n : ℚ)) % 65536).toNat
  else if n ≤ 1 then (Config.freeBits 16 (2 ^ 120 + n)).toNat
  else (roundTie (max 0 (min (pos / ((n - 1 : Nat) : ℚ)) 1) * 65535)).toNat

/-- Detent boundaries, multiples of 65,536 / D, between two values; a wheel goes the shorter way round (R414). -/
def crossings (wheel : Bool) (dets a b : Nat) : Nat :=
  let step : Int := if wheel then ((b : Int) - (a : Int) + 32768) % 65536 - 32768 else (b : Int) - (a : Int)
  let cell := fun (v : Int) => v * (dets : Int) / 65536
  if dets = 0 then 0 else (cell ((a : Int) + step) - cell (a : Int)).natAbs

end Sys2Proof.Machine
end

