-- ==== Sys2Proof/Machine/Touch.lean ====
section
/-! DEFINITION. The touch block (spec/16): fields and the control scan, frames, baselines, contacts, controls, hopping, commits
and the GRAZE sequencer. Unit 8 is the control scan. -/

namespace Sys2Proof.Machine

/-- A bit of TCH_EVENT. -/
def State.tchEvent (s : State) (b : Nat) : State := s.setEvent Reg.TCH_EVENT Reg.TCH_EVENT_EN b

/-! ### Geometry and plans (R402–R406) -/

def tchCfg (u : Nat) : Nat := if u < 8 then Reg.TCH_F_CFG u else Reg.TCH_CS_CFG
def tchStatus (u : Nat) : Nat := if u < 8 then Reg.TCH_F_STATUS u else Reg.TCH_CS_STATUS
def tchNoise (u : Nat) : Nat := if u < 8 then Reg.TCH_F_NOISE u else Reg.TCH_CS_NOISE
def tchBase (u : Nat) : Nat := if u < 8 then Reg.TCH_F_BASE u else Reg.TCH_CS_BASE

def State.fieldTx (s : State) (n : Nat) : Nat := s.fld (Reg.TCH_F_LINES n) 14 8
def State.fieldTx0 (s : State) (n : Nat) : Nat := s.fld (Reg.TCH_F_LINES n) 6 0
def State.fieldSns (s : State) (n : Nat) : Nat := s.fld (Reg.TCH_F_LINES n) 31 24 + 1
def State.fieldSns0 (s : State) (n : Nat) : Nat := s.fld (Reg.TCH_F_LINES n) 23 16
def State.ctlTx (s : State) (m : Nat) : Nat := s.fld (Reg.TCH_CTL_CFG m) 14 8
def State.ctlSns0 (s : State) (m : Nat) : Nat := s.fld (Reg.TCH_CTL_CFG m) 23 16
def State.ctlSegs (s : State) (m : Nat) : Nat := s.fld (Reg.TCH_CTL_CFG m) 27 24 + 1

/-- The distinct TX lines of the enabled controls, ascending. -/
def State.csTx (s : State) : List Nat := (List.range 128).filter fun t => s.ctlsOn.any fun m => s.ctlTx m == t

/-- The nodes of the control scan, in control order: control and segment. -/
def State.csNodes (s : State) : List (Nat × Nat) := s.ctlsOn.flatMap fun m => (List.range (s.ctlSegs m)).map fun i => (m, i)

/-- TX lines of a unit, and its nodes. -/
def State.unitTx (s : State) (u : Nat) : Nat := if u < 8 then s.fieldTx u else s.csTx.length
def State.unitGrid (s : State) (u : Nat) : Grid :=
  if u < 8 then fieldGrid (s.fieldTx u) (s.fieldSns u) (s.fieldSns0 u)
  else
    let ns := s.csNodes
    ⟨ns.map fun n => s.ctlSns0 n.1 + n.2,
     ns.map fun n => (List.range ns.length).filter fun j =>
       let q := ns.getD j (0, 0)
       q.1 == n.1 && (q.2 == n.2 + 1 || q.2 + 1 == n.2)⟩

/-- Grid frequencies G. -/
def State.gridFreqs (s : State) : Nat := 45 * s.fld Reg.TCH_SCAN 9 0 / 100 + 1

/-- Stride and number of plans (R403). -/
def State.stride (s : State) (u : Nat) : Nat := s.gridFreqs / s.unitTx u
def State.plans (s : State) (u : Nat) : Nat := if s.unitTx u = 0 then 0 else min 4 (min (s.stride u) (s.fld (tchCfg u) 1 0 + 1))

/-- start_plan; one that is no plan of the unit is not stated (assumption 1). -/
def State.startPlan (s : State) (u : Nat) : Nat :=
  let p := s.fld (tchCfg u) 3 2
  let n := s.plans u
  if p < n then p else (Config.freeBits 2 (2 ^ 121 + 16 * u + p)).toNat % max 1 n

/-- Basin offset of the baselines of plan `p`; each plan's nodes follow in order. -/
def State.baseAt (s : State) (u p : Nat) : Nat :=
  s.fld (Reg.BSN_PART_BASE 8) 10 0 * 65536 + 64 * s.fld (tchBase u) 15 0 + 2 * (s.unitGrid u).size * p

def State.baselines (s : State) (u p : Nat) : List Nat :=
  (List.range (s.unitGrid u).size).map fun i => ofLeBytes (s.bytes .basin (s.baseAt u p + 2 * i) 2)

def State.setBaselines (s : State) (u p : Nat) (l : List Nat) : State := s.write .basin (s.baseAt u p) (l.flatMap (leBytes 2))

/-- Current plan, and the plans whose baselines are captured. -/
def State.planNow (s : State) (u : Nat) : Nat := s.fld (tchStatus u) 29 28
def State.captured (s : State) (u p : Nat) : Bool := s.bit (tchStatus u) (24 + p)

/-- Two spans of lines meet. -/
def spansMeet (a n b m : Nat) : Bool := decide (a < b + m) && decide (b < a + n)

/-- Spans of lines that an enabled field or the enabled control scan uses, without unit `u`. -/
def State.linesUsed (s : State) (u : Nat) : List (Nat × Nat × Nat × Nat) :=
  (((List.range 8).filter fun n => n != u && s.bit Reg.TCH_CTRL n).map fun n =>
    (s.fieldTx0 n, s.fieldTx n, s.fieldSns0 n, s.fieldSns n))
  ++ (if u ≠ 8 && s.bit Reg.TCH_CTRL 8 then s.ctlsOn.map fun m => (s.ctlTx m, 1, s.ctlSns0 m, s.ctlSegs m) else [])

/-- The enable of unit `u` breaks R405, or its baselines do not fit (R406). -/
def State.tchConflict (s : State) (u : Nat) : Bool :=
  let mine := if u < 8 then [(s.fieldTx0 u, s.fieldTx u, s.fieldSns0 u, s.fieldSns u)]
    else s.ctlsOn.map fun m => (s.ctlTx m, 1, s.ctlSns0 m, s.ctlSegs m)
  let used := s.linesUsed u
  let bytes := 2 * (s.unitGrid u).size * s.plans u
  mine.any (fun a => decide (128 < a.1 + a.2.1) || decide (256 < a.2.2.1 + a.2.2.2) || decide (a.2.1 = 0) || decide (64 < a.2.1)
      || decide (128 < a.2.2.2)
      || used.any fun b => spansMeet a.1 a.2.1 b.1 b.2.1 || spansMeet a.2.2.1 a.2.2.2 b.2.2.1 b.2.2.2)
    || (decide (u = 8) && (decide (64 < s.csTx.length) || s.ctlsOn.any fun m => s.ctlsOn.any fun k =>
      decide (k < m) && s.ctlTx k == s.ctlTx m && spansMeet (s.ctlSns0 k) (s.ctlSegs k) (s.ctlSns0 m) (s.ctlSegs m)))
    || decide (s.fld (Reg.BSN_PART_SIZE 8) 10 0 * 65536 < 64 * s.fld (tchBase u) 15 0 + bytes)

/-! ### Start and stop (R405, R407, R421) -/

/-- The first frame of a unit: its start plan's baseline is captured over 4 frames. -/
def State.beginUnit (s : State) (u : Nat) : State :=
  let p := s.startPlan u
  let all := (List.range (s.unitGrid u).size).map fun i => (i, 0)
  let s1 := s.setTchUnit u { begun := true, refreshed := p, caps := [⟨p, all, 0, true⟩] }
  let s2 := ((s1.setFld (tchStatus u) 31 30 1).setFld (tchStatus u) 29 28 p).setFld (tchStatus u) 27 24 0
  s2.setBit Reg.TCH_STATUS (16 + u) true

/-- A privileged key is released: its state bits clear and its alarm is lowered (R411, R415). -/
def State.pkUp (s : State) (k m : Nat) : State :=
  let s1 := (s.setBit Reg.TCH_PK_STATE k false).setBit Reg.TCH_PK_LONG k false
  let s2 := match s.safetyPaddock with
    | some p => s1.setBit (Reg.TCH_U_PK_STATE p) k false
    | none => s1
  match (s.ctl m).alarm with
  | some a => (s2.setCtl m { s2.ctl m with alarm := none }).alarm a false
  | none => s2

/-- A privileged key is pressed (R415). -/
def State.pkDown (s : State) (k m : Nat) : State :=
  let s1 := s.setBit Reg.TCH_PK_STATE k true
  let s2 := match s.safetyPaddock with
    | some p => s1.setBit (Reg.TCH_U_PK_STATE p) k true
    | none => s1
  let a := s.reg (Reg.TCH_CTL_ACT_ACT m)
  if a.testBit 22 then (s2.setCtl m { s2.ctl m with alarm := some (bitsOf a 21 16) }).alarm (bitsOf a 21 16) true else s2

/-- A pressed control ends with a reason: its report, on a path of its own for a privileged key. -/
def State.endControl (s : State) (m reason : Nat) : State :=
  let x := s.ctl m
  let s1 := s.setCtl m { x with pressed := false, run := 0, still := none }
  match s.pkOf m with
  | some k => (s1.pkUp k m).pkTell k m (2 + 4 * reason)
  | none => match s.ctlHolder m with
    | some p => s1.tell 0 (s.ctlReport p m x (2 + 4 * reason))
    | none => s1

/-- A contact ends with a reason. -/
def State.endContact (s : State) (n : Nat) (x : Contact) (reason : Nat) : State :=
  let y := s.tchUnit n
  let cs := y.contacts.filter fun c => c.ident != x.ident
  let s1 := (s.setTchUnit n { y with contacts := cs }).setFld (tchStatus n) 20 16 cs.length
  match s.fieldHolder n with
  | some p => s1.tell 0 (contactReport p n x (2 + 4 * reason))
  | none => s1

/-- Messages to the report contexts that were given entries between two states, one each (Table 16.1). -/
def State.reportMsgs (s old : State) : State :=
  s.each (fun p t => match t.reportCtx p with
    | some c => if (t.ctx c).cqTail = (old.ctx c).cqTail ∧ (t.ctx c).cqUsed = (old.ctx c).cqUsed then t else t.ctxMsg c
    | none => t) (List.range 64)

/-- A unit is disabled: its contacts and pressed controls end with reason STOPPED (R421). -/
def State.stopUnit (s : State) (u : Nat) : State :=
  let s0 := if u = 8 then s.each (fun m t => t.endControl m 3) (s.ctlsOn.filter fun m => (s.ctl m).pressed && (s.pkOf m).isSome) else s
  let s1 := if u = 8 then s0.each (fun m t => t.endControl m 3) (s0.ctlsOn.filter fun m => (s0.ctl m).pressed)
    else s0.each (fun x t => t.endContact u x 3) (s0.tchUnit u).contacts
  let s2 := (s1.reportMsgs s0).setTchUnit u {}
  let s3 : State := if u = 8 then { s2 with tch := { s2.tch with ctls := [] } } else s2
  ((s3.setFld (tchStatus u) 31 30 0).setBit Reg.TCH_STATUS (16 + u) false).setBit Reg.TCH_STATUS u false

/-- The paddocks' report contexts of the frame that starts (Table 16.5). -/
def State.latchReports (s : State) : State :=
  { s with tch := { s.tch with
      report := (List.range 64).filterMap fun p => let w := s.reg (Reg.TCH_U_REPORT p); if w = 0 then none else some (p, w)
      resync := s.tch.asked, asked := [] } }

/-- A passed commit applies whole at a frame start (R422). -/
def State.touchApply (s : State) : State :=
  match s.tch.commit with
  | none => s
  | some m =>
    let a := s.applyWords m.words
    let s1 : State := { a with tch := { a.tch with commit := none } }
    let s2 := ((s1.setBit Reg.TCH_COMMIT_STATUS 0 false).setBit Reg.TCH_COMMIT_STATUS 1 true).setFld Reg.TCH_COMMIT_STATUS 15 8 0
    (s2.offer 0x0C01 [(8, choice 0x0C01 0), (8, 0)]).tchEvent 0

/-- A frame starts: shadows become active and units that wait for it begin. -/
def State.tchFrameBegin (s : State) : State :=
  let s1 := s.touchApply.latchReports
  s1.each (fun u t => if t.bit Reg.TCH_CTRL u && !(t.tchUnit u).begun then t.beginUnit u else t) (List.range 9)

/-- TCH_CTRL_WRITE (R405, R421): bits cleared stop their units; bits set start them, or are refused with CONFLICT. -/
def State.tchCtrl (s : State) (value : Nat) : State :=
  let was := s.fld Reg.TCH_CTRL 8 0
  let s1 := s.each (fun u t =>
    if t.bit Reg.TCH_CTRL u && !value.testBit u then (t.stopUnit u).setBit Reg.TCH_CTRL u false else t) (List.range 9)
  let s2 := s1.each (fun u t =>
    if !t.bit Reg.TCH_CTRL u && value.testBit u then
      (if t.tchConflict u then (t.offer 0x0C09 [(8, u)]).tchEvent 8 else (t.setBit Reg.TCH_CTRL u true).ungate 14)
    else t) (List.range 9)
  if was = 0 ∧ s2.fld Reg.TCH_CTRL 8 0 ≠ 0 then (s2.setReg Reg.TCH_FRAME 0).tchFrameBegin else s2

def execTchCtrlWrite (value : Nat) (s : State) : Host.Outcome State Fault Refusal := .next (s.tchCtrl value)

/-! ### Captures and recaptures (R407, R409) -/

/-- Nodes of a unit that are being recaptured at plan `p`. -/
def TchUnit.recapturing (x : TchUnit) (p : Nat) : List Nat :=
  (x.caps.filter fun c => c.plan == p && !c.first).flatMap fun c => c.sums.map (·.1)

/-- One frame at plan `p` enters its captures; those that have 4 set their baselines to the mean. -/
def State.captureFrame (s : State) (u p : Nat) (raw : List Nat) : State :=
  let x := s.tchUnit u
  let step := fun (c : Capt) => if c.plan = p then { c with sums := c.sums.map fun e => (e.1, e.2 + raw.getD e.1 0), frames := c.frames + 1 } else c
  let caps := x.caps.map step
  let done := caps.filter fun c => decide (4 ≤ c.frames)
  let s1 := s.setTchUnit u { x with caps := caps.filter fun c => decide (c.frames < 4) }
  s1.each (fun c t =>
    let base := t.baselines u c.plan
    let new := base.zipIdx.map fun b => match c.sums.find? fun e => e.1 == b.2 with
      | some e => raw16 ((e.2 : ℚ) / 4)
      | none => b.1
    let t1 := t.setBaselines u c.plan new
    if !c.first then t1
    else
      let t2 := t1.setBit (tchStatus u) (24 + c.plan) true
      if t2.fld (tchStatus u) 31 30 = 1 then
        let t3 := ((t2.setFld (tchStatus u) 31 30 2).setBit Reg.TCH_STATUS (16 + u) false).setBit Reg.TCH_STATUS u true
        (t3.offer 0x0C02 [(8, u), (8, c.plan)]).tchEvent 1
      else t2) done

/-- Nodes are recaptured: over the next 4 frames at the current plan, and at every other captured plan over its next 4 refresh
frames. -/
def State.recapture (s : State) (u : Nat) (nodes : List Nat) : State :=
  let x := s.tchUnit u
  let ps := (List.range (s.plans u)).filter fun p => p == s.planNow u || s.captured u p
  s.setTchUnit u { x with
    caps := x.caps ++ ps.map fun p => ⟨p, nodes.map fun i => (i, 0), 0, false⟩
    neg := x.neg.filter fun e => !nodes.contains e.1 }

/-- Nodes of pressed privileged keys. -/
def State.pkNodes (s : State) : List Nat :=
  (s.csNodes.zipIdx.filter fun n => (s.ctl n.1.1).pressed && (s.pkOf n.1.1).isSome).map (·.2)

/-- Nodes that have stood below −thresh for 3 frames: where there are enough, they are recaptured (R409, R411). -/
def State.negFrame (s : State) (u : Nat) (d : List Int) (skip : List Nat) : State :=
  let w := s.reg Reg.TCH_NEG_THRESH_ACT
  let x := s.tchUnit u
  let low := (List.range d.length).filter fun i => !skip.contains i && decide (d.getD i 0 < -((w % 65536 : Nat) : Int))
  let neg := low.map fun i => (i, min 3 (((x.neg.find? fun e => e.1 == i).elim 0 (·.2)) + 1))
  let s1 := s.setTchUnit u { x with neg := neg }
  let ripe := (neg.filter fun e => e.2 == 3).map (·.1)
  let ns := if u = 8 then ripe.filter fun i => !s.pkNodes.contains i else ripe
  if ripe.length < bitsOf w 31 16 || ns.isEmpty then s1
  else ((s1.recapture u ns).offer 0x0C03 [(8, u), (32, ns.length)]).tchEvent 2

/-! ### Contacts and controls of a frame (R410–R415, R420) -/

/-- Limits of a unit's nodes: touch_off of its field, or off of the node's control. -/
def State.offLimits (s : State) (u : Nat) : List Int :=
  if u < 8 then List.replicate (s.unitGrid u).size (s.fld (Reg.TCH_F_THRESH_ACT u) 31 16 : Int)
  else s.csNodes.map fun n => (s.fld (Reg.TCH_CTL_THRESH_ACT n.1) 31 16 : Int)

/-- report_div of a field; controls have none. -/
def State.reportDiv (s : State) (n : Nat) : Nat := max 1 (s.fld (Reg.TCH_F_CFG n) 7 4)

/-- The contacts of field `n` after an ordinary frame, and the reports of the frame. -/
def State.contactFrame (s : State) (n : Nat) (v : List Int) : State × List Report :=
  let x := s.tchUnit n
  let t := s.clk.stm
  let th := s.reg (Reg.TCH_F_THRESH_ACT n)
  let map := s.reg (Reg.TCH_F_MAP_ACT n)
  let (tx, sns) := (s.fieldTx n, s.fieldSns n)
  let ps := peaks (s.unitGrid n) sns v (bitsOf th 31 16 : Nat)
  let (pairs, left) := matchPeaks x.contacts.length (x.contacts.map fun c => (c.ident, c.px, c.py)) ps
  let due := decide (x.frames % s.reportDiv n = 0)
  let kept := x.contacts.filterMap fun c => (pairs.find? fun q => q.1 == c.ident).map fun q =>
    let p := q.2
    let pos := reportPos map tx sns p.px p.py
    let moved := due && decide (pos ≠ c.told)
    ((⟨c.ident, p.px, p.py, pos.1, pos.2, if moved then pos else c.told, p.peak, p.nodes.length, p.nodes,
      c.still.next t p.px p.py p.peak⟩ : Contact), moved)
  let gone := x.contacts.filter fun c => !(pairs.any fun q => q.1 == c.ident)
  let fresh := left.filter fun p => decide ((bitsOf th 15 0 : Int) ≤ p.peak)
  let idents := (List.range 20).filter fun i => !(kept.any fun k => k.1.ident == i)
  let admitted := (idents.take (s.fld (Reg.TCH_F_CFG n) 12 8 - kept.length)).zip fresh
  let new := admitted.map fun q =>
    let p := q.2
    let pos := reportPos map tx sns p.px p.py
    (⟨q.1, p.px, p.py, pos.1, pos.2, pos, p.peak, p.nodes.length, p.nodes, ⟨t, p.px, p.py, p.peak⟩⟩ : Contact)
  let ignored := fresh.length - admitted.length
  let all := (List.range 20).filterMap fun i => (kept.map (·.1) ++ new).find? fun c => c.ident == i
  let s1 := (s.setTchUnit n { x with contacts := all }).setFld (tchStatus n) 20 16 all.length
  let s2 := if ignored = 0 then s1
    else ((s1.count (tchStatus n) 15 0 ignored).offer 0x0C08 [(8, n), (32, ignored)]).tchEvent 7
  let reports := match s.fieldHolder n with
    | none => []
    | some p => (List.range 20).flatMap fun i =>
      let of := fun (l : List Contact) (state : Nat) => (l.filter fun c => c.ident == i).map fun c => contactReport p n c state
      of gone 2 ++ of ((kept.filter (·.2)).map (·.1)) 1 ++ of new 0
  (s2, reports)

/-- Haptic triggers of control `m` (R414). -/
def State.detents (s : State) (m count : Nat) : State :=
  let a := s.reg (Reg.TCH_CTL_ACT_ACT m)
  if !a.testBit 13 then s
  else (List.range (min 4 count)).foldl (fun t _ => t.hapArrive 1 m (bitsOf a 3 0) ⟨bitsOf a 11 4, a.testBit 12, 255, none⟩) s

/-- One control after an ordinary frame: its reports, and the transitions of a privileged key. `v` are its segments' deltas,
negative where a node is being recaptured. -/
def State.controlFrame (s : State) (m : Nat) (v : List Int) : State × List Report × List (Nat × Nat × Nat) :=
  let x := s.ctl m
  let t := s.clk.stm
  let kind := s.fld (Reg.TCH_CTL_CFG m) 1 0
  let th := s.reg (Reg.TCH_CTL_THRESH_ACT m)
  let key := s.reg (Reg.TCH_CTL_KEY_ACT m)
  let peak := v.foldl max 0
  let pos := sliderPos (kind == 3) (v.map Int.toNat)
  let value := if kind = 1 then 0 else match pos with
    | some q => sliderValue (kind == 3) v.length q
    | none => (Config.freeBits 16 (2 ^ 122 + 2 ^ 16 * t + m)).toNat
  let px := pos.getD 0
  let size := (v.filter fun d => decide ((bitsOf th 31 16 : Int) ≤ d)).length
  let holder := s.ctlHolder m
  let report := fun (y : Ctl) st => match s.pkOf m, holder with
    | none, some p => [s.ctlReport p m y st]
    | _, _ => []
  if x.pressed then
    let run := if peak < (bitsOf th 31 16 : Int) then x.run + 1 else 0
    let y := { x with
      run := run, peak := peak, size := size, value := value
      still := x.still.map fun (o : Still) => o.next t px 0 peak }
    if max 1 (bitsOf key 7 4) ≤ run then
      let z := { y with pressed := false, run := 0, still := none, value := x.value }
      let s1 := s.setCtl m z
      match s.pkOf m with
      | some k => (s1.pkUp k m, [], [(k, m, 2)])
      | none => (s1, report z 2, [])
    else
      let moved := kind ≠ 1 && decide (value ≠ x.told)
      let z := { y with told := if moved then value else x.told }
      let s1 := (s.setCtl m z).detents m (if kind = 1 then 0 else crossings (kind == 3) (bitsOf key 15 8) x.value value)
      match s.pkOf m with
      | some k => (s1, [], if moved then [(k, m, 1)] else [])
      | none => (s1, if moved then report z 1 else [], [])
  else
    let run := if (bitsOf th 15 0 : Int) ≤ peak then x.run + 1 else 0
    if max 1 (bitsOf key 3 0) ≤ run then
      let z : Ctl := { pressed := true, value := value, told := value, pressT := t, peak := peak, size := size, still := some ⟨t, px, 0, peak⟩ }
      let s1 := (s.setCtl m z).detents m (if kind = 1 then 1 else 0)
      match s.pkOf m with
      | some k => (s1.pkDown k m, [], [(k, m, 0)])
      | none => (s1, report z 0, [])
    else (s.setCtl m { x with run := run }, [], [])

/-- What the frame has produced so far: reports, and transitions of privileged keys. -/
structure FrameOut where
  st : State
  keys : List (Nat × Nat × Nat) := []
  controls : List Report := []
  contacts : List Report := []

/-- An ordinary frame of a unit (R407–R413). -/
def FrameOut.ordinary (o : FrameOut) (u : Nat) (raw : List Nat) : FrameOut :=
  let s := o.st
  let x := s.tchUnit u
  let p := s.planNow u
  let running := s.fld (tchStatus u) 31 30 == 2
  let s1 := s.setTchUnit u { x with frames := x.frames + 1 }
  if !running then { o with st := s1.captureFrame u p raw }
  else
    let g := s1.unitGrid u
    let skip := x.recapturing p
    let base := s1.baselines u p
    let d := deltas base raw
    let frozen := frozenNodes g d (s1.offLimits u) skip
    let v := d.zipIdx.map fun e => if skip.contains e.2 then -1 else e.1
    let s2 := s1.setBaselines u p (trackNodes g base raw frozen skip (s1.fld (tchCfg u) 19 16))
    let s3 := s2.setTchUnit u { s2.tchUnit u with frozen := frozen }
    let s4 := (s3.captureFrame u p raw).negFrame u d skip
    if u < 8 then
      let (s5, rs) := s4.contactFrame u v
      { o with st := s5, contacts := o.contacts ++ rs }
    else
      let nodes := s4.csNodes.zipIdx
      s4.ctlsOn.foldl (fun (a : FrameOut) m =>
        let (t, rs, ks) := a.st.controlFrame m ((nodes.filter fun n => n.1.1 == m).map fun n => v.getD n.2 0)
        { a with st := t, controls := a.controls ++ rs, keys := a.keys ++ ks }) { o with st := s4 }

/-! ### Service frames (R404, R408, R417, R418) -/

/-- The plan that a refresh frame runs: the next in rotation that is not the current one. -/
def refreshPlan (n now last : Nat) : Nat :=
  let ps := (List.range n).map fun i => (last + 1 + i) % n
  (ps.find? fun p => p != now).getD now

/-- A refresh frame of a unit: the plan's baseline is captured, or tracked with the frozen set of the last ordinary frame. -/
def State.refreshFrame (s : State) (u : Nat) (raw : List Nat) : State :=
  let x := s.tchUnit u
  let q := refreshPlan (s.plans u) (s.planNow u) x.refreshed
  let g := s.unitGrid u
  let fresh := !s.captured u q && !(x.caps.any fun c => c.plan == q && c.first)
  let caps := if fresh then x.caps ++ [⟨q, (List.range g.size).map fun i => (i, 0), 0, true⟩] else x.caps
  let s1 := s.setTchUnit u { x with refreshed := q, caps := caps }
  let s2 := if s.captured u q then
      s1.setBaselines u q (trackNodes g (s.baselines u q) raw x.frozen (x.recapturing q) (s.fld (tchCfg u) 19 16))
    else s1
  s2.captureFrame u q raw

/-- The noise of each plan of a unit: the largest magnitude over its frequencies and the unit's sense lines. -/
def State.planNoise (s : State) (u : Nat) (noise : List (Nat × Nat × Nat)) : List Nat :=
  let lines := (s.unitGrid u).lines
  (List.range (s.plans u)).map fun p =>
    let freqs := (List.range (s.unitTx u)).map fun k => p + s.stride u * k
    ((noise.filter fun e => freqs.contains e.1 && lines.contains e.2.1).map fun e => e.2.2 % 65536).foldl max 0

/-- A quiet frame of a unit: its noise is shown, and it hops or reports high noise (R417, R418). -/
def State.quietFrame (s : State) (u : Nat) (noise : List (Nat × Nat × Nat)) : State :=
  let x := s.tchUnit u
  let now := s.planNoise u noise
  let s1 := s.setTchUnit u { x with noise := some now }
  let s2 := s1.setReg (tchNoise u) ((now.zipIdx.map fun e => min 255 (e.1 / 16) * 256 ^ e.2).sum)
  let p := s.planNow u
  let lim := s.fld Reg.TCH_HOP_ACT 15 0
  let high := decide (lim < now.getD p 0) && (match x.noise with | some l => decide (lim < l.getD p 0) | none => false)
  let good := (List.range now.length).filter fun q => q != p && s.captured u q && decide (2 * now.getD q 0 ≤ now.getD p 0)
  if !high then s2
  else match good with
    | [] => (s2.offerRate 0x0C05 u 1000000000 [(8, u), (8, p), (32, now.getD p 0)] []).tchEvent 4
    | q :: qs =>
      if x.caps.any fun c => !c.first then s2
      else
        let best := qs.foldl (fun a b => if now.getD b 0 < now.getD a 0 then b else a) q
        let s3 := s2.setFld (tchStatus u) 29 28 best
        (s3.offer 0x0C04 [(8, u), (8, p), (8, best), (32, now.getD p 0)]).tchEvent 3

/-- One unit at the end of frame `n`. -/
def FrameOut.unit (o : FrameOut) (n : Nat) (noise : List (Nat × Nat × Nat)) (u : Nat) (raw : List Nat) : FrameOut :=
  if !(o.st.tchUnit u).begun || o.st.plans u = 0 then o
  else if n % 16 ≠ 15 then o.ordinary u raw
  else if o.st.plans u = 1 ∨ n / 16 % 2 = 0 then { o with st := o.st.quietFrame u noise }
  else { o with st := o.st.refreshFrame u raw }

/-- TOUCH_FRAME_END (Table 16.1): the end of integration stamps the frame; contacts, controls and reports follow, and the next
frame starts. -/
def State.touchFrame (s : State) (raw : List (Nat × List Nat)) (noise : List (Nat × Nat × Nat)) : State :=
  let n := s.reg Reg.TCH_FRAME
  let s0 : State := { s with tch := { s.tch with tF := s.clk.stm, nF := n } }
  let o := (List.range 9).foldl (fun (a : FrameOut) u =>
    a.unit n noise u (((raw.find? fun r => r.1 == u).map (·.2)).getD [])) { st := s0 }
  let s1 := o.st.each (fun (k : Nat × Nat × Nat) t => t.pkTell k.1 k.2.1 k.2.2) o.keys
  let s2 := s1.each (fun r t => t.tell 0 r) (o.controls ++ o.contacts)
  let s3 := s2.each (fun p t => if t.tch.lost.contains p then t else t.sendSet p 8) s0.tch.resync
  let s4 := (s3.reportMsgs s1).each (fun p t => t.touchRoom p) (List.range 64)
  (s4.setReg Reg.TCH_FRAME (n + 1)).tchFrameBegin

def execTouchFrameEnd (raw : List (Nat × List Nat)) (noise : List (Nat × Nat × Nat)) (s : State) :
    Host.Outcome State Fault Refusal :=
  .next (if s.fld Reg.TCH_CTRL 8 0 = 0 then s else s.touchFrame raw noise)

/-! ### Stuck touches and long holds (R410, R411) -/

/-- Stationary for the s seconds of TCH_STUCK_TIMEOUT. -/
def State.stuck (s : State) (o : Still) : Bool :=
  let n := s.fld Reg.TCH_STUCK_TIMEOUT_ACT 15 0
  n != 0 && decide (o.since + n * 1000000000 ≤ s.clk.stm)

/-- STUCK_RELEASE (R410): the touch ends with reason STUCK and its nodes are recaptured. Never a privileged key (R411). -/
def execStuckRelease (touch : TouchId) (s : State) : Host.Outcome State Fault Refusal :=
  match touch with
  | .contact field ident =>
    match (s.tchUnit field.val).contacts.find? fun c => c.ident == ident.val with
    | none => .next s
    | some x =>
      if s.stuck x.still then
        let s1 := ((s.endContact field.val x 1).reportMsgs s).recapture field.val x.nodes
        .next ((s1.offer 0x0C07 [(8, field.val), (8, ident.val)]).tchEvent 6)
      else .next s
  | .control m =>
    let x := s.ctl m.val
    if x.pressed && (s.pkOf m.val).isNone && x.still.any s.stuck then
      let nodes := (s.csNodes.zipIdx.filter fun n => n.1.1 == m.val).map (·.2)
      let s1 := ((s.endControl m.val 1).reportMsgs s).recapture 8 nodes
      .next ((s1.offer 0x0C07 [(16, m.val), (8, 0)]).tchEvent 6)
    else .next s

/-- KEY_HELD_LONG (R411). -/
def execKeyHeldLong (key : Fin 32) (s : State) : Host.Outcome State Fault Refusal :=
  let k := key.val
  match s.ctlOfPk k with
  | none => .next s
  | some m =>
    let n := s.fld (Reg.TCH_CTL_KEY_ACT m) 31 16
    let x := s.ctl m
    if x.pressed && n != 0 && !s.bit Reg.TCH_PK_LONG k && decide (x.pressT + n * 1000000000 ≤ s.clk.stm) then
      let s1 := (s.setBit Reg.TCH_PK_LONG k true).offer 0x0C06 [(8, k)]
      .next ((s1.tchEvent 5).pkTell k m 3)
    else .next s

/-- A write of TCH_U_RESYNC (R420). -/
def State.resyncAsk (s : State) (p : Nat) : State := { s with tch := { s.tch with asked := p :: s.tch.asked } }

def execTouchResync (paddock : Fin 64) (s : State) : Host.Outcome State Fault Refusal :=
  .next (if s.reaches paddock.val then s.resyncAsk paddock.val else s)

/-! ### Commits (R422) -/

/-- The shadows that a commit of this scope covers: those of the whole block in every commit. -/
def tchKeys (scope : Nat) : List Nat :=
  [Reg.TCH_STUCK_TIMEOUT, Reg.TCH_NEG_THRESH, Reg.TCH_HOP]
    ++ ((List.range 8).filter scope.testBit).flatMap (fun n => [Reg.TCH_F_THRESH n, Reg.TCH_F_MAP n])
    ++ (if scope.testBit 8 then (List.range 256).flatMap fun m => [Reg.TCH_CTL_THRESH m, Reg.TCH_CTL_KEY m, Reg.TCH_CTL_ACT m] else [])

/-- A threshold pair: on above zero and off below it. -/
def pairBad (w : Nat) : Bool := bitsOf w 15 0 == 0 || decide (bitsOf w 15 0 ≤ bitsOf w 31 16)

/-- The code of the first failing check of a touch commit, or 0. -/
def State.touchCheck (s : State) (scope : Nat) : Nat :=
  let fields := (List.range 8).filter scope.testBit
  let ctls := if scope.testBit 8 then s.ctlsOn else []
  let w := s.reg
  if w Reg.TCH_STUCK_TIMEOUT / 65536 ≠ 0 ∨ w Reg.TCH_HOP / 65536 ≠ 0 ∨ (fields.any fun n => (w (Reg.TCH_F_MAP n)).testBit 31)
      ∨ (scope.testBit 8 && (List.range 256).any fun m => decide (w (Reg.TCH_CTL_ACT m) &&& 0xFF80C000 ≠ 0)) then 1
  else if (fields.any fun n => pairBad (w (Reg.TCH_F_THRESH n))) ∨ ctls.any fun m => pairBad (w (Reg.TCH_CTL_THRESH m)) then 2
  else if fields.any fun n => bitsOf (w (Reg.TCH_F_MAP n)) 13 0 == 0 || bitsOf (w (Reg.TCH_F_MAP n)) 29 16 == 0 then 3
  else if ctls.any fun m => (w (Reg.TCH_CTL_ACT m)).testBit 22 && (s.pkOf m).isNone then 5
  else 0

/-- TOUCH_COMMIT: a write of TCH_COMMIT with go. -/
def State.touchCommit (s : State) (scope : Nat) : State :=
  if s.tch.commit.isSome then s.setBit Reg.TCH_COMMIT_STATUS 4 true
  else
    let code := s.touchCheck scope
    if code = 0 then
      State.setBit { s with tch := { s.tch with commit := some ⟨s.copyWords (tchKeys scope)⟩ } } Reg.TCH_COMMIT_STATUS 0 true
    else
      let s1 := (s.setBit Reg.TCH_COMMIT_STATUS 3 true).setFld Reg.TCH_COMMIT_STATUS 15 8 code
      (s1.offer 0x0C01 [(8, choice 0x0C01 1), (8, code)]).tchEvent 0

def execTouchCommit (scope : Nat) (s : State) : Host.Outcome State Fault Refusal := .next (s.touchCommit scope)

/-! ### GRAZE (R423) -/

/-- The wake zone as TX and SNS lines, and its grid. -/
def State.zoneDims (s : State) : Nat × Nat := (s.fld Reg.TCH_GRAZE_ZONE 12 9 + 1, s.fld Reg.TCH_GRAZE_ZONE 24 20 + 1)
def State.zoneGrid (s : State) : Grid :=
  fieldGrid s.zoneDims.1 s.zoneDims.2 (s.fieldSns0 (s.fld Reg.TCH_GRAZE_ZONE 2 0) + s.fld Reg.TCH_GRAZE_ZONE 19 13)

/-- How far a contact has moved in the set direction, in node pitches. -/
def movedTo (dir : Nat) (a b : ℚ × ℚ) : ℚ :=
  match dir with
  | 0 => b.1 - a.1
  | 1 => a.1 - b.1
  | 2 => b.2 - a.2
  | _ => a.2 - b.2

/-- The sequencer signals a wake of its mode at a node. -/
def State.grazeWake (s : State) (node : Nat) : State :=
  State.wakeBy { s with tch := { s.tch with graze := { s.tch.graze with slide := none, woke := some (s.fld Reg.TCH_GRAZE 10 9, node) } } } 0

/-- GRAZE_SCAN: one frame of the wake zone. The first 4 capture its baseline; later ones decide by mode. -/
def State.grazeScan (s : State) (raw : List Nat) : State :=
  let z := s.tch.graze
  let g := s.zoneGrid
  let set := fun (y : Graze) => { s with tch := { s.tch with graze := y } }
  if z.frames < 4 then
    let sums := (List.range g.size).map fun i => z.sums.getD i 0 + raw.getD i 0
    let done := decide (z.frames = 3)
    set { z with frames := z.frames + 1, sums := sums, base := if done then sums.map fun n => raw16 ((n : ℚ) / 4) else z.base }
  else
    let f := s.fld Reg.TCH_GRAZE_ZONE 2 0
    let d := deltas z.base raw
    let frozen := frozenNodes g d (List.replicate g.size (s.fld (Reg.TCH_F_THRESH_ACT f) 31 16 : Int)) []
    let y := { z with base := trackNodes g z.base raw frozen [] (s.fld (Reg.TCH_F_CFG f) 19 16) }
    let wake : Int := s.fld Reg.TCH_GRAZE 31 16
    let hot := (List.range g.size).find? fun i => decide (wake ≤ d.getD i 0)
    if s.fld Reg.TCH_GRAZE 10 9 = 1 then
      match hot with
      | some i => (set y).grazeWake i
      | none => set y
    else
      let ps := peaks g s.zoneDims.2 d wake
      match z.slide, hot with
      | none, none => set y
      | none, some _ => set { y with slide := some (ps.map fun p => ((p.px, p.py), (p.px, p.py))) }
      | some l, _ =>
        let (pairs, left) := matchPeaks l.length (l.zipIdx.map fun e => (e.2, e.1.2.1, e.1.2.2)) ps
        let l1 := l.zipIdx.filterMap fun e => (pairs.find? fun q => q.1 == e.2).map fun q => ((e.1.1, (q.2.px, q.2.py)), q.2.node)
        let need : ℚ := (s.fld Reg.TCH_GRAZE_ZONE 28 25 : ℚ)
        match l1.find? fun e => decide (need ≤ movedTo (s.fld Reg.TCH_GRAZE 12 11) e.1.1 e.1.2) with
        | some e => (set y).grazeWake e.2
        | none => set { y with slide := some (l1.map (·.1) ++ left.map fun p => ((p.px, p.py), (p.px, p.py))) }

/-- The sequencer runs: GRAZE, a mode set, no wake in progress. -/
def State.grazing (s : State) : Bool :=
  s.power == 3 && s.pwr.wake.isNone && (s.fld Reg.TCH_GRAZE 10 9 == 1 || s.fld Reg.TCH_GRAZE 10 9 == 2)

def execGrazeScan (raw : List Nat) (s : State) : Host.Outcome State Fault Refusal := .next (if s.grazing then s.grazeScan raw else s)

/-- GRAZE_SLIDE_TIMEOUT: the AFE sleeps again. -/
def execGrazeSlideTimeout (s : State) : Host.Outcome State Fault Refusal :=
  .next { s with tch := { s.tch with graze := { s.tch.graze with slide := none } } }

end Sys2Proof.Machine
end

