-- ==== Sys2Proof/Machine/RunEntry.lean ====
section
/-! DEFINITION. RUN entry (step 12 of Table 3.1, R85, Table 3.9): every block stands as its row of that table says. -/

namespace Sys2Proof.Machine

/-- Section types of which a power block (Table 20.2) needs one in the image (Table 3.6); none for a block that always runs. -/
def sectionsFor (b : Nat) : List Nat :=
  if b < 8 then [0xD, 0xE]
  else match b with
  | 8 | 9 => [0xD]
  | 10 => [0xC]
  | 11 => [0xA]
  | 12 | 18 => [0xF]
  | 13 => [0x10]
  | 14 => [0x11]
  | 15 => [0x12]
  | 16 => [0x13]
  | _ => []

/-- A block with no section is disabled and clock-gated; an enabled block is not gated (R85, R469), nor is
a claimed one (R104). -/
def State.runGates (s : State) : State :=
  s.each (fun b t =>
    let want := sectionsFor b
    let absent := !want.isEmpty && !want.any t.boot.sections.contains
    if t.blockOn b then t.setBit Reg.PCR_GATE b false
    else if absent && !t.claimed b then t.setBit Reg.PCR_GATE b true else t) (List.range 23)

/-- Paddocks: the manager ACTIVE, every other declared one that its port carries ASSIGNED, and the PFs of enabled ports
present (R118, R127). -/
def State.runPaddocks (s : State) : State :=
  let s1 := s.each (fun n t => if t.boot.hpWidth.getD n 0 ≠ 0 then t.setBit (Reg.PDK_STATE (16 * n)) 4 true else t) (List.range 4)
  let s2 := s1.setFld (Reg.PDK_STATE s1.manager) 2 0 2
  let s3 := s2.each (fun p t =>
    if p ≠ t.manager ∧ fnCarried t.boot.hpWidth t.boot.hpVfs p then t.movePdk p 1 else t) s2.boot.declared
  s3.each (fun p t => t.syncContexts p) (List.range 64)

/-- Power: the state that PLATFORM names (R465), the cap at point 7, the point that follows (R475, R477), both rails commanded
to their setpoints (R39, R474; the regulator is taken to have followed by RUN entry, assumption 92). -/
def State.runPowerState (s : State) : State :=
  let st := if s.boot.runPower ≤ 2 then s.boot.runPower else 0
  let s1 := (s.setFld Reg.PCR_STATUS 31 29 st).setFld Reg.PCR_JET_STATE 26 24 7
  let p := s1.targetPoint
  let mv := if st = 2 then 550 else pointMv p
  let s2 := (((s1.setPoint p).setMv mv).emitOn 9 (.avs 0 0 mv)).emitOn 9 (.avs 1 0 s.fusedMv)
  { s2 with pins := { s2.pins with coreMv := s.fusedMv } }

/-- Jets: the image's RL values are in force, pre-retired jets are fenced, and the array runs where the image enables it. -/
def State.runJets (s : State) : State :=
  if s.bit Reg.JA_CTRL 0 then s.jaCtrl 1 else s.jaForce.preretire.jaSync

/-- Composers: every layer disabled, those that the image enables running. -/
def State.runComposers (s : State) : State :=
  s.each (fun c t =>
    let t1 := t.each (fun l u =>
      let k := Reg.CMP_L_CTRL c l
      (u.setBit k 0 false).setBit (k + 0x400) 0 false) (List.range 16)
    (t1.setBit (Reg.CMP_STATUS c) 31 (t1.bit (Reg.CMP_CTRL c) 0)).setBit (Reg.CMP_STATUS c) 30 (t1.bit (Reg.CMP_HOLD c) 0))
    (List.range 10)

/-- Heads: at the main gait; in DP mode HDn_VDDEN follows the image's HD_PANEL_CTRL.power (R330); an enabled one starts. -/
def State.runHeads (s : State) : State :=
  s.each (fun n t =>
    let t1 := t.setFld (Reg.HD_GAIT n) 4 0 (t.fld (Reg.HD_GAITS n) 5 0)
    let t2 := if t1.edp n then t1 else t1.driveVdd n (t1.bit (Reg.HD_PANEL_CTRL n) 0)
    if t2.bit (Reg.HD_CTRL n) 0 then t2.startHead n else t2) (List.range 8)

/-! Light, network, touch, haptics and audio: each runs where the image sets its enable, as a write of its CTRL would. -/

def State.runLight (s : State) : State :=
  let s1 := s.each (fun p t => if t.bit (Reg.LO_DMX_CFG p) 1 then t.dmxDrive p 1 1 else t) (List.range 8)
  if s1.bit Reg.LO_CTRL 0 then s1.loCtrl 1 else s1

def State.runNet (s : State) : State :=
  (s.setBit Reg.NET_PTP_STATUS 20 (s.bit Reg.NET_CFG 4)).netCtrl (s.reg Reg.NET_CTRL)

def State.runTouch (s : State) : State :=
  ((s.setReg Reg.TCH_CTRL 0).setBit Reg.TCH_STATUS 31 true).tchCtrl (s.reg Reg.TCH_CTRL)

def State.runHaptics (s : State) : State := if s.bit Reg.HAP_CTRL 0 then s.hapCtrl 1 else s

def State.runAudio (s : State) : State := if s.bit Reg.AUD_CTRL 0 then s.audCtrl 1 else s

/-- Koroft: running KOROFT_CODE behind a live owner table, with its watchdog armed (R105, Table 3.9). -/
def State.runKoroft (s : State) : State :=
  let s1 := (s.setBit Reg.SEC_STATUS 0 true).setBit Reg.SEC_STATUS 1 true
  { s1 with sec := { s1.sec with lastKick := s1.clk.stm, paused := false } }

/-- WH_LOAD_TIME at the end of LOAD: what the field holds of a time past its 16 bits is not stated (assumption 1). -/
def loadMs (t : Nat) : Nat :=
  let ms := t / 1000000
  if ms < 2 ^ 16 then ms else (Config.freeBits 16 (2 ^ 82 + ms)).toNat

/-- RUN_ENTRY: after WELLHEAD_LOAD has loaded a slot. Directory writes that Wellhead decided now run (R73). -/
def execRunEntry (s : State) : Host.Outcome State Fault Refusal :=
  if s.devState = 2 && s.boot.loaded.isSome then
    let s1 := (s.enter 3 none).setFld Reg.WH_LOAD_TIME 15 0 (loadMs s.clk.stm)
    let s2 : State := { s1 with
      clk := { s1.clk with runEntry := s1.clk.stm }
      boot := { s1.boot with loaded := none } }
    let s3 := s2.setBit Reg.WH_STATUS 3 (!s2.boot.dirWrites.isEmpty)
    .next s3.runKoroft.runPaddocks.runPowerState.runGates.runJets.runComposers.runHeads.runLight.runNet.runTouch.runHaptics.runAudio
  else .next s

end Sys2Proof.Machine
end

