-- ==== Sys2Proof/Machine/Wellhead.lean ====
section
/-! DEFINITION. Wellhead (spec/03): loading a slot, the slot directory, the confirm and reboot keys, and the flash commands. -/

namespace Sys2Proof.Machine

/-- The checks of steps 6 to 8 on the slot at flash offset `b`: the header and the sections with their plaintext. -/
def State.verifySlot (s : State) (b : Nat) : Except Failure (Header × List Section) := do
  let h ← s.headerCheck b
  s.keyCheck b h
  let xs := s.sectionsOf b h.count
  if let some x := xs.find? (s.secBad b h xs) then throw ⟨8, x.idx, 0⟩
  if requiredTypes.any fun ty => (secOf ty xs).isNone then throw ⟨8, 0xFF, 0⟩
  if let some x := xs.find? fun x => (s.decrypt x).isNone then throw ⟨9, x.idx, 0⟩
  let ys := xs.filterMap s.decrypt
  if let some x := ys.find? fun x => crc32c x.plain != x.crc then throw ⟨10, x.idx, 0⟩
  if let some x := ys.find? fun x => (badRecord x).isSome then throw ⟨11, x.idx, (badRecord x).getD 0 % 65536⟩
  pure (h, ys)

/-- Paddocks declared by PADDOCKS (R85). -/
def declaredOf (xs : List Section) : List Nat :=
  let offs := ((secOf 6 xs).elim [] fun x => recordsOf x.plain).map (·.1)
  (List.range 64).filter fun p => offs.contains (Reg.PDK_LIMIT p)

/-- The registers as the image sets them, on top of a device whose blocks are in their state after PORn. -/
def State.withImage (s : State) (h : Header) (xs : List Section) (plat : List Byte) : State :=
  let s1 := (s.applyPlatform plat).applyLists xs
  { s1 with boot := { s1.boot with
    declared := declaredOf xs, sections := xs.map (·.typ), keyIndex := h.keyIndex,
    advance := decide (h.flags / 2 % 2 = 1) } }

/-- The gains that the image's AUD_XP_DATA records store in the inactive bank (R80, R443). -/
def State.applyGains (s : State) (xs : List Section) : State :=
  let recs := (secOf 19 xs).elim [] fun x => recordsOf x.plain
  (recs.foldl (fun (a : State × Nat) r =>
    if r.1 = Reg.AUD_XP_ADDR then (a.1, r.2 % 8192)
    else if r.1 = Reg.AUD_XP_DATA then
      (a.1.write .basin (s.xpAt (1 - s.audBank) + 2 * a.2) (leBytes 2 r.2), (a.2 + 1) % 8192)
    else a) (s, 0)).1

/-- Data sections at their targets and the gains of the image, zero elsewhere (R173, R181), DRAM_DATA granules initialised
(R181), KOROFT_CODE measured into the anchors (R86) and in the execution area, and the owner
entries; a DRAM granule at or above the capacity stays FREE (R179). -/
def State.applyData (s : State) (xs : List Section) : State :=
  let s0 := { s with mem := {} }.applyGains xs
  let s1 := s0.each (fun x s =>
    if x.typ = 0x14 then s.write .basin x.target x.plain
    else if x.typ = 0x15 then
      s.write .dram (x.target + 2 ^ 32 * x.targetHi) x.plain
    else s) xs
  let s2 := match secOf 4 xs with
    | some x =>
      let d := Config.sha384 x.plain
      let s' := (s1.write .basin codeBase x.plain).write .basin (execBase x.len) x.plain
      let s'' := { s' with boot := { s'.boot with codeLen := x.len } }
      s''.each (fun n s => s.setReg (Reg.SEC_ANCHOR n) (digestWord d n)) (List.range 12)
    | none => s1
  match secOf 5 xs with
  | some x => s2.each (fun ge s => s.setOwner ge.1 ge.2) ((ownerEntries 0 x.plain).filter fun ge =>
    decide (0x100000 ≤ ge.1) || decide (ge.1 < s2.fld Reg.MEM_CAPACITY 20 0))
  | none => { s2 with mem := { s2.mem with ownerDflt := mkEnt 1 false 0 s2.manager } }

/-- A step of the start-up log (WH_STEP of Table 21.4). -/
def State.logStep (s : State) (step slot : Nat) : State :=
  { s with boot := { s.boot with log := s.boot.log ++ [mkRec 0x0401 [(8, step), (8, slot)] s.clk.stm] } }

/-- The failing check of a slot in WH_FAIL_A or WH_FAIL_B (Table 3.12). -/
def State.showFailure (s : State) (slot : Nat) (f : Failure) : State :=
  s.setReg (if slot = 0 then Reg.WH_FAIL_A else Reg.WH_FAIL_B) (f.detail % 65536 * 65536 + f.sec % 256 * 256 + f.code)

/-- The items of SLOT_FAILED. -/
def Failure.items (f : Failure) (slot : Nat) : List (Nat × Nat) := [(8, slot), (8, f.code), (8, f.sec), (32, f.detail)]

/-- The failing check of a slot in WH_FAIL_A or WH_FAIL_B, and in the start-up log (R82). -/
def State.recordFailure (s : State) (slot : Nat) (f : Failure) : State :=
  let s1 := s.showFailure slot f
  { s1 with boot := { s1.boot with log := s1.boot.log ++ [mkRec 0x0402 (f.items slot) s.clk.stm] } }

/-- The start-up log stamped at the show time of each entry (R24, Table 3.9): `steps` are the times of its entries in ns after
the load begins, in order. LOAD lasts until the last of them. -/
def State.stampLog (s : State) (steps : List Nat) : State :=
  let t := s.clk.stm
  { s with
    boot := { s.boot with log := (s.boot.log.zipIdx).map fun x => { x.1 with time := t + steps.getD x.2 (steps.getLastD 0) } }
    clk := { s.clk with stm := t + steps.getLastD 0 } }

/-- Wellhead streams the slot at flash offset `b` into the staging window as soon as its header has been read (R83). -/
def State.stage (s : State) (b : Nat) : State :=
  match s.headerCheck b with
  | .ok h => s.write .basin (stageBase h.length) (s.flashBytes b h.length)
  | .error _ => s

/-- The step of Table 3.1 at which a check ends its slot (R82). -/
def lastStep (code detail : Nat) : Nat :=
  if code ≤ 3 then 6 else if code ≤ 8 then 7 else if code ≤ 0xB then 8
  else if code = 0x18 ∧ detail ≠ 0xFF then 10 else if code = 0x19 then 11 else 9

/-- Log the steps from 6 to `n` of one slot. -/
def State.logSteps (s : State) (slot n : Nat) : State :=
  s.each (fun k s => s.logStep (k + 6) slot) (List.range (n - 5))

/-- Steps 6 to 11 on one slot. -/
def State.loadSlot (s : State) (slot : Nat) (facts : LoadFacts) : Except Failure State := do
  let b := slotBase slot
  let (h, xs) ← s.verifySlot b
  let plat := (secOf 1 xs).elim [] (·.plain)
  let t := s.withImage h xs plat
  t.admission h xs plat
  if let some c := (List.range 8).find? fun c => (platByte plat 0).testBit c && facts.trainFail.contains c then
    throw ⟨0x18, 0xFF, c⟩
  let t1 := t.each (fun c t => if (platByte plat 0).testBit c then
    (t.setBit Reg.MEM_STATUS (24 + c) true).setBit (Reg.MEM_CH_STATUS c) 4 true else t) (List.range 8)
  if let some ty := facts.refuses then
    if xs.any fun x => x.typ == ty then throw ⟨0x19, (secOf ty xs).elim 0xFF (·.idx), ty⟩
  let t2 := t1.applyData xs
  let d := Config.sha384 (s.flashBytes b h.sigOffset)
  let t3 := t2.each (fun n t => t.setReg (Reg.WH_MEASURE n) (digestWord d n)) (List.range 12)
  let t4 := (t3.setReg Reg.WH_IMAGE_VER h.version).setReg Reg.WH_SEC_VER
    (b2n (h.flags / 2 % 2 = 1) * 65536 + s.fuses.minSec * 256 + h.secVersion)
  pure ((t4.setFld Reg.WH_STATUS 1 0 slot).setBit Reg.BSN_STATUS 0 true)

/-- A directory write decided now: it rewrites the copy with the lower sequence, an invalid copy counting as the lower, and
carries the next sequence number (R70, R71). `cur` is the copy in force. -/
def State.decideDir (s : State) (cur : Option (Nat × Dir)) (f : Dir → Dir) : State × Option (Nat × Dir) :=
  match cur with
  | some (c, d) =>
    let w := (1 - c, { f d with sequence := (d.sequence + 1) % 2 ^ 32 })
    ({ s with boot := { s.boot with dirWrites := s.boot.dirWrites ++ [w], dir := some w.2 } }, some w)
  | none => (s, none)

/-- WH_SLOT shows the directory in force (Table 3.13), one decided in LOAD already before it is written (DESIGN CHOICE, assumption
94). -/
def State.showDir (s : State) (d : Dir) : State :=
  s.setReg Reg.WH_SLOT (d.tries % 2 * 2 ^ 16 + d.stateB % 16 * 256 + d.stateA % 16 * 16 + d.preferred % 2)

/-- The recorder enabled at step 11 with the start-up log as its first records (R460, R463). -/
def State.startRecorder (s : State) : State :=
  let s1 := if s.boot.sections.contains 9 then s else s.setReg Reg.EVR_CFG 4
  let s2 := (s1.setBit Reg.EVR_CTRL 0 true).setReg Reg.EVR_STATUS (2 ^ 31 + s1.evrSlots)
  let s3 := { s2 with evr := { s2.evr with mode := s2.fld Reg.EVR_CFG 31 31, keepK := s2.fld Reg.EVR_CFG 9 0 } }
  let s4 := if s3.fld Reg.SEC_RESET_INFO 1 0 = 0 then s3 else
    let last := (s3.sec.secSlots.filter fun p => p.2.getD 1 0 == 0x0307).foldl
      (fun a p => if a.getD 0 0 ≤ p.2.getD 0 0 then p.2 else a) []
    let r := mkRec 0x0307 [(8, s3.fld Reg.SEC_RESET_INFO 1 0), (32, s3.fld Reg.SEC_WDT_STATUS 7 0)] (last.getD 2 0)
    { s3 with boot := { s3.boot with log := s3.boot.log ++ [{ r with d2 := last.getD 0 0 % 2 ^ 32 }] } }
  let s5 := s4.each (fun r s => s.accept r) s4.boot.log
  { s5 with boot := { s5.boot with log := [] } }

/-- Try the slots of `order` in turn (steps 6 to 11, R71, R82). Each entry is a slot with what it meets outside. -/
def State.trySlots (s : State) : List (Nat × LoadFacts) → State × Option Nat
  | [] => (s, none)
  | (slot, facts) :: rest =>
    match s.loadSlot slot facts with
    | .ok t => (t.logSteps slot 11, some slot)
    | .error f =>
      State.trySlots (((s.stage (slotBase slot)).logSteps slot (lastStep f.code f.detail)).recordFailure slot f) rest

/-- The directory after a slot has reached its apply step, R72 or R73. -/
def State.settleDir (s : State) (found : Option (Nat × Dir)) (slot : Nat) (tried : List Nat) : State :=
  match found with
  | some (c, d) =>
    if d.preferred = slot then s
    else (s.decideDir (some (c, d)) fun d => { d.setState (1 - slot) 3 with preferred := slot }).1
  | none =>
    let other := if tried.contains (1 - slot) then 3 else 1
    let d : Dir := ({ sequence := 1, preferred := slot, stateA := 1, stateB := 1, tries := 0 } : Dir).setState (1 - slot) other
    { s with boot := { s.boot with dirWrites := s.boot.dirWrites ++ [(0, d)], dir := some d } }

/-- What LOAD decides from the directory: the state with that decision shown, the directory as decided, and the slots to
try, in order (R73, R74). -/
def State.loadOrder (s : State) : State × Option (Nat × Dir) × List Nat :=
  match s.dirInForce with
  | none => (s, none, [0, 1])
  | some (c, d) =>
    let p := d.preferred % 2
    let order := fun q => [q, 1 - q].filter fun q => d.slotState q != 0
    if d.slotState p = 2 ∧ d.tries = 1 then
      let r := s.decideDir (some (c, d)) fun d => { d with tries := 0 }
      (r.1, r.2, order p)
    else if d.slotState p = 2 ∧ d.tries = 0 then
      let r := s.decideDir (some (c, d)) fun d => { d.setState p 3 with preferred := 1 - p }
      (r.1, r.2, order (1 - p))
    else (s, some (c, d), order p)

/-- The directory that WH_SLOT shows after LOAD: the one LOAD wrote, or else the one it found. -/
def State.showFound (s : State) (found : Option (Nat × Dir)) : State :=
  match s.boot.dir, found with
  | some d, _ => s.showDir d
  | none, some (_, d) => { s with boot := { s.boot with dir := some d } }.showDir d
  | none, none => s

/-- LOAD ends with `slot` loaded: the directory settled, every group of Table 2.4 released and the recorder started. -/
def State.slotLoaded (s : State) (found : Option (Nat × Dir)) (slot : Nat) (tried steps : List Nat) : State :=
  let s1 := (s.settleDir found slot tried).showFound found
  State.startRecorder (State.stampLog { s1.holdGroups (List.range 10) with boot := { s1.boot with loaded := some slot } } steps)

/-- LOAD (R67–R86): the flash, reset by XSPI_RSTn, the directory, the slots in their order, and what follows failure of both. The
groups are released once the blocks of a slot are programmed (R36). -/
def State.doWellheadLoad (s : State) (sfdpOk : Bool) (fa fb : LoadFacts) (steps : List Nat) : State :=
  let s0 := (((s.holdGroups [0, 4]).emit (.pin "XSPI_RSTn" 0)).emit (.pin "XSPI_RSTn" 1)).logStep 4 0xFF
  if !sfdpOk then
    let f : Failure := ⟨1, 0xFF, 0⟩
    (((s0.recordFailure 0 f).recordFailure 1 f).stampLog steps).enterRecovery 0x10
  else
    let (s1, found, order) := ((s0.logStep 5 0xFF).setBit Reg.WH_STATUS 2 s0.dirInForce.isSome).loadOrder
    let (s2, done) := s1.trySlots (order.map fun q => (q, if q = 0 then fa else fb))
    match done with
    | some slot => s2.slotLoaded found slot (order.takeWhile (· ≠ slot)) steps
    | none => ((s2.showFound found).stampLog steps).enterRecovery 0x10

/-- WELLHEAD_LOAD runs in LOAD. -/
def execWellheadLoad (sfdpOk : Bool) (a b : LoadFacts) (s : State) (steps : List Nat := []) : Host.Outcome State Fault Refusal :=
  .next (if s.devState = 2 && s.boot.loaded.isNone then s.doWellheadLoad sfdpOk a b steps else s)

/-- Erase the 64 KiB sector at `a`. -/
def State.eraseSector (s : State) (a : Nat) : State :=
  let sec := a / 65536
  { s with boot := { s.boot with
    flash := s.boot.flash.filter fun p => p.1 / 65536 != sec
    undef := s.boot.undef.filter fun p => p.1 != sec } }

/-- Program bytes from `a`: a bit once 0 stays 0 until an erase (assumption 14). -/
def State.program (s : State) (a : Nat) : List Byte → State
  | [] => s
  | b :: bs =>
    let v := s.flashByte a &&& b
    State.program { s with boot := { s.boot with flash := spSet erasedByte s.boot.flash a v } } (a + 1) bs

/-- Carry out one directory write: erase the copy's sector and write the copy (R71). -/
def State.writeDir (s : State) (c : Nat) (d : Dir) : State := (s.eraseSector (c * 65536)).program (c * 65536) d.bytes

/-- Confirm the active slot (R74, R86): GOOD in the directory, and the OTP minimum raised when advance_rollback is set. A
slot already GOOD writes nothing to the directory (Table 3.15), and still raises the minimum, clears advance_pending and
writes SLOT_CONFIRMED; advance_pending follows the header of the slot in RUN whatever that slot's state; WH_SEC_VER.otp_min is
0 until a slot is loaded (DESIGN CHOICE, assumption 94). -/
def State.confirm (s : State) : State :=
  let slot := s.fld Reg.WH_STATUS 1 0
  match s.boot.dir with
  | some d =>
    let s1 := if d.slotState slot = 1 then s else
      match s.dirInForce with
      | some cd =>
        let r := s.decideDir (some (cd.1, d)) fun d => d.setState slot 1
        (r.1.setBit Reg.WH_STATUS 3 true).showDir (d.setState slot 1)
      | none => s
    let v := s.fld Reg.WH_SEC_VER 7 0
    let s2 := if s.boot.advance && s.bit Reg.WH_SEC_VER 16 then
        let s' := if s1.fuses.minSec < v then { s1 with fuses := { s1.fuses with minSec := v } } else s1
        ((s'.setFld Reg.WH_SEC_VER 15 8 s'.fuses.minSec).setBit Reg.WH_SEC_VER 16 false).setFld Reg.SEC_OTP_STATUS 18 13
          s'.fuses.minSec
      else s1
    s2.offer 0x0404 [(8, slot), (8, v)]
  | none => s

/-- A write of WH_CONFIRM with the confirm key, in RUN (Table 3.15): a key with non-zero upper bits is ignored, and a
confirm while flash_busy is set waits. -/
def execSlotConfirm (value : Nat) (s : State) : Host.Outcome State Fault Refusal :=
  if value % 2 ^ 32 = 0x5A3C && s.devState = 3 then
    if s.bit Reg.WH_STATUS 3 then .next { s with boot := { s.boot with confirmWaits := true } } else .next s.confirm
  else .next s

/-- A confirm that waited is carried out once flash_busy is clear. -/
def State.afterFlash (s : State) : State :=
  if s.boot.confirmWaits && !s.bit Reg.WH_STATUS 3 then
    State.confirm { s with boot := { s.boot with confirmWaits := false } }
  else s

/-- The oldest directory write that Wellhead decided is carried out, in RUN or RECOVERY (R73); flash_busy clears after the
last. -/
def execDirectoryWrite (s : State) : Host.Outcome State Fault Refusal :=
  if s.devState = 3 || s.devState = 4 then
    match s.boot.dirWrites with
    | (c, d) :: rest =>
      let s1 := { s with boot := { s.boot with dirWrites := rest } }.writeDir c d
      .next (if rest.isEmpty then (s1.setBit Reg.WH_STATUS 3 false).afterFlash else s1.setBit Reg.WH_STATUS 3 true)
    | [] => .next s
  else .next s

/-- A write of WH_CONFIRM with the reboot key, in RECOVERY or TEST (R88): BOOT with entry_cause 0x06. -/
def execRebootKey (value : Nat) (s : State) (bootsel : Fin 4 := 0) : Host.Outcome State Fault Refusal :=
  if value % 2 ^ 32 = 0xA5C3 && (s.devState = 4 || s.devState = 5) then
    .next (((s.jumpers bootsel).blocksReset false).enterBoot 6)
  else .next s

/-- The end of a flash command: done, or refused with a reason; a manager interrupt and FLASH_CMD_END (R89). -/
def State.flashEnd (s : State) (cmd : Nat) (reason verify : Nat) : State :=
  let s1 := if reason = 0 then s.setBit Reg.WH_FLASH_STATUS 1 true
    else (s.setBit Reg.WH_FLASH_STATUS 2 true).setFld Reg.WH_FLASH_STATUS 15 8 reason
  (s1.offer 0x0403 [(8, cmd), (8, b2n (reason ≠ 0)), (8, reason), (8, verify)]).mgrIrq Reg.WH_FLASH_STATUS
    (if reason = 0 then 1 else 2)

/-- The range [a, a + n) touches the directory sectors or the active slot (R89). -/
def State.protectedRange (s : State) (a n : Nat) : Bool :=
  let slot := s.fld Reg.WH_STATUS 1 0
  decide (s.devState = 3) && (decide (a < 0x20000) ||
    (decide (slot < 2) && overlaps a n (slotBase slot) 0x3000000))

/-- A directory write or a flash command runs (R89). -/
def State.flashBusy (s : State) : Bool := s.bit Reg.WH_STATUS 3 || s.bit Reg.WH_FLASH_STATUS 0

/-- Why a flash command is refused at its write, or none (R89, Table 3.18). `n` is the range it works on. The spec gives RANGE
no rule: it applies here to a length of 0 or above 256, to a range past the 128 MiB of R69 and to SET_TRIAL with no active slot
outside RECOVERY; and PROTECTED comes before RANGE, RANGE before ALIGN (DESIGN CHOICE, assumption 94). -/
def State.flashRefusal (s : State) (cmd a n : Nat) : Option Nat :=
  if s.flashBusy then some 1
  else if cmd = 4 then (if s.fld Reg.WH_STATUS 1 0 < 2 || s.devState = 4 then none else some 3)
  else if s.protectedRange a n then some 2
  else if (cmd ≠ 2 ∧ (n = 0 ∨ 256 < n)) ∨ 0x8000000 < a + n then some 3
  else if cmd = 2 ∧ a % 65536 ≠ 0 then some 4
  else if cmd = 3 ∧ a % 256 + n > 256 then some 4
  else none

/-- Start a flash command: refused with its reason, or busy with its effect begun. What READ, ERASE and PROGRAM do, and the
verify_code of SET_TRIAL, stands from the start on, also where the command later ends FLASH_ERROR (DESIGN CHOICE, assumption
94). -/
def State.flashStart (s : State) (cmd n : Nat) (effect : State → State) : State :=
  let a := s.reg Reg.WH_FLASH_ADDR
  let s0 := s.setFld Reg.WH_FLASH_CMD 3 0 cmd
  match s.flashRefusal cmd a n with
  | some r => s0.flashEnd cmd r 0
  | none =>
    let s1 := (s0.setBit Reg.WH_FLASH_STATUS 0 true).setBit Reg.WH_STATUS 3 true
    effect { s1 with boot := { s1.boot with cmd := some (cmd, a, n) } }

/-- READ (R89): up to 256 bytes into WH_FLASH_BUF, byte 4n lowest. -/
def execFlashRead (s : State) : Host.Outcome State Fault Refusal :=
  let n := s.fld Reg.WH_FLASH_LEN 8 0
  .next (s.flashStart 1 n fun t =>
    t.each (fun i t => t.setFld (Reg.WH_FLASH_BUF (i / 4)) (8 * (i % 4) + 7) (8 * (i % 4))
      (t.flashByte (t.reg Reg.WH_FLASH_ADDR + i)).toNat) (List.range n))

/-- ERASE (R89): the 64 KiB sector at the address. -/
def execFlashErase (s : State) : Host.Outcome State Fault Refusal :=
  .next (s.flashStart 2 65536 fun t => t.eraseSector (t.reg Reg.WH_FLASH_ADDR))

/-- The first `n` bytes of WH_FLASH_BUF. -/
def State.flashBuf (s : State) (n : Nat) : List Byte :=
  (List.range n).map fun i => BitVec.ofNat 8 (s.fld (Reg.WH_FLASH_BUF (i / 4)) (8 * (i % 4) + 7) (8 * (i % 4)))

/-- PROGRAM (R89): WH_FLASH_BUF within one page. -/
def execFlashProgram (s : State) : Host.Outcome State Fault Refusal :=
  let n := s.fld Reg.WH_FLASH_LEN 8 0
  .next (s.flashStart 3 n fun t => t.program (t.reg Reg.WH_FLASH_ADDR) (t.flashBuf n))

/-- The directory that Wellhead goes by: the one it read or decided, or, where BOOTSEL led past LOAD, the one in flash (R70). -/
def State.curDir (s : State) : Option Dir :=
  match s.boot.dir with
  | some d => some d
  | none => s.dirInForce.map (·.2)

/-- The inactive slot, which SET_TRIAL verifies; in RECOVERY, where no slot is active, the one not preferred
(assumption 15). -/
def State.inactiveSlot (s : State) : Nat :=
  let a := s.fld Reg.WH_STATUS 1 0
  if a < 2 then 1 - a else s.curDir.elim 1 fun d => 1 - d.preferred % 2

/-- SET_TRIAL (R74): the inactive slot verified as in steps 6 to 8, a failing check recorded (R82); the directory write follows
at its end. -/
def execSetTrial (s : State) : Host.Outcome State Fault Refusal :=
  .next (s.flashStart 4 0 fun t =>
    let slot := t.inactiveSlot
    match t.verifySlot (slotBase slot) with
    | .ok _ => t.setFld Reg.WH_FLASH_STATUS 23 16 0
    | .error f => ((t.showFailure slot f).setFld Reg.WH_FLASH_STATUS 23 16 f.code).offer 0x0402 (f.items slot))

/-- The running flash command completes or fails (R90). SET_TRIAL that verified writes the directory with the slot TRIAL,
preferred and tries 1; one that did not is refused with VERIFY_FAILED. -/
def execFlashCmdEnd (error : Bool) (s : State) : Host.Outcome State Fault Refusal :=
  match s.boot.cmd with
  | none => .next s
  | some (cmd, _, _) =>
    let v := s.fld Reg.WH_FLASH_STATUS 23 16
    let s1 := (s.setBit Reg.WH_FLASH_STATUS 0 false).setBit Reg.WH_STATUS 3 (!s.boot.dirWrites.isEmpty)
    let s2 := { s1 with boot := { s1.boot with cmd := none } }
    let s3 :=
      if error then s2.flashEnd cmd 6 0
      else if cmd = 4 then
        if v ≠ 0 then s2.flashEnd cmd 5 v
        else
          let slot := s2.inactiveSlot
          let d := s2.curDir.getD ⟨0, 1 - slot, 1, 1, 0⟩
          let cur := (s2.dirInForce.map (·.1)).getD 1
          let d' := { d.setState slot 2 with preferred := slot, tries := 1, sequence := (d.sequence + 1) % 2 ^ 32 }
          let s' := s2.writeDir (1 - cur) d'
          ({ s' with boot := { s'.boot with dir := some d' } }.showDir d').flashEnd cmd 0 0
      else s2.flashEnd cmd 0 0
    .next s3.afterFlash

end Sys2Proof.Machine
end

