-- ==== Sys2Proof/Machine/RegWindow.lean ====
section
/-! DEFINITION. What the register views share (R5–R15, R26–R28): where a view's register stands, who is granted it, and the
reading of a register's value. -/

namespace Sys2Proof.Machine

/-- The state after a meaning that goes on. -/
def ran (o : Host.Outcome State Fault Refusal) (s : State) : State :=
  match o with
  | .next t => t
  | _ => s

/-- Element number of key `k` in an array of registers. -/
def arrIx (base stride n k : Nat) : Option Nat :=
  if base ≤ k ∧ (k - base) % stride = 0 ∧ (k - base) / stride < n then some ((k - base) / stride) else none

/-- Key of an offset of a view, its number in records (Table 21.1) and the paddock named with it: 0xBF for Koroft. -/
def viewKey : View → Nat → Nat
  | .u p, o => 0x10000000 + 0x10000 * p.val + o
  | .p, o => o
  | .s, o => 0x20000000 + o

def viewNo : View → Nat
  | .u _ => 0
  | .p => 1
  | .s => 2

def State.viewPaddock (s : State) : View → Nat
  | .u p => p.val
  | .p => s.manager
  | .s => 0xBF

/-- Tag of a view for the captures of R9. -/
def viewTag : View → Nat
  | .u p => p.val
  | .p => 64
  | .s => 65

/-- An access through the view reaches the device: the function answers and the offset lies in the window (Table 0.5, R26,
R28); in RECOVERY the P view decodes only SYS_ and WH_ (R87). -/
def State.viewReaches (s : State) (view : View) (o : Nat) : Bool :=
  match view with
  | .u p => s.reaches p.val && decide (o < 0x10000)
  | .p => s.reaches s.manager && decide (o < 0x4000000)
  | .s => s.koroftUp && decide (o < 0x10000)

/-- The P-view offset decodes in the present device state (R87). -/
def State.viewDecodes (s : State) (view : View) (o : Nat) : Bool :=
  match view with
  | .p => s.devState != 4 || decide (o < 0x10000) || (decide (0x110000 ≤ o) && decide (o < 0x120000))
  | _ => true

/-- The offset of U window `p` belongs to a resource that is granted to the paddock (R14, R28): the identity page, the
MSI-X structures, and what Tables 1.7 and 5.5 give. -/
def State.granted (s : State) (p o : Nat) : Bool :=
  let slot := fun (n : Nat) => (s.ctxAt p n).isSome
  if o < 0x100 then true
  else if o < 0x200 then s.mirrors p ((o - 0x100) / 0x20)
  else if o < 0x20C then true
  else if o < 0x210 then s.safetyPaddock == some p
  else if o < 0x800 then false
  else if o < 0xA04 then true
  else if o < 0x1000 then false
  else if o < 0x1800 then slot ((o - 0x1000) / 8)
  else if o < 0x2000 then false
  else if o < 0x4000 then slot ((o - 0x2000) / 0x20)
  else if o < 0x6800 then s.holds p 0 ((o - 0x4000) / 0x40)
  else if o < 0x6A00 then s.safetyOwner ((o - 0x6800) / 0x40) == some p
  else if o < 0x6C00 then false
  else if o < 0x6C28 then s.holdsOn p ((o - 0x6C00) / 4)
  else if o < 0x7000 then false
  else if o < 0x7800 then
    let n := (o - 0x7000) / 0x100
    s.safetyOwner n == some p && (s.ownerRegions n).contains (o % 0x100 / 0x10)
  else if o < 0x7900 then s.safetyOwner ((o - 0x7800) / 0x20) == some p
  else if o < 0x8000 then false
  else if o < 0xC000 then s.holds p 1 ((o - 0x8000) / 0x400)
  else s.bit (Reg.PDK_MISC p) 24

/-- Home of an offset of U window `p` (the U-view registers that show a register of the P view). -/
def State.homeU (s : State) (p o : Nat) : Nat :=
  let own := 0x10000000 + 0x10000 * p + o
  if o = 0x04 then Reg.PDK_STATE p
  else if 0x10 ≤ o ∧ o < 0x24 then Reg.PDK_LAYERS p ((o - 0x10) / 4)
  else if o = 0x24 then Reg.PDK_MISC p
  else if 0x30 ≤ o ∧ o < 0x50 then Reg.PDK_CTRL p ((o - 0x30) / 4)
  else if 0x100 ≤ o ∧ o < 0x200 then
    let n := (o - 0x100) / 0x20
    match o % 0x20 with
    | 0x08 => Reg.HD_FRAME n
    | 0x0C => Reg.HD_GAIT n
    | 0x10 => Reg.HD_FRAME_TIME_LO n
    | 0x14 => Reg.HD_FRAME_TIME_HI n
    | 0x18 => Reg.HD_LATCH_TIME_LO n
    | 0x1C => Reg.HD_LATCH_TIME_HI n
    | _ => own
  else if o = 0x20C then Reg.TCH_PK_STATE
  else if 0x2000 ≤ o ∧ o < 0x4000 ∧ o % 0x20 = 0x14 then
    match s.ctxAt p ((o - 0x2000) / 0x20) with
    | some c => Reg.CQ_CTX_STATUS c
    | none => own
  else if 0x4000 ≤ o ∧ o < 0x6800 then
    let i := (o - 0x4000) / 0x40
    Reg.CMP_L_CTRL (i / 16) (i % 16) + o % 0x40
  else if 0x6800 ≤ o ∧ o < 0x6A00 then Reg.CMP_S_CTRL ((o - 0x6800) / 0x40) + o % 0x40
  else if 0x7000 ≤ o ∧ o < 0x7800 then Reg.IM_R_CTRL ((o - 0x7000) / 0x100) (o % 0x100 / 0x10) + o % 0x10
  else if 0x7800 ≤ o ∧ o < 0x7900 then
    let n := (o - 0x7800) / 0x20
    match o % 0x20 with
    | 0x00 => Reg.IM_S_SIG n
    | 0x04 => Reg.IM_S_ALIVE n
    | 0x08 => Reg.IM_STATUS n
    | _ => own
  else if 0x8000 ≤ o ∧ o < 0xC000 then Reg.CVU_CTRL ((o - 0x8000) / 0x400) + o % 0x400
  else if o = 0xC000 then Reg.EVR_CFG
  else if o = 0xC004 then Reg.EVR_STATUS
  else if 0xC010 ≤ o ∧ o < 0xC028 then Reg.EVR_NEXT_LO + (o - 0xC010)
  else own

/-- Home of an offset of a view. -/
def State.homeKey (s : State) (view : View) (o : Nat) : Nat :=
  match view with
  | .u p => s.homeU p.val o
  | .p => o
  | .s => if 0x8000 ≤ o then 0x30000 + o else homeOfS (0x20000000 + o)

/-! ### Values that a read computes -/

/-- SEC_STATUS.claim_ready (R104): in RUN, every claimed block runs. -/
def State.claimReady (s : State) : Bool :=
  s.devState == 3 && (List.range 16).all fun i =>
    !s.bit Reg.SEC_CLAIM i || (!s.bit Reg.PCR_GATE (blockOfClaim i) && decide (s.power ≤ 2))

/-- Line of head `n` now (HD_FRAME.line). -/
def State.lineNow (s : State) (n : Nat) : Nat :=
  if s.headOn n && (s.head n).begun then
    (((s.clk.stm - s.reg64 (Reg.HD_FRAME_TIME_LO n) (Reg.HD_FRAME_TIME_HI n) : Nat) : ℚ) / s.lineNs n).floor.toNat
  else 0

/-- The value of CMP_U_STATUS of composer `c` in window `p` (Table 11.12). -/
def State.cmpUStatus (s : State) (p c : Nat) : Nat :=
  let waits := s.cmp.commits.any fun x => x.kind == 0 && x.comp == c && x.paddock == p
  s.fld (Reg.CMP_STATUS c) 15 0 * 65536 + b2n (s.bit (Reg.CMP_STATUS c) 30) * 512 + b2n waits * 256

/-- PDK_U_ID of paddock `p` (Table 5.9); its Image fields read zero while no image is loaded (R13). -/
def State.pdkId (s : State) (p : Nat) : Nat :=
  s.fuses.silicon % 16 * 2 ^ 28 + if s.devState = 3 then
    b2n (s.safetyPaddock == some p) * 2 ^ 13 + b2n (p == s.manager) * 2 ^ 12 + p % 16 * 2 ^ 8 + p / 16 * 2 ^ 6 + p
  else 0

/-- The context ring registers of window `p` at offset `o` (Table 6.15), for the context of their slot. -/
def State.ctxWord (s : State) (c o : Nat) : Nat :=
  let x := s.ctx c
  match o with
  | 0x00 => x.sqBase % 2 ^ 32
  | 0x04 => x.sqBase / 2 ^ 32
  | 0x08 => x.cqBase % 2 ^ 32
  | 0x0C => x.cqBase / 2 ^ 32
  | 0x10 => x.cfg
  | 0x14 => putBits (s.reg (Reg.CQ_CTX_STATUS c)) 25 16 c
  | 0x18 => x.sqHead
  | 0x1C => x.cqHead
  | _ => 0

/-- One word of a record window (R461): of the slot that the window register and the offset name, zero past the last slot and
for a slot with an uncorrectable word. -/
def State.slotWord (s : State) (win o : Nat) : Nat :=
  let n := 256 * win + o / 32
  let a := s.fld (Reg.BSN_PART_BASE 5) 10 0 * 65536 + 32 * n
  if s.evrSlots ≤ n || s.poisoned .basin a 32 then 0 else ofLeBytes (s.bytes .basin (a + o % 32) 4)

/-- The uncorrectable words that a read of one slot finds are counted and recorded (R170). -/
def State.slotSeen (s : State) (win o : Nat) : State :=
  let n := 256 * win + o / 32
  let a := s.fld (Reg.BSN_PART_BASE 5) 10 0 * 65536 + 32 * n
  if s.evrSlots ≤ n then s
  else s.each (fun w s => s.eccUncorr .basin w) ((s.mem.bad.filter fun p => p.1 == .basin && decide (a / 8 ≤ p.2) && decide (p.2 < a / 8 + 4)).map (·.2))

/-- The word of the home register `k`, with the values that a read computes. -/
def State.homeWord (s : State) (k : Nat) : Nat :=
  if k = Reg.STM_TIME_LO then s.clk.stm % 2 ^ 32
  else if k = Reg.STM_TIME_HI then s.clk.stm / 2 ^ 32 % 2 ^ 32
  else if k = Reg.SEC_WDT_STATUS then putBits (s.reg k) 9 8 (min s.recent.length 3)
  else if k = Reg.SEC_STATUS then putBits (s.reg k) 2 2 (b2n s.claimReady)
  else if k = Reg.CQ_FENCE_CUR_LO then s.fence (s.fld Reg.CQ_FENCE_SEL 11 0) % 2 ^ 32
  else if k = Reg.CQ_FENCE_CUR_HI then s.fence (s.fld Reg.CQ_FENCE_SEL 11 0) / 2 ^ 32
  else if k = Reg.AUD_XP_DATA then s.gainIn (1 - s.audBank) (s.fld Reg.AUD_XP_ADDR 12 0)
  else match arrIx (Reg.CMP_SIZE 0) 0x2000 8 k with
  | some c => if s.devState = 3 then (s.outSize c).2 * 65536 + (s.outSize c).1 else 0
  | none => match arrIx (Reg.HD_FRAME 0) 0x2000 8 k with
    | some n => putBits (s.reg k) 13 0 (s.lineNow n)
    | none => match arrIx (Reg.CQ_CTX_STATUS 0) 0x10 1024 k with
      | some c => putBits (s.reg k) 25 16 c
      | none => match arrIx (Reg.CVU_STATUS 0) 0x400 16 k with
        | some m => putBits (s.reg k) 4 4 (b2n (s.bit Reg.SEC_CVU_MASK m))
        | none => s.reg k

/-- The word of a register of a view, before the masks of its row. -/
def State.viewWord (s : State) (view : View) (o : Nat) : Nat :=
  match view with
  | .u p =>
    if o = 0 then s.pdkId p.val
    else if 0x2000 ≤ o ∧ o < 0x4000 then
      match s.ctxAt p.val ((o - 0x2000) / 0x20) with
      | some c => s.ctxWord c (o % 0x20)
      | none => 0
    else if 0x6C00 ≤ o ∧ o < 0x6C28 then s.cmpUStatus p.val ((o - 0x6C00) / 4)
    else s.homeWord (s.homeKey view o)
  | _ => s.homeWord (s.homeKey view o)

/-- Bits of a row that a read shows (Table 0.4: a WO bit and a reserved one read zero). -/
def RegRow.shown (w : RegRow) : Nat := w.rw ||| w.rl ||| w.img ||| w.w1c ||| w.rs ||| w.ro

/-- The shadows of a region that the safety owner of head `n` owns are read-only in the P view (Table 13.8). -/
def State.ownerShadow (s : State) (o : Nat) : Bool :=
  (List.range 8).any fun n => (List.range 16).any fun k =>
    decide (Reg.IM_R_CTRL n k ≤ o) && decide (o < Reg.IM_R_CTRL n k + 0x10) && s.bit (Reg.IM_OWNER n) k

/-- CVU `m` appears in the S view only with its bit of SEC_CVU_MASK set (R354). -/
def State.secureCvu (s : State) (o : Nat) : Bool := s.bit Reg.SEC_CVU_MASK ((o - 0x8000) / 0x400)

/-- The row of the register at an offset of a view: what the view's access codes are (Table 0.4), none at a reserved
offset. -/
def State.viewRow (s : State) (view : View) (o : Nat) : Option RegRow :=
  match view with
  | .p => (rowAt o).map fun w => if s.ownerShadow o then { w with rs := 0, ro := w.ro ||| w.rs } else w
  | .s => if decide (0x8000 ≤ o) && !s.secureCvu o then none else rowAt (viewKey .s o)
  | .u p => rowAt (viewKey (.u p) o)

/-- The value of a register of a view. -/
def State.viewValue (s : State) (view : View) (o : Nat) : Nat :=
  match s.viewRow view o with
  | none => 0
  | some w => s.viewWord view o &&& w.shown

/-- The captured value for this read of a _HI register, if one waits (R9). -/
def State.capturedHi (s : State) (tag k : Nat) : Option Nat :=
  (s.hic.find? fun e => e.1 == tag && e.2.1 == k).map (·.2.2)

def State.dropCapture (s : State) (tag k : Nat) : State :=
  { s with hic := s.hic.filter fun e => !(e.1 == tag && e.2.1 == k) }

end Sys2Proof.Machine
end

