-- ==== Sys2Proof/Machine/Registers.lean ====
section
/-! DEFINITION. REGISTER_WRITE and REGISTER_READ (R5–R15, R26–R28): access codes, RL and Image fields, and the registers whose
write acts. -/

namespace Sys2Proof.Machine

/-! ### RL fields (R11): each block, whether it is enabled, and its CFG_BUSY -/

/-- Whether the block of the RL register at home key `k` is enabled, so that its RL fields hold. -/
def State.rlLocked (s : State) (k : Nat) : Bool :=
  if 0x10000 ≤ k ∧ k < 0x20000 then s.devState != 5
  else if 0x20000 ≤ k ∧ k < 0x30000 then s.bit Reg.EVR_CTRL 0
  else if 0x30000 ≤ k ∧ k < 0x40000 then s.headOn ((k - 0x31000) / 0x800)
  else if 0x70000 ≤ k ∧ k < 0x80000 then s.jaOn
  else if 0x80000 ≤ k ∧ k < 0xA0000 then s.bit (Reg.CMP_STATUS ((k - 0x80000) / 0x2000)) 31
  else if 0xA0000 ≤ k ∧ k < 0xB0000 then s.headOn ((k - 0xA0000) / 0x2000)
  else if 0xC0400 ≤ k ∧ k < 0xC0500 then s.dmxOn ((k - 0xC0400) / 0x20)
  else if 0xC0000 ≤ k ∧ k < 0xD0000 then s.lightOn
  else if 0xD0100 ≤ k ∧ k < 0xD0200 then s.netOn ((k - 0xD0100) / 0x80)
  else if 0xD0400 ≤ k ∧ k < 0xD0500 then s.bit (Reg.NET_AES_TX_CFG ((k - 0xD0400) / 0x20)) 31
  else if 0xD0600 ≤ k ∧ k < 0xD0700 then s.bit (Reg.NET_AES_RX_CFG ((k - 0xD0600) / 0x20)) 31
  else if 0xD0000 ≤ k ∧ k < 0xE0000 then s.netOn 0 || s.netOn 1
  else if 0xE0200 ≤ k ∧ k < 0xE0300 then s.bit Reg.TCH_CTRL ((k - 0xE0200) / 0x20)
  else if 0xE0400 ≤ k ∧ k < 0xF0000 then s.bit Reg.TCH_CTRL 8
  else if 0xE0000 ≤ k ∧ k < 0xF0000 then s.fld Reg.TCH_CTRL 8 0 != 0
  else if 0xF0000 ≤ k ∧ k < 0x100000 then s.bit Reg.HAP_CTRL 0
  else if 0x100200 ≤ k ∧ k < 0x100280 then s.bit (Reg.AUD_TDM_CFG ((k - 0x100200) / 0x10)) 0
  else if 0x100000 ≤ k ∧ k < 0x110000 then s.bit Reg.AUD_CTRL 0
  else true

/-- CFG_BUSY of the block of register `k` at P-view offset `k`: its event bit and its record (R11). -/
def State.cfgBusy (s : State) (k : Nat) : State :=
  if 0x10000 ≤ k ∧ k < 0x20000 then (s.offer 0x1008 [(32, k)]).setEvent Reg.PCR_EVENT Reg.PCR_EVENT_EN 5
  else if 0x20000 ≤ k ∧ k < 0x30000 then (s.offer 0x0F03 [(32, k)]).setEvent Reg.EVR_EVENT Reg.EVR_EVENT_EN 3
  else if 0x30000 ≤ k ∧ k < 0x40000 then (s.offer 0x090A [(32, k)]).imEvent0 9
  else if 0x70000 ≤ k ∧ k < 0x80000 then (s.offer 0x0628 [(32, k)]).jaEvent 3
  else if 0x80000 ≤ k ∧ k < 0xA0000 then
    (s.offer 0x0706 [(8, (k - 0x80000) / 0x2000), (32, k)]).cmpEvent ((k - 0x80000) / 0x2000) 6
  else if 0xA0000 ≤ k ∧ k < 0xB0000 then
    (s.offer 0x080E [(8, (k - 0xA0000) / 0x2000), (32, k)]).headEvent ((k - 0xA0000) / 0x2000) 16
  else if 0xC0000 ≤ k ∧ k < 0xD0000 then (s.offer 0x0A0A [(32, k)]).loEvent 5
  else if 0xD0000 ≤ k ∧ k < 0xE0000 then (s.offer 0x0B08 [(32, k)]).netEvent 5
  else if 0xE0000 ≤ k ∧ k < 0xF0000 then (s.offer 0x0C0A [(32, k)]).tchEvent 9
  else if 0xF0000 ≤ k ∧ k < 0x100000 then (s.offer 0x0D07 [(32, k)]).hapEvent 6
  else if 0x100000 ≤ k ∧ k < 0x110000 then (s.offer 0x0E09 [(32, k)]).audEvent 6
  else s

/-! ### The access codes (Table 0.4) -/

/-- The word that a register holds after a write of `v`: RW, RS and free RL and Image fields take their bits (a shadow keeps
reserved bits too, for the commit checks), W1C bits written 1 clear unless hardware sets them in the same cycle (R12), and
everything else stays. -/
def writtenWord (w : RegRow) (cur v hwSet : Nat) (rlFree imgFree : Bool) : Nat :=
  let all := 0xFFFFFFFF
  let whole := if w.rs = 0 then 0 else all ^^^ (w.rl ||| w.img ||| w.w1c ||| w.ro ||| w.wo)
  let take := w.rw ||| whole ||| (if rlFree then w.rl else 0) ||| (if imgFree then w.img else 0)
  let c1 := cur ^^^ (cur &&& take)
  let c2 := c1 ^^^ (c1 &&& (v &&& w.w1c))
  c2 ||| (v &&& take) ||| (hwSet &&& v &&& w.w1c)

/-- The bits of a P-view register that R15 protects although their code is RO: partition sizes and debug state. -/
def protectedBits (k : Nat) : Nat :=
  match arrIx (Reg.BSN_PART_SIZE 0) 8 9 k with
  | some _ => 0x7FF
  | none => if k = Reg.SEC_STATUS then 0x8 else 0

/-- MANAGER_DENIED (R15). -/
def State.managerDenied (s : State) (w : RegRow) (k v : Nat) : State :=
  let mask := (if s.devState = 5 then 0 else w.img) ||| protectedBits k
  if (s.reg k ^^^ v) &&& mask ≠ 0 then s.offer 0x0003 [(32, k)] else s

/-- A written RL field differs from its value while its block is enabled (R11). -/
def State.rlRefused (s : State) (w : RegRow) (k v : Nat) : Bool := s.rlLocked k && (s.reg k ^^^ v) &&& w.rl != 0

/-- A plain write through a view to home key `k`. -/
def State.plainWrite (s : State) (w : RegRow) (k v hwSet : Nat) : State :=
  s.setReg k (writtenWord w (s.reg k) v hwSet (!s.rlLocked k) (decide (s.devState = 5)))

/-! ### Registers of the P view whose write acts -/

/-- SYS_, WH_ (R74, R88, R89, R101). -/
def State.writeSys (s : State) (k v : Nat) : Option State :=
  if k = Reg.SYS_SECREQ_CMD then some (s.secRequest (v % 16) (bitsOf v 13 8) (v.testBit 15) (bitsOf v 19 16))
  else if k = Reg.WH_CONFIRM then
    let t := ran (execSlotConfirm v s) s
    some (ran (execRebootKey v t ⟨s.pins.bootsel % 4, Nat.mod_lt _ (by decide)⟩) t)
  else if k = Reg.WH_FLASH_CMD then
    some (match v % 16 with
      | 1 => ran (execFlashRead s) s
      | 2 => ran (execFlashErase s) s
      | 3 => ran (execFlashProgram s) s
      | 4 => ran (execSetTrial s) s
      | c => (s.setFld Reg.WH_FLASH_CMD 3 0 c).flashEnd c (if s.flashBusy then 1 else 3) 0)
  else match arrIx (Reg.SYS_SECREQ_DATA 0) 4 12 k with
    | some i => some { s with sec := { s.sec with data := s.sec.data.set i v } }
    | none => none

/-- PCR_ (R103, R465, R469, R475, R479). -/
def State.writePcr (s : State) (k v : Nat) : Option State :=
  if k = Reg.PCR_REQ then some (s.powerRequest v)
  else if k = Reg.PCR_JET_POINT then some (s.jetPointWrite (v % 8))
  else if k = Reg.PCR_GATE then some (s.gateWrite v)
  else if k = Reg.PCR_RESET then some (ran (execPcrReset v s) s)
  else if k = Reg.PCR_DELAY_MAX then
    some (if 100 ≤ v % 65536 ∧ v % 65536 ≤ 50000 then s.setReg k (v % 65536) else s)
  else none

/-- EVR_ (R456, R459, R464): EVR_CFG must leave C − K at least 1,024 in SPLIT. -/
def State.writeEvr (s : State) (k v : Nat) : Option State :=
  if k = Reg.EVR_CTRL then some (s.evrCtrl v)
  else if k = Reg.EVR_ACK then some (s.evrAck v)
  else if k = Reg.EVR_CFG ∧ !s.rlLocked k ∧ !v.testBit 31 ∧ s.evrSlots < 256 * bitsOf v 9 0 + 1024 then some (s.cfgBusy k)
  else none

/-- PDK_ and CQ_ (R134, R154, R165). -/
def State.writeCtx (s : State) (k v : Nat) : Option State :=
  if k = Reg.PDK_CMD then some (s.pdkCommand (v % 16) (bitsOf v 19 16) (bitsOf v 13 8) (s.reg Reg.PDK_CMD_ARG))
  else if k = Reg.CQ_CTX_CMD then
    let c := bitsOf v 9 0
    let op := bitsOf v 19 16
    if op = 0 ∨ 4 < op then some s
    else match s.opReaches .manager c with
      | some t => some t
      | none => some (match op with
        | 1 => s.opRein 1 c
        | 2 => s.opRestart c
        | 3 => s.opDiscard c
        | _ => s.opReset 1 c)
  else if k = Reg.CQ_FENCE_SEL then some (s.fenceSel v)
  else if k = Reg.CQ_RUNLIMIT_BULK ∨ k = Reg.CQ_RUNLIMIT_INTERACTIVE ∨ k = Reg.CQ_RUNLIMIT_DEADLINE then
    some (if v % 65536 = 0 then s else s.setReg k (v % 65536))
  else match arrIx (Reg.CQ_CTX_CLASS 0) 0x10 1024 k with
    | some c => some (s.ctxRegWrite c .cls v)
    | none => (arrIx (Reg.CQ_CTX_LIMIT 0) 0x10 1024 k).map fun c => s.ctxRegWrite c .limit v

/-- MEM_ and BSN_ (R189, R190). -/
def State.writeMem (s : State) (k v : Nat) : Option State :=
  if k = Reg.MEM_ECC_CLEAR then some (s.eccClear .dram v)
  else if k = Reg.BSN_ECC_CLEAR then some (s.eccClear .basin v)
  else if k = Reg.BSN_APT_BASE then some (s.aptBaseWrite v)
  else none

/-- JA_ (R205, R217, R263). A value past its range is dropped with an event record whose code the spec does not give. -/
def State.writeJa (s : State) (k v : Nat) : Option State :=
  let drop := some (if s.free 1 = 0 then s.took.offer 0x0628 [(32, k)] else s.took.offer 0x0629 [(32, k), (32, v)])
  let trough := k = Reg.JA_MAX_TARGET ∨ k = Reg.JA_PREEMPT ∨ k = Reg.JA_SAVE ∨ (arrIx (Reg.JA_STR_TROUGH 0) 0x20 8 k).isSome
  if k = Reg.JA_CTRL then some (s.jaCtrl v)
  else if s.jaOn then none
  else if k = Reg.JA_HELD ∧ 4 < v % 8 then drop
  else if k = Reg.JA_PREEMPT ∧ 24 < v % 32 then drop
  else if trough ∧ ((s.setReg k v).troughBad true).isSome then some ((s.offer 0x0629 [(32, k), (32, v)]).jaEvent 4)
  else none

/-- CMP_ of composer `c` at offset `o` (R295, R302, R304, R312). -/
def State.writeCmp (s : State) (c o v : Nat) : Option State :=
  match o with
  | 0x00 => some (s.cmpCtrl c v)
  | 0x20 => some (if v.testBit 0 then s.headCommit c (v.testBit 1) (v.testBit 2) else s)
  | 0x30 => some (s.holdWrite c v)
  | 0x8C => some (s.lutWrite c v)
  | _ => none

/-- HD_ of head `n` at offset `o` (R322, R329, R330). -/
def State.writeHd (s : State) (n o v : Nat) : Option State :=
  match o with
  | 0x00 => some (s.hdCtrl n v)
  | 0x18 => some (if v.testBit 31 then s.gaitRequest n (v % 32) else s)
  | 0xA4 => some (s.panelCtrl n v)
  | 0xC0 => some (s.auxCmd n (v % 16) (bitsOf v 11 8))
  | _ => none

/-- LO_ (R373–R375). -/
def State.writeLo (s : State) (k v : Nat) : Option State :=
  if k = Reg.LO_CTRL then some (s.loCtrl v)
  else if k = Reg.LO_COMMIT then some (if v.testBit 0 then ran (execLightCommit (v.testBit 1) (v.testBit 2) s) s else s)
  else if k = Reg.LO_LOAD_CMD then some (s.loadCmd (v % 4) (bitsOf v 6 4))
  else (arrIx (Reg.LO_DMX_CFG 0) 0x20 8 k).map fun p => s.dmxCfg p v

/-- NET_ (R388, Table 15.15). -/
def State.writeNet (s : State) (k v : Nat) : Option State :=
  if k = Reg.NET_CTRL then some (s.netCtrl v)
  else (arrIx (Reg.NETP_I2C 0) 0x80 2 k).map fun p => s.i2cGo p v

/-- TCH_ (R415, R420, R422). A write of TCH_CTL_m_CFG that sets priv, or changes the pk of a privileged key, is dropped with
CFG_BUSY. -/
def State.writeTch (s : State) (k v : Nat) : Option State :=
  if k = Reg.TCH_CTRL then some (s.tchCtrl v)
  else if k = Reg.TCH_COMMIT then some (if v.testBit 31 then s.touchCommit (v % 512) else s)
  else match arrIx (Reg.TCH_CTL_CFG 0) 0x10 256 k with
    | some _ =>
      let cur := s.reg k
      if !s.rlLocked k && ((v.testBit 2 && !cur.testBit 2) || (cur.testBit 2 && bitsOf v 7 3 != bitsOf cur 7 3)) then
        some (s.cfgBusy k) else none
    | none => none

/-- HAP_ (R434, R435). -/
def State.writeHap (s : State) (k v : Nat) : Option State :=
  if k = Reg.HAP_CTRL then some (s.hapCtrl v)
  else if k = Reg.HAP_COMMIT then some (if v.testBit 31 then s.hapCommit (v % 65536) else s)
  else (arrIx (Reg.HAPC_CTRL 0) 0x40 16 k).map fun n =>
    let s1 := if v.testBit 0 then s.hapStop n else s
    if v.testBit 1 then s1.clearFault n else s1

/-- AUD_ (R443, R444, R449). -/
def State.writeAud (s : State) (k v : Nat) : Option State :=
  if k = Reg.AUD_CTRL then some (s.audCtrl v)
  else if k = Reg.AUD_COMMIT then some (if v.testBit 31 then s.audCommit (v.testBit 1) (v.testBit 2) else s)
  else if k = Reg.AUD_XP_ADDR then some (s.xpAddr v)
  else if k = Reg.AUD_XP_DATA then some (s.xpData v)
  else (arrIx (Reg.AUD_VOICE_CTRL 0) 0x10 64 k).map fun n =>
    let asks := (if v.testBit 0 then [(n, true)] else []) ++ if v.testBit 1 then [(n, false)] else []
    { s with aud := { s.aud with asks := s.aud.asks ++ asks } }

/-- The effect of a write to a P-view register whose write acts, or none where it only takes its value. -/
def State.writeActs (s : State) (k v : Nat) : Option State :=
  match k / 0x10000 with
  | 0x00 | 0x11 => s.writeSys k v
  | 0x01 => s.writePcr k v
  | 0x02 => s.writeEvr k v
  | 0x03 => (arrIx (Reg.IM_CLEAR 0) 0x800 8 k).map fun n =>
      if v.testBit 0 then s.setImHead n { s.imHead n with clear := true } else s
  | 0x04 | 0x05 => s.writeCtx k v
  | 0x06 => s.writeMem k v
  | 0x07 => s.writeJa k v
  | 0x08 | 0x09 => s.writeCmp ((k - 0x80000) / 0x2000) ((k - 0x80000) % 0x2000) v
  | 0x0A => s.writeHd ((k - 0xA0000) / 0x2000) ((k - 0xA0000) % 0x2000) v
  | 0x0C => s.writeLo k v
  | 0x0D => s.writeNet k v
  | 0x0E => s.writeTch k v
  | 0x0F => s.writeHap k v
  | 0x10 => s.writeAud k v
  | _ => none

/-- What follows a P-view write that took its value: grants of C8 and C9 follow their timing head, TDM locks follow their port, and
AES67 streams their enable. -/
def State.afterWrite (s old : State) (k : Nat) : State :=
  if k = Reg.CMP_CFG 8 ∨ k = Reg.CMP_CFG 9 then s.each (fun n t => t.pruneMirrors n) (List.range 8)
  else if (arrIx (Reg.AUD_TDM_CFG 0) 0x10 8 k).isSome then s.tdmSync
  else match arrIx (Reg.NET_AES_TX_CFG 0) 0x20 8 k, arrIx (Reg.NET_AES_RX_CFG 0) 0x20 8 k with
    | some i, _ => s.aesEnable old true i
    | _, some i => s.aesEnable old false i
    | _, _ => s

/-- A P-view write to the register of row `w` at offset `k`. -/
def State.writeP (s : State) (w : RegRow) (k v hwSet : Nat) : State :=
  let s1 := if s.rlRefused w k v then s.cfgBusy k else s
  let s2 := s1.managerDenied w k v
  match s2.writeActs k v with
  | some t => t
  | none => (s2.plainWrite w k v hwSet).afterWrite s2 k

/-! ### Registers of the U and S views -/

/-- A CVU register of a view at offset `o` of CVU `m` (R350, R354); STATUS clears its W1C bits. -/
def State.writeCvu (s : State) (view : View) (w : RegRow) (m o v hwSet : Nat) : State :=
  match o with
  | 0x08 => s.cvuData m view o fun t => if v.testBit 0 then t.cvuInit m else t
  | 0x0C => s.cvuData m view o fun t => t.cvuFeed m (leBytes 4 v)
  | 0x10 => s.cvuData m view o fun t => t.cvuFeed m (leBytes 1 v)
  | 0x04 =>
    match s.cvuReaches m view o with
    | (true, t) => t.setReg (Reg.CVU_STATUS m) (writtenWord w (t.reg (Reg.CVU_STATUS m)) v hwSet false false)
    | (false, t) => t
  | _ => if o = 0 ∨ o = 0x14 ∨ o = 0x18 then s.cvuCfg m view o v else s

/-- A write of CQ_U_DB_CMD for context `c` of paddock `p` (R154). -/
def State.dbCommand (s : State) (c v : Nat) : State :=
  let op := v % 16
  if op = 0 ∨ 4 < op then s
  else match s.opReaches .paddock c with
    | some t => t
    | none =>
      match op with
      | 1 => s.opRein 0 c
      | 2 => s.opRestart c
      | 3 => s.opDiscard c
      | _ => s.opReset 0 c

/-- A write to a context register of slot `n` of window `p`, at offset `o` within its set (R164). -/
def State.writeSlot (s : State) (w : RegRow) (p n o v hwSet : Nat) : State :=
  match s.ctxAt p n with
  | none => s
  | some c =>
    match o with
    | 0x00 => s.ctxRegWrite c .sqBaseLo v
    | 0x04 => s.ctxRegWrite c .sqBaseHi v
    | 0x08 => s.ctxRegWrite c .cqBaseLo v
    | 0x0C => s.ctxRegWrite c .cqBaseHi v
    | 0x10 => s.ctxRegWrite c .cfg v
    | 0x14 => s.setReg (Reg.CQ_CTX_STATUS c) (writtenWord w (s.reg (Reg.CQ_CTX_STATUS c)) v hwSet false false)
    | 0x1C => s.cqHeadWrite c v
    | _ => s

/-- A write to the MSI-X table of paddock `p`: a vector whose mask clears may be due (R123). -/
def State.writeMsix (s : State) (p i v : Nat) : State :=
  let k := Reg.MSIX_TABLE p i
  if i % 4 = 3 then (if s.bit k 0 && !v.testBit 0 then s.msixUnmask p (some (i / 4)) else s.setReg k (v % 2))
  else s.setReg k v

/-- A U-view write to the register of row `w` at offset `o` of window `p`. -/
def State.writeU (s : State) (w : RegRow) (p : Fin 64) (o v hwSet : Nat) : State :=
  if o = 0x0C then s.selfQuiesce p.val v
  else if o = 0x208 then (if v.testBit 0 then s.resyncAsk p.val else s)
  else if 0x800 ≤ o ∧ o < 0xA00 then s.writeMsix p.val ((o - 0x800) / 4) v
  else if 0x1000 ≤ o ∧ o < 0x1800 then
    if o % 8 = 0 then s.doorbell p.val ((o - 0x1000) / 8) v
    else match s.ctxAt p.val ((o - 0x1000) / 8) with
      | some c => s.dbCommand c v
      | none => s
  else if 0x2000 ≤ o ∧ o < 0x4000 then s.writeSlot w p.val ((o - 0x2000) / 0x20) (o % 0x20) v hwSet
  else if 0x8000 ≤ o ∧ o < 0xC000 then s.writeCvu (.u p) w ((o - 0x8000) / 0x400) (o % 0x400) v hwSet
  else
    let k := s.homeU p.val o
    s.setReg k (writtenWord w (s.reg k) v hwSet false false)

/-- An S-view write: claims, the watchdog kick and the CVUs (R103, R106, R354). The RL fields of the S view hold in RUN. -/
def State.writeS (s : State) (w : RegRow) (o v hwSet : Nat) : State :=
  if o = 0x04 then
    s.each (fun i t =>
      if v.testBit i == t.bit Reg.SEC_CLAIM i then t
      else if v.testBit i then t.claimSet i else t.setBit Reg.SEC_CLAIM i false) (List.range 16)
  else if o = 0x14 then s.kick v
  else if 0x8000 ≤ o then s.writeCvu .s w ((o - 0x8000) / 0x400) (o % 0x400) v hwSet
  else s

/-! ### The commands -/

/-- BAD_ACCESS (R6); a port also logs it in AER (R117, assumption 96). -/
def State.badAccess (s : State) (view : View) (o : Nat) : State :=
  let s1 := match view with
    | .s => s
    | _ => s.aerLog (portOf (s.viewPaddock view)) 20
  s1.offer 0x0001 [(8, viewNo view), (8, s.viewPaddock view), (32, o)]

/-- An access to an offset that no register has (R7): through a BAR it is recorded and logged in AER (Table 5.2, assumption
96). -/
def State.stray (s : State) (view : View) (o : Nat) : State := if view = .s then s else s.badAccess view o

/-- REGISTER_WRITE: a write of `size` bytes at an offset of a view. Bits of `hwSet` are set by hardware in the same cycle
(R12); no register of the spec has a W1S field, so nothing depends on bits that hardware clears. DESIGN CHOICE (assumption
89): an access that is no aligned word and also lies at an ungranted U offset writes BAD_ACCESS (R6) only. -/
def State.registerWrite (s : State) (view : View) (o v size hwSet : Nat) : State :=
  if !s.viewReaches view o then s
  else if size ≠ 4 ∨ o % 4 ≠ 0 then s.badAccess view o
  else if !s.viewDecodes view o then s.stray view o
  else match view with
    | .p =>
      if 0x1000000 ≤ o then s.aperture (o - 0x1000000) true v .clean
      else match s.viewRow .p o with
        | some w => s.writeP w o v hwSet
        | none => if 0x28000 ≤ o ∧ o < 0x2A000 then s else s.stray view o
    | .u p =>
      if !s.granted p.val o then s.notGranted p.val o
      else match s.viewRow view o with
        | some w => s.writeU w p o v hwSet
        | none => if 0xE000 ≤ o then s else s.stray view o
    | .s => match s.viewRow view o with
      | some w => s.writeS w o v hwSet
      | none => s

def execRegisterWrite (view : View) (offset value size hwSet _hwClear : Nat) (s : State) :
    Host.Outcome State Fault Refusal := .next (s.registerWrite view offset (value % 2 ^ 32) size hwSet)

/-- The answer to a read leaves the device. -/
def State.answer (s : State) (view : View) (o v : Nat) : State := s.emit (.regRead (viewNo view) (s.viewPaddock view) o v)

/-- A read of an aligned word of a register: the captured word of a _HI register first, and a _LO register of a read-only pair
captures its _HI (R9). -/
def State.readReg (s : State) (view : View) (o : Nat) : State :=
  let k := viewKey view o
  let tag := viewTag view
  if (s.viewRow view o).isNone then (s.answer view o 0).stray view o
  else match s.capturedHi tag k with
  | some v => (s.dropCapture tag k).answer view o v
  | none =>
    let s1 := s.answer view o (s.viewValue view o)
    if (rowAt k).any (·.pair) then
      let s2 := s1.dropCapture tag (k + 4)
      { s2 with hic := (tag, k + 4, s.viewValue view (o + 4)) :: s2.hic }
    else s1

/-- REGISTER_READ: a read of `size` bytes at an offset of a view. -/
def State.registerRead (s : State) (view : View) (o size : Nat) : State :=
  if !s.viewReaches view o then s
  else if size ≠ 4 ∨ o % 4 ≠ 0 then (s.answer view o 0).badAccess view o
  else if !s.viewDecodes view o then (s.answer view o 0).stray view o
  else match view with
    | .p =>
      let win := s.fld Reg.EVR_WIN 9 0
      if 0x1000000 ≤ o then s.aperture (o - 0x1000000) false 0 .clean
      else if 0x28000 ≤ o ∧ o < 0x2A000 then (s.slotSeen win (o - 0x28000)).answer view o (s.slotWord win (o - 0x28000))
      else s.readReg view o
    | .u p =>
      let win := s.fld (Reg.EVR_U_WIN p.val) 9 0
      if !s.granted p.val o then (s.answer view o 0).notGranted p.val o
      else if 0xE000 ≤ o then (s.slotSeen win (o - 0xE000)).answer view o (s.slotWord win (o - 0xE000))
      else s.readReg view o
    | .s => s.readReg view o

def execRegisterRead (view : View) (offset size : Nat) (s : State) : Host.Outcome State Fault Refusal :=
  .next (s.registerRead view offset size)

end Sys2Proof.Machine
end

