-- ==== Sys2Proof/Machine/Time.lean ====
section
/-! DEFINITION. The fabric clock, show time and its echoes (R23, R24). -/

namespace Sys2Proof.Machine

/-- The fabric clock runs: not in OFF or HALTED, not while a reset holds the blocks, not in STABLED. -/
def State.clocked (s : State) : Bool :=
  s.devState != 0 && s.devState != 6 && s.boot.resetCause.isNone && s.fld Reg.PCR_STATUS 31 29 != 4

/-- Show time per 10^9 ns of the fabric clock: nominal, offset by the rate word of STM_STATUS (R395). -/
def State.stmRate (s : State) : Nat := (1000000000 + signedOf 20 (s.fld Reg.STM_STATUS 31 12)).toNat

/-- `n` fabric cycles of 5/6 ns pass (R23). In GRAZE the fabric clock is stopped and the always-on logic counts (R470). -/
def State.pass (s0 : State) (n : Nat) : State :=
  let s := s0.endCycle
  if s.clocked then
    let wake := s.pwr.wake.map fun w => (w.1, w.2.1, w.2.2 + n)
    if s.fld Reg.PCR_STATUS 31 29 = 3 then
      { s with pwr := { s.pwr with grazeTicks := s.pwr.grazeTicks + n, wake := wake } }
    else
      let t := s.clk.frac + 5 * n * s.stmRate
      { s with clk := { s.clk with cycle := s.clk.cycle + n, frac := t % 6000000000, stm := s.clk.stm + t / 6000000000 } }
  else s0

/-- A tick of the fabric clock: what an empty queue's step is (assumption 10). A port whose wire has come free takes the next
frame that waits for it (R389). -/
def State.tick (s : State) : State := (s.pass 1).netTick

/-- The master counter reloads every echo (R24). -/
def State.reload (s : State) : State := { s with clk := { s.clk with echo := s.clk.echo.map fun _ => s.clk.stm } }

/-- The clock moves to the next multiple of 1,024 fabric cycles, `n` times, with a reload at each. -/
def State.reloads (s : State) : Nat → State
  | 0 => s
  | n + 1 => State.reloads (s.pass (1024 - s.clk.cycle % 1024)).reload.netTick n

/-- SHOW_TIME_ECHO_RELOAD: the next `reloads` reloads, each 1,024 fabric cycles after the one before. -/
def execShowTimeEchoReload (reloads : Nat) (s : State) : Host.Outcome State Fault Refusal := .next (s.reloads reloads)

end Sys2Proof.Machine
end

