-- ==== Sys2Proof/Machine/Dispatch.lean ====
section
/-! DEFINITION. One arm per command: its meaning. -/

namespace Sys2Proof.Machine

def exec (i : Instr) (s : State) : Host.Outcome State Fault Refusal :=
  match i with
  | .registerWrite view offset value size hwSet hwClear => Sys2Proof.Machine.execRegisterWrite view offset value size hwSet hwClear s
  | .apertureAccess offset write value ecc => Sys2Proof.Machine.execApertureAccess offset write value ecc s
  | .bsnAptBaseWrite value => Sys2Proof.Machine.execBsnAptBaseWrite value s
  | .eccClearWrite mem value error => Sys2Proof.Machine.execEccClearWrite mem value error s
  | .configRequest port fn op => Sys2Proof.Machine.execConfigRequest port fn op s
  | .pornAssert => Sys2Proof.Machine.execPornAssert s
  | .pornDeassert bootsel => Sys2Proof.Machine.execPornDeassert s bootsel
  | .romCheckDone romOk fuseOk => Sys2Proof.Machine.execRomCheckDone romOk fuseOk s
  | .wellheadLoad sfdpOk slotA slotB steps => Sys2Proof.Machine.execWellheadLoad sfdpOk slotA slotB s steps
  | .runEntry => Sys2Proof.Machine.execRunEntry s
  | .directoryWrite => Sys2Proof.Machine.execDirectoryWrite s
  | .slotConfirm value => Sys2Proof.Machine.execSlotConfirm value s
  | .rebootKey value bootsel => Sys2Proof.Machine.execRebootKey value s bootsel
  | .flashRead => Sys2Proof.Machine.execFlashRead s
  | .flashErase => Sys2Proof.Machine.execFlashErase s
  | .flashProgram => Sys2Proof.Machine.execFlashProgram s
  | .setTrial => Sys2Proof.Machine.execSetTrial s
  | .flashCmdEnd error => Sys2Proof.Machine.execFlashCmdEnd error s
  | .ownAssign arg ro share => Sys2Proof.Machine.execOwnAssign arg ro share s
  | .ownRelease => Sys2Proof.Machine.execOwnRelease s
  | .ownShare share => Sys2Proof.Machine.execOwnShare share s
  | .revokeKey slot => Sys2Proof.Machine.execRevokeKey slot s
  | .otpKey slot => Sys2Proof.Machine.execOtpKey slot s
  | .otpImageKey => Sys2Proof.Machine.execOtpImageKey s
  | .secreqEnd => Sys2Proof.Machine.execSecreqEnd s
  | .memoryAccess master actor mem addr write data len job ecc layer => Sys2Proof.Machine.execMemoryAccess master actor mem addr write data len job ecc s layer
  | .ownerCacheMissFill unit ecc => Sys2Proof.Machine.execOwnerCacheMissFill unit ecc s
  | .ownerEntryRewrite granule => Sys2Proof.Machine.execOwnerEntryRewrite granule s
  | .eccWriteback mem word => Sys2Proof.Machine.execEccWriteback mem word s
  | .patrolScrub errors => Sys2Proof.Machine.execPatrolScrub errors s
  | .dramInitSweep granules => Sys2Proof.Machine.execDramInitSweep granules s
  | .dramInitDone => Sys2Proof.Machine.execDramInitDone s
  | .dramRefresh channel => Sys2Proof.Machine.execDramRefresh channel s
  | .mr4Read rates => Sys2Proof.Machine.execMr4Read rates s
  | .zqCalibration => Sys2Proof.Machine.execZqCalibration s
  | .wckTracking => Sys2Proof.Machine.execWckTracking s
  | .showTimeEchoReload reloads => Sys2Proof.Machine.execShowTimeEchoReload reloads s
  | .brownOut rails => Sys2Proof.Machine.execBrownOut rails s
  | .brownOutRecovery bootsel => Sys2Proof.Machine.execBrownOutRecovery s bootsel
  | .vrPgoodLow => Sys2Proof.Machine.execVrPgoodLow s
  | .thermalTrip => Sys2Proof.Machine.execThermalTrip s
  | .tapBypass => Sys2Proof.Machine.execTapBypass s
  | .tapIdcode => Sys2Proof.Machine.execTapIdcode s
  | .tapExtest balls shifted => Sys2Proof.Machine.execTapExtest s balls shifted
  | .tapSamplePreload balls shifted => Sys2Proof.Machine.execTapSamplePreload s balls shifted
  | .debugSel => Sys2Proof.Machine.execDebugSel s
  | .wdtKick value => Sys2Proof.Machine.execWdtKick value s
  | .wdtExpiry => Sys2Proof.Machine.execWdtExpiry s
  | .koroftRestarted ecc => Sys2Proof.Machine.execKoroftRestarted ecc s
  | .secureClaimSet bit => Sys2Proof.Machine.execSecureClaimSet bit s
  | .secureClaimClear bit => Sys2Proof.Machine.execSecureClaimClear bit s
  | .secureRecordWrite code d0 d1 d2 => Sys2Proof.Machine.execSecureRecordWrite code d0 d1 d2 s
  | .portDown port cause => Sys2Proof.Machine.execPortDown port cause s
  | .completionTimeout port tag => Sys2Proof.Machine.execCompletionTimeout port tag s
  | .linkRetrain port gen width ltssm => Sys2Proof.Machine.execLinkRetrain port gen width ltssm s
  | .busMasterEnableSet paddock => Sys2Proof.Machine.execBusMasterEnableSet paddock s
  | .bmeClear paddock => Sys2Proof.Machine.execBmeClear paddock s
  | .flr paddock => Sys2Proof.Machine.execFlr paddock s
  | .vfEnableClear port => Sys2Proof.Machine.execVfEnableClear port s
  | .hostCompletionReceived port tag reply => Sys2Proof.Machine.execHostCompletionReceived port tag reply s
  | .malformedTlp port => Sys2Proof.Machine.execMalformedTlp port s
  | .poisonedBarWrite port ecrc => Sys2Proof.Machine.execPoisonedBarWrite port s ecrc
  | .msixSend paddock vector => Sys2Proof.Machine.execMsixSend paddock vector s
  | .msixUnmask paddock vector => Sys2Proof.Machine.execMsixUnmask paddock vector s
  | .activate paddock => Sys2Proof.Machine.execActivate paddock s
  | .quiesce paddock => Sys2Proof.Machine.execQuiesce paddock s
  | .resume paddock => Sys2Proof.Machine.execResume paddock s
  | .remove paddock => Sys2Proof.Machine.execRemove paddock s
  | .assign paddock => Sys2Proof.Machine.execAssign paddock s
  | .assignCtx paddock arg => Sys2Proof.Machine.execAssignCtx paddock arg s
  | .unassignCtx paddock arg => Sys2Proof.Machine.execUnassignCtx paddock arg s
  | .grant paddock kind index => Sys2Proof.Machine.execGrant paddock kind index s
  | .revoke paddock kind index => Sys2Proof.Machine.execRevoke paddock kind index s
  | .pdkCmdEnd => Sys2Proof.Machine.execPdkCmdEnd s
  | .paddockQuiesced paddock => Sys2Proof.Machine.execPaddockQuiesced paddock s
  | .selfQuiesce paddock value => Sys2Proof.Machine.execSelfQuiesce paddock value s
  | .doorbellTail paddock slot value => Sys2Proof.Machine.execDoorbellTail paddock slot value s
  | .rein source ctx => Sys2Proof.Machine.execRein source ctx s
  | .reinComplete ctx => Sys2Proof.Machine.execReinComplete ctx s
  | .restart source ctx => Sys2Proof.Machine.execRestart source ctx s
  | .restartDiscard source ctx => Sys2Proof.Machine.execRestartDiscard source ctx s
  | .reset source ctx => Sys2Proof.Machine.execReset source ctx s
  | .descriptorFetched ctx reply host => Sys2Proof.Machine.execDescriptorFetched ctx reply host s
  | .renderPass ctx => Sys2Proof.Machine.execRenderPass ctx s
  | .compute ctx => Sys2Proof.Machine.execCompute ctx s
  | .copy ctx => Sys2Proof.Machine.execCopy ctx s
  | .copyFill ctx => Sys2Proof.Machine.execCopyFill ctx s
  | .copyDone ctx host => Sys2Proof.Machine.execCopyDone ctx host s
  | .fenceWait ctx => Sys2Proof.Machine.execFenceWait ctx s
  | .fenceWaitSatisfied ctx => Sys2Proof.Machine.execFenceWaitSatisfied ctx s
  | .fenceSignal ctx => Sys2Proof.Machine.execFenceSignal ctx s
  | .layerCommit ctx => Sys2Proof.Machine.execLayerCommit ctx s
  | .lightWrite ctx => Sys2Proof.Machine.execLightWrite ctx s
  | .rdmTransaction ctx host => Sys2Proof.Machine.execRdmTransaction ctx host s
  | .audioBufferPlay ctx host => Sys2Proof.Machine.execAudioBufferPlay ctx host s
  | .audioBufferPlayDone ctx => Sys2Proof.Machine.execAudioBufferPlayDone ctx s
  | .audioBufferCapture ctx => Sys2Proof.Machine.execAudioBufferCapture ctx s
  | .audioCaptureDone ctx => Sys2Proof.Machine.execAudioCaptureDone ctx s
  | .hapticPlay ctx => Sys2Proof.Machine.execHapticPlay ctx s
  | .cvuRun ctx host => Sys2Proof.Machine.execCvuRun ctx host s
  | .cvuRunDone ctx host => Sys2Proof.Machine.execCvuRunDone ctx host s
  | .eventMark ctx => Sys2Proof.Machine.execEventMark ctx s
  | .completionHeadWrite paddock slot value => Sys2Proof.Machine.execCompletionHeadWrite paddock slot value s
  | .runLimitExpiry ctx => Sys2Proof.Machine.execRunLimitExpiry ctx s
  | .fenceSet value => Sys2Proof.Machine.execFenceSet value s
  | .contextCfgWrite ctx which value => Sys2Proof.Machine.execContextCfgWrite ctx which value s
  | .homeStringAssign => Sys2Proof.Machine.execHomeStringAssign s
  | .drawRecordRead ctx sq host => Sys2Proof.Machine.execDrawRecordRead ctx sq host s
  | .vertexBatch ctx sq host => Sys2Proof.Machine.execVertexBatch ctx sq host s
  | .binPrimitive ctx sq => Sys2Proof.Machine.execBinPrimitive ctx sq s
  | .geometryPhaseEnd ctx sq host => Sys2Proof.Machine.execGeometryPhaseEnd ctx sq host s
  | .roundEnd ctx sq => Sys2Proof.Machine.execRoundEnd ctx sq s
  | .dispatch str host tileBad => Sys2Proof.Machine.execDispatch str host s tileBad
  | .siphonSteal jet host tileBad => Sys2Proof.Machine.execSiphonSteal jet host s tileBad
  | .tileRetire jet fail => Sys2Proof.Machine.execTileRetire jet fail s
  | .tileWritten str host fail => Sys2Proof.Machine.execTileWritten str host s fail
  | .jaCtrlWrite value => Sys2Proof.Machine.execJaCtrlWrite value s
  | .icacheFill jet ctx sq line host => Sys2Proof.Machine.execIcacheFill jet ctx sq line host s
  | .loadDataReturn jet team idx => Sys2Proof.Machine.execLoadDataReturn jet team idx s
  | .jNop jet team bad => Sys2Proof.Machine.execJNop jet team bad s
  | .jBra jet team bad => Sys2Proof.Machine.execJBra jet team bad s
  | .jCall jet team bad => Sys2Proof.Machine.execJCall jet team bad s
  | .jRet jet team bad => Sys2Proof.Machine.execJRet jet team bad s
  | .jEnd jet team bad tileBad => Sys2Proof.Machine.execJEnd jet team bad s tileBad
  | .jDrop jet team bad => Sys2Proof.Machine.execJDrop jet team bad s
  | .jWsync jet team bad => Sys2Proof.Machine.execJWsync jet team bad s
  | .jMvis jet team bad => Sys2Proof.Machine.execJMvis jet team bad s
  | .jMov jet team bad => Sys2Proof.Machine.execJMov jet team bad s
  | .jIadd jet team bad => Sys2Proof.Machine.execJIadd jet team bad s
  | .jIsub jet team bad => Sys2Proof.Machine.execJIsub jet team bad s
  | .jImul jet team bad => Sys2Proof.Machine.execJImul jet team bad s
  | .jImulhi jet team bad => Sys2Proof.Machine.execJImulhi jet team bad s
  | .jUmulhi jet team bad => Sys2Proof.Machine.execJUmulhi jet team bad s
  | .jImula jet team bad => Sys2Proof.Machine.execJImula jet team bad s
  | .jAnd jet team bad => Sys2Proof.Machine.execJAnd jet team bad s
  | .jOr jet team bad => Sys2Proof.Machine.execJOr jet team bad s
  | .jXor jet team bad => Sys2Proof.Machine.execJXor jet team bad s
  | .jShl jet team bad => Sys2Proof.Machine.execJShl jet team bad s
  | .jShr jet team bad => Sys2Proof.Machine.execJShr jet team bad s
  | .jSar jet team bad => Sys2Proof.Machine.execJSar jet team bad s
  | .jMin jet team bad => Sys2Proof.Machine.execJMin jet team bad s
  | .jMax jet team bad => Sys2Proof.Machine.execJMax jet team bad s
  | .jBit jet team bad => Sys2Proof.Machine.execJBit jet team bad s
  | .jFadd jet team bad => Sys2Proof.Machine.execJFadd jet team bad s
  | .jFsub jet team bad => Sys2Proof.Machine.execJFsub jet team bad s
  | .jFmul jet team bad => Sys2Proof.Machine.execJFmul jet team bad s
  | .jFma jet team bad => Sys2Proof.Machine.execJFma jet team bad s
  | .jFmin jet team bad => Sys2Proof.Machine.execJFmin jet team bad s
  | .jFmax jet team bad => Sys2Proof.Machine.execJFmax jet team bad s
  | .jFround jet team bad => Sys2Proof.Machine.execJFround jet team bad s
  | .jFfrac jet team bad => Sys2Proof.Machine.execJFfrac jet team bad s
  | .jHpadd jet team bad => Sys2Proof.Machine.execJHpadd jet team bad s
  | .jHpmul jet team bad => Sys2Proof.Machine.execJHpmul jet team bad s
  | .jHpfma jet team bad => Sys2Proof.Machine.execJHpfma jet team bad s
  | .jHpmin jet team bad => Sys2Proof.Machine.execJHpmin jet team bad s
  | .jHpmax jet team bad => Sys2Proof.Machine.execJHpmax jet team bad s
  | .jRcp jet team bad => Sys2Proof.Machine.execJRcp jet team bad s
  | .jRsq jet team bad => Sys2Proof.Machine.execJRsq jet team bad s
  | .jSqrt jet team bad => Sys2Proof.Machine.execJSqrt jet team bad s
  | .jExp2 jet team bad => Sys2Proof.Machine.execJExp2 jet team bad s
  | .jLog2 jet team bad => Sys2Proof.Machine.execJLog2 jet team bad s
  | .jSinpi jet team bad => Sys2Proof.Machine.execJSinpi jet team bad s
  | .jCospi jet team bad => Sys2Proof.Machine.execJCospi jet team bad s
  | .jF2i jet team bad => Sys2Proof.Machine.execJF2i jet team bad s
  | .jF2u jet team bad => Sys2Proof.Machine.execJF2u jet team bad s
  | .jI2f jet team bad => Sys2Proof.Machine.execJI2f jet team bad s
  | .jU2f jet team bad => Sys2Proof.Machine.execJU2f jet team bad s
  | .jFpackh jet team bad => Sys2Proof.Machine.execJFpackh jet team bad s
  | .jHunpl jet team bad => Sys2Proof.Machine.execJHunpl jet team bad s
  | .jHunph jet team bad => Sys2Proof.Machine.execJHunph jet team bad s
  | .jFcmp jet team bad => Sys2Proof.Machine.execJFcmp jet team bad s
  | .jIcmp jet team bad => Sys2Proof.Machine.execJIcmp jet team bad s
  | .jUcmp jet team bad => Sys2Proof.Machine.execJUcmp jet team bad s
  | .jPand jet team bad => Sys2Proof.Machine.execJPand jet team bad s
  | .jPor jet team bad => Sys2Proof.Machine.execJPor jet team bad s
  | .jPxor jet team bad => Sys2Proof.Machine.execJPxor jet team bad s
  | .jPnot jet team bad => Sys2Proof.Machine.execJPnot jet team bad s
  | .jPick jet team bad => Sys2Proof.Machine.execJPick jet team bad s
  | .jPget jet team bad => Sys2Proof.Machine.execJPget jet team bad s
  | .jPput jet team bad => Sys2Proof.Machine.execJPput jet team bad s
  | .jLxch jet team bad => Sys2Proof.Machine.execJLxch jet team bad s
  | .jQdx jet team bad => Sys2Proof.Machine.execJQdx jet team bad s
  | .jQdy jet team bad => Sys2Proof.Machine.execJQdy jet team bad s
  | .jLred jet team bad => Sys2Proof.Machine.execJLred jet team bad s
  | .jLread jet team bad => Sys2Proof.Machine.execJLread jet team bad s
  | .jSrg jet team bad => Sys2Proof.Machine.execJSrg jet team bad s
  | .jGld jet team bad host => Sys2Proof.Machine.execJGld jet team bad host s
  | .jGst jet team bad => Sys2Proof.Machine.execJGst jet team bad s
  | .jGatom jet team bad host => Sys2Proof.Machine.execJGatom jet team bad host s
  | .jCld jet team bad host => Sys2Proof.Machine.execJCld jet team bad host s
  | .jShld jet team bad tileBad => Sys2Proof.Machine.execJShld jet team bad s tileBad
  | .jShst jet team bad => Sys2Proof.Machine.execJShst jet team bad s
  | .jShatom jet team bad tileBad => Sys2Proof.Machine.execJShatom jet team bad s tileBad
  | .jSmp jet team bad host => Sys2Proof.Machine.execJSmp jet team bad host s
  | .jSmpl jet team bad host => Sys2Proof.Machine.execJSmpl jet team bad host s
  | .jSmpb jet team bad host => Sys2Proof.Machine.execJSmpb jet team bad host s
  | .jSmpg jet team bad host => Sys2Proof.Machine.execJSmpg jet team bad host s
  | .jSmpc jet team bad host => Sys2Proof.Machine.execJSmpc jet team bad host s
  | .jTfetch jet team bad host => Sys2Proof.Machine.execJTfetch jet team bad host s
  | .jTdim jet team bad => Sys2Proof.Machine.execJTdim jet team bad s
  | .jTbld jet team bad tileBad => Sys2Proof.Machine.execJTbld jet team bad tileBad s
  | .jTbst jet team bad tileBad => Sys2Proof.Machine.execJTbst jet team bad s tileBad
  | .jVint jet team bad => Sys2Proof.Machine.execJVint jet team bad s
  | .jOut jet team bad => Sys2Proof.Machine.execJOut jet team bad s
  | .jZout jet team bad => Sys2Proof.Machine.execJZout jet team bad s
  | .workgroupRetire jet group => Sys2Proof.Machine.execWorkgroupRetire jet group s
  | .deadlineArbiterTick => Sys2Proof.Machine.execDeadlineArbiterTick s
  | .preemptRequestArrive jet => Sys2Proof.Machine.execPreemptRequestArrive jet s
  | .graceLimit jet => Sys2Proof.Machine.execGraceLimit jet s
  | .preemptSave jet => Sys2Proof.Machine.execPreemptSave jet s
  | .lentJetReturn jet => Sys2Proof.Machine.execLentJetReturn jet s
  | .resumeRestore jet => Sys2Proof.Machine.execResumeRestore jet s
  | .jetStallTimeout jet => Sys2Proof.Machine.execJetStallTimeout jet s
  | .jetClockGate jet => Sys2Proof.Machine.execJetClockGate jet s
  | .headCommit composer atTime => Sys2Proof.Machine.execHeadCommit composer atTime s
  | .groupCommit composer atTime => Sys2Proof.Machine.execGroupCommit composer atTime s
  | .cmpHoldWrite composer value => Sys2Proof.Machine.execCmpHoldWrite composer value s
  | .cmpLutDataWrite composer value => Sys2Proof.Machine.execCmpLutDataWrite composer value s
  | .cmpCtrlWrite composer value => Sys2Proof.Machine.execCmpCtrlWrite composer value s
  | .layerFetchReturn composer layer addr len => Sys2Proof.Machine.execLayerFetchReturn composer layer addr len s
  | .canvasLine composer line => Sys2Proof.Machine.execCanvasLine composer line s
  | .writebackFrameDone composer => Sys2Proof.Machine.execWritebackFrameDone composer s
  | .frameStart head => Sys2Proof.Machine.execFrameStart head s
  | .lineMatch head => Sys2Proof.Machine.execLineMatch head s
  | .latchLine head => Sys2Proof.Machine.execLatchLine head s
  | .frameDone head => Sys2Proof.Machine.execFrameDone head s
  | .vblankStart head => Sys2Proof.Machine.execVblankStart head s
  | .underrun head line pixel => Sys2Proof.Machine.execUnderrun head line pixel s
  | .syncInEdge => Sys2Proof.Machine.execSyncInEdge s
  | .gaitRequest head gait => Sys2Proof.Machine.execGaitRequest head gait s
  | .headPllLocked head => Sys2Proof.Machine.execHeadPllLocked head s
  | .linkTrainingDone head locked rate lanes => Sys2Proof.Machine.execLinkTrainingDone head locked rate lanes s
  | .linkRetry head => Sys2Proof.Machine.execLinkRetry head s
  | .hpdLow head ns irq lanes lost => Sys2Proof.Machine.execHpdLow head ns irq lanes lost s
  | .hpdRise head => Sys2Proof.Machine.execHpdRise head s
  | .auxNativeWrite head len => Sys2Proof.Machine.execAuxNativeWrite head len s
  | .auxNativeRead head len => Sys2Proof.Machine.execAuxNativeRead head len s
  | .auxI2cWrite head len => Sys2Proof.Machine.execAuxI2cWrite head len s
  | .auxI2cRead head len => Sys2Proof.Machine.execAuxI2cRead head len s
  | .auxI2cWriteMot head len => Sys2Proof.Machine.execAuxI2cWriteMot head len s
  | .auxI2cReadMot head len => Sys2Proof.Machine.execAuxI2cReadMot head len s
  | .auxReply head reply data => Sys2Proof.Machine.execAuxReply head reply data s
  | .hdCtrlWrite head value => Sys2Proof.Machine.execHdCtrlWrite head value s
  | .panelPowerOn head => Sys2Proof.Machine.execPanelPowerOn head s
  | .panelPowerOff head => Sys2Proof.Machine.execPanelPowerOff head s
  | .panelHpdTimeout head => Sys2Proof.Machine.execPanelHpdTimeout head s
  | .panelBacklightOn head => Sys2Proof.Machine.execPanelBacklightOn head s
  | .panelBlOffElapsed head => Sys2Proof.Machine.execPanelBlOffElapsed head s
  | .panelCycleElapsed head => Sys2Proof.Machine.execPanelCycleElapsed head s
  | .regionSignatureFinal head region => Sys2Proof.Machine.execRegionSignatureFinal head region s
  | .safetySignatureFinal head faults => Sys2Proof.Machine.execSafetySignatureFinal head faults s
  | .imClear head value => Sys2Proof.Machine.execImClear head value s
  | .fallbackCheck head => Sys2Proof.Machine.execFallbackCheck head s
  | .cvuInit cvu view value => Sys2Proof.Machine.execCvuInit cvu view value s
  | .cvuData cvu view value => Sys2Proof.Machine.execCvuData cvu view value s
  | .cvuDataB cvu view value => Sys2Proof.Machine.execCvuDataB cvu view value s
  | .cvuCfgWrite cvu view reg value => Sys2Proof.Machine.execCvuCfgWrite cvu view reg value s
  | .cvuStale cvu => Sys2Proof.Machine.execCvuStale cvu s
  | .lightFrameStart => Sys2Proof.Machine.execLightFrameStart s
  | .lightHoldover => Sys2Proof.Machine.execLightHoldover s
  | .lightDataArrive ctx host => Sys2Proof.Machine.execLightDataArrive ctx host s
  | .mergeStart => Sys2Proof.Machine.execMergeStart s
  | .emissionStart => Sys2Proof.Machine.execEmissionStart s
  | .sourceTimeout source => Sys2Proof.Machine.execSourceTimeout source s
  | .loLoad kind => Sys2Proof.Machine.execLoLoad kind s
  | .loSync kind => Sys2Proof.Machine.execLoSync kind s
  | .loadEnd host hostError => Sys2Proof.Machine.execLoadEnd host hostError s
  | .lightCommit switch atTime => Sys2Proof.Machine.execLightCommit switch atTime s
  | .lightCommitChecked => Sys2Proof.Machine.execLightCommitChecked s
  | .loCtrlWrite value => Sys2Proof.Machine.execLoCtrlWrite value s
  | .sacnPacketReceived port packet => Sys2Proof.Machine.execSacnPacketReceived port packet s
  | .sacnSenderTimeout input cid => Sys2Proof.Machine.execSacnSenderTimeout input cid s
  | .sacnDiscoverySend => Sys2Proof.Machine.execSacnDiscoverySend s
  | .sacnPacketSent port => Sys2Proof.Machine.execSacnPacketSent port s
  | .dmxPacketEnd port => Sys2Proof.Machine.execDmxPacketEnd port s
  | .rdmResponseByte port what => Sys2Proof.Machine.execRdmResponseByte port what s
  | .rdmResponseTimeout port => Sys2Proof.Machine.execRdmResponseTimeout port s
  | .rdmTransactionEnd port => Sys2Proof.Machine.execRdmTransactionEnd port s
  | .netLinkDown port cause => Sys2Proof.Machine.execNetLinkDown port cause s
  | .netLinkUp port => Sys2Proof.Machine.execNetLinkUp port s
  | .txdisPulseEnd port => Sys2Proof.Machine.execTxdisPulseEnd port s
  | .ethernetFrameReceived port frame => Sys2Proof.Machine.execEthernetFrameReceived port frame s
  | .arpRequest port mac ipv4 target => Sys2Proof.Machine.execArpRequest port mac ipv4 target s
  | .icmpEchoRequest port source target data => Sys2Proof.Machine.execIcmpEchoRequest port source target data s
  | .igmpQuery port v2 group => Sys2Proof.Machine.execIgmpQuery port v2 group s
  | .ptpMessageReceived port domain msg => Sys2Proof.Machine.execPtpMessageReceived port domain msg s
  | .ptpMessageSend what => Sys2Proof.Machine.execPtpMessageSend what s
  | .ptpReceiptTimeout announce => Sys2Proof.Machine.execPtpReceiptTimeout announce s
  | .ppsPulse => Sys2Proof.Machine.execPpsPulse s
  | .aes67TxPacket stream => Sys2Proof.Machine.execAes67TxPacket stream s
  | .aes67RxPacket stream port seq stamp samples => Sys2Proof.Machine.execAes67RxPacket stream port seq stamp samples s
  | .aesRxLoss stream => Sys2Proof.Machine.execAesRxLoss stream s
  | .sfpI2cTransaction port value ack data => Sys2Proof.Machine.execSfpI2cTransaction port value ack data s
  | .touchFrameEnd raw noise => Sys2Proof.Machine.execTouchFrameEnd raw noise s
  | .stuckRelease touch => Sys2Proof.Machine.execStuckRelease touch s
  | .keyHeldLong key => Sys2Proof.Machine.execKeyHeldLong key s
  | .tchCtrlWrite value => Sys2Proof.Machine.execTchCtrlWrite value s
  | .touchCommit scope => Sys2Proof.Machine.execTouchCommit scope s
  | .touchResync paddock => Sys2Proof.Machine.execTouchResync paddock s
  | .grazeScan raw => Sys2Proof.Machine.execGrazeScan raw s
  | .grazeSlideTimeout => Sys2Proof.Machine.execGrazeSlideTimeout s
  | .hapticControlTick acc => Sys2Proof.Machine.execHapticControlTick acc s
  | .hapFaultPin channel low => Sys2Proof.Machine.execHapFaultPin channel low s
  | .spurTrigger pin level => Sys2Proof.Machine.execSpurTrigger pin level s
  | .hapClearFault channel => Sys2Proof.Machine.execHapClearFault channel s
  | .hapStop channel => Sys2Proof.Machine.execHapStop channel s
  | .hapCommit scope => Sys2Proof.Machine.execHapCommit scope s
  | .hapCtrlWrite value => Sys2Proof.Machine.execHapCtrlWrite value s
  | .hapLibraryCheckDone => Sys2Proof.Machine.execHapLibraryCheckDone s
  | .audioBlockStart tdm slips => Sys2Proof.Machine.execAudioBlockStart tdm slips s
  | .realign shift => Sys2Proof.Machine.execRealign shift s
  | .audCommit switch atTime => Sys2Proof.Machine.execAudCommit switch atTime s
  | .audXpDataWrite value => Sys2Proof.Machine.execAudXpDataWrite value s
  | .audXpSync value => Sys2Proof.Machine.execAudXpSync value s
  | .audXpSyncDone => Sys2Proof.Machine.execAudXpSyncDone s
  | .voiceStart voice => Sys2Proof.Machine.execVoiceStart voice s
  | .voiceStop voice => Sys2Proof.Machine.execVoiceStop voice s
  | .tdmLost port => Sys2Proof.Machine.execTdmLost port s
  | .audCtrlWrite value => Sys2Proof.Machine.execAudCtrlWrite value s
  | .clipCheckDone => Sys2Proof.Machine.execClipCheckDone s
  | .recordAccept => Sys2Proof.Machine.execRecordAccept s
  | .rearm value => Sys2Proof.Machine.execRearm value s
  | .evrDisable value => Sys2Proof.Machine.execEvrDisable value s
  | .evrAckWrite value => Sys2Proof.Machine.execEvrAckWrite value s
  | .rateLimitIntervalEnd code unit => Sys2Proof.Machine.execRateLimitIntervalEnd code unit s
  | .powerStateRequest value => Sys2Proof.Machine.execPowerStateRequest value s
  | .blockHandshakeAnswer block answer => Sys2Proof.Machine.execBlockHandshakeAnswer block answer s
  | .handshakeTimeout => Sys2Proof.Machine.execHandshakeTimeout s
  | .pcrGateWrite value => Sys2Proof.Machine.execPcrGateWrite value s
  | .wakeSource source bootsel => Sys2Proof.Machine.execWakeSource source s bootsel
  | .stabledTimerExpiry bootsel => Sys2Proof.Machine.execStabledTimerExpiry s bootsel
  | .wakeStepReady => Sys2Proof.Machine.execWakeStepReady s
  | .wakeStepTimeout => Sys2Proof.Machine.execWakeStepTimeout s
  | .pcrJetPointWrite value => Sys2Proof.Machine.execPcrJetPointWrite value s
  | .dvfs => Sys2Proof.Machine.execDvfs s
  | .thermalSample tj ma10 => Sys2Proof.Machine.execThermalSample tj ma10 s
  | .throttle => Sys2Proof.Machine.execThrottle s
  | .avsTransactionEnd ack => Sys2Proof.Machine.execAvsTransactionEnd ack s
  | .pcrReset value => Sys2Proof.Machine.execPcrReset value s
  | .chipResetEnd bootsel => Sys2Proof.Machine.execChipResetEnd s bootsel
  | .registerRead view offset size => Sys2Proof.Machine.execRegisterRead view offset size s
  | .allRailsGood bootsel => Sys2Proof.Machine.execAllRailsGood s bootsel
  | .moduleFaultRetry port => Sys2Proof.Machine.execModuleFaultRetry port s
  | .dvfsDeferralExpiry => Sys2Proof.Machine.execDvfsDeferralExpiry s
  | .tdmLocked port => Sys2Proof.Machine.execTdmLocked port s
  | .linkLockLost head lanes => Sys2Proof.Machine.execLinkLockLost head lanes s
  | .testLogicReset => Sys2Proof.Machine.execTestLogicReset s

end Sys2Proof.Machine
end

