-- ==== Sys2Proof/Safety.lean ====
section
/-! DEFINITION. What the statements call a well-kept state: the memories and the register file in their canonical form, and
what it is for fuses only to be blown. -/

namespace Sys2Proof.Machine

/-- The command completes: `exec` answers a next state, of which `P` holds. -/
abbrev Completes (c : Instr) (s : State) (P : State → Prop) : Prop := ∃ t, exec c s = .next t ∧ P t

/-- Every register but those listed reads as before. -/
def SameRegs (s t : State) (but : List Nat) : Prop := ∀ k, k ∉ but → t.reg k = s.reg k

/-- Every byte of Basin and DRAM reads as before. -/
def SameBytes (s t : State) : Prop := ∀ m a, t.byte m a = s.byte m a

/-- Basin, DRAM, flash and the register file are in canonical form. -/
def State.memWf (s : State) : Bool :=
  spWf zeroByte s.mem.basin && spWf zeroByte s.mem.dram && spWf erasedByte s.boot.flash && spWf regReset s.regs

/-- How many ports, heads, composers, check-value units, light sources, DMX ports, AES67 streams each way, touch units, haptic
channels, jets, home strings, network ports and sequence counts a state holds. -/
abbrev State.sizes (s : State) : List Nat :=
  [s.hp.ports.length, s.hd.heads.length, s.cmp.comps.length, s.im.cvus.length, s.lo.srcs.length, s.lo.dmx.length,
    s.net.tx.length, s.net.rx.length, s.tch.units.length, s.hap.chans.length, s.ja.jets.length, s.ja.strs.length,
    s.net.igmpV2.length, s.net.seqs.length]

/-- The sizes of the device. -/
abbrev deviceSizes : List Nat := [4, 8, 10, 16, 8, 8, 8, 8, 9, 16, 64, 8, 2, 3]

/-- A state whose parts are as many as the device has of them, each head's integrity unit with its checks (spec/05, 07, 11–18). -/
def State.sized (s : State) : Prop :=
  s.sizes = deviceSizes ∧ s.im.heads.length = 8 ∧ ∀ h ∈ s.im.heads, h.checks.length = 19

/-- `g` is what `f` becomes by blowing fuses alone (R92): the bits of key_prog and key_revoked that were set stay set, a
programmed key hash and image key keep their value, minimum_security_version does not fall, and the fuses that this manual
only reads keep theirs. -/
def Fuses.grown (f g : Fuses) : Prop :=
  (∀ n, f.keyProg.testBit n = true → g.keyProg.testBit n = true)
  ∧ (∀ n, f.keyRevoked.testBit n = true → g.keyRevoked.testBit n = true)
  ∧ (∀ n, f.keyProg.testBit n = true → g.keyHash[n]? = f.keyHash[n]?)
  ∧ (f.imageKeyProg = true → g.imageKeyProg = true ∧ g.imageKey = f.imageKey)
  ∧ f.minSec ≤ g.minSec
  ∧ g.partCode = f.partCode ∧ g.debugOff = f.debugOff ∧ g.uniqueId = f.uniqueId ∧ g.silicon = f.silicon
  ∧ g.coreMv = f.coreMv

/-- Bit `i` of a register takes the value written to it outside TEST (Table 0.4): an RW bit, an RL bit while its block is
disabled, and in a register with a shadow every bit of no other code. -/
def RegRow.takes (w : RegRow) (locked : Bool) (i : Nat) : Bool :=
  w.rw.testBit i || (w.rl.testBit i && !locked)
    || (decide (w.rs ≠ 0) && !(w.rl.testBit i || w.img.testBit i || w.w1c.testBit i || w.ro.testBit i || w.wo.testBit i))

/-- The operation, kind, paddock and argument that a paddock command writes to PDK_CMD and PDK_CMD_ARG (Table 5.6). -/
def State.paddockOp (s : State) : Instr → Option (Nat × Nat × Nat × Nat)
  | .activate p => some (1, 0, p.val, s.reg Reg.PDK_CMD_ARG)
  | .quiesce p => some (2, 0, p.val, s.reg Reg.PDK_CMD_ARG)
  | .resume p => some (3, 0, p.val, s.reg Reg.PDK_CMD_ARG)
  | .remove p => some (4, 0, p.val, s.reg Reg.PDK_CMD_ARG)
  | .assign p => some (5, 0, p.val, s.reg Reg.PDK_CMD_ARG)
  | .assignCtx p a => some (6, 0, p.val, a)
  | .unassignCtx p a => some (7, 0, p.val, a)
  | .grant p k i => some (8, k.val, p.val, i)
  | .revoke p k i => some (9, k.val, p.val, i)
  | _ => none

/-- A frame queued for port `p` leaves at once: nothing waits, no packet of the light engine does, the wire is free, and the
network's balls do not hold their state (R36, R389). -/
def State.wireFree (s : State) (p : Nat) : Prop :=
  s.held 1 = false ∧ s.net.waiting = [] ∧ (∀ x ∈ s.lo.tx, x.port ≠ p) ∧ p < s.net.wire.length ∧ s.net.wire.getD p 0 ≤ s.clk.stm

/-- `t` is `s` after the team in slot `n` of jet `k` has become `u` by issuing: the jet's issue time is now, and every other
team, every other jet and everything outside the jets is as before. -/
def Issued (s t : State) (k n : Nat) (u : Team) : Prop :=
  t = { s with ja := { s.ja with jets := t.ja.jets } } ∧ (∀ m, m ≠ k → t.jet m = s.jet m)
    ∧ t.jet k = ({ s.jet k with teams := (t.jet k).teams, last := s.clk.stm } : Jet)
    ∧ (t.jet k).team n = some u ∧ ∀ m, m ≠ n → (t.jet k).team m = (s.jet k).team m

/-- `u` is team `t` after an instruction whose destination takes `v lane`: a v register in the active lanes, an s register
once, and nothing for the zero code; every other register is as before, and the team is at its next instruction (R223). -/
def Team.gets (t u : Team) (i : Ins) (v : Nat → Nat) : Prop :=
  (isV i.d = true → ∀ l, l < 16 → u.rd i.d l = if t.active i l then v l % 2 ^ 32 else t.rd i.d l)
    ∧ (isS i.d = true → ∀ l, u.rd i.d l = v 0 % 2 ^ 32)
    ∧ (∀ c l, c < 0xC8 → l < 16 → c ≠ i.d ∨ isZero i.d = true → u.rd c l = t.rd c l)
    ∧ u = { t with pc := t.pc + 1, regs := u.regs }

/-- `u` is team `t` after an instruction whose predicate destination takes bit `v lane` in the active lanes (R223). -/
def Team.getsPred (t u : Team) (i : Ins) (v : Nat → Bool) : Prop :=
  (isP i.d = true → i.d ≠ 0xC0 → ∀ l, l < 16 → u.rd i.d l = if t.active i l then b2n (v l) else t.rd i.d l)
    ∧ (∀ c l, c < 0xC8 → l < 16 → c ≠ i.d ∨ i.d = 0xC0 ∨ isZero i.d = true → u.rd c l = t.rd c l)
    ∧ u = { t with pc := t.pc + 1, regs := u.regs }

/-- What a command for an instruction of opcode `op` does where the team in slot `n` of jet `k` does not go on: nothing while
it is not that instruction's turn; a fetch error retires the jet; an illegal instruction ends its job (R228, R234, R235). -/
def Waits (c : Bool → Instr) (k n op : Nat) : Prop :=
  ∀ s bad, (s.ready k n op bad = .no → Completes (c bad) s fun t => t = s)
    ∧ (s.ready k n op bad = .fetchError → Completes (c bad) s fun t => t = s.retireJet k 2 none)
    ∧ ∀ j t r, s.ready k n op bad = .illegal j t r → Completes (c bad) s fun u => u = s.illegalEnd j t r

/-- A command for an instruction of opcode `op` that issues: `P` holds of its job, its team and instruction, and what the
team becomes, and nothing but that team changes. -/
def Issues (c : Fin 64 → Fin 16 → Bool → Instr) (op : Nat) (P : State → JetJob → Team → Ins → Team → Prop) : Prop :=
  ∀ k n, Waits (c k n) k.val n.val op ∧ ∀ s j t i, s.ready k.val n.val op false = .go j t i →
    Completes (c k n false) s fun s' => ∃ u, Issued s s' k.val n.val u ∧ P s j t i u

/-- It gives each lane a word of its operands a, b and c. -/
def Gives (c : Fin 64 → Fin 16 → Bool → Instr) (op : Nat) (f : Ins → Nat → Nat → Nat → Nat) : Prop :=
  Issues c op fun _ _ t i u => t.gets u i fun l => f i (t.a i 0 l) (t.b i l) (t.c i l)

/-- It gives each lane a bit of its operands a and b. -/
def GivesBit (c : Fin 64 → Fin 16 → Bool → Instr) (op : Nat) (f : Ins → Nat → Nat → Nat → Bool) : Prop :=
  Issues c op fun _ _ t i u => t.getsPred u i fun l => f i l (t.a i 0 l) (t.b i l)

/-- `u` is team `t` after it has issued a load: at its next instruction, with a flight that will write the words `v lane` to
the `nd` registers from the destination on (R235). -/
def Team.loading (t u : Team) (i : Ins) (nd : Nat) (v : Nat → List Nat) : Prop :=
  u = { t with pc := t.pc + 1, flights := t.flights ++ [⟨(List.range nd).map (i.d + ·), t.results i v⟩] }

/-- A load or store of an instruction whose lane `l` accesses `n` bytes at offset `t.offset i n l` of `size` bytes: every lane
that it acts for is inside. -/
def Team.inside (t : Team) (i : Ins) (n size : Nat) : Prop := ∀ l ∈ t.lanes i, t.offset i n l + n ≤ size

end Sys2Proof.Machine
end

