-- ==== Sys2Proof/Certificates/Slice0/Obligations.lean ====
section
/-! DEFINITION. The statements for the provers. A clause `Completes c s P` says that command `c` answers a next state of which `P`
holds; where a clause rests on a value or a reading that the model chose, its docstring names the log entry. -/

open Sys2Proof Sys2Proof.Machine

/-- PORn (R29, R31, R36, R43, R44, R61; Table 1.9): its assertion takes every state to OFF with SYS_STATE and the secure records
clear, every other register at its reset word, every group at its state of Table 2.4, memories empty, fuses, flash and waiting
commands as they were; its deassertion, and the last rail becoming good, take OFF to BOOT with entry_cause 0x00 and BOOTSEL
sampled where PORn is high and every rail good, and otherwise leave the state (R43).
BOOT ends (R29, R31; Table 1.9): by the result of the ROM self-check and fuse read and by BOOTSEL[1:0] as sampled, where
0b11 counts as 0b00, the device enters LOAD, RECOVERY, TEST or HALTED, with its entry_cause (kept for LOAD) and prev_state 1.
Where a clause rests on a reading of the model, log entry 3 gives it. -/
def Obligations.PornAndBootByTable : Prop :=
  ((∀ s : State, Completes .pornAssert s fun t =>
    t.devState = 0 ∧ t.reg Reg.SYS_STATE = 0 ∧ t.sec = {} ∧ t.mem = {} ∧ t.pins.porn = false ∧ t.pins.thermtrip = false
      ∧ (∀ k, k ≠ Reg.SYS_STATE → t.reg k = (regReset k).toNat) ∧ (∀ g, t.held g = true) ∧ t.out = safeLevels ++ s.out
      ∧ t.fuses = s.fuses ∧ t.boot.flash = s.boot.flash ∧ t.pending = s.pending)
  ∧ (∀ (s : State) (b : Fin 4), s.devState = 0 → s.pins.porn = false → s.pins.railsLow = [] → Completes (.pornDeassert b) s fun t =>
    t.devState = 1 ∧ t.fld Reg.SYS_STATE 23 16 = 0 ∧ t.fld Reg.SYS_STATE 10 8 = 0 ∧ t.pins.porn = true
      ∧ t.pins.bootSample = b.val ∧ t.fuses = s.fuses ∧ t.mem = s.mem)
  ∧ (∀ (s : State) (b : Fin 4), s.devState = 0 → s.pins.railsLow ≠ [] → Completes (.pornDeassert b) s fun t =>
    t = { s with pins := { s.pins with porn := true }, tap := if s.tap = .extest ∨ s.tap = .sample then .bypass else s.tap })
  ∧ (∀ (s : State) (b : Fin 4), s.devState = 0 → s.pins.porn = true → Completes (.allRailsGood b) s fun t =>
    t.devState = 1 ∧ t.fld Reg.SYS_STATE 23 16 = 0 ∧ t.pins.railsLow = [] ∧ t.pins.bootSample = b.val)
  ∧ (∀ (s : State) (b : Fin 4), s.devState ≠ 0 ∨ s.pins.porn = false → Completes (.allRailsGood b) s fun t =>
    t = { s with pins := { s.pins with railsLow := [] } }))
  ∧ (∀ (s : State) (rom fuse : Bool), s.devState = 1 → Completes (.romCheckDone rom fuse) s fun t =>
    t.fld Reg.SYS_STATE 10 8 = 1
      ∧ t.devState = (if !rom || !fuse then 6 else if s.pins.bootSample % 4 = 1 then 4
          else if s.pins.bootSample % 4 = 2 then 5 else 2)
      ∧ t.fld Reg.SYS_STATE 23 16 = (if !rom then 0x20 else if !fuse then 0x21 else if s.pins.bootSample % 4 = 1 then 0x11
          else if s.pins.bootSample % 4 = 2 then 0x12 else s.fld Reg.SYS_STATE 23 16)
      ∧ t.mem = s.mem ∧ t.fuses = s.fuses ∧ t.out = s.out)

/-- Brown-outs and chip resets (R47, R50, R51, R479): a monitored rail that lies below its threshold for 2 µs, and VR_PGOOD low
in RUN, RECOVERY or TEST, put every block in reset until BROWN_OUT_RECOVERY enters BOOT with entry_cause 0x01; a fall shorter
than 0.5 µs, above the threshold or on a masked monitor does not; 0xC4A5 written to PCR_RESET in RUN or TEST resets the chip,
and CHIP_RESET_END enters BOOT with entry_cause 0x04. SYS_STATE survives both resets (R31), a chip reset also the secure record
area and SEC_RESET_INFO; every other register but those R479 names is at its reset word.
The test access port and the thermal trip (R59, R61, R110, R111): each TAP instruction selects what R59 says at the level
of PORn, IDCODE shifts 0x1A8F_6D01 with the silicon version in [31:28], a scan exchanges the boundary-scan register, DEBUG_SEL
opens the debug fabric on NM8-X alone while debug_off is not blown, and its first use removes the image key and writes the secure
record 0x0306; a thermal trip asserts THERMTRIPn and drives the haptic outputs low, and changes no register.
Where a clause rests on a reading of the model, log entry 46 gives it. -/
def Obligations.ResetsTapAndThermalTrip : Prop :=
  ((∀ (s : State) (x : RailSample), s.sysState ≠ 0 → x.rail.val ∉ s.pins.maskedRails → 10 * x.mv < s.railLimit x.rail.val → 2000 ≤ x.ns →
    Completes (.brownOut [x]) s fun t =>
      t.boot.resetCause = some 1 ∧ t.mem = {} ∧ t.sec = {} ∧ x.rail.val ∈ t.pins.railsLow ∧ (∀ g, t.held g = true)
        ∧ t.reg Reg.SYS_STATE = s.reg Reg.SYS_STATE ∧ (∀ k, k ≠ Reg.SYS_STATE → t.reg k = (regReset k).toNat)
        ∧ t.fuses = s.fuses ∧ t.boot.flash = s.boot.flash)
  ∧ (∀ (s : State) (x : RailSample), x.ns < 500 ∨ s.railLimit x.rail.val ≤ 10 * x.mv ∨ x.rail.val ∈ s.pins.maskedRails →
    Completes (.brownOut [x]) s fun t => t.boot = s.boot ∧ t.regs = s.regs ∧ t.mem = s.mem ∧ t.out = s.out)
  ∧ (∀ s : State, s.devState = 3 ∨ s.devState = 4 ∨ s.devState = 5 → s.pins.pgoodMasked = false →
    Completes .vrPgoodLow s fun t => t.boot.resetCause = some 1 ∧ t.mem = {} ∧ ∀ g, t.held g = true)
  ∧ (∀ (s : State) (b : Fin 4), s.boot.resetCause = some 1 → Completes (.brownOutRecovery b) s fun t =>
    t.devState = 1 ∧ t.fld Reg.SYS_STATE 23 16 = 1 ∧ t.fld Reg.SYS_STATE 10 8 = s.sysState ∧ t.boot.resetCause = none
      ∧ t.pins.railsLow = [] ∧ t.pins.bootSample = b.val)
  ∧ (∀ (s : State) (v : Nat), s.devState = 3 ∨ s.devState = 5 → v % 2 ^ 16 = 0xC4A5 → Completes (.pcrReset v) s fun t =>
    t.boot.resetCause = some 4 ∧ t.mem = {} ∧ t.clk.stm = 0 ∧ t.reg Reg.SYS_STATE = s.reg Reg.SYS_STATE
      ∧ t.reg Reg.SEC_RESET_INFO = s.reg Reg.SEC_RESET_INFO ∧ t.reg Reg.PCR_WAKE_INFO = s.reg Reg.PCR_WAKE_INFO
      ∧ t.fld Reg.SEC_WDT_STATUS 7 0 = s.fld Reg.SEC_WDT_STATUS 7 0 ∧ t.sec.secSlots = s.sec.secSlots
      ∧ t.sec.secNext = s.sec.secNext ∧ (∀ g, t.held g = true)
      ∧ (∀ k, k ∉ [Reg.SYS_STATE, Reg.SEC_RESET_INFO, Reg.SEC_WDT_STATUS, Reg.PCR_WAKE_INFO] →
        t.reg k = (regReset k).toNat))
  ∧ (∀ (s : State) (c : Nat) (b : Fin 4), s.boot.resetCause = some c → c ≠ 1 → c < 256 → Completes (.chipResetEnd b) s fun t =>
    t.devState = 1 ∧ t.fld Reg.SYS_STATE 23 16 = c ∧ t.boot.resetCause = none ∧ t.pins.bootSample = b.val))
  ∧ ((∀ s : State, Completes .tapBypass s fun t => t = { s with tap := .bypass })
  ∧ (∀ s : State, Completes .testLogicReset s fun t => t = { s with tap := .reset })
  ∧ (∀ s : State, Completes .tapIdcode s fun t => t.tap = .idcode ∧ t.regs = s.regs ∧
    ∃ v, t.out = .tapShift v :: s.out ∧ v % 2 ^ 28 = 0xA8F6D01 ∧ v / 2 ^ 28 = s.fuses.silicon % 16)
  ∧ (∀ (s : State) (balls new : List Bool), s.pins.porn = true →
    Completes (.tapExtest balls new) s (fun t => t = { s with tap := .bypass })
      ∧ Completes (.tapSamplePreload balls new) s fun t => t = { s with tap := .bypass })
  ∧ (∀ (s : State) (balls new : List Bool), s.pins.porn = false →
    Completes (.tapExtest balls new) s (fun t => t = { s with
      tap := .extest
      pins := { s.pins with scan := new }
      out := .boundary new :: .tapScan balls :: .boundary s.pins.scan :: s.out })
    ∧ Completes (.tapSamplePreload balls new) s fun t => t = { s with
      tap := .sample
      pins := { s.pins with scan := new }
      out := .tapScan balls :: s.out })
  ∧ (∀ s : State, s.fuses.partCode = 3 → s.fuses.debugOff = false → Completes .debugSel s fun t =>
    t.tap = .debugSel ∧ t.boot.imageKeyRemoved = true ∧ t.mem = s.mem
      ∧ (s.boot.imageKeyRemoved = false → t.bit Reg.SEC_STATUS 3 = true ∧ t.sec.secNext = s.sec.secNext + 1
        ∧ ∃ r, t.evr.offered = s.evr.offered ++ [r] ∧ r.code = 0x0306 ∧ r.d2 = s.sec.secNext % 2 ^ 32))
  ∧ (∀ s : State, s.fuses.partCode ≠ 3 ∨ s.fuses.debugOff = true → Completes .debugSel s fun t => t = { s with tap := .bypass })
  ∧ (∀ s : State, 3 ∉ s.pins.railsLow → Completes .thermalTrip s fun t =>
    t.pins = { s.pins with thermtrip := true } ∧ t.out = hapLow ++ .pin "THERMTRIPn" 0 :: s.out ∧ t.regs = s.regs ∧ t.mem = s.mem
      ∧ t.hap.chans = s.hap.chans.map (fun x => { x with drive := 0 }))
  ∧ (∀ s : State, 3 ∈ s.pins.railsLow → Completes .thermalTrip s fun t => t = s))

/-- A step takes the command that waits first: with `c` at the front of the queue it is `exec c` with the rest waiting, and on
an empty queue it is one fabric cycle (log entry 10, the model's choice). -/
def Obligations.StepRunsFrontCommand : Prop :=
  (∀ (c : Instr) (s : State) (rest : List Instr), s.pending = c :: rest → step s = exec c { s with pending := rest })
  ∧ (∀ s : State, s.pending = [] → step s = .next s.tick)

/-- Fabric time (R23, R24): with the fabric clock running outside GRAZE, a cycle counts one and show time advances by
5/6 ns × (10^9 + rate) / 10^9, kept exactly in units of 1/(6 × 10^9) ns; an echo reload comes at the next multiple of 1,024
cycles and brings every echo to show time; no register changes but the counts of frames that waited for a network port and leave,
and no memory changes.
Where a clause rests on a reading of the model, log entry 10 gives it. -/
def Obligations.ShowTimeAdvancesAndEchoes : Prop :=
  (∀ s : State, s.clocked = true → s.fld Reg.PCR_STATUS 31 29 ≠ 3 →
    s.tick.clk.cycle = s.clk.cycle + 1 ∧ s.tick.clk.frac < 6000000000
      ∧ s.tick.clk.stm * 6000000000 + s.tick.clk.frac = s.clk.stm * 6000000000 + s.clk.frac + 5 * s.stmRate
      ∧ SameRegs s s.tick [Reg.NETP_TX_FRAMES 0, Reg.NETP_TX_FRAMES 1] ∧ s.tick.mem = s.mem
      ∧ (s.net.waiting = [] → s.tick.regs = s.regs ∧ s.tick.out = s.out))
  ∧ (∀ s : State, s.clocked = true → s.fld Reg.PCR_STATUS 31 29 ≠ 3 → Completes (.showTimeEchoReload 1) s fun t =>
    t.clk.cycle % 1024 = 0 ∧ s.clk.cycle < t.clk.cycle ∧ t.clk.cycle ≤ s.clk.cycle + 1024
      ∧ t.clk.echo = s.clk.echo.map (fun _ => t.clk.stm)
      ∧ t.clk.stm * 6000000000 + t.clk.frac
          = s.clk.stm * 6000000000 + s.clk.frac + 5 * (t.clk.cycle - s.clk.cycle) * s.stmRate
      ∧ SameRegs s t [Reg.NETP_TX_FRAMES 0, Reg.NETP_TX_FRAMES 1] ∧ t.mem = s.mem ∧ (s.net.waiting = [] → t.regs = s.regs))

/-- Acceptance of records (R454, R456, R458): every record offered is accepted, in order, under the next sequence number;
in mode SPLIT a record that is accepted while the recorder is enabled lies in the slot that `slotOf` (slot_of of R456) gives,
with the bytes of Table 19.1, and no other byte of either memory changes; one accepted while it is disabled is numbered, not
stored, and counted in EVR_DROPPED.
Where a clause rests on a reading of the model, log entry 85 gives it. -/
def Obligations.RecordsAreNumberedAndStored : Prop :=
  (∀ s : State, s.evr.mode = 0 → Completes .recordAccept s fun t => t.evr.next = s.evr.next + s.evr.offered.length)
  ∧ (∀ (s : State) (r : Rec) (n : Nat), s.evr.offered = [r] → s.evr.mode = 0 → s.bit Reg.EVR_CTRL 0 = true →
    s.bit Reg.EVR_STATUS 30 = false → s.slotOf s.evr.next = some n → Completes .recordAccept s fun t =>
      t.evr.next = s.evr.next + 1
        ∧ t.bytes .basin (s.fld (Reg.BSN_PART_BASE 5) 10 0 * 65536 + 32 * n) 32 = r.bytes s.evr.next
        ∧ (∀ b, b < s.fld (Reg.BSN_PART_BASE 5) 10 0 * 65536 + 32 * n ∨ s.fld (Reg.BSN_PART_BASE 5) 10 0 * 65536 + 32 * n + 32 ≤ b →
          t.byte .basin b = s.byte .basin b) ∧ (∀ b, t.byte .dram b = s.byte .dram b))
  ∧ (∀ (s : State) (r : Rec), s.evr.offered = [r] → s.evr.mode = 0 → s.bit Reg.EVR_CTRL 0 = false →
    Completes .recordAccept s fun t =>
      t.evr.next = s.evr.next + 1 ∧ SameBytes s t
        ∧ t.reg Reg.EVR_DROPPED = min (s.reg Reg.EVR_DROPPED + 1) (2 ^ 32 - 1))

/-- Rearm, disable and acknowledge (R458, R459, R464): a rearm sets the base to the next number, takes EVR_CFG into force,
clears halted and stores the REARM record, with the old base and the records dropped, as record 0 of the new log; a clear of
enable stops storing and leaves base, oldest and numbers; a write of EVR_ACK keeps the value and arms the level bit, which
sets at once, with its record, where the distance from the next number has reached EVR_THRESH. -/
def Obligations.RearmDisableAndAcknowledge : Prop :=
  (∀ (s : State) (v : Nat), v.testBit 1 = true → v.testBit 0 = true → 0 < s.evrSlots →
    Completes (.rearm v) s fun t =>
      t.evr.base = s.evr.next ∧ t.evr.next = s.evr.next + 1 ∧ t.evr.mode = s.fld Reg.EVR_CFG 31 31
        ∧ t.evr.keepK = s.fld Reg.EVR_CFG 9 0 ∧ t.evr.droppedSince = 0
        ∧ t.bit Reg.EVR_CTRL 0 = true ∧ t.bit Reg.EVR_STATUS 30 = false ∧ t.bit Reg.EVR_STATUS 31 = true
        ∧ t.reg Reg.EVR_BASE_LO = s.evr.next % 2 ^ 32 ∧ t.reg Reg.EVR_NEXT_LO = (s.evr.next + 1) % 2 ^ 32
        ∧ t.bytes .basin (s.fld (Reg.BSN_PART_BASE 5) 10 0 * 65536) 32
          = (mkRec 0x0F01 [(32, s.evr.base % 2 ^ 32), (32, s.evr.droppedSince)] s.clk.stm).bytes s.evr.next)
  ∧ (∀ (s : State) (v : Nat), v.testBit 1 = false → v.testBit 0 = false → Completes (.evrDisable v) s fun t =>
    t.bit Reg.EVR_CTRL 0 = false ∧ t.bit Reg.EVR_STATUS 31 = false ∧ t.evr = s.evr ∧ SameBytes s t
      ∧ SameRegs s t [Reg.EVR_CTRL, Reg.EVR_STATUS])
  ∧ (∀ (s : State) (v : Nat), v < 2 ^ 32 → (s.evr.next + 2 ^ 32 - v) % 2 ^ 32 < s.fld Reg.EVR_THRESH 17 0 →
    Completes (.evrAckWrite v) s fun t =>
      t.reg Reg.EVR_ACK = v ∧ t.evr = { s.evr with levelArmed := true } ∧ SameRegs s t [Reg.EVR_ACK])
  ∧ (∀ (s : State) (v : Nat), v < 2 ^ 32 → s.fld Reg.EVR_THRESH 17 0 ≤ (s.evr.next + 2 ^ 32 - v) % 2 ^ 32 →
    Completes (.evrAckWrite v) s fun t =>
      t.reg Reg.EVR_ACK = v ∧ t.bit Reg.EVR_EVENT 0 = true ∧ t.evr.levelArmed = false
        ∧ t.evr.offered = s.evr.offered ++ [mkRec 0x0F04 [(32, s.evr.next % 2 ^ 32), (32, v)] s.clk.stm])

/-- Rate limits and secure records (R463, R488): at the end of an interval its count is recorded with the time of the first
event it covers and a new interval opens, or the interval closes when nothing was counted; a record that Koroft writes in RUN takes
the next secure number, its slot in SPLIT with K = 256 of 2,048, and shows in EVR_SEC_NEXT.
Where a clause rests on a reading of the model, log entry 85 gives it. -/
def Obligations.RateLimitsAndSecureRecords : Prop :=
  (∀ (s : State) (code unit : Nat) (r : RateIv), s.evr.rate.find? (fun r => r.code == code && r.unit == unit) = some r →
    0 < r.count → Completes (.rateLimitIntervalEnd code unit) s fun t =>
      t.evr.offered = s.evr.offered ++ [mkRec code (r.pre ++ [(32, r.count)] ++ r.post) r.time]
        ∧ (∃ q ∈ t.evr.rate, q.code = code ∧ q.unit = unit ∧ q.count = 0 ∧ q.ends = s.clk.stm + r.len)
        ∧ t.regs = s.regs ∧ t.mem = s.mem)
  ∧ (∀ (s : State) (code unit : Nat) (r : RateIv), s.evr.rate.find? (fun r => r.code == code && r.unit == unit) = some r →
    r.count = 0 → Completes (.rateLimitIntervalEnd code unit) s fun t =>
      t.evr.offered = s.evr.offered ∧ rateOpen code unit t.evr.rate = false ∧ t.regs = s.regs ∧ t.mem = s.mem)
  ∧ (∀ (s : State) (code d0 d1 d2 : Nat), s.koroftUp = true → code < 2 ^ 16 → d0 < 2 ^ 32 → d1 < 2 ^ 32 → d2 < 2 ^ 32 →
    Completes (.secureRecordWrite code d0 d1 d2) s fun t =>
      t.sec.secNext = s.sec.secNext + 1 ∧ t.reg Reg.EVR_SEC_NEXT = (s.sec.secNext + 1) % 2 ^ 32
        ∧ spGet (fun _ => []) t.sec.secSlots (if s.sec.secNext < 256 then s.sec.secNext else 256 + (s.sec.secNext - 256) % 1792)
          = [s.sec.secNext, code, s.clk.stm, d0, d1, d2]
        ∧ SameRegs s t [Reg.EVR_SEC_NEXT] ∧ t.mem = s.mem ∧ t.evr = s.evr)

/-- Checked accesses (R94–R98, R121, R156, R168–R171, R490; Tables 4.3, 4.5): a device access in RUN whose owner entry the check
unit holds, that the table permits and that meets no error, is carried out: a write outside the owner table leaves its bytes and no
other byte changed, a write of an entry's two bytes makes them the entry, a read returns the bytes; a refused one changes no byte, a
read of it returning zeros. A host write leaves through a function that may master, and a host read of a job is sent.
Where a clause rests on a reading of the model, log entries 11 and 23 give it. -/
def Obligations.MemoryAccessesUnderOwnerTable : Prop :=
  (∀ (s : State) (ms : Master) (p : Fin 64) (m : MemSel) (a : Nat) (data : List Byte) (len : Nat) (job : Option JobRef)
      (lay : Option (Fin 10 × Fin 16)), s.devState = 3 → s.gatedWrite true job = false →
    (s.unitOf m a, granNo m (a / 65536)) ∈ s.mem.ownerCache → (∀ h ∈ s.mem.ownerHeld, h.granule ≠ granNo m (a / 65536)) →
    (∀ h ∈ s.mem.ownerWait, h.unit ≠ s.unitOf m a) → s.mem.bad = [] → m = .dram ∨ 0x200C00 ≤ a →
    s.refusedIn ms (s.actorOf p.val job lay) true m a data.length = none →
    Completes (.memoryAccess ms p (some m) a true data len job .clean lay) s fun t =>
      t.bytes m a data.length = data ∧ (∀ n b, n ≠ m ∨ b < a ∨ a + data.length ≤ b → t.byte n b = s.byte n b)
        ∧ t.regs = s.regs ∧ t.out = s.out ∧ t.evr = s.evr ∧ t.mem.owner = s.mem.owner)
  ∧ (∀ (s : State) (ms : Master) (p : Fin 64) (a g : Nat) (b0 b1 : Byte) (len : Nat) (job : Option JobRef)
      (lay : Option (Fin 10 × Fin 16)), s.devState = 3 → s.gatedWrite true job = false → a % 2 = 0 → entryAt a = some g →
    (s.unitOf .basin a, granNo .basin (a / 65536)) ∈ s.mem.ownerCache → (∀ h ∈ s.mem.ownerHeld, h.granule ≠ granNo .basin (a / 65536)) →
    (∀ h ∈ s.mem.ownerWait, h.unit ≠ s.unitOf .basin a) → s.mem.bad = [] →
    s.refusedIn ms (s.actorOf p.val job lay) true .basin a 2 = none →
    Completes (.memoryAccess ms p (some .basin) a true [b0, b1] len job .clean lay) s fun t =>
      t.owner g % 65536 = b1.toNat * 256 + b0.toNat ∧ (∀ h, h ≠ g → t.owner h = s.owner h) ∧ SameBytes s t ∧ t.regs = s.regs)
  ∧ (∀ (s : State) (ms : Master) (p : Fin 64) (m : MemSel) (a len : Nat) (data : List Byte) (job : Option JobRef)
      (lay : Option (Fin 10 × Fin 16)), s.devState = 3 →
    (s.unitOf m a, granNo m (a / 65536)) ∈ s.mem.ownerCache → (∀ h ∈ s.mem.ownerHeld, h.granule ≠ granNo m (a / 65536)) →
    (∀ h ∈ s.mem.ownerWait, h.unit ≠ s.unitOf m a) → s.mem.bad = [] → m = .dram ∨ 0x200C00 ≤ a →
    s.refusedIn ms (s.actorOf p.val job lay) false m a len = none →
    Completes (.memoryAccess ms p (some m) a false data len job .clean lay) s fun t =>
      t.out = .memRead a (s.bytes m a len) false :: s.out ∧ SameBytes s t ∧ t.regs = s.regs ∧ t.evr = s.evr)
  ∧ (∀ (s : State) (ms : Master) (p : Fin 64) (m : MemSel) (a len g : Nat) (write : Bool) (data : List Byte)
      (lay : Option (Fin 10 × Fin 16)) (e : EccFind), s.devState = 3 →
    (s.unitOf m a, granNo m (a / 65536)) ∈ s.mem.ownerCache → (∀ h ∈ s.mem.ownerHeld, h.granule ≠ granNo m (a / 65536)) →
    (∀ h ∈ s.mem.ownerWait, h.unit ≠ s.unitOf m a) → ms ≠ .debug →
    s.refusedIn ms (s.actorOf p.val none lay) write m a (if write then data.length else len) = some g →
    Completes (.memoryAccess ms p (some m) a write data len none e lay) s fun t =>
      SameBytes s t ∧ t.regs = s.regs
        ∧ t.out = if write then s.out else .memRead a (List.replicate len 0) false :: s.out)
  ∧ (∀ (s : State) (ms : Master) (p : Fin 64) (a len : Nat) (data : List Byte) (job : Option JobRef)
      (lay : Option (Fin 10 × Fin 16)) (e : EccFind), s.mayMaster (s.actorOf p.val job lay) = true →
    (s.gatedWrite true job = false → Completes (.memoryAccess ms p none a true data len job e lay) s fun t =>
      t = { s with out := .hostWrite (s.actorOf p.val job lay) a data :: s.out })
    ∧ (∀ j, job = some j → Completes (.memoryAccess ms p none a false data len job e lay) s fun t =>
      t = s.hostRead j.ctx.val j.sq j.off a len))

/-- The owner check units and ECC upkeep (R99, R100, R169, R172): an access whose entry is not held waits for its fill, or at the unit
while 8 misses are outstanding; the fill brings the entry and carries the access out; Koroft's rewrite lifts the refusal of the
granules whose entries lie in the word it writes; a write-back removes its word from those due; the scrubber moves to the next line of each bank and toggles
BSN_STATUS [16] when it has passed over all of Basin.
Where a clause rests on a reading of the model, log entries 24, 46 and 90 give it. -/
def Obligations.OwnerUnitsAndScrubber : Prop :=
  (∀ (s : State) (ms : Master) (p : Fin 64) (m : MemSel) (a len u g : Nat) (write : Bool) (data : List Byte)
      (job : Option JobRef) (lay : Option (Fin 10 × Fin 16)) (e : EccFind), s.devState = 3 → ms ≠ .debug → u = s.unitOf m a →
    g = granNo m (a / 65536) → s.gatedWrite write job = false → (u, g) ∉ s.mem.ownerCache → (∀ h ∈ s.mem.ownerWait, h.unit ≠ u) →
    ((s.misses u).length < 8 → Completes (.memoryAccess ms p (some m) a write data len job e lay) s fun t =>
      t = { s with mem := { s.mem with ownerHeld := s.mem.ownerHeld
        ++ [⟨u, g, ms, s.actorOf p.val job lay, m, a, write, data, len, job, e⟩] } })
    ∧ (8 ≤ (s.misses u).length → g ∉ s.misses u → Completes (.memoryAccess ms p (some m) a write data len job e lay) s fun t =>
      t = { s with mem := { s.mem with ownerWait := s.mem.ownerWait
        ++ [⟨u, g, ms, s.actorOf p.val job lay, m, a, write, data, len, job, e⟩] } }))
  ∧ (∀ (s : State) (r : HeldReq) (u : Fin 12), s.mem.ownerHeld = [r] → s.mem.ownerWait = [] → r.unit = u.val → r.job = none →
    s.mem.ownerCache = [] → r.granule ∉ s.mem.ownerFailed → (MemSel.basin, ownerAt r.granule / 8) ∉ s.mem.bad →
    Completes (.ownerCacheMissFill u .clean) s fun t =>
      t = ({ s with mem := { s.mem with ownerHeld := [], ownerCache := [(u.val, r.granule)] } } : State).access r)
  ∧ (∀ (s : State) (r : HeldReq) (u : Fin 12), s.mem.ownerHeld = [r] → s.mem.ownerWait = [] → r.unit = u.val → r.job = none → r.write = false →
    Completes (.ownerCacheMissFill u .uncorrectable) s fun t =>
      r.granule ∈ t.mem.ownerFailed ∧ (MemSel.basin, ownerAt r.granule / 8) ∈ t.mem.bad ∧ t.mem.ownerHeld = [])
  ∧ (∀ (s : State) (g : Nat), Completes (.ownerEntryRewrite g) s fun t =>
    (∀ h, h ∈ t.mem.ownerFailed ↔ h ∈ s.mem.ownerFailed ∧ ownerAt h / 8 ≠ ownerAt g / 8)
      ∧ (MemSel.basin, ownerAt g / 8) ∉ t.mem.bad ∧ SameBytes s t ∧ t.regs = s.regs ∧ t.mem.owner = s.mem.owner)
  ∧ (∀ (s : State) (m : MemSel) (w : Nat), Completes (.eccWriteback m w) s fun t =>
    (m, w) ∉ t.mem.writeback ∧ SameBytes s t ∧ t.regs = s.regs ∧ t.mem.bad = s.mem.bad)
  ∧ (∀ s : State, Completes (.patrolScrub []) s fun t =>
    t.mem = { s.mem with scrub := (s.mem.scrub + 1) % 49152 } ∧ SameRegs s t [Reg.BSN_STATUS]
      ∧ t.bit Reg.BSN_STATUS 16 = (s.bit Reg.BSN_STATUS 16 ^^ decide (s.mem.scrub + 1 = 49152)))
  ∧ (∀ (s : State) (w : Nat), scrubIndex w = s.mem.scrub → w < 12582912 → s.mem.scrub + 1 < 49152 →
    Completes (.patrolScrub [(w, true)]) s fun t =>
      (MemSel.basin, w) ∈ t.mem.bad ∧ t.reg Reg.BSN_ECC_UNCORR = min (s.reg Reg.BSN_ECC_UNCORR + 1) (2 ^ 32 - 1)
        ∧ t.reg Reg.BSN_ECC_ADDR = 2 ^ 31 + 8 * w
        ∧ t.evr.offered = s.evr.offered ++ [mkRec 0x0502 [(8, 0), (32, 8 * w)] s.clk.stm])

/-- DRAM upkeep (R176, R181): in RUN the initialiser sweeps upward to the capacity and is done with MEM_STATUS [4] and a
DRAM_INIT_DONE record of the ms since RUN entry; a channel that is trained and out of self-refresh takes its refresh, its
MR4 rate field, its ZQ calibration and its WCK tracking.
Where a clause rests on a reading of the model, log entry 46 gives it. -/
def Obligations.DramUpkeep : Prop :=
  (∀ (s : State) (n : Nat), s.devState = 3 → Completes (.dramInitSweep n) s fun t =>
    t = { s with mem := { s.mem with swept := min (s.mem.swept + n) (s.fld Reg.MEM_CAPACITY 20 0) } })
  ∧ (∀ s : State, s.devState = 3 → s.bit Reg.MEM_STATUS 4 = false → Completes .dramInitDone s fun t =>
    t.bit Reg.MEM_STATUS 4 = true ∧ SameRegs s t [Reg.MEM_STATUS] ∧ SameBytes s t
      ∧ t.mem.swept = s.fld Reg.MEM_CAPACITY 20 0
      ∧ t.evr.offered = s.evr.offered ++ [mkRec 0x0505 [(32, (s.clk.stm - s.clk.runEntry) / 1000000)] s.clk.stm])
  ∧ (∀ (s : State) (c : Fin 8), s.bit (Reg.MEM_CH_STATUS c.val) 4 = true → s.bit (Reg.MEM_CH_STATUS c.val) 8 = false →
    s.held 3 = false → Completes (.dramRefresh c) s fun t => t = { s with out := .refresh c.val 0 :: s.out })
  ∧ (∀ (s : State) (rates : List Nat), (∀ c < 8, s.channelUp c = true) → Completes (.mr4Read rates) s fun t =>
    (∀ c < 8, t.fld (Reg.MEM_CH_STATUS c) 2 0 = rates.getD c 0 % 8)
      ∧ SameRegs s t ((List.range 8).map Reg.MEM_CH_STATUS) ∧ t.mem = s.mem ∧ t.out = s.out)
  ∧ (∀ s : State, (∀ c < 8, s.channelUp c = true) → s.held 3 = false →
    Completes .zqCalibration s (fun t => t = { s with out := ((List.range 8).map fun c => Emit.refresh c 1).reverse ++ s.out })
      ∧ Completes .wckTracking s (fun t =>
        t = { s with out := ((List.range 8).map fun c => Emit.refresh c 2).reverse ++ s.out }))

/-- The Basin aperture (R27, R189, R190; Table 7.8): the manager reads and writes a word of Basin at BSN_APT_BASE × 64 KiB plus the
offset, where its entry lets it; BSN_APT_BASE takes a value from 0x040 to 0x300, and any other write is dropped with a record;
ECC_CLEAR zeroes the counters and the last address of its memory. -/
def Obligations.ApertureAndEccRegisters : Prop :=
  (∀ (s : State) (o v : Nat), s.reaches s.manager = true → s.devState = 3 → o < 0x3000000 → o % 4 = 0 → s.mem.bad = [] →
    s.refusedIn .aperture s.manager true .basin (s.fld Reg.BSN_APT_BASE 10 0 * 65536 + o) 4 = none →
    Completes (.apertureAccess o true v .clean) s fun t =>
      t.bytes .basin (s.fld Reg.BSN_APT_BASE 10 0 * 65536 + o) 4 = leBytes 4 v
        ∧ (∀ b, b < s.fld Reg.BSN_APT_BASE 10 0 * 65536 + o ∨ s.fld Reg.BSN_APT_BASE 10 0 * 65536 + o + 4 ≤ b →
          t.byte .basin b = s.byte .basin b)
        ∧ (∀ b, t.byte .dram b = s.byte .dram b) ∧ t.regs = s.regs ∧ t.out = s.out)
  ∧ (∀ (s : State) (o : Nat), s.reaches s.manager = true → s.devState = 3 → o < 0x3000000 → o % 4 = 0 → s.mem.bad = [] →
    s.refusedIn .aperture s.manager false .basin (s.fld Reg.BSN_APT_BASE 10 0 * 65536 + o) 4 = none →
    Completes (.apertureAccess o false 0 .clean) s fun t =>
      t = s.emit (.regRead 1 s.manager (0x1000000 + o)
        (ofLeBytes (s.bytes .basin (s.fld Reg.BSN_APT_BASE 10 0 * 65536 + o) 4))))
  ∧ (∀ (s : State) (v : Nat), s.reaches s.manager = true → 0x40 ≤ v → v ≤ 0x300 → Completes (.bsnAptBaseWrite v) s fun t =>
    t.fld Reg.BSN_APT_BASE 10 0 = v ∧ SameRegs s t [Reg.BSN_APT_BASE] ∧ t.mem = s.mem ∧ t.evr = s.evr)
  ∧ (∀ (s : State) (v : Nat), s.reaches s.manager = true → v < 0x40 ∨ (0x300 < v ∧ v < 0x800) →
    Completes (.bsnAptBaseWrite v) s fun t =>
      t.regs = s.regs ∧ t.mem = s.mem ∧ t.evr.offered = s.evr.offered ++ [mkRec 0x0503 [(32, v)] s.clk.stm])
  ∧ (∀ (s : State) (v : Nat), s.reaches s.manager = true → v.testBit 0 = true →
    Completes (.eccClearWrite .basin v none) s (fun t =>
      t.reg Reg.BSN_ECC_CORR = 0 ∧ t.reg Reg.BSN_ECC_UNCORR = 0 ∧ t.reg Reg.BSN_ECC_ADDR = 0 ∧ t.mem = s.mem
        ∧ SameRegs s t [Reg.BSN_ECC_CORR, Reg.BSN_ECC_UNCORR, Reg.BSN_ECC_ADDR])
      ∧ Completes (.eccClearWrite .dram v none) s (fun t =>
        t.reg Reg.MEM_ECC_CORR = 0 ∧ t.reg Reg.MEM_ECC_UNCORR = 0 ∧ t.reg Reg.MEM_ECC_ADDR_LO = 0
          ∧ t.reg Reg.MEM_ECC_ADDR_HI = 0 ∧ t.mem = s.mem
          ∧ SameRegs s t [Reg.MEM_ECC_CORR, Reg.MEM_ECC_UNCORR, Reg.MEM_ECC_ADDR_LO, Reg.MEM_ECC_ADDR_HI]))

/-- Register writes and reads by access code (R5, R6, R7, R8, R11, R12; Table 0.4): an aligned 4-byte P-view write in RUN of a
register whose write does not act, and that changes no protected field, gives that register its new word: an RW bit takes the
value, a W1C bit clears where 1 is written unless hardware sets it in the same cycle, an RL bit takes the value while its block is
disabled, and every other bit stays; and it changes nothing else, except that the grants of C8 and C9 follow their timing head,
a TDM lock its port and an AES67 stream its enable. A read answers the register's value. An offset of no register reads zero and
discards its write, with the record BAD_ACCESS. An access that is not 4 aligned bytes is BAD_ACCESS:
recorded, dropped, and read as zero. A read of the _LO register of a read-only pair captures its _HI register, which the next
read of it through that view answers (R9; which registers are such pairs, log entry 47).
Where a clause rests on a reading of the model, log entries 7, 8, 56 and 96 give it. -/
def Obligations.RegisterAccessAndPairs : Prop :=
  (∀ (s : State) (o v hw hc : Nat) (w : RegRow), s.reaches s.manager = true → s.devState = 3 → o % 4 = 0 → o < 0x1000000 →
    s.viewRow .p o = some w → s.writeActs o v = none →
    v < 2 ^ 32 → (s.rlLocked o = true → (s.reg o ^^^ v) &&& w.rl = 0) → (s.reg o ^^^ v) &&& (w.img ||| protectedBits o) = 0 →
    Completes (.registerWrite .p o v 4 hw hc) s fun t =>
      t = (s.plainWrite w o v hw).afterWrite s o
        ∧ (arrIx (Reg.NET_AES_RX_CFG 0) 0x20 8 o = none → t.mem = s.mem ∧ ∀ i < 32,
          (w.takes (s.rlLocked o) i = true ∧ w.w1c.testBit i = false → t.bit o i = v.testBit i)
          ∧ (w.w1c.testBit i = true ∧ w.takes (s.rlLocked o) i = false →
            t.bit o i = ((s.bit o i && !v.testBit i) || (hw.testBit i && v.testBit i)))
          ∧ (w.takes (s.rlLocked o) i = false ∧ w.w1c.testBit i = false → t.bit o i = s.bit o i))
        ∧ (arrIx (Reg.NET_AES_RX_CFG 0) 0x20 8 o = none → arrIx (Reg.NET_AES_TX_CFG 0) 0x20 8 o = none → o ≠ Reg.CMP_CFG 8 →
          o ≠ Reg.CMP_CFG 9 → arrIx (Reg.AUD_TDM_CFG 0) 0x10 8 o = none → t = { s with regs := t.regs } ∧ SameRegs s t [o]))
  ∧ (∀ (s t : State) (o v hw hc : Nat) (w : RegRow), s.reaches s.manager = true → s.devState = 3 → o % 4 = 0 → o < 0x1000000 →
    s.viewRow .p o = some w → v < 2 ^ 32 → (s.rlLocked o = true → (s.reg o ^^^ v) &&& w.rl = 0) →
    (s.reg o ^^^ v) &&& (w.img ||| protectedBits o) = 0 →
    s.writeActs o v = some t → Completes (.registerWrite .p o v 4 hw hc) s fun u => u = t)
  ∧ (∀ (s : State) (o v hw hc : Nat), s.reaches s.manager = true → s.devState = 3 → o % 4 = 0 → o < 0x1000000 →
    ¬(0x28000 ≤ o ∧ o < 0x2A000) → rowAt o = none →
    Completes (.registerWrite .p o v 4 hw hc) s (fun t =>
      t.regs = s.regs ∧ t.mem = s.mem
        ∧ t.evr.offered = s.evr.offered ++ [mkRec 0x0001 [(8, 1), (8, s.manager), (32, o)] s.clk.stm])
      ∧ Completes (.registerRead .p o 4) s (fun t =>
        t.regs = s.regs ∧ t.out = .regRead 1 s.manager o 0 :: s.out
          ∧ t.evr.offered = s.evr.offered ++ [mkRec 0x0001 [(8, 1), (8, s.manager), (32, o)] s.clk.stm]))
  ∧ (∀ (s : State) (o : Nat), s.reaches s.manager = true → s.devState = 3 → o % 4 = 0 → o < 0x1000000 →
    ¬(0x28000 ≤ o ∧ o < 0x2A000) → s.capturedHi 64 o = none → (rowAt o).isSome = true → (rowAt o).any (·.pair) = false →
    Completes (.registerRead .p o 4) s fun t => t = { s with out := .regRead 1 s.manager o (s.viewValue .p o) :: s.out })
  ∧ (∀ (s : State) (o v size hw hc : Nat), s.reaches s.manager = true → o < 0x4000000 → size ≠ 4 ∨ o % 4 ≠ 0 →
    Completes (.registerWrite .p o v size hw hc) s (fun t =>
      t.regs = s.regs ∧ t.mem = s.mem
        ∧ t.evr.offered = s.evr.offered ++ [mkRec 0x0001 [(8, 1), (8, s.manager), (32, o)] s.clk.stm])
      ∧ Completes (.registerRead .p o size) s (fun t =>
        t.regs = s.regs ∧ t.out = .regRead 1 s.manager o 0 :: s.out
          ∧ t.evr.offered = s.evr.offered ++ [mkRec 0x0001 [(8, 1), (8, s.manager), (32, o)] s.clk.stm]))
  ∧ (∀ (s : State) (o : Nat), s.reaches s.manager = true → s.devState = 3 → o % 4 = 0 → o < 0x1000000 →
    ¬(0x28000 ≤ o ∧ o < 0x2A000) → s.capturedHi 64 o = none → (rowAt o).any (·.pair) = true →
    Completes (.registerRead .p o 4) s fun t =>
      t.capturedHi 64 (o + 4) = some (s.viewValue .p (o + 4))
        ∧ t.out = .regRead 1 s.manager o (s.viewValue .p o) :: s.out ∧ t.regs = s.regs ∧ t.evr = s.evr)
  ∧ (∀ (s : State) (o x : Nat), s.reaches s.manager = true → s.devState = 3 → o % 4 = 0 → o < 0x1000000 →
    ¬(0x28000 ≤ o ∧ o < 0x2A000) → (rowAt o).isSome = true → s.capturedHi 64 o = some x →
    Completes (.registerRead .p o 4) s fun t =>
      t.out = .regRead 1 s.manager o x :: s.out ∧ t.capturedHi 64 o = none ∧ t.regs = s.regs)

/-- R14: an access through the U view to a resource not granted to that paddock reads zero, or is discarded as a write, and the
record NOT_GRANTED names the paddock and the offset. -/
def Obligations.UngrantedAccessReadsZeroAndIsRecorded : Prop :=
  ∀ (s : State) (p : Fin 64) (o v hw hc : Nat), s.reaches p.val = true → o % 4 = 0 → o < 0x10000 → s.granted p.val o = false →
    Completes (.registerWrite (.u p) o v 4 hw hc) s (fun t =>
      t.regs = s.regs ∧ t.mem = s.mem
        ∧ t.evr.offered = s.evr.offered ++ [mkRec 0x0002 [(8, p.val), (32, o)] s.clk.stm])
      ∧ Completes (.registerRead (.u p) o 4) s (fun t =>
        t.regs = s.regs ∧ t.out = .regRead 0 p.val o 0 :: s.out
          ∧ t.evr.offered = s.evr.offered ++ [mkRec 0x0002 [(8, p.val), (32, o)] s.clk.stm])

/-- Configuration requests (R30, R113, R114, R118, R119, R122): before the device leaves LOAD a request is answered with CRS; a
function that answers reads as Table 5.1 and R119 say, and takes its MSI-X Enable, its function mask, its power state, its
completion timeout, its BARs by their sizes and, on the PF alone, what only the PF holds; the PF's NumVFs bring its VFs into
existence up to hp_vfs; a function that does not answer changes nothing.
Where a clause rests on a reading of the model, log entries 56 and 96 give it. -/
def Obligations.ConfigurationRequests : Prop :=
  (∀ (s : State) (n : Fin 4) (f : Fin 16) (op : CfgOp), s.devState = 1 ∨ s.devState = 2 → Completes (.configRequest n f op) s fun t =>
    t = { s with out := .crs n.val f.val :: s.out })
  ∧ (∀ (s : State) (n : Fin 4) (f : Fin 16) (op : CfgOp), s.devState = 3 → s.reaches (16 * n.val + f.val) = false →
    Completes (.configRequest n f op) s fun t => t = s)
  ∧ (∀ (s : State) (n : Fin 4) (f : Fin 16) (x : CfgField), s.reaches (16 * n.val + f.val) = true →
    Completes (.configRequest n f (.read x)) s fun t =>
      t = { s with out := .cfgReply n.val f.val (s.cfgField n.val f.val x) :: s.out })
  ∧ (∀ (s : State) (n f : Nat), s.cfgField n f .deviceId = (if f = 0 then 0x0801 else 0x0802)
    ∧ s.cfgField n f .classCode = 0x038000 ∧ s.cfgField n f .maxPayload = 512 ∧ s.cfgField n f .msixVectors = 32
    ∧ s.cfgField n f .firstVfOffset = b2n (f == 0) ∧ s.cfgField n f .vfStride = b2n (f == 0)
    ∧ s.cfgField n f (.capability .msix) = 1 ∧ s.cfgField n f (.capability .flr) = 1 ∧ s.cfgField n f (.capability .msi) = 0
    ∧ s.cfgField n f (.capability .srIov) = b2n (f == 0)
    ∧ s.cfgField n f .msixEnable = b2n (s.bit (Reg.PDK_STATE (16 * n + f)) 6)
    ∧ s.cfgField n f .busMaster = b2n (s.bit (Reg.PDK_STATE (16 * n + f)) 5))
  ∧ (∀ (s : State) (n : Fin 4) (f : Fin 16), s.reaches (16 * n.val + f.val) = true →
    Completes (.configRequest n f .setFunctionMask) s (fun t => (t.fn (16 * n.val + f.val)).fnMask = true ∧ t.regs = s.regs)
      ∧ Completes (.configRequest n f (.setMsixEnable false)) s (fun t =>
        t.bit (Reg.PDK_STATE (16 * n.val + f.val)) 6 = false ∧ SameRegs s t [Reg.PDK_STATE (16 * n.val + f.val)])
      ∧ Completes (.configRequest n f (.setMsixEnable true)) s (fun t =>
        t.bit (Reg.PDK_STATE (16 * n.val + f.val)) 6 = true
          ∧ SameRegs s t [Reg.PDK_STATE (16 * n.val + f.val), Reg.MSIX_PBA (16 * n.val + f.val)] ∧ t.mem = s.mem)
      ∧ (∀ v, n.val < s.hp.ports.length → Completes (.configRequest n f (.setCompletionTimeout v)) s fun t =>
        (t.hp.ports.getD n.val {}).ctoValue = v % 16 ∧ t.regs = s.regs)
      ∧ (∀ d, Completes (.configRequest n f (.setPowerState d)) s fun t =>
        (t.fn (16 * n.val + f.val)).d3hot = (if f.val = 0 then d else (s.fn (16 * n.val + f.val)).d3hot) ∧ t.regs = s.regs)
      ∧ (∀ v, Completes (.configRequest n f (.setBar 0 v)) s fun t =>
        (t.fn (16 * n.val + f.val)).bar0 = (if f.val = 0 then v / 2 ^ 16 * 2 ^ 16 else (s.fn (16 * n.val + f.val)).bar0)
          ∧ t.regs = s.regs)
      ∧ (∀ v, Completes (.configRequest n f (.setBar 2 v)) s fun t =>
        (t.fn (16 * n.val + f.val)).bar2 = (if f.val = 0 ∧ 16 * n.val = s.manager then v / 2 ^ 26 * 2 ^ 26
            else (s.fn (16 * n.val + f.val)).bar2)
          ∧ t.regs = s.regs)
      ∧ (∀ v, n.val < s.hp.ports.length → Completes (.configRequest n f (.setVfBar0 v)) s fun t =>
        (t.hp.ports.getD n.val {}).vfBar0 = (if f.val = 0 then v / 2 ^ 16 * 2 ^ 16 else (s.hp.ports.getD n.val {}).vfBar0)
          ∧ t.regs = s.regs)
      ∧ (∀ g c, n.val < s.hp.ports.length → f.val = 0 → Completes (.configRequest n f (.setEcrc g c)) s fun t =>
        (t.hp.ports.getD n.val {}).ecrcGen = g ∧ (t.hp.ports.getD n.val {}).ecrcChk = c ∧ t.regs = s.regs)
      ∧ (∀ u c i, n.val < s.hp.ports.length → f.val = 0 → Completes (.configRequest n f (.clearAer u c)) s fun t =>
        (t.hp.ports.getD n.val {}).aerUnc.testBit i = ((s.hp.ports.getD n.val {}).aerUnc.testBit i && !u.testBit i)
          ∧ t.regs = s.regs))
  ∧ (∀ (s : State) (n : Fin 4) (k : Nat), s.reaches (16 * n.val) = true →
    Completes (.configRequest n 0 (.setVfEnable k)) s fun t =>
      ∀ i, 1 ≤ i → i < 16 → t.present (16 * n.val + i) = (decide (i ≤ k) && decide (i ≤ s.boot.hpVfs.getD n.val 0)))

/-- A port is declared down (R115, R117; Table 5.2): on loss of the link, a timeout or a malformed TLP its error bits and count
are kept, HP_n_LINK shows it down, its reads are orphaned and its ACTIVE paddocks quiesce with cause LINK_DOWN; a poisoned write to a
BAR is discarded, with its error bit and record.
Where a clause rests on a reading of the model, log entries 56 and 96 give it. -/
def Obligations.PortErrorsAndDown : Prop :=
  (∀ (s : State) (n : Fin 4) (c : DownCause), s.portLives n.val = true → s.portDown n.val = false → n.val < s.hp.ports.length →
    Completes (.portDown n c) s fun t =>
      t.portDown n.val = true ∧ t.bit (Reg.HP_ERR n.val) 0 = true ∧ t.bit (Reg.HP_LINK n.val) 15 = false
        ∧ t.reg (Reg.HP_DOWN_COUNT n.val) % 65536 = min (s.reg (Reg.HP_DOWN_COUNT n.val) % 65536 + 1) 65535
        ∧ (∀ k < 16, s.pdkState (16 * n.val + k) = 2 → t.pdkState (16 * n.val + k) = 3 ∧ t.fld (Reg.PDK_STATE (16 * n.val + k)) 15 8 = 6)
        ∧ (∀ k < 16, s.pdkState (16 * n.val + k) ≠ 2 → t.reg (Reg.PDK_STATE (16 * n.val + k)) = s.reg (Reg.PDK_STATE (16 * n.val + k)))
        ∧ (∀ r ∈ (t.hp.ports.getD n.val {}).reads, r.orphaned = true) ∧ t.mem = s.mem)
  ∧ (∀ (s : State) (n : Fin 4) (c : DownCause), s.portLives n.val = false → Completes (.portDown n c) s fun t => t = s)
  ∧ (∀ (s : State) (n : Fin 4), s.portLives n.val = true → s.portDown n.val = false → n.val < s.hp.ports.length →
    Completes (.malformedTlp n) s fun t =>
      t.portDown n.val = true ∧ t.bit (Reg.HP_ERR n.val) 0 = true ∧ t.bit (Reg.HP_ERR n.val) 5 = true ∧ t.mem = s.mem)
  ∧ (∀ (s : State) (n : Fin 4) (tag : Nat), s.portDown n.val = false → n.val < s.hp.ports.length → s.hp.readWaits = [] →
    (∃ r ∈ (s.hp.ports.getD n.val {}).reads, r.tag = tag) → Completes (.completionTimeout n tag) s fun t =>
      t.portDown n.val = true ∧ t.bit (Reg.HP_ERR n.val) 4 = true
        ∧ (∀ r ∈ (t.hp.ports.getD n.val {}).reads, r.tag ≠ tag ∧ r.orphaned = true))
  ∧ (∀ (s : State) (n : Fin 4) (ecrc : Bool), s.portDown n.val = false → ecrc = false ∨ (s.hp.ports.getD n.val {}).ecrcChk = true →
    Completes (.poisonedBarWrite n ecrc) s fun t =>
      t.bit (Reg.HP_ERR n.val) 2 = true ∧ SameRegs s t [Reg.HP_ERR n.val] ∧ t.mem = s.mem
        ∧ t.evr.offered = s.evr.offered ++ [mkRec 0x0103 [(8, n.val), (8, 4)] s.clk.stm])

/-- Host reads and messages (R117, R123, R143, R157): a completion's data goes to its job and frees its tag, for which a read that
waits for a credit leaves; an orphaned read's data is discarded; a poisoned one, or one that a completer refuses, sets its error bit
and ends its job with a fault; a raised message leaves through a function that may master, with the address and data of its vector; a
vector that is unmasked with its PBA bit set and its cause still pending has its message due.
Where a clause rests on a reading of the model, log entries 17, 56 and 96 give it. -/
def Obligations.CompletionsAndMessages : Prop :=
  (∀ (s : State) (n : Fin 4) (tag : Nat) (bs : List Byte) (r : HostRead),
    (s.hp.ports.getD n.val {}).reads.find? (fun r => r.tag == tag) = some r → n.val < s.hp.ports.length → r.orphaned = false →
    s.hp.readWaits = [] → Completes (.hostCompletionReceived n tag (.data bs)) s fun t =>
      (∀ x ∈ (t.hp.ports.getD n.val {}).reads, x.tag ≠ tag) ∧ t.regs = s.regs ∧ t.mem = s.mem
        ∧ ∀ j, s.job r.ctx r.sq = some j → t.job r.ctx r.sq = some { j with data := j.data ++ bs })
  ∧ (∀ (s : State) (n : Fin 4) (tag : Nat) (bs : List Byte) (r : HostRead) (w : ReadWait),
    (s.hp.ports.getD n.val {}).reads.find? (fun r => r.tag == tag) = some r → n.val < s.hp.ports.length → tag < 256 →
    s.hp.readWaits = [w] → w.ctx = r.ctx → portOf (s.ctxPaddock w.ctx) = n.val → s.mayMaster (s.ctxPaddock w.ctx) = true →
    ((s.hp.ports.getD n.val {}).reads.filter fun r => r.ctx == w.ctx).length ≤ 64 →
    Completes (.hostCompletionReceived n tag (.data bs)) s fun t =>
      t.hp.readWaits = [] ∧ (∃ u, ⟨u, w.ctx, w.sq, w.off, false⟩ ∈ (t.hp.ports.getD n.val {}).reads) ∧ t.regs = s.regs ∧ t.mem = s.mem)
  ∧ (∀ (s : State) (n : Fin 4) (tag : Nat) (bs : List Byte) (r : HostRead),
    (s.hp.ports.getD n.val {}).reads.find? (fun r => r.tag == tag) = some r → n.val < s.hp.ports.length → r.orphaned = true →
    s.hp.readWaits = [] → Completes (.hostCompletionReceived n tag (.data bs)) s (fun t =>
      (∀ x ∈ (t.hp.ports.getD n.val {}).reads, x.tag ≠ tag) ∧ t.regs = s.regs ∧ t.mem = s.mem ∧ t.ctxs = s.ctxs)
    ∧ Completes (.hostCompletionReceived n tag .poisoned) s (fun t =>
      (∀ x ∈ (t.hp.ports.getD n.val {}).reads, x.tag ≠ tag) ∧ t.bit (Reg.HP_ERR n.val) 2 = true ∧ SameRegs s t [Reg.HP_ERR n.val]
        ∧ t.mem = s.mem ∧ t.ctxs = s.ctxs ∧ t.evr.offered = s.evr.offered ++ [mkRec 0x0103 [(8, n.val), (8, 4)] s.clk.stm])
    ∧ Completes (.hostCompletionReceived n tag .urCa) s (fun t =>
      (∀ x ∈ (t.hp.ports.getD n.val {}).reads, x.tag ≠ tag) ∧ t.bit (Reg.HP_ERR n.val) 1 = true ∧ SameRegs s t [Reg.HP_ERR n.val]
        ∧ t.mem = s.mem ∧ t.ctxs = s.ctxs ∧ t.evr.offered = s.evr.offered ++ [mkRec 0x0103 [(8, n.val), (8, 2)] s.clk.stm]))
  ∧ (∀ (s : State) (n : Fin 4) (tag : Nat) (r : HostRead),
    (s.hp.ports.getD n.val {}).reads.find? (fun r => r.tag == tag) = some r → r.orphaned = false →
    Completes (.hostCompletionReceived n tag .urCa) s fun t =>
      let u := ((s.modPort n.val fun q => { q with reads := q.reads.filter fun x => x.tag != tag }).urTlp n.val).faultJob r.ctx r.sq
        0x20 (hostDetail r.off) 0
      t = u.drainReads u.hp.readWaits)
  ∧ (∀ (s : State) (p : Fin 64) (v : Fin 32), (p.val, v.val) ∈ s.hp.msix → s.evr.offered = [] → s.portDown (portOf p.val) = false →
    s.unmasked p.val v.val = true → s.mayMaster p.val = true → Completes (.msixSend p v) s fun t =>
      t = { s with
        hp := { s.hp with msix := s.hp.msix.erase (p.val, v.val) }
        out := Emit.msix p.val v.val (s.reg64 (Reg.MSIX_TABLE p.val (4 * v.val)) (Reg.MSIX_TABLE p.val (4 * v.val + 1)))
          (s.reg (Reg.MSIX_TABLE p.val (4 * v.val + 2))) :: s.out })
  ∧ (∀ (s : State) (p : Fin 64) (v : Fin 32), s.reaches p.val = true → s.bit (Reg.PDK_STATE p.val) 6 = true →
    (s.fn p.val).fnMask = false → Completes (.msixUnmask p (some v)) s fun t =>
      t.bit (Reg.MSIX_TABLE p.val (4 * v.val + 3)) 0 = false ∧ t.bit (Reg.MSIX_PBA p.val) v.val = false
        ∧ (s.bit (Reg.MSIX_PBA p.val) v.val = true → 2 ≤ v.val → v.val < 24 → t.hp.msix = s.hp.msix ++ [(p.val, v.val)]))
  ∧ (∀ (s : State) (p : Fin 64), s.reaches p.val = true → s.bit (Reg.PDK_STATE p.val) 6 = true →
    Completes (.msixUnmask p none) s fun t =>
      (t.fn p.val).fnMask = false ∧ t.mem = s.mem
        ∧ ∀ v < 32, s.bit (Reg.MSIX_TABLE p.val (4 * v + 3)) 0 = false → t.bit (Reg.MSIX_PBA p.val) v = false)

/-- Links and functions (R116, R118, R124, R126): a port whose link trains again is up, its functions from reset and its VFs gone; an
FLR puts the contexts of a paddock that are IDLE, REINED or FAULTED to IDLE with their rings unset, and an ACTIVE paddock of another
function than the manager's into QUIESCING with cause FLR, its function answering again once nothing of it reins; clearing VF Enable
ends every VF; with Bus Master Enable set again the manager paddock that its port quiesced is ACTIVE.
Where a clause rests on a reading of the model, log entry 56 gives it. -/
def Obligations.LinksAndFunctionResets : Prop :=
  (∀ (s : State) (n : Fin 4) (g w l : Nat), g < 8 → w < 8 → l < 32 → s.portDown n.val = false → Completes (.linkRetrain n g w l) s fun t =>
    t.reg (Reg.HP_LINK n.val) = 2 ^ 15 + l * 256 + w * 16 + g ∧ SameRegs s t [Reg.HP_LINK n.val] ∧ t.mem = s.mem
      ∧ (t.hp.ports.getD n.val {}).wakeLow = false
      ∧ ((s.hp.ports.getD n.val {}).wakeLow = false → t.hp = s.hp ∧ t.out = s.out)
      ∧ ((s.hp.ports.getD n.val {}).wakeLow = true → s.held 0 = false →
        t.out = .pin ("HP" ++ toString n.val ++ "_WAKEn") 1 :: s.out))
  ∧ (∀ (s : State) (n : Fin 4) (g w l : Nat), s.portDown n.val = true → n.val < s.hp.ports.length → Completes (.linkRetrain n g w l) s fun t =>
    t.portDown n.val = false ∧ (∀ k, 1 ≤ k → k < 16 → t.present (16 * n.val + k) = false)
      ∧ (∀ k < 16, t.bit (Reg.PDK_STATE (16 * n.val + k)) 5 = false
        ∧ t.fn (16 * n.val + k) = { resetting := t.stillResets (16 * n.val + k) }) ∧ t.mem = s.mem)
  ∧ (∀ (s : State) (p : Fin 64), s.reaches p.val = true → Completes (.flr p) s fun t =>
    t.fn p.val = { resetting := t.stillResets p.val } ∧ t.bit (Reg.PDK_STATE p.val) 5 = false
      ∧ (p.val ≠ s.manager → s.pdkState p.val = 2 → t.pdkState p.val = 3 ∧ t.fld (Reg.PDK_STATE p.val) 15 8 = 3)
      ∧ (p.val = s.manager → t.pdkState p.val = s.pdkState p.val)
      ∧ (∀ c ∈ s.ctxsOf' p.val, s.ctxState c = 0 ∨ s.ctxState c = 4 ∨ s.ctxState c = 5 → t.ctxState c = 0 ∧ t.ctx c = {})
      ∧ (∀ c ∈ s.ctxsOf' p.val, s.ctxState c = 1 ∨ s.ctxState c = 2 → t.ctxState c = 3 ∧ (t.ctx c).idleAfter = true))
  ∧ (∀ (s : State) (n : Fin 4), s.reaches (16 * n.val) = true → Completes (.vfEnableClear n) s fun t =>
    (∀ k, 1 ≤ k → k < 16 → t.present (16 * n.val + k) = false) ∧ t.mem = s.mem)
  ∧ (∀ (s : State) (p : Fin 64), s.reaches p.val = true → Completes (.busMasterEnableSet p) s fun t =>
    t.bit (Reg.PDK_STATE p.val) 5 = true
      ∧ t.pdkState p.val = (if p.val = s.manager ∧ s.pdkState p.val = 4 then 2 else s.pdkState p.val))

/-- R125, R126: clearing Bus Master Enable of an ACTIVE non-manager paddock puts it into QUIESCING with cause BME_CLEAR (4); on a
paddock in any other state it changes neither its state nor its last quiesce cause; the manager paddock stays as it is while its
contexts rein. -/
def Obligations.BusMasterEnableClear : Prop :=
  (∀ (s : State) (p : Fin 64), s.reaches p.val = true → s.bit (Reg.PDK_STATE p.val) 5 = true → p.val ≠ s.manager →
    Completes (.bmeClear p) s fun t =>
      t.bit (Reg.PDK_STATE p.val) 5 = false
        ∧ (s.pdkState p.val = 2 → t.pdkState p.val = 3 ∧ t.fld (Reg.PDK_STATE p.val) 15 8 = 4)
        ∧ (s.pdkState p.val ≠ 2 →
          t.pdkState p.val = s.pdkState p.val ∧ t.fld (Reg.PDK_STATE p.val) 15 8 = s.fld (Reg.PDK_STATE p.val) 15 8))
  ∧ (∀ (s : State) (p : Fin 64), s.reaches p.val = true → s.bit (Reg.PDK_STATE p.val) 5 = true → p.val = s.manager →
    Completes (.bmeClear p) s fun t =>
      t.bit (Reg.PDK_STATE p.val) 5 = false ∧ t.pdkState p.val = s.pdkState p.val
        ∧ ∀ c ∈ s.ctxsOf' p.val, s.ctxState c ≤ 2 → t.ctxState c = 3)

/-- Paddock state commands (R127, R134; Tables 5.4, 5.6): a command that is not refused sets busy and moves the paddock: ACTIVATE and
RESUME to ACTIVE, ASSIGN to ASSIGNED, QUIESCE of an ACTIVE one to QUIESCING and of an ASSIGNED one to QUIESCED; a move is recorded
and sets state_change for the paddock, and no other paddock's state changes; QUIESCE of one that quiesces or has quiesced moves
nothing. A QUIESCING paddock of which no context runs or reins is QUIESCED, and the manager's then ACTIVE where its function may
master (R116).
Where a clause rests on a reading of the model, log entry 54 gives it. -/
def Obligations.PaddockStateCommands : Prop :=
  (∀ (s : State) (p : Fin 64), s.devState = 3 → s.bit Reg.PDK_CMD_STATUS 0 = false → fnCarried s.boot.hpWidth s.boot.hpVfs p.val = true →
    s.present p.val = true → s.bit (Reg.PDK_STATE p.val) 5 = true →
    (s.pdkState p.val = 1 → Completes (.activate p) s fun t =>
      t.pdkState p.val = 2 ∧ t.bit Reg.PDK_CMD_STATUS 0 = true ∧ t.bit (Reg.PDK_U_CAUSE p.val) 0 = true
        ∧ t.evr.offered = s.evr.offered ++ [mkRec 0x0101 [(8, p.val), (8, 1), (8, 2), (8, s.fld (Reg.PDK_STATE p.val) 15 8)] s.clk.stm]
        ∧ (∀ q < 64, q ≠ p.val → t.pdkState q = s.pdkState q) ∧ t.mem = s.mem)
    ∧ (s.pdkState p.val = 4 → Completes (.resume p) s fun t =>
      t.pdkState p.val = 2 ∧ t.bit Reg.PDK_CMD_STATUS 0 = true ∧ t.bit (Reg.PDK_U_CAUSE p.val) 0 = true
        ∧ (∀ q < 64, q ≠ p.val → t.pdkState q = s.pdkState q) ∧ t.mem = s.mem))
  ∧ (∀ (s : State) (p : Fin 64), s.devState = 3 → s.bit Reg.PDK_CMD_STATUS 0 = false → fnCarried s.boot.hpWidth s.boot.hpVfs p.val = true →
    s.pdkState p.val = 0 → Completes (.assign p) s fun t =>
      t.pdkState p.val = 1 ∧ t.bit Reg.PDK_CMD_STATUS 0 = true ∧ (∀ q < 64, q ≠ p.val → t.pdkState q = s.pdkState q))
  ∧ (∀ (s : State) (p : Fin 64), s.devState = 3 → s.bit Reg.PDK_CMD_STATUS 0 = false → fnCarried s.boot.hpWidth s.boot.hpVfs p.val = true →
    p.val ≠ s.manager → s.pdkState p.val = 1 ∨ s.pdkState p.val = 2 → Completes (.quiesce p) s fun t =>
      t.pdkState p.val = (if s.pdkState p.val = 1 then 4 else 3) ∧ t.fld (Reg.PDK_STATE p.val) 15 8 = 1
        ∧ t.bit Reg.PDK_CMD_STATUS 0 = true ∧ (∀ q < 64, q ≠ p.val → t.pdkState q = s.pdkState q)
        ∧ (s.pdkState p.val = 2 → ∀ c ∈ s.ctxsOf' p.val, s.ctxState c = 1 ∨ s.ctxState c = 2 → t.ctxState c = 3))
  ∧ (∀ (s : State) (p : Fin 64), s.devState = 3 → s.bit Reg.PDK_CMD_STATUS 0 = false → fnCarried s.boot.hpWidth s.boot.hpVfs p.val = true →
    p.val ≠ s.manager → s.pdkState p.val = 3 ∨ s.pdkState p.val = 4 → Completes (.quiesce p) s fun t =>
      t.bit Reg.PDK_CMD_STATUS 0 = true ∧ (∀ q < 64, t.reg (Reg.PDK_STATE q) = s.reg (Reg.PDK_STATE q)) ∧ t.ctxs = s.ctxs)
  ∧ (∀ (s : State) (p : Fin 64), s.pdkState p.val = 3 → (∀ c ∈ s.ctxsOf' p.val, s.ctxState c = 0 ∨ s.ctxState c = 4 ∨ s.ctxState c = 5) →
    Completes (.paddockQuiesced p) s fun t =>
      t.pdkState p.val = (if p.val = s.manager ∧ t.mayMaster p.val = true then 2 else 4)
        ∧ ((s.fn p.val).resetting = false → t.bit (Reg.PDK_U_CAUSE p.val) 0 = true)
        ∧ ((s.fn p.val).resetting = true → t.fn p.val = {} ∧ t.bit (Reg.PDK_STATE p.val) 5 = false)
        ∧ (∀ q < 64, q ≠ p.val → t.pdkState q = s.pdkState q))
  ∧ (∀ (s : State) (p : Fin 64), s.pdkState p.val ≠ 3 ∨ (∃ c ∈ s.ctxsOf' p.val, s.ctxState c = 1 ∨ s.ctxState c = 2 ∨ s.ctxState c = 3) →
    Completes (.paddockQuiesced p) s fun t => t = s)

/-- Grants and context assignment (R131, R132, R134, R135; Tables 5.5, 5.6, 5.7, 6.16): a GRANT or REVOKE that is not refused changes
who holds the resource, a layer only at its frame; ASSIGN_CTX gives the context to the paddock's slot and UNASSIGN_CTX frees it, IDLE; a
paddock command that is refused for reason r sets refused with r and its record, and changes no paddock and no memory; one written while
busy is refused with BUSY and does not disturb the running command.
Where a clause rests on a reading of the model, log entry 54 gives it. -/
def Obligations.PaddockGrantsAndContexts : Prop :=
  (∀ (s : State) (p : Fin 64) (kind : Fin 16) (i : Nat), s.devState = 3 → s.bit Reg.PDK_CMD_STATUS 0 = false → i < 4096 →
    s.pdkReason 8 kind.val p.val i = 0 → Completes (.grant p kind i) s fun t =>
      t.bit Reg.PDK_CMD_STATUS 0 = true ∧ t.mem = s.mem
        ∧ (s.holds p.val kind.val i = true → t.holds p.val kind.val i = true ∧ t.hp.layerChanges = s.hp.layerChanges)
        ∧ (s.holds p.val kind.val i = false → kind.val ≠ 0 → t.holds p.val kind.val i = true)
        ∧ (s.holds p.val kind.val i = false → kind.val = 0 →
          t.hp.layerChanges = s.hp.layerChanges ++ [⟨i / 16, i % 16, p.val, true, false, false⟩] ∧ t.holds p.val 0 i = false))
  ∧ (∀ (s : State) (p : Fin 64) (kind : Fin 16) (i : Nat), s.devState = 3 → s.bit Reg.PDK_CMD_STATUS 0 = false → i < 4096 →
    s.pdkReason 9 kind.val p.val i = 0 → Completes (.revoke p kind i) s fun t =>
      t.bit Reg.PDK_CMD_STATUS 0 = true ∧ t.mem = s.mem
        ∧ (kind.val ≠ 0 → t.holds p.val kind.val i = false)
        ∧ (kind.val = 0 → t.hp.layerChanges = s.hp.layerChanges ++ [⟨i / 16, i % 16, p.val, false, false, false⟩]))
  ∧ (∀ (s : State) (p : Fin 64) (a : Nat), s.devState = 3 → s.bit Reg.PDK_CMD_STATUS 0 = false → s.pdkReason 6 0 p.val a = 0 →
    Completes (.assignCtx p a) s fun t =>
      t.reg (Reg.CQ_CTX_OWNER (bitsOf a 9 0)) = 2 ^ 16 + bitsOf a 23 16 * 256 + p.val ∧ t.ctxState (bitsOf a 9 0) = 0
        ∧ t.ctx (bitsOf a 9 0) = {} ∧ t.fld (Reg.PDK_STATE p.val) 26 16 = (t.ctxsOf' p.val).length ∧ t.mem = s.mem)
  ∧ (∀ (s : State) (p : Fin 64) (a : Nat), s.devState = 3 → s.bit Reg.PDK_CMD_STATUS 0 = false → s.pdkReason 7 0 p.val a = 0 →
    Completes (.unassignCtx p a) s fun t =>
      t.ctxAssigned (bitsOf a 9 0) = false ∧ t.ctxState (bitsOf a 9 0) = 0 ∧ t.ctx (bitsOf a 9 0) = {}
        ∧ t.fld (Reg.PDK_STATE p.val) 26 16 = (t.ctxsOf' p.val).length ∧ t.mem = s.mem)
  ∧ (∀ (s : State) (x : Instr) (op k p a r : Nat), s.paddockOp x = some (op, k, p, a) → s.devState = 3 →
    s.bit Reg.PDK_CMD_STATUS 0 = false → s.pdkReason op k p a = r → r ≠ 0 → Completes x s fun t =>
      t.bit Reg.PDK_CMD_STATUS 2 = true ∧ t.fld Reg.PDK_CMD_STATUS 15 8 = r ∧ t.bit Reg.PDK_CMD_STATUS 0 = false
        ∧ t.evr.offered = s.evr.offered ++ [mkRec 0x0102 [(8, p), (8, op), (8, 1), (8, r)] s.clk.stm]
        ∧ (∀ q < 64, t.reg (Reg.PDK_STATE q) = s.reg (Reg.PDK_STATE q)) ∧ t.ctxs = s.ctxs ∧ t.mem = s.mem)
  ∧ (∀ (s : State) (x : Instr) (op k p a : Nat), s.paddockOp x = some (op, k, p, a) → s.devState = 3 →
    s.bit Reg.PDK_CMD_STATUS 0 = true → Completes x s fun t =>
      t.bit Reg.PDK_CMD_STATUS 2 = true ∧ t.fld Reg.PDK_CMD_STATUS 15 8 = 1 ∧ t.bit Reg.PDK_CMD_STATUS 0 = true
        ∧ t.evr.offered = s.evr.offered ++ [mkRec 0x0102 [(8, p), (8, op), (8, 1), (8, 1)] s.clk.stm]
        ∧ t.hp.cmd = s.hp.cmd ∧ (∀ q < 64, t.reg (Reg.PDK_STATE q) = s.reg (Reg.PDK_STATE q)) ∧ t.ctxs = s.ctxs ∧ t.mem = s.mem)

/-- REMOVE and the end of a command (R132, R134, R136): REMOVE of a QUIESCED paddock other than the manager asks for the end of each
layer grant; a command ends with done, its record and the manager interrupt once what it waits for has happened, not before, and the end
of REMOVE leaves the paddock ABSENT with no layer, control, CVU, field or read port granted and no context assigned; a grant or revoke
that changed something sets grant_change for its paddock.
Where a clause rests on a reading of the model, log entry 54 gives it. -/
def Obligations.PaddockRemoveAndEnd : Prop :=
  (∀ (s : State) (p : Fin 64), s.devState = 3 → s.bit Reg.PDK_CMD_STATUS 0 = false → fnCarried s.boot.hpWidth s.boot.hpVfs p.val = true →
    p.val ≠ s.manager → s.pdkState p.val = 4 → Completes (.remove p) s fun t =>
      t.pdkState p.val = 4 ∧ t.bit Reg.PDK_CMD_STATUS 0 = true ∧ t.mem = s.mem
        ∧ t.hp.layerChanges = s.hp.layerChanges ++ (s.layersOf p.val).map (fun i => ⟨i / 16, i % 16, p.val, false, false, false⟩))
  ∧ (∀ (s : State) (k p a : Nat), p < 64 → s.hp.cmd = some [4, k, p, a, 0] →
    (∀ l ∈ s.hp.layerChanges, l.paddock = p → l.applied = true) → Completes .pdkCmdEnd s fun t =>
      t.pdkState p = 0 ∧ t.reg (Reg.PDK_MISC p) = 0 ∧ (∀ i < 8, t.reg (Reg.PDK_CTRL p i) = 0) ∧ t.ctxsOf' p = []
        ∧ t.bit Reg.PDK_CMD_STATUS 0 = false ∧ t.bit Reg.PDK_CMD_STATUS 1 = true ∧ t.hp.cmd = none
        ∧ ((∀ l ∈ s.hp.layerChanges, l.paddock = p → l.grant = false) → ∀ l ∈ s.hp.layerChanges, l.paddock = p →
          16 * l.comp + l.layer < 160 → t.holds p 0 (16 * l.comp + l.layer) = false))
  ∧ (∀ (s : State) (op k p a f : Nat), p < 64 → op = 8 ∨ op = 9 → s.hp.cmd = some [op, k, p, a, f] →
    (∀ l ∈ s.hp.layerChanges, l.paddock = p → l.applied = true) → Completes .pdkCmdEnd s fun t =>
      t.bit Reg.PDK_CMD_STATUS 0 = false ∧ t.bit Reg.PDK_CMD_STATUS 1 = true ∧ t.hp.cmd = none
        ∧ (f = 1 → t.bit (Reg.PDK_U_CAUSE p) 1 = true)
        ∧ t.evr.offered = s.evr.offered ++ [mkRec 0x0102 [(8, p), (8, op), (8, 0), (8, 0)] s.clk.stm])
  ∧ (∀ (s : State) (k p a : Nat), p < 64 → s.pdkState p = 4 → s.hp.cmd = some [2, k, p, a, 0] → Completes .pdkCmdEnd s fun t =>
    t.bit Reg.PDK_CMD_STATUS 0 = false ∧ t.bit Reg.PDK_CMD_STATUS 1 = true ∧ t.hp.cmd = none ∧ t.pdkState p = 4
      ∧ t.evr.offered = s.evr.offered ++ [mkRec 0x0102 [(8, p), (8, 2), (8, 0), (8, 0)] s.clk.stm])
  ∧ (∀ (s : State) (op k p a f : Nat), s.hp.cmd = some [op, k, p, a, f] → s.pdkReady op p = false →
    Completes .pdkCmdEnd s fun t => t = s)
  ∧ (∀ (s : State) (op k p a : Nat), op ≠ 2 → op ≠ 4 → op ≠ 8 → op ≠ 9 → s.hp.cmd = some [op, k, p, a, 0] → Completes .pdkCmdEnd s fun t =>
    t.bit Reg.PDK_CMD_STATUS 0 = false ∧ t.bit Reg.PDK_CMD_STATUS 1 = true ∧ t.hp.cmd = none
      ∧ t.evr.offered = s.evr.offered ++ [mkRec 0x0102 [(8, p), (8, op), (8, 0), (8, 0)] s.clk.stm])

/-- R130: a write of 0x0000_5155 to PDK_U_QUIESCE quiesces the writing paddock with cause SELF (2); on the manager paddock the write is
ignored and an event record is written. Any other value changes nothing, nor does the write in a paddock that is not ACTIVE. -/
def Obligations.SelfQuiesce : Prop :=
  (∀ (s : State) (p : Fin 64), s.reaches p.val = true → p.val ≠ s.manager → s.pdkState p.val = 2 → Completes (.selfQuiesce p 0x5155) s fun t =>
    t.pdkState p.val = 3 ∧ t.fld (Reg.PDK_STATE p.val) 15 8 = 2
      ∧ (∀ c ∈ s.ctxsOf' p.val, s.ctxState c = 1 ∨ s.ctxState c = 2 → t.ctxState c = 3))
  ∧ (∀ (s : State) (p : Fin 64), s.reaches p.val = true → p.val = s.manager → Completes (.selfQuiesce p 0x5155) s fun t =>
    t.evr.offered = s.evr.offered ++ [mkRec 0x0104 [(8, p.val)] s.clk.stm] ∧ t.regs = s.regs ∧ t.ctxs = s.ctxs ∧ t.mem = s.mem)
  ∧ (∀ (s : State) (p : Fin 64) (v : Nat), v < 2 ^ 32 → v ≠ 0x5155 ∨ (p.val ≠ s.manager ∧ s.pdkState p.val ≠ 2) →
    Completes (.selfQuiesce p v) s fun t => t = s)

/-- LOAD (R67–R73, R82; Tables 3.1, 3.9): without a flash that answers SFDP both slots fail with code 0x01 and the device enters RECOVERY
with entry_cause 0x10; without a valid directory slot A is tried first, with one the preferred slot unless it is on trial; a slot that
passes steps 6 to 11 waits for RUN with the recorder running, and the directory is written where it named another; LOAD ends with a slot
loaded or in RECOVERY, and blows no fuse; the log is stamped with the times of its steps.
Where a clause rests on a reading of the model, log entries 13 and 94 give it. -/
def Obligations.WellheadLoads : Prop :=
  (∀ (s : State) (fa fb : LoadFacts) (ts : List Nat), s.devState = 2 → s.boot.loaded = none →
    Completes (.wellheadLoad false fa fb ts) s fun t =>
      t.devState = 4 ∧ t.fld Reg.SYS_STATE 23 16 = 0x10 ∧ t.fld Reg.SYS_STATE 10 8 = 2 ∧ t.reg Reg.WH_FAIL_A = 0xFF01
        ∧ t.reg Reg.WH_FAIL_B = 0xFF01 ∧ t.fuses = s.fuses ∧ t.boot.flash = s.boot.flash ∧ t.mem = s.mem
        ∧ t.clk.stm = s.clk.stm + ts.getLastD 0)
  ∧ (∀ (s t : State) (fa fb : LoadFacts) (ts : List Nat), s.devState = 2 → s.boot.loaded = none → s.dirInForce = none →
    (((((s.holdGroups [0, 4]).emit (.pin "XSPI_RSTn" 0)).emit (.pin "XSPI_RSTn" 1)).logStep 4 0xFF).logStep 5 0xFF
      |>.setBit Reg.WH_STATUS 2 false |>.loadSlot 0 fa) = .ok t →
    Completes (.wellheadLoad true fa fb ts) s fun u =>
      u.boot.loaded = some 0 ∧ u.bit Reg.EVR_CTRL 0 = true ∧ u.bit Reg.EVR_STATUS 31 = true
        ∧ u.boot.dir = some ⟨1, 0, 1, 1, 0⟩ ∧ u.boot.dirWrites = t.boot.dirWrites ++ [(0, ⟨1, 0, 1, 1, 0⟩)] ∧ u.boot.log = []
        ∧ u.fuses = t.fuses)
  ∧ (∀ (s t : State) (fa fb : LoadFacts) (ts : List Nat) (c : Nat) (d : Dir), s.devState = 2 → s.boot.loaded = none →
    s.dirInForce = some (c, d) → d.preferred < 2 → d.slotState d.preferred ≠ 0 → d.slotState d.preferred ≠ 2 →
    (((((s.holdGroups [0, 4]).emit (.pin "XSPI_RSTn" 0)).emit (.pin "XSPI_RSTn" 1)).logStep 4 0xFF).logStep 5 0xFF
      |>.setBit Reg.WH_STATUS 2 true |>.loadSlot d.preferred (if d.preferred = 0 then fa else fb)) = .ok t →
    Completes (.wellheadLoad true fa fb ts) s fun u =>
      u.boot.loaded = some d.preferred ∧ u.bit Reg.EVR_CTRL 0 = true ∧ u.boot.dirWrites = t.boot.dirWrites ∧ u.boot.log = []
        ∧ u.fuses = t.fuses)
  ∧ (∀ (s : State) (fa fb : LoadFacts) (ts : List Nat), s.devState = 2 → s.boot.loaded = none →
    Completes (.wellheadLoad true fa fb ts) s fun t =>
      ((∃ slot < 2, t.boot.loaded = some slot) ∨ (t.boot.loaded = none ∧ t.devState = 4 ∧ t.fld Reg.SYS_STATE 23 16 = 0x10))
        ∧ t.fuses = s.fuses)
  ∧ (∀ (s : State) (ok : Bool) (fa fb : LoadFacts) (ts : List Nat), s.devState ≠ 2 ∨ s.boot.loaded ≠ none →
    Completes (.wellheadLoad ok fa fb ts) s fun t => t = s)

/-- Confirm and reboot (R74, R86, R88; Table 3.15): the confirm key in RUN marks the active slot GOOD: its directory write is decided,
flash_busy sets and SLOT_CONFIRM is recorded; while flash_busy is set the confirm waits; the reboot key in RECOVERY or TEST enters BOOT
with entry_cause 0x06 and BOOTSEL sampled; any other value changes nothing.
Where a clause rests on a reading of the model, log entry 94 gives it. -/
def Obligations.ConfirmAndReboot : Prop :=
  (∀ (s : State) (d : Dir) (cd : Nat × Dir), s.devState = 3 → s.bit Reg.WH_STATUS 3 = false → s.boot.dir = some d →
    s.dirInForce = some cd → d.slotState (s.fld Reg.WH_STATUS 1 0) ≠ 1 → s.boot.advance = false → Completes (.slotConfirm 0x5A3C) s fun t =>
      t.boot.dirWrites = s.boot.dirWrites ++ [(1 - cd.1,
          { d.setState (s.fld Reg.WH_STATUS 1 0) 1 with sequence := (d.sequence + 1) % 2 ^ 32 })]
        ∧ t.bit Reg.WH_STATUS 3 = true ∧ t.fuses = s.fuses ∧ t.mem = s.mem ∧ t.boot.flash = s.boot.flash
        ∧ t.evr.offered = s.evr.offered ++ [mkRec 0x0404 [(8, s.fld Reg.WH_STATUS 1 0), (8, s.fld Reg.WH_SEC_VER 7 0)] s.clk.stm])
  ∧ (∀ (s : State) (d : Dir), s.devState = 3 → s.bit Reg.WH_STATUS 3 = false → s.boot.dir = some d →
    d.slotState (s.fld Reg.WH_STATUS 1 0) = 1 → s.boot.advance = true → s.bit Reg.WH_SEC_VER 16 = true → Completes (.slotConfirm 0x5A3C) s fun t =>
      t.fuses.minSec = max s.fuses.minSec (s.fld Reg.WH_SEC_VER 7 0) ∧ t.bit Reg.WH_SEC_VER 16 = false
        ∧ t.boot.dirWrites = s.boot.dirWrites
        ∧ t.evr.offered = s.evr.offered ++ [mkRec 0x0404 [(8, s.fld Reg.WH_STATUS 1 0), (8, s.fld Reg.WH_SEC_VER 7 0)] s.clk.stm])
  ∧ (∀ s : State, s.devState = 3 → s.bit Reg.WH_STATUS 3 = true → Completes (.slotConfirm 0x5A3C) s fun t =>
    t = { s with boot := { s.boot with confirmWaits := true } })
  ∧ (∀ (s : State) (v : Nat), v < 2 ^ 32 → v ≠ 0x5A3C ∨ s.devState ≠ 3 → Completes (.slotConfirm v) s fun t => t = s)
  ∧ (∀ (s : State) (v : Nat) (b : Fin 4), v < 2 ^ 32 → v ≠ 0xA5C3 ∨ (s.devState ≠ 4 ∧ s.devState ≠ 5) →
    Completes (.rebootKey v b) s fun t => t = s)
  ∧ (∀ (s : State) (b : Fin 4), s.devState = 4 ∨ s.devState = 5 → Completes (.rebootKey 0xA5C3 b) s fun t =>
    t.devState = 1 ∧ t.fld Reg.SYS_STATE 23 16 = 6 ∧ t.fld Reg.SYS_STATE 10 8 = s.devState ∧ t.mem = {}
      ∧ t.pins.bootSample = b.val ∧ t.boot.flash = s.boot.flash ∧ t.fuses = s.fuses)

/-- Flash (R71, R73, R74, R89, R90): READ brings the bytes into WH_FLASH_BUF, ERASE leaves its sector 0xFF and PROGRAM the bytes ANDed
with what stood there, each with busy set and every other flash byte as before; a directory write rewrites its copy; a command ends done or refused with its record, and
SET_TRIAL that verified writes the directory with the slot TRIAL, preferred and tries 1.
Where a clause rests on a reading of the model, log entries 14, 15 and 94 give it. -/
def Obligations.FlashCommands : Prop :=
  (∀ s : State, s.flashRefusal 1 (s.reg Reg.WH_FLASH_ADDR) (s.fld Reg.WH_FLASH_LEN 8 0) = none → Completes .flashRead s fun t =>
    (∀ i < s.fld Reg.WH_FLASH_LEN 8 0, t.fld (Reg.WH_FLASH_BUF (i / 4)) (8 * (i % 4) + 7) (8 * (i % 4))
        = (s.flashByte (s.reg Reg.WH_FLASH_ADDR + i)).toNat)
      ∧ t.bit Reg.WH_FLASH_STATUS 0 = true ∧ t.bit Reg.WH_STATUS 3 = true ∧ t.boot.flash = s.boot.flash ∧ t.mem = s.mem)
  ∧ (∀ s : State, s.flashRefusal 2 (s.reg Reg.WH_FLASH_ADDR) 65536 = none → Completes .flashErase s fun t =>
    (∀ a, a / 65536 = s.reg Reg.WH_FLASH_ADDR / 65536 → t.flashByte a = 0xFF)
      ∧ (∀ a, a / 65536 ≠ s.reg Reg.WH_FLASH_ADDR / 65536 → t.flashByte a = s.flashByte a)
      ∧ t.bit Reg.WH_FLASH_STATUS 0 = true ∧ t.bit Reg.WH_STATUS 3 = true)
  ∧ (∀ s : State, s.flashRefusal 3 (s.reg Reg.WH_FLASH_ADDR) (s.fld Reg.WH_FLASH_LEN 8 0) = none →
    (∀ p ∈ s.boot.undef, p.1 ≠ s.reg Reg.WH_FLASH_ADDR / 65536) → Completes .flashProgram s fun t =>
      (∀ i < s.fld Reg.WH_FLASH_LEN 8 0, t.flashByte (s.reg Reg.WH_FLASH_ADDR + i)
          = s.flashByte (s.reg Reg.WH_FLASH_ADDR + i) &&& BitVec.ofNat 8 (s.fld (Reg.WH_FLASH_BUF (i / 4)) (8 * (i % 4) + 7) (8 * (i % 4))))
        ∧ (∀ a, a < s.reg Reg.WH_FLASH_ADDR ∨ s.reg Reg.WH_FLASH_ADDR + s.fld Reg.WH_FLASH_LEN 8 0 ≤ a → t.flashByte a = s.flashByte a)
        ∧ t.bit Reg.WH_FLASH_STATUS 0 = true)
  ∧ (∀ s : State, s.flashRefusal 4 (s.reg Reg.WH_FLASH_ADDR) 0 = none → Completes .setTrial s fun t =>
    t.bit Reg.WH_FLASH_STATUS 0 = true ∧ t.boot.flash = s.boot.flash
      ∧ t.boot.cmd = some (4, s.reg Reg.WH_FLASH_ADDR, 0)
      ∧ (∀ r, s.verifySlot (slotBase s.inactiveSlot) = .ok r → t.fld Reg.WH_FLASH_STATUS 23 16 = 0)
      ∧ (∀ f, s.verifySlot (slotBase s.inactiveSlot) = .error f → t.fld Reg.WH_FLASH_STATUS 23 16 = f.code % 256
        ∧ t.evr.offered = s.evr.offered ++ [mkRec 0x0402 (f.items s.inactiveSlot) s.clk.stm]))
  ∧ (∀ (s : State) (x : Instr) (c n r : Nat),
    (x, c, n) ∈ [(Instr.flashRead, 1, s.fld Reg.WH_FLASH_LEN 8 0), (.flashErase, 2, 65536),
      (.flashProgram, 3, s.fld Reg.WH_FLASH_LEN 8 0), (.setTrial, 4, 0)] →
    s.flashRefusal c (s.reg Reg.WH_FLASH_ADDR) n = some r → Completes x s fun t =>
      t.bit Reg.WH_FLASH_STATUS 2 = true ∧ t.fld Reg.WH_FLASH_STATUS 15 8 = r ∧ t.boot = s.boot ∧ t.mem = s.mem
        ∧ t.evr.offered = s.evr.offered ++ [mkRec 0x0403 [(8, c), (8, 1), (8, r), (8, 0)] s.clk.stm])
  ∧ (∀ (s : State) (c a n : Nat), s.boot.cmd = some (c, a, n) → c ≠ 4 → s.boot.confirmWaits = false → s.boot.dirWrites = [] →
    Completes (.flashCmdEnd false) s (fun t =>
      t.bit Reg.WH_FLASH_STATUS 0 = false ∧ t.bit Reg.WH_FLASH_STATUS 1 = true ∧ t.bit Reg.WH_STATUS 3 = false ∧ t.boot.cmd = none
        ∧ t.evr.offered = s.evr.offered ++ [mkRec 0x0403 [(8, c), (8, 0), (8, 0), (8, 0)] s.clk.stm])
      ∧ Completes (.flashCmdEnd true) s (fun t =>
        t.bit Reg.WH_FLASH_STATUS 0 = false ∧ t.bit Reg.WH_FLASH_STATUS 2 = true ∧ t.fld Reg.WH_FLASH_STATUS 15 8 = 6 ∧ t.boot.cmd = none))
  ∧ (∀ (s : State) (a n : Nat) (d : Dir), s.boot.cmd = some (4, a, n) → s.fld Reg.WH_FLASH_STATUS 23 16 = 0 → s.boot.dir = some d →
    s.boot.confirmWaits = false → s.boot.dirWrites = [] → Completes (.flashCmdEnd false) s fun t =>
      t.boot.dir = some { d.setState s.inactiveSlot 2 with
          preferred := s.inactiveSlot, tries := 1, sequence := (d.sequence + 1) % 2 ^ 32 }
        ∧ t.bit Reg.WH_FLASH_STATUS 1 = true ∧ t.boot.cmd = none)
  ∧ (∀ (s : State) (c : Nat) (d : Dir), s.devState = 3 ∨ s.devState = 4 → s.boot.dirWrites = [(c, d)] → s.boot.confirmWaits = false →
    Completes .directoryWrite s fun t =>
      t.flashBytes (c * 65536) 32 = d.bytes ∧ (∀ a, a / 65536 ≠ c → t.flashByte a = s.flashByte a)
        ∧ t.bit Reg.WH_STATUS 3 = false ∧ t.boot.dirWrites = [] ∧ t.mem = s.mem)

/-- Ownership requests (R94, R101, R102, R112; Tables 4.3, 4.7): a request of the manager that is not refused gives every granule of its range its
entry, OWN_RELEASE zeroing it first, OWN_SHARE changing the share group alone; no other granule's entry and no byte outside a released
range changes, and busy is set; it ends done, with its record and SYS_SECREQ_DATA cleared.
Where a clause rests on a reading of the model, log entry 13 gives it. -/
def Obligations.OwnershipRequests : Prop :=
  (∀ (s : State) (p : Fin 64) (ro : Bool) (sh : Fin 16),
    s.secReason 1 (s.fld Reg.SYS_SECREQ_FIRST 20 0) (reqCount (s.fld Reg.SYS_SECREQ_COUNT 14 0)) p.val = 0 →
    Completes (.ownAssign p ro sh) s fun t =>
      (∀ g, g ∈ reqGranules (s.fld Reg.SYS_SECREQ_FIRST 20 0) (reqCount (s.fld Reg.SYS_SECREQ_COUNT 14 0)) →
          t.owner g = mkEnt 1 ro sh.val p.val)
        ∧ (∀ g, g ∉ reqGranules (s.fld Reg.SYS_SECREQ_FIRST 20 0) (reqCount (s.fld Reg.SYS_SECREQ_COUNT 14 0)) → t.owner g = s.owner g)
        ∧ SameBytes s t ∧ t.bit Reg.SYS_SECREQ_STATUS 0 = true)
  ∧ (∀ s : State, s.secReason 2 (s.fld Reg.SYS_SECREQ_FIRST 20 0) (reqCount (s.fld Reg.SYS_SECREQ_COUNT 14 0)) 0 = 0 →
    Completes .ownRelease s fun t =>
      (∀ g, g ∈ reqGranules (s.fld Reg.SYS_SECREQ_FIRST 20 0) (reqCount (s.fld Reg.SYS_SECREQ_COUNT 14 0)) → t.owner g = 0
          ∧ (∀ a, a / 65536 = g → g < 0x100000 → t.byte .dram a = 0) ∧ (∀ a, 0x100000 + a / 65536 = g → t.byte .basin a = 0))
        ∧ (∀ g, g ∉ reqGranules (s.fld Reg.SYS_SECREQ_FIRST 20 0) (reqCount (s.fld Reg.SYS_SECREQ_COUNT 14 0)) → t.owner g = s.owner g
          ∧ (∀ a, a / 65536 = g → g < 0x100000 → t.byte .dram a = s.byte .dram a)
          ∧ (∀ a, 0x100000 + a / 65536 = g → t.byte .basin a = s.byte .basin a))
        ∧ t.bit Reg.SYS_SECREQ_STATUS 0 = true)
  ∧ (∀ (s : State) (sh : Fin 16), s.secReason 3 (s.fld Reg.SYS_SECREQ_FIRST 20 0) (reqCount (s.fld Reg.SYS_SECREQ_COUNT 14 0)) 0 = 0 →
    Completes (.ownShare sh) s fun t =>
      (∀ g, g ∈ reqGranules (s.fld Reg.SYS_SECREQ_FIRST 20 0) (reqCount (s.fld Reg.SYS_SECREQ_COUNT 14 0)) →
          t.owner g = mkEnt (entClass (s.owner g)) (entRo (s.owner g)) sh.val (entOwner (s.owner g)))
        ∧ (∀ g, g ∉ reqGranules (s.fld Reg.SYS_SECREQ_FIRST 20 0) (reqCount (s.fld Reg.SYS_SECREQ_COUNT 14 0)) → t.owner g = s.owner g)
        ∧ SameBytes s t)
  ∧ (∀ (s : State) (op first count : Nat), s.sec.req = some [op, first, count] → Completes .secreqEnd s fun t =>
    t.bit Reg.SYS_SECREQ_STATUS 0 = false ∧ t.bit Reg.SYS_SECREQ_STATUS 1 = true ∧ t.sec.req = none
      ∧ t.sec.data = List.replicate 12 0 ∧ t.mem = s.mem
      ∧ t.evr.offered = s.evr.offered ++ [mkRec 0x0301 [(8, op), (8, 0), (8, 0), (32, first), (32, count)] s.clk.stm])

/-- Keys and refusals (R92, R93, R112; Table 4.2): REVOKE_KEY in RUN and OTP_KEY and OTP_IMAGE_KEY in TEST, where not refused, blow
their fuses and no others; any request of Table 4.7 that is refused for reason r shows refused and r with its record, and leaves fuses,
owner entries, every memory and a running request as they are; SYS_SECREQ_DATA is cleared unless the reason is BUSY.
Where a clause rests on a reading of the model, log entry 91 gives it. -/
def Obligations.KeysAndRefusals : Prop :=
  (∀ (s : State) (n : Fin 64), s.secReason 4 (s.fld Reg.SYS_SECREQ_FIRST 20 0) (reqCount (s.fld Reg.SYS_SECREQ_COUNT 14 0)) n.val = 0 →
    Completes (.revokeKey n) s fun t =>
      t.fuses = { s.fuses with keyRevoked := s.fuses.keyRevoked ||| 2 ^ n.val } ∧ t.mem = s.mem ∧ t.bit Reg.SYS_SECREQ_STATUS 0 = true
        ∧ t.bit Reg.SEC_OTP_STATUS (4 + n.val) = true)
  ∧ (∀ (s : State) (n : Fin 64), s.secReason 5 (s.fld Reg.SYS_SECREQ_FIRST 20 0) (reqCount (s.fld Reg.SYS_SECREQ_COUNT 14 0)) n.val = 0 →
    Completes (.otpKey n) s fun t =>
      t.fuses = { s.fuses with
          keyProg := s.fuses.keyProg ||| 2 ^ n.val, keyHash := s.fuses.keyHash.set n.val ((s.sec.data.flatMap (leBytes 4)).take 48) }
        ∧ t.bit Reg.SEC_OTP_STATUS n.val = true ∧ t.mem = s.mem)
  ∧ (∀ s : State, s.secReason 6 (s.fld Reg.SYS_SECREQ_FIRST 20 0) (reqCount (s.fld Reg.SYS_SECREQ_COUNT 14 0)) 0 = 0 →
    Completes .otpImageKey s fun t =>
      t.fuses = { s.fuses with imageKeyProg := true, imageKey := ofLeBytes ((s.sec.data.flatMap (leBytes 4)).take 32) }
        ∧ t.bit Reg.SEC_OTP_STATUS 12 = true ∧ t.mem = s.mem)
  ∧ (∀ (s : State) (p n k : Fin 64) (ro : Bool) (sh : Fin 16) (x : Instr) (op arg r : Nat),
    (x, op, arg) ∈ [(Instr.ownAssign p ro sh, 1, p.val), (.ownRelease, 2, 0), (.ownShare sh, 3, 0), (.revokeKey n, 4, n.val),
      (.otpKey k, 5, k.val), (.otpImageKey, 6, 0)] →
    s.secReason op (s.fld Reg.SYS_SECREQ_FIRST 20 0) (reqCount (s.fld Reg.SYS_SECREQ_COUNT 14 0)) arg = r → r ≠ 0 → Completes x s fun t =>
      t.fuses = s.fuses ∧ t.mem = s.mem ∧ t.bit Reg.SYS_SECREQ_STATUS 2 = true ∧ t.fld Reg.SYS_SECREQ_STATUS 15 8 = r
        ∧ t.bit Reg.SYS_SECREQ_STATUS 0 = s.bit Reg.SYS_SECREQ_STATUS 0 ∧ t.sec.req = s.sec.req
        ∧ t.sec.data = (if r = 7 then s.sec.data else List.replicate 12 0)
        ∧ t.evr.offered = s.evr.offered ++ [mkRec 0x0301 [(8, op), (8, 1), (8, r), (32, s.fld Reg.SYS_SECREQ_FIRST 20 0),
          (32, reqCount (s.fld Reg.SYS_SECREQ_COUNT 14 0))] s.clk.stm])

/-- The secure watchdog and claims (R103–R109): the kick key arms the watchdog anew and any other value is ignored; an expiry with fewer
than two before it in 60 s holds Koroft in reset with its secure record, and a third resets the chip as WDT_CHIP (entry_cause 0x02); a
copy of KOROFT_CODE that matches the anchor lets Koroft run again, with the copy in its execution area and its data area zero, and one
that does not resets the chip; a claim bit is held until it is cleared, and setting it ungates its block and wakes the device from GRAZE.
Where a clause rests on a reading of the model, log entries 12, 20, 22, 46 and 58 give it. -/
def Obligations.WatchdogAndClaims : Prop :=
  (∀ s : State, s.koroftUp = true → Completes (.wdtKick 0xC0DE) s (fun t => t = { s with sec := { s.sec with lastKick := s.clk.stm } })
    ∧ ∀ v, v < 2 ^ 32 → v ≠ 0xC0DE → Completes (.wdtKick v) s fun t => t = s)
  ∧ (∀ s : State, s.koroftUp = true → s.sec.paused = false → s.recent.length < 2 → Completes .wdtExpiry s fun t =>
    t.bit Reg.SEC_WDT_STATUS 16 = true ∧ t.bit Reg.SEC_STATUS 0 = false ∧ t.fld Reg.SEC_WDT_STATUS 9 8 = s.recent.length + 1
      ∧ t.sec.secNext = s.sec.secNext + 1 ∧ t.mem = s.mem ∧ t.fuses = s.fuses
      ∧ t.evr.offered = s.evr.offered ++ [{ mkRec 0x0302 [(32, s.fld Reg.SEC_WDT_STATUS 7 0), (32, s.recent.length + 1)] s.clk.stm with
          d2 := s.sec.secNext % 2 ^ 32 }])
  ∧ (∀ s : State, s.koroftUp = true → s.sec.paused = false → 2 ≤ s.recent.length → Completes .wdtExpiry s fun t =>
    t.boot.resetCause = some 2 ∧ t.mem = {} ∧ t.fld Reg.SEC_RESET_INFO 1 0 = 1 ∧ t.sec.secNext = s.sec.secNext + 2)
  ∧ (∀ s : State, s.koroftUp = false ∨ s.sec.paused = true → Completes .wdtExpiry s fun t => t = s)
  ∧ (∀ (s : State) (e : EccFind), s.devState = 3 → s.bit Reg.SEC_WDT_STATUS 16 = true → s.reloadKoroft.anchorMatches = true →
    (s.eccFind .basin false codeBase s.boot.codeLen e).2 = false →
    execBase s.boot.codeLen + s.boot.codeLen ≤ 0x400000 → Completes (.koroftRestarted e) s fun t =>
    t.bytes .basin (execBase s.boot.codeLen) s.boot.codeLen = s.bytes .basin codeBase s.boot.codeLen
      ∧ (∀ a, execBase s.boot.codeLen + s.boot.codeLen ≤ a → a < 0x400000 → t.byte .basin a = 0)
      ∧ (∀ a, a < execBase s.boot.codeLen ∨ 0x400000 ≤ a → t.byte .basin a = s.byte .basin a)
      ∧ t.bit Reg.SEC_WDT_STATUS 16 = false ∧ t.bit Reg.SEC_STATUS 0 = true ∧ t.koroftUp = true
      ∧ t.fld Reg.SEC_WDT_STATUS 7 0 = min (s.fld Reg.SEC_WDT_STATUS 7 0 + 1) 255 ∧ t.sec.secNext = s.sec.secNext + 1)
  ∧ (∀ (s : State) (e : EccFind), s.devState = 3 → s.bit Reg.SEC_WDT_STATUS 16 = true →
    s.reloadKoroft.anchorMatches = false ∨ (s.eccFind .basin false codeBase s.boot.codeLen e).2 = true →
    Completes (.koroftRestarted e) s fun t =>
    t.boot.resetCause = some 2 ∧ t.fld Reg.SEC_RESET_INFO 1 0 = 2)
  ∧ (∀ (s : State) (i : Fin 16), s.koroftUp = true → s.pwr.trans = none → s.pwr.wake ≠ none ∨ (s.power ≠ 3 ∧ s.power ≠ 4) →
    Completes (.secureClaimSet i) s fun t =>
    t.bit Reg.SEC_CLAIM i.val = true ∧ t.bit Reg.PCR_GATE (blockOfClaim i.val) = false ∧ SameRegs s t [Reg.SEC_CLAIM, Reg.PCR_GATE]
      ∧ t.evr = s.evr ∧ t.mem = s.mem)
  ∧ (∀ (s : State) (i : Fin 16), s.koroftUp = true → s.pwr.trans = none → s.pwr.wake = none → s.power = 3 →
    (∃ b < 19, claimBit b = some i.val) → Completes (.secureClaimSet i) s fun t =>
      t.bit Reg.SEC_CLAIM i.val = true ∧ t.pwr.wake.isSome = true ∧ t.mem = s.mem)
  ∧ (∀ (s : State) (i : Fin 16), s.koroftUp = true → Completes (.secureClaimClear i) s fun t =>
    t.bit Reg.SEC_CLAIM i.val = false ∧ SameRegs s t [Reg.SEC_CLAIM] ∧ t.mem = s.mem ∧ t.evr = s.evr)

/-- Doorbells and completion heads (R129, R139, R140, R142, R164): a tail written to a configured context of an ACTIVE paddock is taken, and an
IDLE context that has work becomes ACTIVE; a doorbell for a paddock that is not ACTIVE, an unconfigured context or a tail past the ring is
dropped with its reason; a completion head frees its entries; context registers are taken only while the context is IDLE.
Where a clause rests on a reading of the model, log entries 25 and 55 give it. -/
def Obligations.DoorbellsAndContextRegisters : Prop :=
  (∀ (s : State) (p : Fin 64) (n : Fin 256) (v c : Nat), s.reaches p.val = true → s.ctxAt p.val n.val = some c → s.pdkState p.val = 2 →
    (s.ctx c).configured = true → v < (s.ctx c).sqSize → v < 65536 → s.ctxState c = 0 → (s.ctx c).sqHead ≠ v → (s.ctx c).faulting = none →
    s.bit (Reg.CQ_CTX_STATUS c) 3 = false → (s.ctx c).fenced = false → Completes (.doorbellTail p n v) s fun t =>
      t.ctx c = { s.ctx c with tail := v } ∧ t.ctxState c = 1 ∧ SameRegs s t [Reg.CQ_CTX_STATUS c] ∧ t.mem = s.mem
        ∧ t.evr = s.evr ∧ ∀ d, d ≠ c → t.ctx d = s.ctx d)
  ∧ (∀ (s : State) (p : Fin 64) (n : Fin 256) (v c r : Nat), s.reaches p.val = true → s.ctxAt p.val n.val = some c → v < 65536 →
    (r = 1 ∧ s.pdkState p.val ≠ 2) ∨ (r = 2 ∧ s.pdkState p.val = 2 ∧ (s.ctx c).configured = false)
      ∨ (r = 3 ∧ s.pdkState p.val = 2 ∧ (s.ctx c).configured = true ∧ (s.ctx c).sqSize ≤ v) →
    Completes (.doorbellTail p n v) s fun t =>
      t.ctxs = s.ctxs ∧ t.regs = s.regs ∧ t.mem = s.mem
        ∧ t.evr.offered = s.evr.offered ++ [mkRec 0x0204 [(16, c), (8, r)] s.clk.stm])
  ∧ (∀ (s : State) (p : Fin 64) (n : Fin 256) (v c : Nat), s.reaches p.val = true → s.ctxAt p.val n.val = some c → v < (s.ctx c).cqSize →
    v < 65536 → (s.ctx c).held = [] → (s.ctx c).cqHead < (s.ctx c).cqSize → Completes (.completionHeadWrite p n v) s fun t =>
      (t.ctx c).cqHead = v)
  ∧ (∀ (s : State) (c : Fin 1024) (w : CtxReg) (v : Nat), v < 2 ^ 32 → s.ctxState c.val = 0 → ctxValueBad w v = false →
    w ≠ .cls → w ≠ .limit → s.ctxAssigned c.val = true → s.reaches (s.ctxPaddock c.val) = true → Completes (.contextCfgWrite c w v) s fun t =>
      t.regs = s.regs ∧ t.evr = s.evr ∧ t.mem = s.mem ∧ (∀ d, d ≠ c.val → t.ctx d = s.ctx d)
        ∧ (w = .sqBaseLo → (t.ctx c.val).sqBase % 2 ^ 32 = v) ∧ (w = .sqBaseHi → (t.ctx c.val).sqBase / 2 ^ 32 = v)
        ∧ (w = .cqBaseLo → (t.ctx c.val).cqBase % 2 ^ 32 = v) ∧ (w = .cqBaseHi → (t.ctx c.val).cqBase / 2 ^ 32 = v)
        ∧ (w = .cfg → (t.ctx c.val).cfg = v &&& 0x1F1F1F))
  ∧ (∀ (s : State) (c : Fin 1024) (v : Nat), v < 2 ^ 32 → s.ctxState c.val = 0 → s.reaches s.manager = true →
    Completes (.contextCfgWrite c .cls v) s (fun t =>
      t.reg (Reg.CQ_CTX_CLASS c.val) = v &&& 0xFFFF0F73 ∧ SameRegs s t [Reg.CQ_CTX_CLASS c.val] ∧ t.ctxs = s.ctxs ∧ t.evr = s.evr)
    ∧ Completes (.contextCfgWrite c .limit v) s (fun t =>
      t.reg (Reg.CQ_CTX_LIMIT c.val) = v % 65536 ∧ SameRegs s t [Reg.CQ_CTX_LIMIT c.val] ∧ t.ctxs = s.ctxs ∧ t.evr = s.evr))
  ∧ (∀ (s : State) (c : Fin 1024) (w : CtxReg) (v : Nat), v < 2 ^ 32 → s.ctxState c.val = 0 → ctxValueBad w v = true →
    s.ctxAssigned c.val = true → s.reaches (s.ctxPaddock c.val) = true → Completes (.contextCfgWrite c w v) s fun t =>
      t.regs = s.regs ∧ t.ctxs = s.ctxs
        ∧ t.evr.offered = s.evr.offered ++ [mkRec 0x0205 [(16, c.val), (32, s.cfgOffset c.val w), (8, 1)] s.clk.stm])
  ∧ (∀ (s : State) (c : Fin 1024) (w : CtxReg) (v : Nat), s.ctxState c.val ≠ 0 → w = .cls ∨ w = .limit → s.reaches s.manager = true →
    Completes (.contextCfgWrite c w v) s fun t =>
      t.bit (Reg.CQ_CTX_STATUS c.val) 4 = true ∧ SameRegs s t [Reg.CQ_CTX_STATUS c.val] ∧ t.ctxs = s.ctxs
        ∧ t.evr.offered = s.evr.offered ++ [mkRec 0x0205 [(16, c.val), (32, s.cfgOffset c.val w), (8, 0)] s.clk.stm])

/-- Context operations (R154, R155, R161, R491; Tables 6.2, 6.9): a rein takes an IDLE, ACTIVE or WAITING context to REINING and is ignored in
any other state; RESTART takes a REINED or FAULTED context without new work to IDLE with last_status clear, RESTART_DISCARD after setting its
head to its tail; RESET returns the indices and the phase to reset, after a rein where the context works; a rein ends REINED with last_status 0x10 and no job left, or in IDLE where a RESET or an
unassignment waits for it; an operation on a context of a paddock that is not ACTIVE, of no paddock, or not allowed in its state is
dropped with its reason.
Where a clause rests on a reading of the model, log entry 51 gives it. -/
def Obligations.ContextOperations : Prop :=
  (∀ (s : State) (src : CtxSource) (c : Fin 1024), s.opReaches src c.val = none → s.ctxState c.val ≤ 2 → (s.ctx c.val).faulting = none →
    Completes (.rein src c) s fun t =>
      t.ctxState c.val = 3
        ∧ t.ctx c.val = { s.ctx c.val with reinSrc := srcNo src, reinIdle := decide (s.ctxState c.val = 0) }
        ∧ ((∀ j ∈ s.ja.jobs, j.ctx ≠ c.val) → SameRegs s t [Reg.CQ_CTX_STATUS c.val]) ∧ t.evr = s.evr ∧ t.mem = s.mem)
  ∧ (∀ (s : State) (src : CtxSource) (c : Fin 1024), s.opReaches src c.val = none → 3 ≤ s.ctxState c.val →
    Completes (.rein src c) s fun t => t = s)
  ∧ (∀ (s : State) (src : CtxSource) (c : Fin 1024), s.opReaches src c.val = none → s.ctxState c.val = 4 ∨ s.ctxState c.val = 5 →
    ((s.ctx c.val).sqHead = (s.ctx c.val).tail → Completes (.restart src c) s fun t =>
      t.ctxState c.val = 0 ∧ t.fld (Reg.CQ_CTX_STATUS c.val) 15 8 = 0 ∧ t.ctxs = s.ctxs ∧ SameRegs s t [Reg.CQ_CTX_STATUS c.val])
    ∧ ((s.ctx c.val).sqHead ≠ (s.ctx c.val).tail → (s.ctx c.val).faulting = none → s.bit (Reg.CQ_CTX_STATUS c.val) 3 = false →
      (s.ctx c.val).fenced = false → Completes (.restart src c) s fun t =>
        t.ctxState c.val = 1 ∧ t.fld (Reg.CQ_CTX_STATUS c.val) 15 8 = 0 ∧ t.ctxs = s.ctxs ∧ SameRegs s t [Reg.CQ_CTX_STATUS c.val])
    ∧ Completes (.restartDiscard src c) s (fun t =>
      t.ctxState c.val = 0 ∧ t.fld (Reg.CQ_CTX_STATUS c.val) 15 8 = 0 ∧ t.ctx c.val = { s.ctx c.val with sqHead := (s.ctx c.val).tail })
    )
  ∧ (∀ (s : State) (src : CtxSource) (c : Fin 1024), s.opReaches src c.val = none → s.ctxState c.val = 0 ∨ s.ctxState c.val = 4
    ∨ s.ctxState c.val = 5 → Completes (.reset src c) s fun t =>
      t.ctxState c.val = 0 ∧ (t.ctx c.val).tail = 0 ∧ (t.ctx c.val).sqHead = 0 ∧ (t.ctx c.val).cqHead = 0 ∧ (t.ctx c.val).cqTail = 0
        ∧ (t.ctx c.val).phase = true ∧ (t.ctx c.val).sqBase = (s.ctx c.val).sqBase ∧ (t.ctx c.val).cfg = (s.ctx c.val).cfg
        ∧ t.fld (Reg.CQ_CTX_STATUS c.val) 15 8 = 0)
  ∧ (∀ (s : State) (src : CtxSource) (c : Fin 1024), s.opReaches src c.val = none → s.ctxState c.val ≤ 3 →
    Completes (.restart src c) s (fun t =>
      t.ctxs = s.ctxs ∧ t.regs = s.regs ∧ t.evr.offered = s.evr.offered ++ [mkRec 0x0204 [(16, c.val), (8, 4)] s.clk.stm])
    ∧ Completes (.restartDiscard src c) s (fun t =>
      t.ctxs = s.ctxs ∧ t.regs = s.regs ∧ t.evr.offered = s.evr.offered ++ [mkRec 0x0204 [(16, c.val), (8, 4)] s.clk.stm]))
  ∧ (∀ (s : State) (src : CtxSource) (c : Fin 1024) (r : Nat),
    (r = 1 ∧ src = .paddock ∧ s.ctxAssigned c.val = true ∧ s.reaches (s.ctxPaddock c.val) = true ∧ s.pdkState (s.ctxPaddock c.val) ≠ 2)
      ∨ (r = 5 ∧ src = .manager ∧ s.reaches s.manager = true ∧ s.ctxAssigned c.val = false) →
    ∀ x ∈ [Instr.rein src c, .restart src c, .restartDiscard src c, .reset src c], Completes x s fun t =>
      t.ctxs = s.ctxs ∧ t.regs = s.regs ∧ t.evr.offered = s.evr.offered ++ [mkRec 0x0204 [(16, c.val), (8, r)] s.clk.stm])
  ∧ (∀ (s : State) (src : CtxSource) (c : Fin 1024), s.opReaches src c.val = none → s.ctxState c.val = 1 ∨ s.ctxState c.val = 2 →
    Completes (.reset src c) s fun t => t.ctxState c.val = 3 ∧ (t.ctx c.val).resetAfter = true)
  ∧ (∀ (s : State) (c : Fin 1024), s.ctxState c.val = 3 → (s.ctx c.val).idleAfter = false →
    (s.ctx c.val).resetAfter = false → Completes (.reinComplete c) s fun t =>
      t.ctxState c.val = 4 ∧ t.fld (Reg.CQ_CTX_STATUS c.val) 15 8 = 0x10 ∧ (t.ctx c.val).jobs = [])
  ∧ (∀ (s : State) (c : Fin 1024), s.ctxState c.val = 3 → (s.ctx c.val).idleAfter = true ∨ (s.ctx c.val).resetAfter = true →
    Completes (.reinComplete c) s fun t =>
      t.ctxState c.val = 0 ∧ (t.ctx c.val).jobs = [] ∧ (t.ctx c.val).tail = 0 ∧ t.fld (Reg.CQ_CTX_STATUS c.val) 15 8 = 0)
  ∧ (∀ (s : State) (c : Fin 1024), s.ctxState c.val ≠ 3 → Completes (.reinComplete c) s fun t => t = s)

/-- Fences (R149–R151, R165; Table 6.6): a wait whose fence has its value ends its job and one whose fence has not makes its context WAITING; a
signal sets the fence to a higher value; the manager sets a fence to a value not below its own, and a lower one is dropped with a
record; an event mark ends its job.
Where a clause rests on a reading of the model, log entry 48 gives it. -/
def Obligations.FencesAndMarks : Prop :=
  (∀ (s : State) (c : Fin 1024) (j : Job), s.toStart c.val 4 = some j → j.f 0x18 8 ≤ s.fence (j.f 0x10 2 % 4096) → Completes (.fenceWait c) s fun t =>
    (∀ k ∈ (t.ctx c.val).jobs, k.sq ≠ j.sq) ∧ t.fences = s.fences)
  ∧ (∀ (s : State) (c : Fin 1024) (j : Job), s.toStart c.val 4 = some j → s.fence (j.f 0x10 2 % 4096) < j.f 0x18 8 → Completes (.fenceWait c) s fun t =>
    t.ctxState c.val = 2 ∧ (t.ctx c.val).fenced = true ∧ t.fences = s.fences ∧ t.mem = s.mem)
  ∧ (∀ (s : State) (c : Fin 1024) (j : Job), (s.ctx c.val).jobs.find? (fun j => j.started && j.typ == 4) = some j →
    j.f 0x18 8 ≤ s.fence (j.f 0x10 2 % 4096) → Completes (.fenceWaitSatisfied c) s fun t =>
      (∀ k ∈ (t.ctx c.val).jobs, k.sq ≠ j.sq) ∧ t.fences = s.fences)
  ∧ (∀ (s : State) (c : Fin 1024) (j : Job), s.toStart c.val 5 = some j → s.fence (j.f 0x10 2 % 4096) ≤ j.f 0x18 8 → Completes (.fenceSignal c) s fun t =>
    t.fence (j.f 0x10 2 % 4096) = j.f 0x18 8 ∧ (∀ f, f ≠ j.f 0x10 2 % 4096 → t.fence f = s.fence f) ∧ ∀ k ∈ (t.ctx c.val).jobs, k.sq ≠ j.sq)
  ∧ (∀ (s : State) (v : Nat), s.reaches s.manager = true → v.testBit 31 = true →
    (s.fence (v % 4096) ≤ s.reg64 Reg.CQ_FENCE_SET_LO Reg.CQ_FENCE_SET_HI → Completes (.fenceSet v) s fun t =>
      t.fence (v % 4096) = s.reg64 Reg.CQ_FENCE_SET_LO Reg.CQ_FENCE_SET_HI ∧ (∀ f, f ≠ v % 4096 → t.fence f = s.fence f)
        ∧ t.reg Reg.CQ_FENCE_SEL = v % 4096 ∧ SameRegs s t [Reg.CQ_FENCE_SEL] ∧ t.mem = s.mem ∧ t.evr = s.evr)
    ∧ (s.reg64 Reg.CQ_FENCE_SET_LO Reg.CQ_FENCE_SET_HI < s.fence (v % 4096) → Completes (.fenceSet v) s fun t =>
      t.fences = s.fences ∧ t.evr.offered = s.evr.offered ++ [mkRec 0x0206 [(16, v % 4096)] s.clk.stm]))
  ∧ (∀ (s : State) (c : Fin 1024) (j : Job), s.toStart c.val 12 = some j → Completes (.eventMark c) s fun t =>
    (∀ k ∈ (t.ctx c.val).jobs, k.sq ≠ j.sq) ∧ t.fences = s.fences)

/-- A job that ends writes its entry (R142, R148; Table 6.7): of a context whose ring lies in host memory, has room and holds no entry, the end
of a job with status 0 sends the 32 bytes of Table 6.7 with the ring's phase bit to the slot at the completion tail, moves the tail,
and removes the job; no byte of Basin or DRAM changes. -/
def Obligations.JobEndWritesEntry : Prop :=
  ∀ (s : State) (c sq detail seq : Nat) (j : Job), s.job c sq = some j → s.jjob c sq = none → s.cmp.commits = [] →
    spaceOf ((s.ctx c).cqBase + 32 * (s.ctx c).cqTail) = .host → s.mayMaster (s.ctxPaddock c) = true → (s.ctx c).held = [] →
    (s.ctx c).cqUsed + 1 < (s.ctx c).cqSize → (s.ctx c).cqTail + 1 < (s.ctx c).cqSize →
    (∃ bs, Emit.hostWrite (s.ctxPaddock c) (localOf ((s.ctx c).cqBase + 32 * (s.ctx c).cqTail)) bs ∈ (s.endJob c sq 0 detail seq).out
        ∧ bs.drop 13 = (entryBytes (j.f 4 4) 0 j.typ j.sq (j.count % 2 ^ 32) 0 c s.clk.stm detail seq).drop 13
        ∧ bs.take 12 = (entryBytes (j.f 4 4) 0 j.typ j.sq (j.count % 2 ^ 32) 0 c s.clk.stm detail seq).take 12
        ∧ (bs.getD 12 0).toNat % 2 = b2n (s.ctx c).phase)
      ∧ ((s.endJob c sq 0 detail seq).ctx c).cqTail = (s.ctx c).cqTail + 1
      ∧ (∀ k ∈ ((s.endJob c sq 0 detail seq).ctx c).jobs, k.sq ≠ sq) ∧ SameBytes s (s.endJob c sq 0 detail seq)

/-- Descriptors and the starts of jobs (R141, R146, R209, R297, R432; Tables 6.4, 6.5): a descriptor that passes its checks is admitted and the head
moves past it; a job that may start is marked started and lies with its engine: the array, the copy engine, the commit port, the light,
audio, haptic or integrity block, or its DMX port.
Where a clause rests on a reading of the model, log entries 16, 48 and 49 give it. -/
def Obligations.DescriptorsAndJobStarts : Prop :=
  (∀ (s : State) (c : Fin 1024) (m : MemSel) (host : List (Nat × Byte)) (r : HostReply) (o : Option JetJob), s.fetches c.val = true →
    spaceOf ((s.ctx c.val).sqBase + 64 * (s.ctx c.val).sqHead) = (match m with | .basin => .basin | .dram => .dram) →
    s.jobRefused c.val 0 ((s.ctx c.val).sqBase + 64 * (s.ctx c.val).sqHead) 64 false = none →
    s.poisonIn ((s.ctx c.val).sqBase + 64 * (s.ctx c.val).sqHead) 64 = none →
    s.admitChks c.val (s.bytes m (localOf ((s.ctx c.val).sqBase + 64 * (s.ctx c.val).sqHead)) 64) (s.ctx c.val).sqHead host = .ok o →
    Completes (.descriptorFetched c r host) s fun t =>
      (t.ctx c.val).sqHead = ((s.ctx c.val).sqHead + 1) % (s.ctx c.val).sqSize
        ∧ (t.ctx c.val).jobs = (s.ctx c.val).jobs ++ [({
          sq := (s.ctx c.val).sqHead
          raw := s.bytes m (localOf ((s.ctx c.val).sqBase + 64 * (s.ctx c.val).sqHead)) 64 } : Job)]
        ∧ t.ja.jobs = s.ja.jobs ++ o.toList ∧ t.mem = s.mem ∧ t.evr = s.evr)
  ∧ (∀ (s : State) (c : Fin 1024) (host : List (Nat × Byte)) (bs : List Byte) (o : Option JetJob), s.fetches c.val = true →
    spaceOf ((s.ctx c.val).sqBase + 64 * (s.ctx c.val).sqHead) = .host → s.mayMaster (s.ctxPaddock c.val) = true → bs.length = 64 →
    s.admitChks c.val bs (s.ctx c.val).sqHead host = .ok o → Completes (.descriptorFetched c (.data bs) host) s fun t =>
      (t.ctx c.val).sqHead = ((s.ctx c.val).sqHead + 1) % (s.ctx c.val).sqSize
        ∧ (t.ctx c.val).jobs = (s.ctx c.val).jobs ++ [({ sq := (s.ctx c.val).sqHead, raw := bs } : Job)]
        ∧ t.ja.jobs = s.ja.jobs ++ o.toList ∧ t.mem = s.mem ∧ t.evr = s.evr)
  ∧ (∀ (s : State) (c : Fin 1024) (j : Job), s.liveJets ≠ 0 →
    (s.toStart c.val 1 = some j → Completes (.renderPass c) s fun t =>
      (∃ k ∈ (t.ctx c.val).jobs, k.sq = j.sq ∧ k.raw = j.raw ∧ k.started = true) ∧ t.ja.arrivals = s.ja.arrivals + 1)
    ∧ (s.toStart c.val 2 = some j → Completes (.compute c) s fun t =>
      (∃ k ∈ (t.ctx c.val).jobs, k.sq = j.sq ∧ k.raw = j.raw ∧ k.started = true) ∧ t.ja.arrivals = s.ja.arrivals + 1))
  ∧ (∀ (s : State) (c : Fin 1024) (j : Job), s.toStart c.val 3 = some j → (s.copyReach c.val j).2 = none →
    (j.f 0x24 1 % 2 = 0 → Completes (.copy c) s fun t =>
      (∃ k ∈ (t.ctx c.val).jobs, k.sq = j.sq ∧ k.raw = j.raw ∧ k.started = true ∧ k.extent = j.f 0x20 4) ∧ t.mem = s.mem)
    ∧ (j.f 0x24 1 % 2 = 1 → Completes (.copyFill c) s fun t =>
      (∃ k ∈ (t.ctx c.val).jobs, k.sq = j.sq ∧ k.raw = j.raw ∧ k.started = true ∧ k.extent = j.f 0x20 4) ∧ t.mem = s.mem))
  ∧ (∀ (s : State) (c : Fin 1024) (j : Job), s.toStart c.val 6 = some j → s.cmp.waiting = [] →
    s.padPending (s.ctxPaddock c.val) (j.f 0x10 1) = false → s.bit (Reg.CMP_STATUS (j.f 0x10 1)) 31 = true → Completes (.layerCommit c) s fun t =>
      t.cmp.waiting = [] ∧ t.regs = s.regs ∧ ∃ x, t.cmp.commits = s.cmp.commits ++ [x] ∧ x.kind = 0 ∧ x.comp = j.f 0x10 1
        ∧ x.paddock = s.ctxPaddock c.val ∧ x.job = some (c.val, j.sq) ∧ x.code = 0 ∧ x.latched = false)
  ∧ (∀ (s : State) (c : Fin 1024) (j : Job), s.toStart c.val 7 = some j → (∀ k ∈ s.lo.jobs, k.src ≠ j.f 0x10 1 % 8 ∧ ¬(k.ctx = c.val ∧ k.sq = j.sq)) →
    spaceOf (j.f 0x18 8) ≠ .host ∨ s.mayMaster (s.ctxPaddock c.val) = true → Completes (.lightWrite c) s fun t =>
    (∃ k ∈ (t.ctx c.val).jobs, k.sq = j.sq ∧ k.started = true) ∧ ∃ k ∈ t.lo.jobs, k.ctx = c.val ∧ k.sq = j.sq ∧ k.running = true)
  ∧ (∀ (s : State) (c : Fin 1024) (j : Job) (host : List (Nat × Byte)), s.toStart c.val 8 = some j →
    (s.reach c.val 0x18 (j.f 0x18 8) (j.f 0x12 2) false).2 = none → Completes (.rdmTransaction c host) s fun t =>
      ∃ k ∈ (t.ctx c.val).jobs, k.sq = j.sq ∧ k.started = true)
  ∧ (∀ (s : State) (c : Fin 1024) (j : Job) (host : List (Nat × Byte)), s.toStart c.val 9 = some j → (j.f 0x11 1).testBit 0 = false →
    (∀ p ∈ s.aud.plays, p.ctx ≠ c.val) → spaceOf (j.f 0x18 8) ≠ .host →
    (∀ n, n ≤ 256 * sampleBytes (j.f 0x12 1) → (s.reach c.val 0x18 (j.f 0x18 8) n false).2 = none) →
    Completes (.audioBufferPlay c host) s fun t =>
      (∃ k ∈ (t.ctx c.val).jobs, k.sq = j.sq ∧ k.started = true)
        ∧ ∃ p ∈ t.aud.plays, p.ctx = c.val ∧ p.sq = j.sq ∧ p.input = j.f 0x10 1 % 128)
  ∧ (∀ (s : State) (c : Fin 1024) (j : Job), s.toStart c.val 9 = some j → (j.f 0x11 1).testBit 0 = true →
    (s.captBuf (j.f 0x10 1 % 64)).primed = false → Completes (.audioBufferCapture c) s fun t =>
      (∃ k ∈ (t.ctx c.val).jobs, k.sq = j.sq ∧ k.started = true) ∧ ∃ q ∈ t.aud.caps, q.ctx = c.val ∧ q.sq = j.sq ∧ q.bus = j.f 0x10 1 % 64)
  ∧ (∀ (s : State) (c : Fin 1024) (j : Job), s.toStart c.val 10 = some j → (s.hapCh (j.f 0x10 1 % 16)).fifo.length < 4 →
    Completes (.hapticPlay c) s fun t =>
      (∃ k ∈ (t.ctx c.val).jobs, k.sq = j.sq ∧ k.started = true)
        ∧ (∃ w, t.hap.waits = s.hap.waits ++ [w] ∧ w.ctx = c.val ∧ w.sq = j.sq) ∧ t.regs = s.regs ∧ t.mem = s.mem)
  ∧ (∀ (s : State) (c : Fin 1024) (j : Job) (host : List (Nat × Byte)), s.toStart c.val 11 = some j → j.f 0x11 1 % 2 = 0 →
    s.bit (Reg.CVU_STATUS (j.f 0x10 1 % 16)) 0 = false → (∀ k ∈ s.im.jobs, k.cvu ≠ j.f 0x10 1 % 16 ∧ ¬(k.ctx = c.val ∧ k.sq = j.sq)) →
    spaceOf (j.f 0x18 8) ≠ .host ∨ s.mayMaster (s.ctxPaddock c.val) = true →
    Completes (.cvuRun c host) s fun t =>
      (∃ k ∈ (t.ctx c.val).jobs, k.sq = j.sq ∧ k.started = true) ∧ t.bit (Reg.CVU_STATUS (j.f 0x10 1 % 16)) 0 = true
        ∧ ∃ k ∈ t.im.jobs, k.ctx = c.val ∧ k.sq = j.sq ∧ k.running = true)

/-- Engines end their jobs (R146, R148, R152, R354, R441, R442): a copy between device memories that nothing stops leaves the source's bytes at the
destination and its job ended; a play whose last sample has entered, a capture whose last sample is written and a CVU run that
nothing stops end their jobs; a job that has run to its limit ends.
Where a clause rests on a reading of the model, log entries 46, 51 and 52 give it. -/
def Obligations.EnginesEndJobs : Prop :=
  (∀ (s : State) (c : Fin 1024) (host : List (Nat × Byte)) (j : Job), (s.ctx c.val).jobs.find? (fun j => j.started && j.typ == 3 && !s.readsWait c.val j.sq) = some j →
    (s.copyReach c.val j).2 = none → Completes (.copyDone c host) s fun t => ∀ k ∈ (t.ctx c.val).jobs, k.sq ≠ j.sq)
  ∧ (∀ (s : State) (c : Fin 1024) (j : Job) (n : Nat) (host : List (Nat × Byte)), j.f 0x24 1 % 2 = 0 → 0 < n → s.mem.bad = [] →
    spaceOf (j.f 0x10 8) = .dram → spaceOf (j.f 0x18 8) = .basin →
    s.refusedIn .job (s.ctxPaddock c.val) true .basin (localOf (j.f 0x18 8)) n = none →
    (s.copyRun c.val j host n).bytes .basin (localOf (j.f 0x18 8)) n = s.bytes .dram (localOf (j.f 0x10 8)) n
      ∧ (∀ b, (s.copyRun c.val j host n).byte .dram b = s.byte .dram b)
      ∧ (∀ b, b < localOf (j.f 0x18 8) ∨ localOf (j.f 0x18 8) + n ≤ b → (s.copyRun c.val j host n).byte .basin b = s.byte .basin b))
  ∧ (∀ (s : State) (c : Fin 1024) (p : PlayJob) (j : Job), s.aud.plays.find? (fun p => p.ctx == c.val) = some p → s.job c.val p.sq = some j →
    j.f 0x14 4 ≤ p.entered → Completes (.audioBufferPlayDone c) s fun t =>
      (∀ k ∈ (t.ctx c.val).jobs, k.sq ≠ p.sq) ∧ ∀ q ∈ t.aud.plays, ¬(q.ctx = c.val ∧ q.sq = p.sq))
  ∧ (∀ (s : State) (c : Fin 1024) (p : CaptJob) (j : Job), s.aud.caps.find? (fun p => p.ctx == c.val) = some p → s.job c.val p.sq = some j →
    j.f 0x14 4 ≤ p.written → Completes (.audioCaptureDone c) s fun t =>
      (∀ k ∈ (t.ctx c.val).jobs, k.sq ≠ p.sq) ∧ ∀ q ∈ t.aud.caps, ¬(q.ctx = c.val ∧ q.sq = p.sq))
  ∧ (∀ (s : State) (c : Fin 1024) (host : List (Nat × Byte)) (k : CvuJob) (j : Job), s.im.jobs.find? (fun k => k.ctx == c.val && k.running) = some k →
    s.job c.val k.sq = some j → (s.reach c.val 0x18 (j.f 0x18 8) (j.f 0x14 4) false).2 = none → (j.f 0x11 1).testBit 1 = false →
    Completes (.cvuRunDone c host) s fun t => (∀ i ∈ (t.ctx c.val).jobs, i.sq ≠ k.sq) ∧ ∀ i ∈ t.im.jobs, ¬(i.ctx = c.val ∧ i.sq = k.sq))
  ∧ (∀ (s : State) (c : Fin 1024) (j : Job), s.ctxState c.val = 1 ∨ s.ctxState c.val = 2 →
    (s.ctx c.val).jobs.find? (fun j => j.started && decide (s.runLimit c.val * 1000000 ≤ s.ranNs c.val j)) = some j →
    Completes (.runLimitExpiry c) s fun t => ∀ k ∈ (t.ctx c.val).jobs, k.sq ≠ j.sq)

/-- Integer instructions and MOV (R238; Table 9.11): what each gives a lane from its operands a, b and c, modulo 2^32; MIN and MAX compare
as signed unless mod is 1, a shift takes b modulo 32, and IADD and ISUB with sat hold the signed range. -/
def Obligations.JetIntegerInstructions : Prop :=
  Gives .jMov 0x10 (fun _ _ b _ => b)
  ∧ Gives .jIadd 0x11 (fun i a b _ => if i.mod = 4 then toSigned 32 (max (-(2 ^ 31)) (min (2 ^ 31 - 1) (signedOf 32 a + signedOf 32 b))) else a + b)
  ∧ Gives .jIsub 0x12 (fun i a b _ => if i.mod = 4 then toSigned 32 (max (-(2 ^ 31)) (min (2 ^ 31 - 1) (signedOf 32 a - signedOf 32 b)))
      else (((a : Int) - (b : Int)) % 2 ^ 32).toNat)
  ∧ Gives .jImul 0x13 (fun _ a b _ => a * b) ∧ Gives .jImula 0x16 (fun _ a b c => a * b + c)
  ∧ Gives .jImulhi 0x14 (fun _ a b _ => toSigned 32 (signedOf 32 a * signedOf 32 b / 2 ^ 32))
  ∧ Gives .jUmulhi 0x15 (fun _ a b _ => a * b / 2 ^ 32)
  ∧ Gives .jAnd 0x17 (fun _ a b _ => a &&& b) ∧ Gives .jOr 0x18 (fun _ a b _ => a ||| b) ∧ Gives .jXor 0x19 (fun _ a b _ => a ^^^ b)
  ∧ Gives .jShl 0x1A (fun _ a b _ => a * 2 ^ (b % 32)) ∧ Gives .jShr 0x1B (fun _ a b _ => a / 2 ^ (b % 32))
  ∧ Gives .jSar 0x1C (fun _ a b _ => toSigned 32 (signedOf 32 a / 2 ^ (b % 32)))
  ∧ Gives .jMin 0x1D (fun i a b _ => if (if i.mod = 1 then a ≤ b else signedOf 32 a ≤ signedOf 32 b) then a else b)
  ∧ Gives .jMax 0x1E (fun i a b _ => if (if i.mod = 1 then a ≤ b else signedOf 32 a ≤ signedOf 32 b) then b else a)
  ∧ Gives .jBit 0x1F (fun i a b c => if i.mod = 0 then popc b else if i.mod = 1 then 32 - bitLen b else if i.mod = 2 then brev b
      else a / 2 ^ (b % 32) % 2 ^ (c % 64))

/-- Floating-point, transcendental and conversion instructions (R239, R240; Tables 9.11, 9.12): each lane takes the operation's result on
its operands; with sat every result stands for a number of [0, 1]; an operation of which an operand is a NaN gives the one NaN of R239, and the
compares with it are false but NE and UNO; FMIN and FMAX take the other operand; NaN converts to 0; and the transcendental
functions give the values that the manual names for zeros, infinities and NaN.
Where a clause rests on a reading of the model, log entries 26, 27 and 79 give it. -/
def Obligations.JetFloatInstructions : Prop :=
  (Gives .jFadd 0x20 aluFadd ∧ Gives .jFsub 0x21 aluFsub ∧ Gives .jFmul 0x22 aluFmul ∧ Gives .jFma 0x23 aluFma
    ∧ Gives .jFmin 0x24 aluFmin ∧ Gives .jFmax 0x25 aluFmax ∧ Gives .jFround 0x26 aluFround ∧ Gives .jFfrac 0x27 aluFfrac
    ∧ Gives .jHpadd 0x30 aluHpadd ∧ Gives .jHpmul 0x31 aluHpmul ∧ Gives .jHpfma 0x32 aluHpfma ∧ Gives .jHpmin 0x33 aluHpmin
    ∧ Gives .jHpmax 0x34 aluHpmax)
  ∧ (Gives .jRcp 0x40 (fun _ _ b _ => transc 0x40 b) ∧ Gives .jRsq 0x41 (fun _ _ b _ => transc 0x41 b)
    ∧ Gives .jSqrt 0x42 (fun _ _ b _ => transc 0x42 b) ∧ Gives .jExp2 0x43 (fun _ _ b _ => transc 0x43 b)
    ∧ Gives .jLog2 0x44 (fun _ _ b _ => transc 0x44 b) ∧ Gives .jSinpi 0x45 (fun _ _ b _ => transc 0x45 b)
    ∧ Gives .jCospi 0x46 (fun _ _ b _ => transc 0x46 b))
  ∧ (Gives .jF2i 0x50 aluF2i ∧ Gives .jF2u 0x51 aluF2u ∧ Gives .jI2f 0x52 aluI2f ∧ Gives .jU2f 0x53 aluU2f
    ∧ Gives .jFpackh 0x54 aluFpackh ∧ Gives .jHunpl 0x55 aluHunpl ∧ Gives .jHunph 0x56 aluHunph)
  ∧ (∀ w, ∃ q, f32.rat? (f32.sat w) = some q ∧ 0 ≤ q ∧ q ≤ 1)
  ∧ (∀ m a b, f32.isNan a = true ∨ f32.isNan b = true → f32.add m a b = 0x7FC00000 ∧ f32.mul m a b = 0x7FC00000)
  ∧ (∀ m a b c, f32.isNan a = true ∨ f32.isNan b = true ∨ f32.isNan c = true → f32.fma m a b c = 0x7FC00000)
  ∧ (∀ a b, f32.isNan a = true → f32.isNan b = false → f32.min a b = b ∧ f32.max a b = b ∧ f32.min b a = b ∧ f32.max b a = b)
  ∧ (∀ k a b, f32.isNan a = true ∨ f32.isNan b = true → fpCmp k a b = (k == 1 || k == 7))
  ∧ (∀ m lo hi a, f32.isNan a = true → f2int m lo hi a = 0)
  ∧ (∀ op a, f32.isNan a = true → transc op a = 0x7FC00000)
  ∧ transc 0x40 0 = 0x7F800000 ∧ transc 0x40 0x80000000 = 0xFF800000 ∧ transc 0x41 0 = 0x7F800000
  ∧ transc 0x42 0x7F800000 = 0x7F800000 ∧ transc 0x42 0x80000000 = 0x80000000 ∧ transc 0x44 0 = 0xFF800000
  ∧ transc 0x43 0x7F800000 = 0x7F800000 ∧ transc 0x43 0xFF800000 = 0

/-- Compares, predicate and lane instructions (R223, R241, R242; Tables 9.11, 9.13): the bit or word that each active lane takes, and
the words of the other lanes that the lane instructions read; LRED combines the active lanes alone; SRG gives the special register that x names and
a read of CLOCK_LO captures CLOCK_HI for the team's next read of it.
Where a clause rests on a reading of the model, log entry 79 gives it. -/
def Obligations.JetPredicateAndLaneInstructions : Prop :=
  (GivesBit .jFcmp 0x60 (fun i _ a b => fpCmp i.mod a b)
    ∧ GivesBit .jIcmp 0x61 (fun i _ a b => intCmp i.mod (signedOf 32 a) (signedOf 32 b))
    ∧ GivesBit .jUcmp 0x62 (fun i _ a b => intCmp i.mod a b)
    ∧ GivesBit .jPand 0x63 (fun _ _ a b => decide (a = 1 ∧ b = 1)) ∧ GivesBit .jPor 0x64 (fun _ _ a b => decide (a = 1 ∨ b = 1))
    ∧ GivesBit .jPxor 0x65 (fun _ _ a b => decide (a ≠ b)) ∧ GivesBit .jPnot 0x66 (fun _ _ _ b => decide (b = 0))
    ∧ GivesBit .jPput 0x69 (fun _ l _ b => b.testBit l))
  ∧ Gives .jPick 0x67 (fun _ a b c => if c % 2 = 1 then a else b)
  ∧ Issues .jPget 0x68 (fun _ _ t i u => t.gets u i fun _ => t.pred (i.a - 0xC0))
  ∧ (∀ a b, (intCmp 0 a b = true ↔ a = b) ∧ (intCmp 1 a b = true ↔ a ≠ b) ∧ (intCmp 2 a b = true ↔ a < b) ∧ (intCmp 3 a b = true ↔ a ≤ b)
      ∧ (intCmp 4 a b = true ↔ b < a) ∧ (intCmp 5 a b = true ↔ b ≤ a))
  ∧ Issues .jLxch 0x70 (fun _ _ t i u => t.gets u i (t.exchange i) ∧ ∀ l, l < 16 →
      (i.mod = 0 → t.present.testBit (t.b i l % 16) = true → t.exchange i l = t.a i 0 (t.b i l % 16))
      ∧ (i.mod = 0 → t.present.testBit (t.b i l % 16) = false → t.exchange i l = 0)
      ∧ (i.mod = 2 → t.b i l < 2 ^ 31 → l < t.b i l → t.exchange i l = t.a i 0 l)
      ∧ (i.mod = 2 → t.b i l ≤ l → t.present.testBit (l - t.b i l) = true → t.exchange i l = t.a i 0 (l - t.b i l)))
  ∧ Issues .jQdx 0x71 (fun _ _ t i u => t.gets u i fun l => f32.add 0 (t.a i 0 (l / 4 * 4 + 1)) (f32.neg (t.a i 0 (l / 4 * 4))))
  ∧ Issues .jQdy 0x72 (fun _ _ t i u => t.gets u i fun l => f32.add 0 (t.a i 0 (l / 4 * 4 + 2)) (f32.neg (t.a i 0 (l / 4 * 4))))
  ∧ Issues .jLred 0x73 (fun _ _ t i u => t.gets u i (fun _ => t.reduce i)
      ∧ (i.mod = 0 → t.reduce i = (((List.range 16).filter (t.active i)).map (t.a i 0)).sum % 2 ^ 32)
      ∧ (i.mod = 5 → ∀ l, l < 16 → t.active i l = true → t.a i 0 l ≤ t.reduce i)
      ∧ (i.mod = 4 → ∀ l, l < 16 → t.active i l = true → t.reduce i ≤ t.a i 0 l)
      ∧ (i.mod = 2 ∨ i.mod = 3 → (∃ l < 16, t.active i l = true) → (∀ l < 16, t.active i l = true → f32.isNan (t.a i 0 l) = true) →
          t.reduce i = 0x7FC00000))
  ∧ Issues .jLread 0x74 (fun _ _ t i u => t.gets u i fun _ => t.a i 0 (t.b i 0 % 16))
  ∧ Issues .jSrg 0x75 (fun s j t i u =>
      t.gets ({ u with clockHi := t.clockHi } : Team) i (fun l => s.special j t (i.x % 256) l)
      ∧ u.clockHi = (if i.x % 256 = 0x14 then some (s.jetClocks / 2 ^ 32 % 2 ^ 32) else if i.x % 256 = 0x15 then none else t.clockHi))
  ∧ (∀ (s : State) (j : JetJob) (t : Team) (l : Nat),
      s.special j t 0 l = l ∧ s.special j t 1 l = t.no ∧ s.special j t 2 l = t.present ∧ s.special j t 0x14 l = s.jetClocks % 2 ^ 32
        ∧ s.special j t 0x15 l = t.clockHi.getD (s.jetClocks / 2 ^ 32 % 2 ^ 32)
        ∧ (t.stage = 3 → s.special j t 4 l = t.wg % j.gx ∧ s.special j t 5 l = t.wg / j.gx % j.gy
          ∧ s.special j t 6 l = t.wg / (j.gx * j.gy) ∧ s.special j t 7 l = j.gx ∧ s.special j t 8 l = j.gy ∧ s.special j t 9 l = j.gz
          ∧ s.special j t 0x0A l = 16 * t.no + l ∧ s.special j t 0x0B l = 0)
        ∧ (t.stage = 1 → s.special j t 0x0B l = t.ids.getD l 0))

/-- Control instructions and the end of a team (R223, R236, R237, R244, R249, R252; Table 9.11): NOP and MVIS go on; BRA branches as its mod
and guard say; CALL links and RET returns; DROP uncovers the active lanes; WSYNC waits until every team of its workgroup waits or has ended; END ends a
team, and the last of a vertex batch or a pixel team frees what it held; where the depth test that END makes
finds an uncorrectable error in the tile buffer (tb), the jet retires with cause 1.
Where a clause rests on a reading of the model, log entry 78 gives it. -/
def Obligations.JetControlInstructions : Prop :=
  Issues .jNop 0x00 (fun _ _ t _ u => u = { t with pc := t.pc + 1 })
  ∧ Issues .jMvis 0x07 (fun _ _ t _ u => u = { t with pc := t.pc + 1 })
  ∧ Issues .jBra 0x01 (fun _ _ t i u => u = { t with pc := u.pc } ∧
      (i.mod = 0 ∨ (i.mod = 1 ∧ ∃ l < 16, t.active i l = true) ∨ (i.mod = 2 ∧ ∀ l < 16, t.present.testBit l = true → t.active i l = true)
        ∨ (i.mod = 3 ∧ ∀ l < 16, t.active i l = false) → u.pc = ((t.pc : Int) + 1 + signedOf 32 i.imm32).toNat)
      ∧ ((i.mod = 1 ∧ ∀ l < 16, t.active i l = false) ∨ (i.mod = 2 ∧ ∃ l < 16, t.present.testBit l = true ∧ t.active i l = false)
        ∨ (i.mod = 3 ∧ ∃ l < 16, t.active i l = true) → u.pc = t.pc + 1))
  ∧ Issues .jCall 0x02 (fun _ _ t i u => u.pc = ((t.pc : Int) + 1 + signedOf 32 i.imm32).toNat
      ∧ t.gets ({ u with pc := t.pc + 1 } : Team) i fun _ => t.pc + 1)
  ∧ Issues .jRet 0x03 (fun _ _ t i u => u = { t with pc := t.a i 0 0 })
  ∧ (∀ k n, Waits (.jDrop k n) k.val n.val 0x05 ∧ ∀ s j t i, s.ready k.val n.val 0x05 false = .go j t i →
      ((∃ q ∈ t.dropped i, ∃ m ∈ q.cov, m ≠ 0) → Completes (.jDrop k n false) s fun s' =>
        Issued s s' k.val n.val { t with pc := t.pc + 1, quads := t.dropped i })
      ∧ ((∀ q ∈ t.dropped i, ∀ m ∈ q.cov, m = 0) → Completes (.jDrop k n false) s fun s' =>
        s' = { s with ja := { s.ja with jets := s'.ja.jets } } ∧ ∀ m, m ≠ k.val → s'.jet m = s.jet m)
      ∧ ∀ l < 4 * t.quads.length, l < 16 → ((t.dropped i).getD (l / 4) ⟨0, 0, 0, [], []⟩).cov.getD (l % 4) 0 =
          if t.active i l then 0 else t.covOf l)
  ∧ (∀ k n, Waits (.jWsync k n) k.val n.val 0x06 ∧ ∀ s j t i, s.ready k.val n.val 0x06 false = .go j t i → t.stage = 3 →
      Completes (.jWsync k n false) s fun s' => s' = { s with ja := { s.ja with jets := s'.ja.jets } }
        ∧ (∀ m, m ≠ k.val → s'.jet m = s.jet m)
        ∧ ((∃ v ∈ (s.jet k.val).teams, v.1 ≠ n.val ∧ v.2.stage = 3 ∧ v.2.wg = t.wg ∧ v.2.waiting = false ∧ v.2.ended = false) →
          (s'.jet k.val).team n.val = some { t with pc := t.pc + 1, waiting := true })
        ∧ ((∀ v ∈ (s.jet k.val).teams, v.1 ≠ n.val → v.2.stage = 3 → v.2.wg = t.wg → v.2.waiting = true ∨ v.2.ended = true) →
          (s'.jet k.val).team n.val = some { t with pc := t.pc + 1, waiting := false }
            ∧ ∀ v ∈ (s'.jet k.val).teams, v.2.stage = 3 → v.2.wg = t.wg → v.2.waiting = false))
  ∧ (∀ k n tb, Waits (fun b => .jEnd k n b tb) k.val n.val 0x04 ∧ ∀ s j t i, s.ready k.val n.val 0x04 false = .go j t i →
      (t.stage = 1 → (∃ v ∈ (s.jet k.val).teams, v.1 ≠ n.val ∧ v.2.ended = false) → Completes (.jEnd k n false tb) s fun s' =>
        Issued s s' k.val n.val { t with ended := true, flights := [] })
      ∧ (t.stage = 1 → (∀ v ∈ (s.jet k.val).teams, v.1 ≠ n.val → v.2.ended = true) → Completes (.jEnd k n false tb) s fun s' =>
        (s'.jet k.val).holds = .nothing ∧ (s'.jet k.val).teams = [] ∧ s'.mem = s.mem ∧ s'.evr = s.evr)
      ∧ (t.stage = 2 → tb = true → j.pass.depth.isSome = true → Completes (.jEnd k n false tb) s fun s' => s' = s.retireJet k.val 1 none)
      ∧ (t.stage = 2 → tb = false ∨ j.pass.depth = none → Completes (.jEnd k n false tb) s fun s' =>
        s' = { s with ja := { s.ja with jets := s'.ja.jets } } ∧ ∀ m, m ≠ k.val → s'.jet m = s.jet m)
      ∧ (t.stage = 3 → Completes (.jEnd k n false tb) s fun s' => s' = { s with ja := { s.ja with jets := s'.ja.jets } }
        ∧ (∀ m, m ≠ k.val → s'.jet m = s.jet m)
        ∧ ∃ u, (s'.jet k.val).team n.val = some u ∧ u.ended = true ∧ u.flights = []))

/-- Loads and stores of the jets (R235, R243–R245, R253; Table 9.11): a load whose lanes lie inside its slot goes in flight with the bytes
read and writes its registers when it returns; a lane outside reads zeros, or stores nothing, with one record a job; a store leaves every byte
outside its lanes' ranges alone; an atomic gives each lane the old word and stores the operation's; an access that the owner table
refuses ends the job with a fault.
Where a clause rests on a reading of the model, log entry 80 gives it. -/
def Obligations.JetMemoryInstructions : Prop :=
  (∀ host k n, Waits (fun b => .jGld k n b host) k.val n.val 0x80 ∧ ∀ s j t i, s.ready k.val n.val 0x80 false = .go j t i →
    (∀ base size b, j.bufferSlot i = (base, size) → accessBytes i.mod = b →
      (t.inside i b size → s.rangesStop j.ctx false ((t.lanes i).map fun l => (base + t.offset i b l, b)) = none →
        Completes (.jGld k n false host) s fun s' => ∃ u,
          Issued (s.touchRanges ((t.lanes i).map fun l => (base + t.offset i b l, b))) s' k.val n.val u
          ∧ t.loading u i (i.nd j.pass) fun l => if t.offset i b l + b ≤ size
              then loadWords i.mod (s.bufRead host (base + t.offset i b l) b) else List.replicate (i.nd j.pass) 0)
      ∧ ((∀ l ∈ t.lanes i, size < t.offset i b l + b) → t.lanes i ≠ [] → j.rangeDone = false →
        Completes (.jGld k n false host) s fun s' => s'.mem = s.mem
          ∧ (∃ u, (s'.jet k.val).team n.val = some u ∧ t.loading u i (i.nd j.pass) fun l => if t.offset i b l + b ≤ size
              then loadWords i.mod (s.bufRead host (base + t.offset i b l) b) else List.replicate (i.nd j.pass) 0)
          ∧ s'.evr.offered = s.evr.offered ++ [mkRec 0x062A [(16, j.ctx), (8, i.slotNo), (8, t.entry)] s.clk.stm])
      ∧ (∀ st d, t.inside i b size → s.rangesStop j.ctx false ((t.lanes i).map fun l => (base + t.offset i b l, b)) = some (st, d) →
        Completes (.jGld k n false host) s fun s' => s' = s.faultAt j.ctx j.sq st d 0)))
  ∧ (∀ host k n, Waits (fun b => .jCld k n b host) k.val n.val 0x83 ∧ ∀ s j t i, s.ready k.val n.val 0x83 false = .go j t i →
    ∀ base b, base = j.prog.addr + j.prog.constOff → accessBytes i.mod = b → t.inside i b j.prog.constBytes →
      s.rangesStop j.ctx false ((t.lanes i).map fun l => (base + t.offset i b l, b)) = none →
      Completes (.jCld k n false host) s fun s' => ∃ u,
        Issued (s.touchRanges ((t.lanes i).map fun l => (base + t.offset i b l, b))) s' k.val n.val u
        ∧ t.loading u i (i.nd j.pass) fun l => if t.offset i b l + b ≤ j.prog.constBytes
            then loadWords i.mod (s.bufRead host (base + t.offset i b l) b) else List.replicate (i.nd j.pass) 0)
  ∧ (∀ k n, Waits (.jGst k n) k.val n.val 0x81 ∧ ∀ s j t i, s.ready k.val n.val 0x81 false = .go j t i →
    ∀ base size b, j.bufferSlot i = (base, size) → accessBytes i.mod = b →
      (∀ l, l < 16 → t.active i l = true → t.offset i b l + b ≤ size) →
      ∀ runs, runs = ((List.range 16).filter (t.active i)).map (fun l => (base + t.offset i b l, t.storeBytes i b l)) →
      (∀ d, s.runsRefused j.ctx runs = some d → Completes (.jGst k n false) s fun s' => s' = s.faultAt j.ctx j.sq 0x20 d 0)
      ∧ (s.runsRefused j.ctx runs = none → (s.jobRuns j.ctx runs).2 = none → Completes (.jGst k n false) s fun s' => s'.regs = s.regs ∧ s'.evr = s.evr ∧ s'.ja.jobs = s.ja.jobs
        ∧ (s'.jet k.val).team n.val = some { t with pc := t.pc + 1 }
        ∧ (∀ m a, (∀ l, l < 16 → t.active i l = true → (spaceOf (base + t.offset i b l) ≠ (match m with | .dram => .dram | .basin => .basin))
            ∨ a < localOf (base + t.offset i b l) ∨ localOf (base + t.offset i b l) + b ≤ a) → s'.byte m a = s.byte m a)
        ∧ ∀ l, l < 16 → t.active i l = true → (∀ m, l < m → m < 16 → t.active i m = false) → s.mem.bad = [] →
          ∀ m, spaceOf (base + t.offset i b l) = (match m with | .dram => .dram | .basin => .basin) →
            ∀ q (h : q < (t.storeBytes i b l).length), s'.byte m (localOf (base + t.offset i b l) + q) = (t.storeBytes i b l)[q]))
  ∧ (∀ host k n, Waits (fun b => .jGatom k n b host) k.val n.val 0x82 ∧ ∀ s j t i, s.ready k.val n.val 0x82 false = .go j t i →
    ∀ base size l, j.bufferSlot i = (base, size) → t.lanes i = [l] → t.offset { i with mod := 2 } 4 l + 4 ≤ size →
      s.rangesStop j.ctx true [(base + t.offset { i with mod := 2 } 4 l, 4)] = none →
      s.rangesStop j.ctx false [(base + t.offset { i with mod := 2 } 4 l, 4)] = none →
      Completes (.jGatom k n false host) s fun s' => s'.evr = s.evr ∧ s'.ja.jobs = s.ja.jobs
        ∧ (∃ u, (s'.jet k.val).team n.val = some u ∧ t.loading u i 1 fun m => [if m = l
            then ofLeBytes (s.bufRead host (base + t.offset { i with mod := 2 } 4 l) 4) else 0])
        ∧ s'.mem = (s.bufWrite (s.ctxPaddock j.ctx) (base + t.offset { i with mod := 2 } 4 l) (leBytes 4 (atomOp i.mod
            (ofLeBytes (s.bufRead host (base + t.offset { i with mod := 2 } 4 l) 4)) (t.b i l) (t.c i l)))).mem)
  ∧ (∀ old b c, old < 2 ^ 32 → b < 2 ^ 32 → atomOp 0 old b c = (old + b) % 2 ^ 32 ∧ atomOp 6 old b c = b
      ∧ atomOp 7 old b c = (if old = c then b else old) ∧ signedOf 32 (atomOp 1 old b c) = min (signedOf 32 old) (signedOf 32 b)
      ∧ signedOf 32 (atomOp 2 old b c) = max (signedOf 32 old) (signedOf 32 b))
  ∧ (∀ k n tb, Waits (fun b => .jShld k n b tb) k.val n.val 0x90 ∧ ∀ s j t i, s.ready k.val n.val 0x90 false = .go j t i →
    ∀ b, accessBytes i.mod = b → t.inside i b (j.entryOf t.entry).shared →
      Completes (.jShld k n false tb) s fun s' => if tb then s' = s.retireJet k.val 1 none else ∃ u, Issued s s' k.val n.val u
        ∧ t.loading u i (i.nd j.pass) fun l => if t.offset i b l + b ≤ (j.entryOf t.entry).shared
            then loadWords i.mod (getBytes ((s.jet k.val).shared t.wg) (t.offset i b l) b) else List.replicate (i.nd j.pass) 0)
  ∧ (∀ k n, Waits (.jShst k n) k.val n.val 0x91 ∧ ∀ s j t i, s.ready k.val n.val 0x91 false = .go j t i →
    ∀ b c q ws, accessBytes i.mod = b → (s.jet k.val).holds = .groups c q ws → (∃ w ∈ ws, w.idx = t.wg) →
      (∀ l, l < 16 → t.active i l = true → t.offset i b l + b ≤ (j.entryOf t.entry).shared) →
      Completes (.jShst k n false) s fun s' => s' = { s with ja := { s.ja with jets := s'.ja.jets } }
        ∧ (∀ m, m ≠ k.val → s'.jet m = s.jet m) ∧ (s'.jet k.val).team n.val = some { t with pc := t.pc + 1 }
        ∧ (∀ g, g ≠ t.wg → (s'.jet k.val).shared g = (s.jet k.val).shared g)
        ∧ (∀ a, (∀ l, l < 16 → t.active i l = true → a < t.offset i b l ∨ t.offset i b l + b ≤ a) →
          spGet zeroByte ((s'.jet k.val).shared t.wg) a = spGet zeroByte ((s.jet k.val).shared t.wg) a)
        ∧ ∀ l, l < 16 → t.active i l = true → (∀ m, l < m → m < 16 → t.active i m = false) →
          getBytes ((s'.jet k.val).shared t.wg) (t.offset i b l) b = t.storeBytes i b l)
  ∧ (∀ k n tb, Waits (fun b => .jShatom k n b tb) k.val n.val 0x92 ∧ ∀ s j t i, s.ready k.val n.val 0x92 false = .go j t i →
    ∀ c q ws l a old, (s.jet k.val).holds = .groups c q ws → (∃ w ∈ ws, w.idx = t.wg) → t.lanes i = [l] →
      a = t.offset { i with mod := 2 } 4 l → a + 4 ≤ (j.entryOf t.entry).shared → old = ofLeBytes (getBytes ((s.jet k.val).shared t.wg) a 4) →
      Completes (.jShatom k n false tb) s fun s' => if tb then s' = s.retireJet k.val 1 none else
        s' = { s with ja := { s.ja with jets := s'.ja.jets } } ∧ (∃ u, (s'.jet k.val).team n.val = some u ∧ t.loading u i 1 fun m => [if m = l then old else 0])
        ∧ (∀ b, b < a ∨ a + 4 ≤ b → spGet zeroByte ((s'.jet k.val).shared t.wg) b = spGet zeroByte ((s.jet k.val).shared t.wg) b)
        ∧ getBytes ((s'.jet k.val).shared t.wg) a 4 = leBytes 4 (atomOp i.mod old (t.b i l) (t.c i l)))
  ∧ (∀ (k : Fin 64) (n idx : Fin 16) s t f, (s.jet k.val).team n.val = some t → t.flights[idx.val]? = some f →
    Completes (.loadDataReturn k n idx) s fun s' => ∃ u, Issued s s' k.val n.val u
      ∧ u = { t with flights := t.flights.eraseIdx idx.val, regs := u.regs }
      ∧ (∀ m v, (m, v) ∈ f.writes → (∀ w, (m, w) ∈ f.writes → w = v) → spGet (fun _ => 0) u.regs m = v)
      ∧ ∀ m, (∀ w, (m, w) ∉ f.writes) → spGet (fun _ => 0) u.regs m = spGet (fun _ => 0) t.regs m)
  ∧ (∀ (k : Fin 64) (n idx : Fin 16) s, (∀ t, (s.jet k.val).team n.val = some t → t.flights[idx.val]? = none) →
    Completes (.loadDataReturn k n idx) s fun s' => s' = s)

/-- Sampling, tile-buffer and output instructions (R214–R216, R246–R251; Table 9.7): a sample gives its lanes the four words of the texels that it
takes, which always lie in the level; TFETCH outside a level gives zeros; TDIM gives sizes; TBLD waits for older teams of its pixels and reads the
tile buffer, and an uncorrectable error there retires the jet; TBST waits alike and writes the covered samples of its active lanes, in a late entry only at the team's end;
VINT interpolates; OUT and ZOUT keep an output or a depth a lane.
Where a clause rests on a reading of the model, log entries 29 and 80 give it. -/
def Obligations.JetTextureTileAndOutputInstructions : Prop :=
  (∀ c op how cmp, (c, op, how, cmp) ∈ ([(.jSmp, 0xA0, .implicit false, false), (.jSmpl, 0xA1, .level, false), (.jSmpb, 0xA2, .implicit true, false),
      (.jSmpg, 0xA3, .grads, false), (.jSmpc, 0xA4, .implicit false, true)] :
        List ((Fin 64 → Fin 16 → Bool → List (Nat × Byte) → Instr) × Nat × Lod × Bool)) →
    ∀ host k n, Waits (fun b => c k n b host) k.val n.val op ∧ ∀ s j t i, s.ready k.val n.val op false = .go j t i →
      ∀ x all, x = j.texSlot i → all = ((t.lanes i).flatMap fun l => (t.taps i x how l).getD []) →
        s.rangesStop j.ctx false (s.tapRanges host x all) = none →
        Completes (c k n false host) s fun s' => s'.mem = (s.touchRanges (s.tapRanges host x all)).mem ∧ s'.regs = s.regs
          ∧ (s.tapMalformed host x all = [] → s'.evr = s.evr)
          ∧ ∃ u w, (s'.jet k.val).team n.val = some u ∧ t.loading u i 4 w
            ∧ ∀ l ps, t.taps i x how l = some ps → w l = s.sampleWords host x (if cmp = true then some (t.a i 2 l) else none) ps)
  ∧ (∀ mode n i x, 0 < n → texAddr mode n i = some x → x < n)
  ∧ (∀ (n : Nat) (i : Int), 0 ≤ i → i < n → texAddr 0 n i = some i.toNat ∧ texAddr 1 n i = some i.toNat ∧ texAddr 2 n i = some i.toNat
      ∧ texAddr 3 n i = some i.toNat ∧ texAddr 4 n i = some i.toNat)
  ∧ (∀ host k n, Waits (fun b => .jTfetch k n b host) k.val n.val 0xA5 ∧ ∀ s j t i, s.ready k.val n.val 0xA5 false = .go j t i →
      ∀ x all, x = j.texSlot i → all = (t.lanes i).filterMap (t.fetchTap i x) →
        s.rangesStop j.ctx false (s.tapRanges host x all) = none →
        Completes (.jTfetch k n false host) s fun s' => s'.mem = (s.touchRanges (s.tapRanges host x all)).mem ∧ s'.regs = s.regs
          ∧ ∃ u w, (s'.jet k.val).team n.val = some u ∧ t.loading u i 4 w ∧ ∀ l,
            (t.a i 2 l < x.levels ∧ t.a i 0 l < levelSize x.width (t.a i 2 l) ∧ t.a i 1 l < levelSize x.height (t.a i 2 l) →
              w l = s.texelWords host x ⟨1, t.a i 2 l, some (t.a i 0 l, t.a i 1 l)⟩)
            ∧ (x.levels ≤ t.a i 2 l ∨ levelSize x.width (t.a i 2 l) ≤ t.a i 0 l ∨ levelSize x.height (t.a i 2 l) ≤ t.a i 1 l → w l = [0, 0, 0, 0]))
  ∧ Issues .jTdim 0xA6 (fun _ j t i u => t.loading u i 3 fun l =>
      [levelSize (j.texSlot i).width (t.b i l), levelSize (j.texSlot i).height (t.b i l), (j.texSlot i).levels])
  ∧ (∀ k n, Waits (fun b => .jTbld k n b false) k.val n.val 0xB0 ∧ ∀ s j t i run, s.ready k.val n.val 0xB0 false = .go j t i →
      (s.jet k.val).holds = .tile run →
      Completes (.jTbld k n false true) s (fun s' => s' = s.retireJet k.val 1 none)
      ∧ ((s.jet k.val).olderMeets n.val t true = true → Completes (.jTbld k n false false) s fun s' => s' = s)
      ∧ ((s.jet k.val).olderMeets n.val t true = false → Completes (.jTbld k n false false) s fun s' => ∃ u, Issued s s' k.val n.val u
        ∧ t.loading u i (i.nd j.pass) (t.tileWords i j.pass ((j.entryOf t.entry).flags.testBit 2) run.buf (j.pass.origin run.item.idx))))
  ∧ (∀ k n, Waits (fun b => .jTbst k n b false) k.val n.val 0xB1 ∧ ∀ s j t i run ws, s.ready k.val n.val 0xB1 false = .go j t i →
      (s.jet k.val).holds = .tile run → ws = t.tileWrites i j.pass ((j.entryOf t.entry).flags.testBit 2) run.buf (j.pass.origin run.item.idx) →
      Completes (.jTbst k n false true) s (fun s' => s' = s.retireJet k.val 1 none)
      ∧ ((s.jet k.val).olderMeets n.val t false = true → Completes (.jTbst k n false false) s fun s' => s' = s)
      ∧ ((s.jet k.val).olderMeets n.val t false = false → (j.entryOf t.entry).early = true → Completes (.jTbst k n false false) s fun s' =>
        s' = { s with ja := { s.ja with jets := s'.ja.jets } } ∧ (s'.jet k.val).team n.val = some { t with pc := t.pc + 1 }
          ∧ ∃ run', (s'.jet k.val).holds = .tile run' ∧ run'.item = run.item ∧ run'.prims = run.prims ∧ run'.quads = run.quads
            ∧ ∀ key, (∀ w ∈ ws, w.1 ≠ key ∧ 8 * 2 ^ 20 + w.1 % 2 ^ 20 ≠ key) →
              spGet (fun _ => 0) run'.buf key = spGet (fun _ => 0) run.buf key)
      ∧ ((s.jet k.val).olderMeets n.val t false = false → (j.entryOf t.entry).early = false → Completes (.jTbst k n false false) s fun s' => ∃ u, Issued s s' k.val n.val u
          ∧ u = { t with pc := t.pc + 1, held := u.held } ∧ (s'.jet k.val).holds = .tile run
          ∧ ∀ e ∈ t.held, (∀ w ∈ ws, w.1 ≠ e.1) → e ∈ u.held))
  ∧ Issues .jVint 0xC0 (fun _ j t i u => (j.pass.varyings ≤ i.x % 64 → t.gets u i fun _ => 0)
      ∧ (i.x % 64 < j.pass.varyings → i.scalar = false → t.gets u i fun l =>
        (j.prims.getD t.prim {}).interp i.mod (t.pointOf j.pass i.mod l) fun w => w.vary.getD (i.x % 64) 0))
  ∧ Issues .jOut 0xD0 (fun _ _ t i u => u = { t with pc := t.pc + 1, outs := u.outs }
      ∧ (∀ l, l < 16 → t.active i l = true → spGet (fun _ => 0) u.outs (16 * (i.x % 64) + l) = t.b i l)
      ∧ ∀ q, (∀ l, l < 16 → t.active i l = true → q ≠ 16 * (i.x % 64) + l) → spGet (fun _ => 0) u.outs q = spGet (fun _ => 0) t.outs q)
  ∧ Issues .jZout 0xD1 (fun _ _ t i u => u = { t with pc := t.pc + 1, zout := u.zout }
      ∧ (∀ l, l < 16 → t.active i l = true → t.covOf l ≠ 0 → u.zout.find? (fun e => e.1 == l) = some (l, t.b i l))
      ∧ ∀ l, (16 ≤ l ∨ t.active i l = false ∨ t.covOf l = 0) → u.zout.find? (fun e => e.1 == l) = t.zout.find? fun e => e.1 == l)

/-- Geometry of a jets job (R198, R199, R203, R204, R206, R209): a waiting job takes the lowest free home string that its class may take, and a
compute job's workgroups are queued there in order; a draw record that passes its checks becomes the current draw; a vertex batch goes to an idle jet;
a placed primitive is appended, and one without room begins a spill; the end of the geometry phase queues the tiles in order; and the next round begins once a spilled
round is written.
Where a clause rests on a reading of the model, log entries 28, 81 and 83 give it. -/
def Obligations.JetGeometryPhase : Prop :=
  (∀ (s : State), (s.jaOn = false ∨ ∀ j ∈ s.ja.jobs, j.phase ≠ 1) → Completes .homeStringAssign s fun s' => s' = s)
  ∧ (∀ (s : State) (j : JetJob) (n : Nat), s.ja.jobs = [j] → j.phase = 1 → j.home = none → s.ctxClass j.ctx ≠ 2 → s.jaOn = true →
      s.bit Reg.JA_CTRL 0 = true → s.power ≠ 2 → n < 8 → s.ja.strs.length = 8 → (s.str n).dry = false → s.heldStr n = false →
      (∀ m < n, (s.str m).dry = true ∨ s.heldStr m = true) → Completes .homeStringAssign s fun s' =>
        (j.render = true → ∃ k, s'.jjob j.ctx j.sq = some k ∧ k.home = some n ∧ k.phase = 2 ∧ k.heads = [] ∧ k.prims = [])
        ∧ (j.render = false → (s'.str n).queue = (s.str n).queue
          ++ (List.range (min (256 - (s.str n).queue.length) (j.total - j.next))).map fun i => ⟨j.ctx, j.sq, false, j.next + i, 0⟩))
  ∧ (∀ (s : State) (c : Fin 1024) (sq : Nat) (host : List (Nat × Byte)) (j : JetJob) (d : Draw), s.jjob c.val sq = some j → j.phase = 2 →
      j.spilling = false → j.drw = none → j.drawNo < j.pass.draws → s.rangesStop c.val false [(j.pass.draw + 32 * j.drawNo, 32)] = none →
      d = parseDraw (s.bufRead host (j.pass.draw + 32 * j.drawNo) 32) →
      (firstChk (drawChks j d) = none → d.count = 0 → Completes (.drawRecordRead c sq host) s fun s' =>
        s' = { s.touchMem (j.pass.draw + 32 * j.drawNo) 32 with ja := { s.ja with jobs := s'.ja.jobs } }
          ∧ s'.jjob c.val sq = some { j with drawNo := j.drawNo + 1 })
      ∧ (firstChk (drawChks j d) = none → d.count ≠ 0 → (d.flags.testBit 0 = true →
          spaceOf (d.index + d.first * d.indexSize) = .host ∨ s.jobRefused c.val 0x10 (d.index + d.first * d.indexSize) (d.count * d.indexSize) false = none) →
        Completes (.drawRecordRead c sq host) s fun s' =>
          s' = { s.touchMem (j.pass.draw + 32 * j.drawNo) 32 with ja := { s.ja with jobs := s'.ja.jobs } } ∧ s'.jjob c.val sq = some { j with drw := some d, vpos := 0, strip := [], stripN := 0, primId := 0 })
      ∧ (∀ k, firstChk (drawChks j d) = some k → Completes (.drawRecordRead c sq host) s fun s' =>
        s' = (s.touchMem (j.pass.draw + 32 * j.drawNo) 32).faultJob c.val sq 0x21 (k.reason * 256 + 0x10) (32 * j.drawNo + k.off)))
  ∧ (∀ (s : State) (c : Fin 1024) (sq : Nat) (host : List (Nat × Byte)) (j : JetJob) (d : Draw) (k n : Nat) (ids : List (Option Nat)),
      s.jjob c.val sq = some j → j.phase = 2 → j.spilling = false → j.drw = some d → s.ja.jets.length = 64 →
      (s.takers (s.serves (j.home.getD 0)) c.val sq).head? = some k → k < 64 → (∀ b ∈ j.batches, b.jet ≠ none ∨ b.outs ≠ none) →
      n = min 48 (d.count - j.vpos) → 0 < n → ids = s.vertexIds host d j.vpos n → (∃ v ∈ ids, v ≠ none) →
      ∀ ranges, ranges = (if d.flags.testBit 0 = true then [(d.index + (d.first + j.vpos) * d.indexSize, n * d.indexSize)] else []) →
      s.rangesStop c.val false ranges = none →
      Completes (.vertexBatch c sq host) s fun s' => (s'.jet k).holds = .batch c.val sq ∧ (s'.jet k).teams = batchTeams j d ids
        ∧ s'.jjob c.val sq = some { j with vpos := j.vpos + n, batches := j.batches ++ [⟨ids, some k, none⟩] }
        ∧ (∀ m, m ≠ k → s'.jet m = s.jet m) ∧ s'.mem = (s.touchRanges ranges).mem ∧ s'.evr = s.evr)
  ∧ (∀ (s : State) (c : Fin 1024) (sq : Nat) (j : JetJob) (p : Prim), s.jjob c.val sq = some j → j.phase = 2 → j.spilling = false →
      j.pend = [.ready p] → j.prims.length < 2 ^ 24 → s.troughBadWord ((j.pass.overlapped p).map fun t => s.headRange j t.1) = none →
      (recordSize j.pass.varyings + 64 * ((j.pass.overlapped p).filter fun t => (j.head t.1).opens).length ≤ j.high - j.low →
        Completes (.binPrimitive c sq) s fun s' => ∃ k, s'.jjob c.val sq = some k ∧ k.prims = j.prims ++ [p] ∧ k.pend = []
          ∧ k.high = j.high - recordSize j.pass.varyings ∧ k.spilling = false
          ∧ (∀ t, (∀ u ∈ j.pass.overlapped p, u.1 ≠ t) → k.head t = j.head t)
          ∧ ∀ t w, j.pass.overlapped p = [(t, w)] → (k.head t).entries = (j.head t).entries ++ [(j.prims.length, w)])
      ∧ (j.high - j.low < recordSize j.pass.varyings + 64 * ((j.pass.overlapped p).filter fun t => (j.head t.1).opens).length →
        Completes (.binPrimitive c sq) s fun s' => s'.bit Reg.JA_EVENT 2 = true ∧ ∃ k, s'.jjob c.val sq = some k
          ∧ k = { j with spilling := true, spills := j.spills + 1, spillSeq := k.spillSeq }))
  ∧ (∀ (s : State) (c : Fin 1024) (sq : Nat) (host : List (Nat × Byte)) (j : JetJob) (n q : Nat), s.jjob c.val sq = some j → j.phase = 2 →
      j.drw = none → j.pass.draws ≤ j.drawNo → j.pend = [] → j.render = true → j.home = some n → s.homeJob n = some j → 0 < j.total →
      (∀ t < j.total, (j.head t).entries ≠ []) → j.written = [] → j.tornNow = [] → q = s.serves n → q < s.ja.strs.length →
      Completes (.geometryPhaseEnd c sq host) s fun s' => ∃ k, s'.jjob c.val sq = some k ∧ k.phase = 3
        ∧ k.todo = (List.range j.total).drop (256 - (s.str q).queue.length)
        ∧ (s'.str q).queue = (s.str q).queue ++ ((List.range j.total).take (256 - (s.str q).queue.length)).map
          fun t => ⟨j.ctx, j.sq, true, t, j.round⟩)
  ∧ (∀ (s : State) (c : Fin 1024) (sq : Nat) (j : JetJob), s.jjob c.val sq = some j →
      (j.spilling = true → j.roundDone = true → Completes (.roundEnd c sq) s fun s' => ∃ k, s'.jjob c.val sq = some k
        ∧ k.round = j.round + 1 ∧ k.phase = 2 ∧ k.spilling = false ∧ k.heads = [] ∧ k.prims = [] ∧ k.written = [] ∧ k.pend = j.pend)
      ∧ (j.spilling = false ∨ j.roundDone = false → Completes (.roundEnd c sq) s fun s' => s' = s))

/-- Work items of the jets (R206, R207, R210, R211, R217, R222, R228, R254, R271–R273; Tables 8.9, 10.2, 10.3): a workgroup or a tile goes to the jet
that takes it; a siphon moves the younger half of the victim's queue; a finished tile's half goes to the write-out unit, and is written oldest
first, and an uncorrectable error in a tile buffer retires the jet; a workgroup whose teams have ended leaves its jet; the registers in force are those at enable; a code line arrives in the instruction cache; a
stalled jet is retired and its tile queued again in front.
Where a clause rests on a reading of the model, log entries 46 and 83 give it. -/
def Obligations.JetWorkItems : Prop :=
  (∀ (s : State) (n : Fin 8) (host : List (Nat × Byte)) (tb : Bool) (i : Item) (is : List Item) (k : Nat) (j : JetJob), s.jaOn = true →
      s.ja.jets.length = 64 → (s.str n.val).queue = i :: is → s.takerOf n.val i = some k → s.jjob i.ctx i.sq = some j →
      (i.tile = false → Completes (.dispatch n host tb) s fun s' => (∃ l, (s'.str n.val).queue = is ++ l)
        ∧ (s'.jet k).holds = .groups i.ctx i.sq ((match (s.jet k).holds with | .groups _ _ ws => ws | _ => [])
          ++ [{ idx := i.idx, start := s.clk.stm }])
        ∧ (s'.jet k).teams.length = (s.jet k).teams.length + (j.entryOf 0).teams ∧ ∀ m, m ≠ k → s'.jet m = s.jet m)
      ∧ (i.tile = true → (∀ a ∈ j.pass.atts, j.loadOp a.2 ≠ 0) → s.troughBadWord (s.troughRanges j i.idx) = none →
        (tb = false ∨ j.pass.depth = none → Completes (.dispatch n host tb) s fun s' =>
          (∃ l, (s'.str n.val).queue = is ++ l) ∧ (∃ run, (s'.jet k).holds = .tile run ∧ run.item = i) ∧ ∀ m, m ≠ k → s'.jet m = s.jet m)
        ∧ (tb = true → j.pass.depth ≠ none → Completes (.dispatch n host tb) s fun s' => (s'.jet k).retired = true)))
  ∧ (∀ (s : State) (n : Fin 8) (host : List (Nat × Byte)) (tb : Bool), s.jaOn = false → Completes (.dispatch n host tb) s fun s' => s' = s)
  ∧ (∀ (s : State) (k : Fin 64) (host : List (Nat × Byte)) (tb : Bool), s.bit Reg.JA_SIPHON 0 = false →
      Completes (.siphonSteal k host tb) s fun s' => s' = s)
  ∧ (∀ (s : State) (k : Fin 64) (host : List (Nat × Byte)) (tb : Bool) (n v : Nat) (i : Item) (is q : List Item) (j : JetJob), s.jaOn = true →
      s.bit Reg.JA_SIPHON 0 = true → s.jetIdle k.val = true → (s.jet k.val).lent = none → n = k.val / 8 → (s.str n).queue = [] →
      (s.str n).resume = [] → (s.str n).dry = false → s.victim n = some v → q = (s.str v).queue →
      q.drop (q.length - q.length / 2) = i :: is → i.tile = false → s.jjob i.ctx i.sq = some j → s.mayTake k.val i = true →
      s.ja.strs.length = 8 → s.ja.jets.length = 64 → Completes (.siphonSteal k host tb) s fun s' =>
        (s'.str v).queue = q.take (q.length - q.length / 2) ∧ (s'.str n).queue = is ∧ (s'.jet k.val).holds.job = some (i.ctx, i.sq)
          ∧ s'.reg (Reg.JA_STR_STEALS_IN n) = (s.reg (Reg.JA_STR_STEALS_IN n) + 1) % 2 ^ 32
          ∧ s'.reg (Reg.JA_STR_STEALS_OUT v) = (s.reg (Reg.JA_STR_STEALS_OUT v) + 1) % 2 ^ 32)
  ∧ (∀ (s : State) (k : Fin 64) (run : TileRun), (s.jet k.val).holds = .tile run →
      (run.prims = [] → run.quads = [] → (s.jet k.val).teams = [] → s.halves k.val < 2 → s.ja.strs.length = 8 →
        Completes (.tileRetire k none) s fun s' => (s'.jet k.val).holds = .nothing ∧ s'.mem = s.mem ∧ s'.evr = s.evr
          ∧ (s'.str (k.val / 8)).out = (s.str (k.val / 8)).out ++ 
            [{ jet := k.val, item := run.item, buf := run.buf, dirty := run.dirty, origin := (s.jet k.val).origin }])
      ∧ ∀ fail, (run.prims ≠ [] ∨ run.quads ≠ [] ∨ (s.jet k.val).teams ≠ [] ∨ 2 ≤ s.halves k.val) → Completes (.tileRetire k fail) s fun s' => s' = s)
  ∧ (∀ (s : State) (n : Fin 8) (host : List (Nat × Byte)) (o : TileOut) (os : List TileOut) (j : JetJob) (s1 : State) (all : List (Nat × List Byte)),
      (s.str n.val).out = o :: os → s.jjob o.item.ctx o.item.sq = some j → s1 = s.setStr n.val { s.str n.val with out := os } →
      all = (s1.blockWrites host j o.item.idx o.buf o.dirty false).1 ++ j.rowWrites o.item.idx o.buf false
        ++ (s1.blockWrites host j o.item.idx o.buf o.dirty false).2 → j.todo ≠ [] →
      s.runsRefused o.item.ctx all = none → (s.jobRuns o.item.ctx all).2 = none → Completes (.tileWritten n host none) s fun s' =>
        (s'.str n.val).out = os ∧ s'.jjob o.item.ctx o.item.sq = some { j with written := j.written ++ [o.item.idx] }
          ∧ s'.mem = (s.runs (s.ctxPaddock o.item.ctx) all).mem)
  ∧ (∀ (s : State) (n : Fin 8) (host : List (Nat × Byte)) (fail : Option Nat), (s.str n.val).out = [] →
      Completes (.tileWritten n host fail) s fun s' => s' = s)
  ∧ (∀ (s : State) (n : Fin 8) (host : List (Nat × Byte)) (rows : Nat) (o : TileOut) (os : List TileOut) (j : JetJob),
      (s.str n.val).out = o :: os → s.jjob o.item.ctx o.item.sq = some j → o.jet < s.ja.jets.length →
      Completes (.tileWritten n host (some rows)) s fun s' => (s'.jet o.jet).retired = true)
  ∧ (∀ (s : State) (k : Fin 64) (g c sq : Nat) (ws : List Wg) (j : JetJob), (s.jet k.val).holds = .groups c sq ws → (∃ w ∈ ws, w.idx = g) →
      s.jjob c sq = some j → ((∀ u ∈ (s.jet k.val).teams, u.2.wg = g → u.2.ended = true) → j.phase ≠ 5 →
        Completes (.workgroupRetire k g) s fun s' => s'.jjob c sq = some { j with written := j.written ++ [g] }
          ∧ (∀ w ∈ ws, w.idx ≠ g → ∃ ws', (s'.jet k.val).holds = .groups c sq ws' ∧ w ∈ ws')
          ∧ ∀ u ∈ (s'.jet k.val).teams, u.2.wg ≠ g)
      ∧ ((∃ u ∈ (s.jet k.val).teams, u.2.wg = g ∧ u.2.ended = false) → Completes (.workgroupRetire k g) s fun s' => s' = s))
  ∧ (∀ (s : State) (v : Nat), v.testBit 0 = true → s.jaOn = false → s.ja.jobs = [] → s.reg Reg.JA_PRERETIRE_LO = 0 → s.reg Reg.JA_PRERETIRE_HI = 0 →
      Completes (.jaCtrlWrite v) s fun s' => s'.jaOn = true ∧ s'.bit Reg.JA_CTRL 0 = true ∧ s'.ja.force.held = s.fld Reg.JA_HELD 2 0
        ∧ s'.ja.force.maxW = s.fld Reg.JA_MAX_TARGET 15 0 ∧ s'.ja.force.maxH = s.fld Reg.JA_MAX_TARGET 31 16
        ∧ s'.ja.force.saveBase = s.fld Reg.JA_SAVE 10 0 * 65536 ∧ s'.ja.jets = s.ja.jets ∧ s'.mem = s.mem)
  ∧ (∀ (s : State) (v : Nat), v.testBit 0 = false → Completes (.jaCtrlWrite v) s fun s' => s'.bit Reg.JA_CTRL 0 = false
      ∧ ((∀ j ∈ s.ja.jobs, j.phase < 2) → s'.jaOn = false) ∧ ((∃ j ∈ s.ja.jobs, 2 ≤ j.phase) → s'.jaOn = s.jaOn)
      ∧ SameRegs s s' [Reg.JA_CTRL, Reg.JA_STATUS])
  ∧ (∀ (s : State) (k : Fin 64) (c : Fin 1024) (sq line pc n : Nat) (host : List (Nat × Byte)) (j : JetJob),
      (s.jet k.val).holds.job = some (c.val, sq) → s.jjob c.val sq = some j → n = min 64 (j.prog.codeBytes - 64 * line) →
      s.rangesStop c.val false [(j.prog.addr + j.prog.codeOff + 64 * line, n)] = none → pc / 8 = line → 8 * (pc % 8) + 8 ≤ n →
      Completes (.icacheFill k c sq line host) s fun s' =>
        s' = { s.touchMem (j.prog.addr + j.prog.codeOff + 64 * line) n with ja := { s.ja with jets := s'.ja.jets } }
        ∧ (∀ m, m ≠ k.val → s'.jet m = s.jet m) ∧ (s'.jet k.val).teams = (s.jet k.val).teams
        ∧ (s'.jet k.val).fetch c.val sq pc = some (ofLeBytes (((s.bufRead host (j.prog.addr + j.prog.codeOff + 64 * line) n).drop (8 * (pc % 8))).take 8)))
  ∧ (∀ (s : State) (k : Fin 64), (s.jet k.val).holds = .nothing → Completes (.jetStallTimeout k) s fun s' => s' = s)
  ∧ (∀ (s : State) (k : Fin 64) (run : TileRun) (j : JetJob) (q : Nat), (s.jet k.val).holds = .tile run → (s.jet k.val).retired = false →
      s.jjob run.item.ctx run.item.sq = some j → j.render = true → 58 ≤ s.liveJets → 2 ≤ s.liveIn (k.val / 8) →
      q = s.serves (s.jet k.val).origin → q < s.ja.strs.length → Completes (.jetStallTimeout k) s fun s' =>
        (s'.jet k.val).retired = true ∧ (s'.jet k.val).holds = .nothing ∧ (s'.str q).queue = run.item :: (s.str q).queue
          ∧ s'.fld Reg.JA_FAIL 17 16 = 3 ∧ s'.fld Reg.JA_FAIL 5 0 = k.val ∧ s'.bit Reg.JA_EVENT 0 = true
          ∧ ∀ m, m ≠ k.val → (s'.jet m).retired = (s.jet m).retired)
  ∧ (∀ (s : State) (k : Fin 64), Completes (.jetClockGate k) s fun s' =>
      ((s.jet k.val).retired = true → s.halves k.val = 0 → (s'.jet k.val).gated = true) ∧ (∀ m, m ≠ k.val → s'.jet m = s.jet m)
        ∧ ((s.jet k.val).retired = false ∨ s.halves k.val ≠ 0 → s' = s))

/-- The deadline arbiter (R257–R266): a tick without a DEADLINE job has no target; a pending job whose slack is below JA_SLACK_MIN is urgent and
the target; a preemption request that arrives stops the workgroups that have run 50 us on jets, and the grace limit the others; a save moves every workgroup
and team of the jet into the resume list and writes nothing outside its slot, and lends the jet; a lent jet without work returns; and an idle jet restores the oldest saved one.
Where a clause rests on a reading of the model, log entries 46 and 83 give it. -/
def Obligations.DeadlineArbiter : Prop :=
  (∀ (s : State), (∀ j ∈ s.ja.jobs, j.dl = none) → Completes .deadlineArbiterTick s fun s' =>
      s'.ja.target = none ∧ s'.ja.jets = s.ja.jets ∧ s'.ja.jobs = s.ja.jobs ∧ s'.ja.strs = s.ja.strs ∧ s'.mem = s.mem ∧ s'.evr = s.evr)
  ∧ (∀ (s : State) (j : JetJob) (d : Nat), s.ja.jobs = [j] → j.dl = some d → s.clk.stm < d → j.home ≠ none → s.pendingJob j = true → s.ctxState j.ctx ≠ 3 →
      d - s.clk.stm < s.fld Reg.JA_SLACK_MIN 15 0 * 1000 → Completes .deadlineArbiterTick s fun s' =>
        s'.ja.target = some (j.ctx, j.sq) ∧ s'.ja.jobs = [{ j with urgent := true }] ∧ s'.mem = s.mem
          ∧ (j.urgent = false → s'.bit Reg.JA_DL_EVENT 0 = true ∧ s'.evr.offered = s.evr.offered
            ++ [mkRec 0x0623 [(16, j.ctx), (8, s.fld (Reg.CQ_CTX_CLASS j.ctx) 6 4), (32, (d - s.clk.stm) / 1000)] s.clk.stm]))
  ∧ (∀ (s : State) (j : JetJob) (d : Nat), s.ja.jobs = [j] → j.dl = some d → s.clk.stm < d → j.home ≠ none →
      s.ctxState j.ctx = 3 ∨ s.pendingJob j = false ∨ s.fld Reg.JA_SLACK_MIN 15 0 * 1000 ≤ d - s.clk.stm → Completes .deadlineArbiterTick s fun s' =>
        s'.ja.target = none ∧ s'.ja.jobs = [{ j with urgent := false }] ∧ s'.evr = s.evr)
  ∧ (∀ (s : State) (k : Fin 64) (p : Preempt) (c sq : Nat) (ws : List Wg), (s.jet k.val).preempt = some p →
      (s.jet k.val).holds = .groups c sq ws →
      (p.arrived = none → Completes (.preemptRequestArrive k) s fun s' => s' = { s with ja := { s.ja with jets := s'.ja.jets } }
        ∧ (∀ m, m ≠ k.val → s'.jet m = s.jet m) ∧ (s'.jet k.val).preempt = some { p with arrived := some s.clk.stm }
        ∧ (s'.jet k.val).teams = (s.jet k.val).teams
        ∧ (s'.jet k.val).holds = .groups c sq (ws.map fun w => { w with saving := w.saving || decide (50000 ≤ w.ran + (s.clk.stm - w.start)) }))
      ∧ (p.arrived ≠ none → Completes (.preemptRequestArrive k) s (fun s' => s' = s)
        ∧ Completes (.graceLimit k) s (fun s' => s' = { s with ja := { s.ja with jets := s'.ja.jets } }
          ∧ (∀ m, m ≠ k.val → s'.jet m = s.jet m) ∧ (s'.jet k.val).preempt = some { p with grace := true }
          ∧ (s'.jet k.val).holds = .groups c sq (ws.map fun w => { w with saving := true })))
      ∧ (p.arrived ≠ none → (∀ w ∈ ws, w.saving = true) → s.ja.strs.length = 8 → Completes (.preemptSave k) s fun s' =>
        (s'.jet k.val).holds = .nothing ∧ (s'.jet k.val).teams = [] ∧ (s'.jet k.val).preempt = none ∧ (s'.jet k.val).lent = s.ja.target
          ∧ (∀ m, m ≠ k.val → s'.jet m = s.jet m) ∧ s'.ja.jobs = s.ja.jobs
          ∧ (s.jjob c sq = none → s'.mem = s.mem) ∧ (∀ j, s.jjob c sq = some j → ∀ m a, m = .dram ∨ a < s.slotAt p.slot
            ∨ s.slotAt p.slot + j.saveBytes ws.length ≤ a → s'.byte m a = s.byte m a)
          ∧ (s'.str (k.val / 8)).resume = (s.str (k.val / 8)).resume ++ [⟨p.slot, c, sq, ws.map fun w => { w with saving := false, ran := w.ran + (s.clk.stm - w.start) },
            (s.jet k.val).teams.map fun t => (t.1, t.2.atBoundary)⟩]
          ∧ s'.reg Reg.JA_PREEMPT_COUNT = (s.reg Reg.JA_PREEMPT_COUNT + 1) % 2 ^ 32 ∧ s'.bit Reg.JA_DL_EVENT 2 = true
          ∧ (s.mem.bad = [] → s'.evr.offered = s.evr.offered ++ [mkRec 0x0625 [(8, k.val), (16, c), (32, ws.length), (32, (s.clk.stm - p.decided) / 10)] s.clk.stm]))
      ∧ ((p.arrived = none ∨ ∃ w ∈ ws, w.saving = false) → Completes (.preemptSave k) s fun s' => s' = s))
  ∧ (∀ (s : State) (k : Fin 64) (t : Nat × Nat), (s.jet k.val).lent = some t →
      ((s.jet k.val).holds = .nothing → s.ja.target ≠ some t → Completes (.lentJetReturn k) s fun s' =>
        (s'.jet k.val).lent = s.ja.target ∧ (∀ m, m ≠ k.val → s'.jet m = s.jet m) ∧ s'.ja.strs = s.ja.strs ∧ s'.mem = s.mem ∧ s'.evr = s.evr)
      ∧ ((s.jet k.val).holds = .nothing → s.ja.target = some t → (∀ j, s.jjob t.1 t.2 = some j → s.undispatched j = 0) →
        Completes (.lentJetReturn k) s fun s' => (s'.jet k.val).lent = none)
      ∧ ((s.jet k.val).holds ≠ .nothing → Completes (.lentJetReturn k) s fun s' => s' = s))
  ∧ (∀ (s : State) (k : Fin 64), (s.jet k.val).lent = none → Completes (.lentJetReturn k) s fun s' => s' = s)
  ∧ (∀ (s : State) (k : Fin 64) (v : Saved) (vs : List Saved), (s.str (k.val / 8)).resume = v :: vs →
      (s.jaOn = true → s.jetIdle k.val = true → (s.jet k.val).lent = none → s.halves k.val = 0 → s.ja.jets.length = 64 →
        (∀ j, s.jjob v.ctx v.sq = some j → s.poisonIn (basinAddr (s.slotAt v.slot)) (j.saveBytes v.wgs.length) = none) →
        Completes (.resumeRestore k) s fun s' => (s'.jet k.val).holds = .groups v.ctx v.sq (v.wgs.map fun w => { w with start := s.clk.stm }) ∧ (s'.jet k.val).teams = v.teams
          ∧ (s'.str (k.val / 8)).resume = vs ∧ (∀ m, m ≠ k.val → s'.jet m = s.jet m) ∧ s'.mem = s.mem ∧ s'.evr = s.evr)
      ∧ (s.jaOn = false ∨ s.jetIdle k.val = false ∨ (s.jet k.val).lent ≠ none ∨ s.halves k.val ≠ 0 →
        Completes (.resumeRestore k) s fun s' => s' = s))

/-- Composers and their commit ports (R285, R289, R291, R292, R295–R304, R312, R316; Tables 11.6, 11.12): a commit on an enabled composer with
none pending is queued with the copy of its shadows, one while another is pending is dropped, and one on a disabled composer is rejected with code
0x11; a hold ends by a write; a curve entry is stored in a bank not in use; a refused or poisoned fetch blanks its pixels; a commit that passes is latched
and one that fails reports its code; a latched commit's words become active.
Where a clause rests on a reading of the model, log entries 42, 43 and 59 give it. -/
def Obligations.ComposerCommits : Prop :=
  (∀ (s : State) (c : Fin 10) (atTime : Bool), s.bit (Reg.CMP_COMMIT_STATUS c.val) 0 = true → Completes (.headCommit c atTime) s fun t =>
      t.bit (Reg.CMP_COMMIT_STATUS c.val) 4 = true ∧ t.cmp = s.cmp ∧ SameRegs s t [Reg.CMP_COMMIT_STATUS c.val] ∧ t.mem = s.mem ∧ t.evr = s.evr)
  ∧ (∀ (s : State) (c : Fin 10) (atTime : Bool), s.bit (Reg.CMP_COMMIT_STATUS c.val) 0 = false → s.bit (Reg.CMP_STATUS c.val) 31 = true →
      Completes (.headCommit c atTime) s fun t => t.bit (Reg.CMP_COMMIT_STATUS c.val) 0 = true ∧ t.bit (Reg.CMP_STATUS c.val) 29 = true
        ∧ SameRegs s t [Reg.CMP_COMMIT_STATUS c.val, Reg.CMP_STATUS c.val] ∧ t.mem = s.mem ∧ t.evr = s.evr
        ∧ ∃ x, t.cmp.commits = s.cmp.commits ++ [x] ∧ x.kind = 1 ∧ x.members = [c.val] ∧ x.arrival = s.clk.stm ∧ x.code = 0 ∧ x.latched = false
          ∧ x.held = s.bit (Reg.CMP_HOLD c.val) 0 ∧ (∀ k ∈ s.headKeys c.val, (k, s.reg k) ∈ x.words)
          ∧ x.target = if atTime = true then some (s.reg64 (Reg.CMP_COMMIT_TIME_LO c.val) (Reg.CMP_COMMIT_TIME_HI c.val)) else none)
  ∧ (∀ (s : State) (c : Fin 10) (atTime : Bool), s.bit (Reg.CMP_COMMIT_STATUS c.val) 0 = false → s.bit (Reg.CMP_STATUS c.val) 31 = false →
      Completes (.headCommit c atTime) s fun t => t.bit (Reg.CMP_COMMIT_STATUS c.val) 3 = true ∧ t.fld (Reg.CMP_COMMIT_STATUS c.val) 15 8 = 0x11
        ∧ t.fld (Reg.CMP_REJECT c.val) 23 16 = 0x11 ∧ t.bit (Reg.CMP_EVENT c.val) 0 = true ∧ t.cmp = s.cmp)
  ∧ (∀ (s : State) (c : Fin 10) (atTime : Bool) (ms : List Nat), ms = s.groupOf c.val → ms ≠ [] →
      (∀ m ∈ ms, s.bit (Reg.CMP_COMMIT_STATUS m) 0 = false) → s.bit (Reg.CMP_STATUS c.val) 31 = true → Completes (.groupCommit c atTime) s fun t =>
        (∀ m ∈ ms, t.bit (Reg.CMP_COMMIT_STATUS m) 0 = true) ∧ t.mem = s.mem ∧ t.evr = s.evr
          ∧ ∃ x, t.cmp.commits = s.cmp.commits ++ [x] ∧ x.kind = 2 ∧ x.comp = c.val ∧ x.members = ms
            ∧ ∀ m ∈ ms, ∀ k ∈ s.headKeys m, (k, s.reg k) ∈ x.words)
  ∧ (∀ (s : State) (c : Fin 10) (v : Nat), s.bit (Reg.CMP_HOLD c.val) 0 = false → c.val < s.cmp.comps.length → Completes (.cmpHoldWrite c v) s fun t =>
      t.reg (Reg.CMP_HOLD c.val) = v % 2 ^ 32 &&& 0xF01 ∧ t.bit (Reg.CMP_STATUS c.val) 30 = v.testBit 0 ∧ t.cmp.commits = s.cmp.commits
        ∧ (v.testBit 0 = true → (t.comp c.val).holdLines = 0) ∧ SameRegs s t [Reg.CMP_HOLD c.val, Reg.CMP_STATUS c.val] ∧ t.mem = s.mem)
  ∧ (∀ (s : State) (c : Fin 10) (v : Nat), v.testBit 0 = false → Completes (.cmpHoldWrite c v) s fun t =>
      t.bit (Reg.CMP_HOLD c.val) 0 = false ∧ t.bit (Reg.CMP_STATUS c.val) 30 = false ∧ t.cmp.commits.length = s.cmp.commits.length
        ∧ (s.bit (Reg.CMP_HOLD c.val) 0 = true → ∀ x ∈ t.cmp.commits, x.members = [c.val] → x.held = false))
  ∧ (∀ (s : State) (c : Fin 10) (v ch e b : Nat), b = s.fld (Reg.CMP_LUT_ADDR c.val) 16 16 → ch = s.fld (Reg.CMP_LUT_ADDR c.val) 13 12 →
      e = s.fld (Reg.CMP_LUT_ADDR c.val) 10 0 →
      (s.lutBusy c.val b = false → e ≤ 1024 → ch < 3 → Completes (.cmpLutDataWrite c v) s fun t =>
        spGet (fun _ => 0) t.cmp.lut (lutKey c.val b ch e) = v % 4096 ∧ t.fld (Reg.CMP_LUT_ADDR c.val) 10 0 = e + 1
          ∧ (∀ k, k ≠ lutKey c.val b ch e → spGet (fun _ => 0) t.cmp.lut k = spGet (fun _ => 0) s.cmp.lut k)
          ∧ SameRegs s t [Reg.CMP_LUT_ADDR c.val, Reg.CMP_LUT_DATA c.val] ∧ t.mem = s.mem ∧ t.evr = s.evr)
      ∧ (s.lutBusy c.val b = true → Completes (.cmpLutDataWrite c v) s fun t => t.cmp = s.cmp ∧ t.bit (Reg.CMP_EVENT c.val) 7 = true
          ∧ t.evr.offered = s.evr.offered ++ [mkRec 0x0707 [(8, c.val), (8, b)] s.clk.stm]))
  ∧ (∀ (s : State) (c : Fin 10) (v : Nat), Completes (.cmpCtrlWrite c v) s fun t => t.reg (Reg.CMP_CTRL c.val) = v % 2
      ∧ (v.testBit 0 = true → t.bit (Reg.CMP_STATUS c.val) 31 = true ∧ t.bit Reg.PCR_GATE c.val = false)
      ∧ (v.testBit 0 = false → t.bit (Reg.CMP_STATUS c.val) 31 = s.bit (Reg.CMP_STATUS c.val) 31) ∧ t.cmp = s.cmp
      ∧ SameRegs s t [Reg.CMP_CTRL c.val, Reg.CMP_STATUS c.val, Reg.PCR_GATE])
  ∧ (∀ (s : State) (c : Fin 10) (l : Fin 17) (a n g : Nat), l.val < 16 → spaceOf a = .dram → c.val < s.cmp.comps.length →
      s.refusedIn .layer ((s.layerHolder c.val l.val).getD 64) false .dram (localOf a) n = some g → Completes (.layerFetchReturn c l a n) s fun t =>
        (l.val, a, n) ∈ (t.comp c.val).blanked ∧ t.bit (Reg.CMP_L_STATUS c.val l.val) 1 = true ∧ t.bit (Reg.CMP_EVENT c.val) 2 = true ∧ t.mem = s.mem)
  ∧ (∀ (s : State) (c : Fin 10) (l : Fin 17) (a n : Nat), spaceOf a = .dram → (s.layAct c.val l.val).layout ≠ 1 →
      s.refusedIn (if l.val = 16 then .safety else .layer) ((s.layerHolder c.val l.val).getD 64) false .dram (localOf a) n = none →
      s.poisonIn a n = none → Completes (.layerFetchReturn c l a n) s fun t => t = s.touchMem a n)
  ∧ (∀ (s : State) (c : Fin 10) (line : Nat), s.bit (Reg.CMP_STATUS c.val) 31 = false ∨ s.canvasOn c.val = false ∨ line ≠ (s.comp c.val).lines →
      Completes (.canvasLine c line) s fun t => t = s)
  ∧ (∀ (s : State) (c : Fin 10) (line : Nat), c.val < 8 → c.val ≠ s.loHead → s.bit (Reg.CMP_STATUS c.val) 31 = true → (s.head c.val).begun = true →
      s.canvasOn c.val = true → line = (s.comp c.val).lines → line < (s.canvasRect c.val).2.2.2 → c.val < s.cmp.comps.length →
      Completes (.canvasLine c line) s fun t => (t.comp c.val).lines = line + 1 ∧ t.regs = s.regs ∧ t.mem = s.mem ∧ t.lo = s.lo
        ∧ t.out = .pixels c.val (s.fld (Reg.CMP_STATUS c.val) 15 0) line :: s.out)
  ∧ (∀ (s : State) (c : Fin 10), (s.comp c.val).wb = none → Completes (.writebackFrameDone c) s fun t => t = s)
  ∧ (∀ (s : State) (c : Fin 10) (f : Nat) (b : Bool), (s.comp c.val).wb = some (f, b) → f < 65536 → Completes (.writebackFrameDone c) s fun t =>
      (t.comp c.val).wb = none ∧ t.fld (Reg.CMP_WB_STATUS c.val) 31 16 = f ∧ t.bit (Reg.CMP_WB_STATUS c.val) 0 = false
        ∧ t.bit (Reg.CMP_EVENT c.val) 3 = true ∧ t.mem = (s.wbFrame c.val).mem)
  ∧ (∀ (s : State) (x : Commit) (n l : Nat), s.cmp.commits = [x] → s.checkCommit x = (0, l) → ∃ y, (s.latchOne n x).cmp.commits = [y]
      ∧ y.latched = true ∧ y.code = 0 ∧ y.words = x.words ∧ y.layers = s.scopeOf x ∧ (s.latchOne n x).regs = s.regs)
  ∧ (∀ (s : State) (x : Commit) (c k w a : Nat), s.cmp.commits = [x] → x.kind = 1 → x.latched = true → x.code = 0 → x.members = [c] →
      x.late = 0 → x.past = false → x.words = [(k, w)] → compOfKey k = c → actKey k = some a → w < 2 ^ 32 → a ≠ Reg.CMP_COMMIT_STATUS c →
      a ≠ Reg.CMP_STATUS c → (s.applyCommits c).reg a = w ∧ (s.applyCommits c).cmp.commits = []
        ∧ (s.applyCommits c).bit (Reg.CMP_COMMIT_STATUS c) 1 = true ∧ (s.applyCommits c).bit (Reg.CMP_COMMIT_STATUS c) 0 = false
        ∧ (s.applyCommits c).mem = s.mem)

/-- Head timing and gaits (R310–R313, R317–R319, R322–R324, R332; Tables 12.3, 12.6, 12.7, 12.9): a frame start counts and stamps the frame; line
match, frame done and vertical blank set their events; an underrun is noted once a line; a latch line sends the next latch time; a SYNC_IN edge is
stamped; a gait request that fails a check is refused with its reason, and another takes effect by steps, between which the generator
stands still while the PLL relocks, or at once on a stopped head; enabling a head starts its
timing generator.
Where a clause rests on a reading of the model, log entries 44, 45 and 46 give it. -/
def Obligations.HeadTimingAndGaits : Prop :=
  (∀ (s : State) (n : Fin 8), s.headUp n.val = false → Completes (.frameStart n) s fun t => t = s)
  ∧ (∀ (s : State) (n : Fin 8), s.headOn n.val = false → Completes (.latchLine n) s (fun t => t = s)
      ∧ Completes (.lineMatch n) s (fun t => t = s) ∧ Completes (.frameDone n) s (fun t => t = s) ∧ Completes (.vblankStart n) s (fun t => t = s))
  ∧ (∀ (s : State) (n : Fin 8), s.headOn n.val = true → (s.head n.val).off = 0 → s.changing n.val = false → s.gaitPhase n.val = 0 → s.cmp.commits = [] →
      s.cmp.waiting = [] → s.hp.layerChanges = [] → n.val < s.hd.heads.length → Completes (.frameStart n) s fun t =>
        t.fld (Reg.HD_FRAME n.val) 31 16 = (s.fld (Reg.HD_FRAME n.val) 31 16 + 1) % 65536
          ∧ t.reg (Reg.HD_FRAME_TIME_LO n.val) = s.clk.stm % 2 ^ 32 ∧ t.reg (Reg.HD_FRAME_TIME_HI n.val) = s.clk.stm / 2 ^ 32 % 2 ^ 32
          ∧ (t.head n.val).starts = (s.head n.val).starts + 1 ∧ (t.head n.val).begun = true ∧ (t.head n.val).fills = [])
  ∧ (∀ (s : State) (n : Fin 8), s.headOn n.val = true → (s.head n.val).off = 0 → s.changing n.val = true → s.gaitPhase n.val = 2 →
      Completes (.frameStart n) s fun t => t.gaitPhase n.val = 3 ∧ t.reg (Reg.HD_LINK_STATUS n.val) = 0 ∧ t.bit (Reg.HD_STATUS n.val) 30 = false
        ∧ t.headOn n.val = false ∧ t.headUp n.val = true ∧ t.hd = s.hd ∧ t.cmp = s.cmp ∧ t.mem = s.mem)
  ∧ (∀ (s : State) (n : Fin 8), s.inFrame n.val = true →
      (s.fld (Reg.HD_LINE_CMP n.val) 13 0 < (s.gait n.val).vt → Completes (.lineMatch n) s fun t => t.bit (Reg.HD_EVENT n.val) 0 = true ∧ t.evr = s.evr
        ∧ t.mem = s.mem ∧ t.hd = s.hd)
      ∧ ((s.gait n.val).vt ≤ s.fld (Reg.HD_LINE_CMP n.val) 13 0 → Completes (.lineMatch n) s fun t => t = s)
      ∧ Completes (.frameDone n) s (fun t => t.bit (Reg.HD_EVENT n.val) 1 = true ∧ t.evr = s.evr ∧ t.mem = s.mem ∧ t.hd = s.hd)
      ∧ Completes (.vblankStart n) s (fun t => t.bit (Reg.HD_EVENT n.val) 2 = true ∧ t.mem = s.mem ∧ t.hd = s.hd
        ∧ t.reg (Reg.HD_VBLANK_TIME_LO n.val) = s.clk.stm % 2 ^ 32 ∧ t.reg (Reg.HD_VBLANK_TIME_HI n.val) = s.clk.stm / 2 ^ 32 % 2 ^ 32
        ∧ ((s.head n.val).fills = [] → t.evr = s.evr))
      ∧ (∀ line px, line < (s.gait n.val).va → px < (s.gait n.val).ha → line < 65536 → (∀ f ∈ (s.head n.val).fills, f.1 ≠ line) →
        Completes (.underrun n line px) s fun t => (t.head n.val).fills = (s.head n.val).fills ++ [(line, px / 4 * 4)]
          ∧ t.fld (Reg.HD_UNDERRUN_LAST n.val) 15 0 = line ∧ t.mem = s.mem ∧ t.evr = s.evr
          ∧ ((s.head n.val).fills = [] → t.bit (Reg.HD_EVENT n.val) 3 = true ∧ t.bit (Reg.HD_STATUS n.val) 9 = true))
      ∧ (∀ line px, (∃ f ∈ (s.head n.val).fills, f.1 = line) → Completes (.underrun n line px) s fun t => t = s)
      ∧ (s.changing n.val = false → s.bit (Reg.CMP_HOLD n.val) 0 = false → s.bit (Reg.CMP_HOLD 8) 0 = false → s.bit (Reg.CMP_HOLD 9) 0 = false →
        s.cmp.commits = [] → s.cmp.waiting = [] → Completes (.latchLine n) s fun t => (t.head n.val).latchAt = some s.clk.stm ∧ t.mem = s.mem ∧ t.evr = s.evr
          ∧ t.reg (Reg.HD_LATCH_TIME_LO n.val) = (s.nextStart n.val + s.latchOffset n.val) % 2 ^ 32
          ∧ SameRegs s t [Reg.HD_LATCH_TIME_LO n.val, Reg.HD_LATCH_TIME_HI n.val]))
  ∧ (∀ (s : State), Completes .syncInEdge s fun t => t.hd.sync = some s.clk.stm ∧ t.hd.sync0 = s.hd.sync ∧ t.regs = s.regs ∧ t.mem = s.mem ∧ t.evr = s.evr
      ∧ t.cmp = s.cmp)
  ∧ (∀ (s : State) (n : Fin 8) (g r c l : Nat), g < 32 → s.gaitReason n.val g = (r, c, l) →
      (r ≠ 0 → r < 8 → c < 256 → l < 256 → Completes (.gaitRequest n g) s fun t => t.bit (Reg.HD_GAIT_STATUS n.val) 2 = true
        ∧ t.fld (Reg.HD_GAIT_STATUS n.val) 15 8 = r ∧ t.fld (Reg.HD_GAIT_STATUS n.val) 31 24 = c ∧ SameRegs s t [Reg.HD_GAIT_STATUS n.val]
        ∧ t.evr.offered = s.evr.offered ++ [mkRec 0x0809 [(8, n.val), (8, g), (8, r), (8, c), (8, l)] s.clk.stm] ∧ t.hd = s.hd ∧ t.mem = s.mem)
      ∧ (r = 0 → s.headOn n.val = false → Completes (.gaitRequest n g) s fun t => t.fld (Reg.HD_GAIT n.val) 4 0 = g
        ∧ SameRegs s t [Reg.HD_GAIT n.val] ∧ t.hd = s.hd ∧ t.evr = s.evr)
      ∧ (r = 0 → s.headOn n.val = true → n.val < s.hd.heads.length → Completes (.gaitRequest n g) s fun t => t.changing n.val = true
        ∧ t.gaitPhase n.val = 1 ∧ t.fld (Reg.HD_GAIT n.val) 12 8 = g ∧ t.fld (Reg.HD_GAIT n.val) 4 0 = s.fld (Reg.HD_GAIT n.val) 4 0
        ∧ t.bit (Reg.HD_STATUS n.val) 27 = true ∧ (t.head n.val).oldGait = s.fld (Reg.HD_GAIT n.val) 4 0 ∧ (t.head n.val).reqTime = s.clk.stm
        ∧ t.reg (Reg.HD_LATCH_TIME_LO n.val) = 0 ∧ t.mem = s.mem ∧ t.evr = s.evr))
  ∧ (∀ (s : State) (n : Fin 8) (g : Nat), (s.gaitList n.val).contains g = false → (s.gaitReason n.val g).1 = 2)
  ∧ (∀ (s : State) (n : Fin 8) (g : Nat), (s.gaitList n.val).contains g = true → s.changing n.val = true → (s.gaitReason n.val g).1 = 1)
  ∧ (∀ (s : State) (n : Fin 8), (s.changing n.val = true → s.gaitPhase n.val = 3 → s.canTrain n.val = false → Completes (.headPllLocked n) s fun t =>
        t.gaitPhase n.val = 4 ∧ SameRegs s t [Reg.HD_GAIT n.val] ∧ t.hd = s.hd ∧ t.mem = s.mem)
      ∧ (s.changing n.val = true → s.gaitPhase n.val = 3 → s.canTrain n.val = true → Completes (.headPllLocked n) s fun t =>
        t.gaitPhase n.val = 4 ∧ t.link n.val = 1)
      ∧ (s.changing n.val = false ∨ s.gaitPhase n.val ≠ 3 → Completes (.headPllLocked n) s fun t => t = s))
  ∧ (∀ (s : State) (n : Fin 8) (v : Nat), v.testBit 0 = true → s.headUp n.val = false → n.val < s.hd.heads.length → Completes (.hdCtrlWrite n v) s fun t =>
      t.headOn n.val = true ∧ t.reg (Reg.HD_CTRL n.val) = v % 2 ∧ (t.head n.val).begun = false ∧ (t.head n.val).off = 0 ∧ t.mem = s.mem ∧ t.evr = s.evr)
  ∧ (∀ (s : State) (n : Fin 8) (v : Nat), v.testBit 0 = false → Completes (.hdCtrlWrite n v) s fun t => t.reg (Reg.HD_CTRL n.val) = v % 2
      ∧ t.headOn n.val = s.headOn n.val ∧ t.mem = s.mem ∧ t.evr = s.evr
      ∧ (s.headUp n.val = false → t.hd = s.hd ∧ SameRegs s t [Reg.HD_CTRL n.val])
      ∧ (s.headUp n.val = true → (s.head n.val).off = 0 → s.edp n.val = false → n.val < s.hd.heads.length →
        (t.head n.val).off = if s.bit (Reg.HD_STATUS n.val) 30 = true then 2 else 3))

/-- Links, the AUX channel and panels (R309, R326, R327, R329, R330, R485; Tables 12.8, 12.9): training that locks on a configuration of
Table 12.8 within the capacity ends with the link up and its record, and otherwise in LINK_FAIL, which trains again; a lost lock is counted and trains again; a long low pulse of HPD unplugs and a
short one requests; an AUX transaction is sent, answered, retried seven times and ends; and a panel's power sequence moves as its times pass.
Where a clause rests on a reading of the model, log entries 44, 46 and 70 give it. -/
def Obligations.LinksAuxAndPanels : Prop :=
  (∀ (s : State) (n : Fin 8) (locked : Bool) (rate lanes : Nat), s.link n.val ≠ 1 → Completes (.linkTrainingDone n locked rate lanes) s fun t => t = s)
  ∧ (∀ (s : State) (n : Fin 8) (rate lanes : Nat), s.link n.val = 1 → s.changing n.val = false → linkOk (s.edp n.val) rate lanes = true → rate ≤ s.fld (Reg.HD_LINK_CFG n.val) 3 0 →
      lanes ≤ s.fld (Reg.HD_LINK_CFG n.val) 6 4 → s.need n.val (s.fld (Reg.HD_GAIT n.val) 4 0) ≤ s.capacity n.val rate lanes →
      Completes (.linkTrainingDone n true rate lanes) s fun t => t.link n.val = 2 ∧ t.fld (Reg.HD_LINK_STATUS n.val) 3 0 = rate
        ∧ t.fld (Reg.HD_LINK_STATUS n.val) 6 4 = lanes ∧ t.bit (Reg.HD_EVENT n.val) 9 = true ∧ t.mem = s.mem
        ∧ t.evr.offered = s.evr.offered ++ [mkRec 0x0805 [(8, n.val), (8, rate), (8, lanes), (8, b2n (s.fec n.val)),
            (8, b2n (s.bit (Reg.HD_LINK_CFG n.val) 12))] s.clk.stm])
  ∧ (∀ (s : State) (n : Fin 8) (locked : Bool) (rate lanes : Nat), s.link n.val = 1 → s.changing n.val = false →
      (locked = false ∨ linkOk (s.edp n.val) rate lanes = false ∨ s.fld (Reg.HD_LINK_CFG n.val) 3 0 < rate ∨ s.fld (Reg.HD_LINK_CFG n.val) 6 4 < lanes
        ∨ s.capacity n.val rate lanes < s.need n.val (s.fld (Reg.HD_GAIT n.val) 4 0)) →
      Completes (.linkTrainingDone n locked rate lanes) s fun t => t.link n.val = 3 ∧ t.bit (Reg.HD_STATUS n.val) 30 = false
        ∧ t.bit (Reg.HD_EVENT n.val) 10 = true ∧ t.mem = s.mem
        ∧ t.evr.offered = s.evr.offered ++ [mkRec 0x0807 [(8, n.val), (8, rate), (8, lanes)] s.clk.stm])
  ∧ (∀ (s : State) (n : Fin 8), (s.link n.val = 3 → s.canTrain n.val = true → Completes (.linkRetry n) s fun t => t.link n.val = 1 ∧ t.evr = s.evr)
      ∧ (s.link n.val ≠ 3 ∨ s.canTrain n.val = false → Completes (.linkRetry n) s fun t => t = s))
  ∧ (∀ (s : State) (n : Fin 8) (lanes : Nat), s.link n.val = 2 → s.canTrain n.val = true → s.fld (Reg.HD_LINK_RETRAINS n.val) 31 0 < 2 ^ 32 - 1 →
      Completes (.linkLockLost n lanes) s fun t => t.link n.val = 1 ∧ t.fld (Reg.HD_LINK_RETRAINS n.val) 31 0 = s.fld (Reg.HD_LINK_RETRAINS n.val) 31 0 + 1
        ∧ t.bit (Reg.HD_EVENT n.val) 8 = true ∧ t.evr.offered = s.evr.offered ++ [mkRec 0x0806 [(8, n.val), (32, lanes)] s.clk.stm])
  ∧ (∀ (s : State) (n : Fin 8) (lanes : Nat), s.link n.val ≠ 2 → Completes (.linkLockLost n lanes) s fun t => t = s)
  ∧ (∀ (s : State) (n : Fin 8) (ns irq lanes : Nat) (lost : Bool), s.hpd n.val = true →
      (2000000 ≤ ns → Completes (.hpdLow n ns irq lanes lost) s fun t => t.hpd n.val = false ∧ t.link n.val = 0 ∧ t.bit (Reg.HD_STATUS n.val) 30 = false
        ∧ t.bit (Reg.HD_EVENT n.val) 6 = true ∧ t.evr.offered = s.evr.offered ++ [mkRec 0x0804 [(8, n.val), (8, 0)] s.clk.stm])
      ∧ (250000 ≤ ns → ns < 2000000 → lost = false → Completes (.hpdLow n ns irq lanes lost) s fun t => t.hpd n.val = true ∧ t.link n.val = s.link n.val
        ∧ t.bit (Reg.HD_EVENT n.val) 7 = true ∧ t.evr.offered = s.evr.offered ++ [mkRec 0x080F [(8, n.val), (8, irq)] s.clk.stm])
      ∧ (ns < 250000 → Completes (.hpdLow n ns irq lanes lost) s fun t => t = s))
  ∧ (∀ (s : State) (n : Fin 8), s.changing n.val = false → Completes (.hpdRise n) s fun t => t.hpd n.val = true ∧ t.mem = s.mem ∧ t.evr = s.evr
      ∧ (s.headOn n.val = true → s.edp n.val = false → t.link n.val = 1))
  ∧ (∀ (s : State) (n : Fin 8) (len : Fin 16) (c : Instr) (cmd : Nat), (c, cmd) ∈ [(Instr.auxNativeWrite n len, 1), (.auxNativeRead n len, 2),
        (.auxI2cWrite n len, 3), (.auxI2cRead n len, 4), (.auxI2cWriteMot n len, 5), (.auxI2cReadMot n len, 6)] →
      (s.bit (Reg.HD_AUX_STATUS n.val) 0 = true → Completes c s fun t => t = s)
      ∧ (s.bit (Reg.HD_AUX_STATUS n.val) 0 = false → n.val < s.hd.heads.length → Completes c s fun t => t.bit (Reg.HD_AUX_STATUS n.val) 0 = true
        ∧ t.fld (Reg.HD_AUX_CMD n.val) 3 0 = cmd ∧ t.fld (Reg.HD_AUX_CMD n.val) 11 8 = len.val ∧ (t.head n.val).auxRetries = 0
        ∧ SameRegs s t [Reg.HD_AUX_CMD n.val, Reg.HD_AUX_STATUS n.val] ∧ t.mem = s.mem ∧ t.evr = s.evr
        ∧ (s.held 2 = false → ∃ d, t.out = .aux n.val cmd (s.fld (Reg.HD_AUX_ADDR n.val) 19 0) d :: s.out)))
  ∧ (∀ (s : State) (n : Fin 8) (bs : List Byte), (∀ r, s.bit (Reg.HD_AUX_STATUS n.val) 0 = false → Completes (.auxReply n r bs) s fun t => t = s)
      ∧ (s.bit (Reg.HD_AUX_STATUS n.val) 0 = true →
        Completes (.auxReply n 0 bs) s (fun t => t.bit (Reg.HD_AUX_STATUS n.val) 0 = false ∧ t.bit (Reg.HD_AUX_STATUS n.val) 1 = true
          ∧ t.bit (Reg.HD_EVENT n.val) 15 = true ∧ t.evr = s.evr)
        ∧ Completes (.auxReply n 1 bs) s (fun t => t.bit (Reg.HD_AUX_STATUS n.val) 0 = false ∧ t.bit (Reg.HD_AUX_STATUS n.val) 2 = true
          ∧ t.fld (Reg.HD_AUX_STATUS n.val) 9 8 = 1
          ∧ t.evr.offered = s.evr.offered ++ [mkRec 0x080D [(8, n.val), (8, 1), (32, s.fld (Reg.HD_AUX_ADDR n.val) 19 0)] s.clk.stm])
        ∧ (n.val < s.hd.heads.length → (s.head n.val).auxRetries < 7 → Completes (.auxReply n 2 bs) s fun t =>
          (t.head n.val).auxRetries = (s.head n.val).auxRetries + 1 ∧ t.regs = s.regs ∧ t.evr = s.evr)
        ∧ (7 ≤ (s.head n.val).auxRetries → Completes (.auxReply n 3 bs) s fun t => t.bit (Reg.HD_AUX_STATUS n.val) 2 = true
          ∧ t.fld (Reg.HD_AUX_STATUS n.val) 9 8 = 3)))
  ∧ (∀ (s : State) (n : Fin 8), s.edp n.val = true → s.headOn n.val = true → s.panel n.val = 0 → s.cycled n.val = true → s.hpd n.val = false →
      n.val < s.hd.heads.length → (s.head n.val).vdden = false → Completes (.panelPowerOn n) s fun t => t.panel n.val = 1 ∧ (t.head n.val).vdden = true
        ∧ t.bit (Reg.HD_PANEL_CTRL n.val) 0 = true ∧ t.mem = s.mem)
  ∧ (∀ (s : State) (n : Fin 8), s.edp n.val = true → 1 ≤ s.panel n.val → s.panel n.val ≤ 4 → n.val < s.hd.heads.length →
      Completes (.panelPowerOff n) s fun t => t.panel n.val = 5 ∧ (t.head n.val).blen = false ∧ (t.head n.val).off = 1
        ∧ t.bit (Reg.HD_PANEL_CTRL n.val) 0 = false ∧ t.mem = s.mem)
  ∧ (∀ (s : State) (n : Fin 8), n.val < s.hd.heads.length →
      (s.panel n.val = 1 → Completes (.panelHpdTimeout n) s fun t => t.panel n.val = 7 ∧ (t.head n.val).vdden = false ∧ t.bit (Reg.HD_EVENT n.val) 14 = true
        ∧ t.evr.offered = s.evr.offered ++ [mkRec 0x080C [(8, n.val)] s.clk.stm])
      ∧ (s.panel n.val ≠ 1 → Completes (.panelHpdTimeout n) s fun t => t = s)
      ∧ (s.panel n.val = 3 → s.bit (Reg.HD_PANEL_CTRL n.val) 1 = true → Completes (.panelBacklightOn n) s fun t => t.panel n.val = 4
        ∧ (t.head n.val).blen = true ∧ t.evr = s.evr)
      ∧ (s.panel n.val ≠ 3 ∨ s.bit (Reg.HD_PANEL_CTRL n.val) 1 = false → Completes (.panelBacklightOn n) s fun t => t = s)
      ∧ (s.panel n.val = 5 → (s.head n.val).off = 1 → s.headUp n.val = true → Completes (.panelBlOffElapsed n) s fun t => (t.head n.val).off = 2
        ∧ t.regs = s.regs)
      ∧ (s.panel n.val = 5 → (s.head n.val).off = 1 → s.headUp n.val = false → Completes (.panelBlOffElapsed n) s fun t => (t.head n.val).off = 0
        ∧ t.panel n.val = 6 ∧ (t.head n.val).vdden = false ∧ (t.head n.val).blen = false)
      ∧ (s.panel n.val = 6 → (s.head n.val).wantOn = false → Completes (.panelCycleElapsed n) s fun t => t.panel n.val = 0
        ∧ (t.head n.val).vddFall = none ∧ t.evr = s.evr ∧ t.mem = s.mem))

/-- Integrity services (R335, R336, R338–R340, R343, R345–R347; Tables 13.1 to 13.5): a region signature that is final stands in its register with the frame's
number, and compares: a frame that passes or fails counts for its check, which trips at its threshold; both safety signatures stand and are judged;
a fallback that does not match blanks the head; a clear is kept for the next frame start; and a head that shows no composer output is not evaluated.
Where a clause rests on a reading of the model, log entries 33, 34 and 71 give it. -/
def Obligations.IntegrityChecks : Prop :=
  (∀ (s : State) (n : Fin 8) (k : Fin 16) (faults : List (Nat × Byte)), s.evaluates n.val = false →
      Completes (.regionSignatureFinal n k) s (fun t => t = s) ∧ Completes (.safetySignatureFinal n faults) s (fun t => t = s))
  ∧ (∀ (s : State) (n : Fin 8) (k : Fin 16) (ctrl : Nat), s.evaluates n.val = true → ctrl = s.reg (Reg.IM_R_CTRL_ACT n.val k.val) →
      ctrl.testBit 0 = true → n.val < s.im.heads.length → k.val < (s.imHead n.val).checks.length →
      (ctrl.testBit 1 = false → Completes (.regionSignatureFinal n k) s fun t => t.reg (Reg.IM_R_SIG n.val k.val) = s.regionSig n.val k.val % 2 ^ 32
        ∧ t.fld (Reg.IM_R_FRAME n.val k.val) 31 16 = s.fld (Reg.HD_FRAME n.val) 31 16
        ∧ SameRegs s t [Reg.IM_R_SIG n.val k.val, Reg.IM_R_FRAME n.val k.val] ∧ t.im = s.im ∧ t.evr = s.evr ∧ t.mem = s.mem)
      ∧ (ctrl.testBit 1 = true → s.regionSig n.val k.val = s.reg (Reg.IM_R_REF_ACT n.val k.val) → s.regionUnderran n.val k.val = false →
        Completes (.regionSignatureFinal n k) s fun t => t.reg (Reg.IM_R_SIG n.val k.val) = s.reg (Reg.IM_R_REF_ACT n.val k.val)
          ∧ t.bit (Reg.IM_R_FRAME n.val k.val) 8 = true ∧ t.fld (Reg.IM_R_FRAME n.val k.val) 3 0 = 0
          ∧ t.chk n.val k.val = { s.chk n.val k.val with fails := 0, passes := (s.chk n.val k.val).passes + 1 }
          ∧ (∀ i, i ≠ k.val → t.chk n.val i = s.chk n.val i) ∧ t.evr = s.evr ∧ t.mem = s.mem)
      ∧ (ctrl.testBit 1 = true → s.regionSig n.val k.val ≠ s.reg (Reg.IM_R_REF_ACT n.val k.val) ∨ s.regionUnderran n.val k.val = true →
        Completes (.regionSignatureFinal n k) s fun t => t.bit Reg.IM_EVENT 0 = true ∧ t.bit (Reg.IM_R_FRAME n.val k.val) 8 = false
          ∧ t.fld (Reg.IM_FAIL_COUNT n.val) 31 0 = min (s.fld (Reg.IM_FAIL_COUNT n.val) 31 0 + 1) (2 ^ 32 - 1)
          ∧ (t.chk n.val k.val).fails = (s.chk n.val k.val).fails + 1 ∧ (t.chk n.val k.val).passes = 0
          ∧ ((s.chk n.val k.val).fails + 1 = max 1 (bitsOf ctrl 11 8) → (t.chk n.val k.val).trip = some (reactionOf (bitsOf ctrl 13 12))
            ∧ t.bit Reg.IM_EVENT 4 = true)
          ∧ ((s.chk n.val k.val).fails + 1 ≠ max 1 (bitsOf ctrl 11 8) → (t.chk n.val k.val).trip = (s.chk n.val k.val).trip)
          ∧ ∀ i, i ≠ k.val → t.chk n.val i = s.chk n.val i))
  ∧ (∀ (s : State) (n : Fin 8) (k : Fin 16), (s.reg (Reg.IM_R_CTRL_ACT n.val k.val)).testBit 0 = false →
      Completes (.regionSignatureFinal n k) s fun t => t = s)
  ∧ (∀ (s : State) (n : Fin 8) (w : List Byte), s.evaluates n.val = true → (s.safetyAct n.val).enable = true → n.val < s.im.heads.length →
      16 < (s.imHead n.val).checks.length → w = leBytes 4 (0xA5000000 + n.val * 65536 + s.fld (Reg.IM_S_ALIVE_ACT n.val) 15 0) ++ s.safetyStream n.val →
      Completes (.safetySignatureFinal n []) s fun t => t.reg (Reg.IM_S_FETCH_SIG n.val) = crc32c w % 2 ^ 32
        ∧ t.reg (Reg.IM_S_HEAD_SIG n.val) = crc32c w % 2 ^ 32 ∧ t.mem = s.mem
        ∧ (crc32c w = s.reg (Reg.IM_S_SIG_ACT n.val) →
          t.chk n.val 16 = { s.chk n.val 16 with fails := 0, passes := (s.chk n.val 16).passes + 1 } ∧ t.evr = s.evr)
        ∧ (crc32c w ≠ s.reg (Reg.IM_S_SIG_ACT n.val) → (t.chk n.val 16).fails = (s.chk n.val 16).fails + 1 ∧ t.bit Reg.IM_EVENT 1 = true
          ∧ t.bit Reg.IM_EVENT 2 = true))
  ∧ (∀ (s : State) (n : Fin 8) (v : Nat), n.val < s.im.heads.length → Completes (.imClear n v) s fun t =>
      (v.testBit 0 = true → t.imHead n.val = { s.imHead n.val with clear := true }) ∧ (v.testBit 0 = false → t = s) ∧ t.regs = s.regs ∧ t.evr = s.evr
        ∧ ∀ m, m ≠ n.val → t.imHead m = s.imHead m)
  ∧ (∀ (s : State) (n : Fin 8), (∀ i < 17, s.fbNamed n.val i = false ∨ s.fbSig n.val i = (s.fallback n.val i).2.2) →
      Completes (.fallbackCheck n) s fun t => t = s)
  ∧ (∀ (s : State) (n : Fin 8) (i : Nat), i < 17 → s.fbNamed n.val i = true → s.fbSig n.val i ≠ (s.fallback n.val i).2.2 → n.val < s.im.heads.length →
      18 < (s.imHead n.val).checks.length → Completes (.fallbackCheck n) s fun t => t.bit (Reg.IM_STATUS n.val) 12 = true ∧ t.bit Reg.IM_EVENT 5 = true
        ∧ ((t.chk n.val 18).force.isSome = true ∨ (t.chk n.val 18).trip.isSome = true) ∧ t.mem = s.mem)

/-- Check-value units (R349, R350, R352–R354): INIT sets the running value of the algorithm and the count to zero, and in alive-counter
mode feeds the alive word and counts it up; a data word or byte is fed; a write while a job runs is dropped with its status bit and record; the
configuration registers take their fields, and the alive value is not written in alive-counter mode; a view without the unit writes nothing; and a unit whose
period ends without an alive word is stale.
Where a clause rests on a reading of the model, log entry 72 gives it. -/
def Obligations.CheckValueUnits : Prop :=
  (∀ (s : State) (m : Fin 16) (w : View) (v : Nat), (∃ p, w = .u p ∧ s.holds p.val 1 m.val = true)
        ∨ (w = .s ∧ s.bit Reg.SEC_CVU_MASK m.val = true ∧ s.koroftUp = true) →
      (s.bit (Reg.CVU_STATUS m.val) 0 = false → m.val < s.im.cvus.length →
        Completes (.cvuData m w v) s (fun t => t.cvu m.val = { s.cvu m.val with
            run := crcFeedAll (s.cvu m.val).poly (s.cvu m.val).run (leBytes 4 v), count := (s.cvu m.val).count + 4 }
          ∧ t.reg (Reg.CVU_CTRL m.val + 0x20) = (t.cvu m.val).run % 2 ^ 32 ∧ t.mem = s.mem ∧ t.evr = s.evr ∧ ∀ k, k ≠ m.val → t.cvu k = s.cvu k)
        ∧ Completes (.cvuDataB m w v) s (fun t => t.cvu m.val = { s.cvu m.val with
            run := crcFeedAll (s.cvu m.val).poly (s.cvu m.val).run (leBytes 1 v), count := (s.cvu m.val).count + 1 }
          ∧ t.mem = s.mem ∧ t.evr = s.evr ∧ ∀ k, k ≠ m.val → t.cvu k = s.cvu k)
        ∧ (v.testBit 0 = false → Completes (.cvuInit m w v) s fun t => t = s)
        ∧ (v.testBit 0 = true → s.bit (Reg.CVU_CTRL m.val) 4 = false → Completes (.cvuInit m w v) s fun t =>
          (t.cvu m.val).poly = s.fld (Reg.CVU_CTRL m.val) 1 0 ∧ (t.cvu m.val).run = crcInit (s.fld (Reg.CVU_CTRL m.val) 1 0) ∧ (t.cvu m.val).count = 0
            ∧ t.mem = s.mem ∧ t.evr = s.evr)
        ∧ (v.testBit 0 = true → s.bit (Reg.CVU_CTRL m.val) 4 = true → Completes (.cvuInit m w v) s fun t =>
          (t.cvu m.val).count = 4 ∧ (t.cvu m.val).lastAlive = s.clk.stm ∧ t.bit (Reg.CVU_STATUS m.val) 1 = false
            ∧ (t.cvu m.val).run = crcFeedAll (s.fld (Reg.CVU_CTRL m.val) 1 0) (crcInit (s.fld (Reg.CVU_CTRL m.val) 1 0))
              (aliveWord (s.fld (Reg.CVU_CTRL m.val) 15 8) (s.fld (Reg.CVU_ALIVE m.val) 15 0))
            ∧ t.fld (Reg.CVU_ALIVE m.val) 15 0 = (s.fld (Reg.CVU_ALIVE m.val) 15 0 + 1) % 2 ^ 16))
      ∧ (s.bit (Reg.CVU_STATUS m.val) 0 = true →
        Completes (.cvuData m w v) s (fun t => t.bit (Reg.CVU_STATUS m.val) 3 = true ∧ t.bit Reg.IM_EVENT 8 = true ∧ t.im = s.im
          ∧ t.evr.offered = s.evr.offered ++ [mkRec 0x0909 [(8, m.val), (32, 0x8000 + 0x400 * m.val + 0x0C)] s.clk.stm])
        ∧ Completes (.cvuDataB m w v) s (fun t => t.bit (Reg.CVU_STATUS m.val) 3 = true ∧ t.im = s.im)
        ∧ Completes (.cvuInit m w v) s (fun t => t.bit (Reg.CVU_STATUS m.val) 3 = true ∧ t.im = s.im)
        ∧ ∀ r, Completes (.cvuCfgWrite m w r v) s fun t => t.bit (Reg.CVU_STATUS m.val) 2 = true ∧ t.im = s.im
          ∧ t.reg (Reg.CVU_CTRL m.val) = s.reg (Reg.CVU_CTRL m.val))
      ∧ (s.bit (Reg.CVU_STATUS m.val) 0 = false →
        Completes (.cvuCfgWrite m w .ctrl v) s (fun t => t.reg (Reg.CVU_CTRL m.val) = v % 2 ^ 32 &&& 0xFF13 ∧ SameRegs s t [Reg.CVU_CTRL m.val]
          ∧ t.im = s.im ∧ t.evr = s.evr)
        ∧ Completes (.cvuCfgWrite m w .period v) s (fun t => t.reg (Reg.CVU_PERIOD m.val) = v % 2 ^ 16 ∧ SameRegs s t [Reg.CVU_PERIOD m.val])
        ∧ (s.bit (Reg.CVU_CTRL m.val) 4 = false → Completes (.cvuCfgWrite m w .alive v) s fun t => t.reg (Reg.CVU_ALIVE m.val) = v % 2 ^ 16
          ∧ SameRegs s t [Reg.CVU_ALIVE m.val])
        ∧ (s.bit (Reg.CVU_CTRL m.val) 4 = true → Completes (.cvuCfgWrite m w .alive v) s fun t => t.bit (Reg.CVU_STATUS m.val) 2 = true
          ∧ SameRegs s t [Reg.CVU_STATUS m.val] ∧ t.im = s.im)))
  ∧ (∀ (s : State) (m : Fin 16) (p : Fin 64) (v : Nat), s.holds p.val 1 m.val = false → Completes (.cvuData m (.u p) v) s fun t => t.im = s.im ∧ t.mem = s.mem)
  ∧ (∀ (s : State) (m : Fin 16) (v : Nat), Completes (.cvuData m .p v) s fun t => t = s)
  ∧ (∀ p r a b, crcFeedAll p r (a ++ b) = crcFeedAll p (crcFeedAll p r a) b)
  ∧ (∀ (s : State) (m : Fin 16), (s.fld (Reg.CVU_PERIOD m.val) 15 0 = 0 ∨ s.bit (Reg.CVU_STATUS m.val) 1 = true → Completes (.cvuStale m) s fun t => t = s)
      ∧ (s.fld (Reg.CVU_PERIOD m.val) 15 0 ≠ 0 → s.bit (Reg.CVU_STATUS m.val) 1 = false → Completes (.cvuStale m) s fun t =>
        t.bit (Reg.CVU_STATUS m.val) 1 = true ∧ t.bit Reg.IM_EVENT 7 = true ∧ t.im = s.im))

/-- The light engine (R356–R360, R366–R370, R373–R375; Tables 14.1, 14.8, 14.11, 14.17): a light frame is counted, stamped and opened; it is merged
once, highest priority first and the highest value of it; the oldest merged frame is emitted; data of a LIGHT_WRITE waits for its frame; loads and commits are taken
one at a time, and refused with their code; and a sync copies every region of the active bank.
Where a clause rests on a reading of the model, log entries 73 and 74 give it. -/
def Obligations.LightFramesAndCommits : Prop :=
  (∀ (s : State), s.lightOn = false → Completes .lightFrameStart s (fun t => t = s) ∧ Completes .lightHoldover s (fun t => t = s)
      ∧ Completes .mergeStart s (fun t => t = s))
  ∧ (∀ (s : State), s.lightOn = true → s.loFree = true → s.lo.isOpen = false → s.lo.jobs = [] → s.lo.commit = none →
      (s.bit Reg.LO_CTRL 0 = true → Completes .lightFrameStart s fun t => t.fld Reg.LO_FRAME 15 0 = (s.fld Reg.LO_FRAME 15 0 + 1) % 65536
        ∧ t.fld Reg.LO_FRAME 31 16 = s.fld Reg.LO_FRAME 31 16 ∧ t.reg Reg.LO_FRAME_TIME_LO = s.clk.stm % 2 ^ 32 ∧ t.lo.isOpen = true
        ∧ t.lo.merged = false ∧ t.lo.start = s.clk.stm ∧ t.lo.staging = [] ∧ t.lo.canv = [{}, {}, {}] ∧ t.mem = s.mem)
      ∧ (s.bit Reg.LO_CTRL 0 = false → Completes .lightFrameStart s fun t => t.lightOn = false ∧ t.holdover = false ∧ t.lo.isOpen = false
        ∧ SameRegs s t [Reg.LO_STATUS] ∧ t.mem = s.mem ∧ t.evr = s.evr))
  ∧ (∀ (s : State), s.lightOn = true → s.loFree = false → s.holdover = false → s.headOn s.loHead = false →
      Completes .lightFrameStart s (fun t => t = s)
      ∧ Completes .lightHoldover s (fun t => t.holdover = true ∧ SameRegs s t [Reg.LO_STATUS] ∧ t.lo = s.lo
        ∧ t.evr.offered.length = s.evr.offered.length + 1))
  ∧ (∀ (s : State), s.lightOn = true → (s.lo.isOpen = false ∨ s.lo.merged = true) → Completes .mergeStart s fun t => t = s)
  ∧ (∀ (s : State), s.lightOn = true → s.lo.isOpen = true → s.lo.merged = false → s.loFree = true → s.lo.jobs = [] → Completes .mergeStart s fun t =>
      t.lo.merged = true ∧ t.lo.staging = [] ∧ t.mem = s.mem ∧ ∃ sends, t.lo.ready = s.lo.ready ++ [(s.lo.start, sends)]
        ∧ sends.map (·.uni) = s.unisOn)
  ∧ (∀ (old : LoSlot) (cands : List (Nat × Nat × Nat)) (t : Nat), cands ≠ [] → ∃ v, (mergeSlot false old cands t).2 = some v
      ∧ ∃ i p, (i, p, v) ∈ cands ∧ (∀ c ∈ cands, c.2.1 ≤ p) ∧ ∀ c ∈ cands, c.2.1 = p → c.2.2 ≤ v)
  ∧ (∀ (b : Bool) (old : LoSlot) (t : Nat), (mergeSlot b old [] t).2 = none)
  ∧ (∀ (s : State), s.lo.ready = [] → Completes .emissionStart s fun t => t = s)
  ∧ (∀ (s : State) (t0 : Nat) (sends : List LoSend) (rest : List (Nat × List LoSend)), s.lo.ready = (t0, sends) :: rest →
      (∀ p < 8, s.dmxOn p = false) → s.lo.tx = [] → Completes .emissionStart s fun t => t.lo.ready = rest ∧ t.lo.sent = sends
        ∧ t.lo.tx = sends.flatMap s.uniPackets ∧ t.reg Reg.LO_MERGE_LAT = (s.clk.stm - t0) / 1000 % 2 ^ 24 ∧ SameRegs s t [Reg.LO_MERGE_LAT]
        ∧ t.mem = s.mem ∧ t.evr = s.evr)
  ∧ (∀ (s : State) (i : Fin 8), (s.srcTimeout i.val = 0 → Completes (.sourceTimeout i) s fun t => t = s)
      ∧ (s.srcTimeout i.val ≠ 0 → i.val < s.lo.srcs.length → Completes (.sourceTimeout i) s fun t => t.regs = s.regs ∧ t.evr = s.evr
        ∧ (∀ k, k ≠ i.val → t.src k = s.src k) ∧ (t.src i.val).data = (s.src i.val).data
        ∧ ∀ u, u ∈ (t.src i.val).live ↔ u ∈ (s.src i.val).live ∧ ∃ d ∈ (s.src i.val).changed, d.1 = u ∧ s.clk.stm < d.2 + s.srcTimeout i.val * 1000000))
  ∧ (∀ (s : State) (c : Fin 1024) (host : List (Nat × Byte)), (∀ k ∈ s.lo.jobs, k.ctx ≠ c.val ∨ k.running = false ∨ k.next ≠ none) →
      Completes (.lightDataArrive c host) s fun t => t = s)
  ∧ (∀ (s : State) (c : Fin 1024) (host : List (Nat × Byte)) (k : LoJob) (j : Job), s.lo.jobs = [k] → k.ctx = c.val → k.running = true → k.next = none →
      s.job c.val k.sq = some j → k.due = false → (s.reach c.val 0x18 (j.loFrame k.applied).1 (j.loFrame k.applied).2 false).2 = none →
      Completes (.lightDataArrive c host) s fun t => t.regs = s.regs ∧ t.mem = s.mem ∧ t.evr = s.evr
        ∧ t.lo.jobs = [{ k with next := some (s.bufRead host (j.loFrame k.applied).1 (j.loFrame k.applied).2) }])
  ∧ (∀ (s : State) (kind : Fin 8) (c : Instr), c = .loLoad kind ∨ c = .loSync kind → s.lo.load ≠ none ∨ s.lo.commit ≠ none → Completes c s fun t =>
      t.fld Reg.LO_LOAD_STATUS 15 8 = 1 ∧ t.bit Reg.LO_LOAD_STATUS 2 = true ∧ t.lo = s.lo ∧ t.mem = s.mem)
  ∧ (∀ (s : State) (kind : Fin 8), s.lo.load = none → s.lo.commit = none →
      Completes (.loSync kind) s (fun t => t.bit Reg.LO_LOAD_STATUS 0 = true ∧ (∃ l, t.lo.load = some (2 :: l)) ∧ t.mem = s.mem
        ∧ SameRegs s t [Reg.LO_LOAD_CMD, Reg.LO_LOAD_STATUS] ∧ t.evr = s.evr)
      ∧ (4 < kind.val ∨ s.fld Reg.LO_LOAD_COUNT 18 0 = 0 → Completes (.loLoad kind) s fun t => t.fld Reg.LO_LOAD_STATUS 15 8 = 2
        ∧ t.bit Reg.LO_LOAD_STATUS 2 = true ∧ t.lo = s.lo)
      ∧ (∀ f n a, f = s.fld Reg.LO_LOAD_FIRST 18 0 → n = s.fld Reg.LO_LOAD_COUNT 18 0 → a = s.reg64 Reg.LO_LOAD_SRC_LO Reg.LO_LOAD_SRC_HI →
        kind.val ≤ 4 → 0 < n → f + n ≤ s.loCount kind.val → a % 64 = 0 → s.mgrDenied a (n * loElem kind.val) = false →
        Completes (.loLoad kind) s fun t => t.lo.load = some [1, kind.val, f, n, a] ∧ t.bit Reg.LO_LOAD_STATUS 0 = true ∧ t.mem = s.mem ∧ t.evr = s.evr))
  ∧ (∀ (s : State) (host : List (Nat × Byte)) (e : Bool), s.lo.load = none → Completes (.loadEnd host e) s fun t => t = s)
  ∧ (∀ (s : State) (host : List (Nat × Byte)) (e : Bool) (kd f n a : Nat), s.lo.load = some [2, kd, f, n, a] → s.mem.bad = [] → Completes (.loadEnd host e) s fun t =>
      t.lo.load = none ∧ t.bit Reg.LO_LOAD_STATUS 1 = true ∧ t.bit Reg.LO_LOAD_STATUS 0 = false ∧ ∀ k < 5,
        t.bytes .basin (s.loRegion k (1 - s.loBank)) (s.loCount k * loElem k) = s.bytes .basin (s.loRegion k s.loBank) (s.loCount k * loElem k))
  ∧ (∀ (s : State) (host : List (Nat × Byte)) (kd f n a : Nat), s.lo.load = some [1, kd, f, n, a] → s.poisonIn a (n * loElem kd) = none →
      Completes (.loadEnd host false) s fun t => t.lo.load = none ∧ t.bit Reg.LO_LOAD_STATUS 1 = true
        ∧ t.mem = ((s.touchMem a (n * loElem kd)).write .basin (s.loRegion kd (1 - s.loBank) + f * loElem kd) (s.bufRead host a (n * loElem kd))).mem)
  ∧ (∀ (s : State) (sw atTime : Bool), (s.lo.commit ≠ none → Completes (.lightCommit sw atTime) s fun t => t.fld Reg.LO_COMMIT_STATUS 13 8 = 0x3F
        ∧ t.bit Reg.LO_COMMIT_STATUS 2 = true ∧ SameRegs s t [Reg.LO_COMMIT_STATUS] ∧ t.lo = s.lo ∧ t.evr = s.evr)
      ∧ (s.lo.commit = none → Completes (.lightCommit sw atTime) s fun t => t.bit Reg.LO_STATUS 29 = true ∧ SameRegs s t [Reg.LO_STATUS] ∧ t.evr = s.evr
        ∧ ∃ m, t.lo.commit = some m ∧ m.switch = sw ∧ m.checked = false ∧ ∀ k ∈ loKeys, (k, s.reg k) ∈ m.words))
  ∧ (∀ (s : State), (s.lo.commit = none ∨ ∃ m, s.lo.commit = some m ∧ m.checked = true) → Completes .lightCommitChecked s fun t => t = s)
  ∧ (∀ (s : State) (m : LoCommit) (code i : Nat), s.lo.commit = some m → m.checked = false →
      s.lightCheck (if m.switch = true then 1 - s.loBank else s.loBank) m.words = (code, i) →
      (code = 0 → Completes .lightCommitChecked s fun t => t.lo.commit = some { m with checked := true } ∧ t.regs = s.regs ∧ t.evr = s.evr)
      ∧ (code ≠ 0 → code < 64 → Completes .lightCommitChecked s fun t => t.lo.commit = none ∧ t.bit Reg.LO_STATUS 29 = false
        ∧ t.bit Reg.LO_COMMIT_STATUS 1 = true ∧ t.fld Reg.LO_COMMIT_STATUS 13 8 = code ∧ t.bit Reg.LO_EVENT 0 = true ∧ t.mem = s.mem))
  ∧ (∀ (s : State) (v : Nat), (v.testBit 0 = false ∨ s.lightOn = true → Completes (.loCtrlWrite v) s fun t => t.reg Reg.LO_CTRL = v % 2
        ∧ SameRegs s t [Reg.LO_CTRL] ∧ t.lo = s.lo ∧ t.evr = s.evr)
      ∧ (v.testBit 0 = true → s.lightOn = false → Completes (.loCtrlWrite v) s fun t => t.lightOn = true ∧ t.fld Reg.LO_FRAME 15 0 = 0
        ∧ t.bit Reg.PCR_GATE 12 = false ∧ t.lo.unis = [] ∧ t.lo.isOpen = false ∧ t.mem = s.mem ∧ t.evr = s.evr))

/-- sACN and DMX512-A (R376–R385; Tables 14.12, 14.14): a queued packet leaves its port or is discarded while it is down; a received packet is discarded,
or becomes or updates a sender, by its START code and sequence; a sender times out; a DMX packet ends; and an RDM transaction takes its response bytes, listens
no longer after its time, and ends.
Where a clause rests on a reading of the model, log entries 36 and 75 give it. -/
def Obligations.SacnAndDmx : Prop :=
  (∀ (s : State) (p : Fin 2), (∀ x ∈ s.lo.tx, x.port ≠ p.val) → Completes (.sacnPacketSent p) s fun t => t = s)
  ∧ (∀ (s : State) (p : Fin 2) (x : LoPacket) (rest : List LoPacket), s.lo.tx = x :: rest → x.port = p.val →
      (s.netOn p.val = true → s.netUp p.val = true → Completes (.sacnPacketSent p) s fun t => t.lo.tx = rest ∧ (t.uni x.uni).lastSent = s.clk.stm
        ∧ t.reg Reg.LO_TX_PACKETS = (s.reg Reg.LO_TX_PACKETS + 1) % 2 ^ 32 ∧ (s.held 1 = false → (∀ f ∈ s.net.waiting, f.port ≠ p.val ∨ 3 ≤ netClass f.kind) →
          t.out = .frame p.val 1 0 (s.netTag p.val 3) (x.dest :: x.payload.map (·.toNat)) :: s.out)
        ∧ SameRegs s t [Reg.LO_TX_PACKETS, Reg.NETP_TX_FRAMES p.val] ∧ t.mem = s.mem ∧ t.evr = s.evr)
      ∧ (s.netOn p.val = false ∨ s.netUp p.val = false → Completes (.sacnPacketSent p) s fun t => t.lo.tx = rest ∧ t.out = s.out
        ∧ t.reg (Reg.NETP_TX_DROPPED p.val) = (s.reg (Reg.NETP_TX_DROPPED p.val) + 1) % 2 ^ 32 ∧ SameRegs s t [Reg.NETP_TX_DROPPED p.val]))
  ∧ (∀ (s : State), (s.lightOn = false ∨ s.bit Reg.LO_TX_CFG 0 = false → Completes .sacnDiscoverySend s fun t => t = s)
      ∧ (s.lightOn = true → s.bit Reg.LO_TX_CFG 0 = true → Completes .sacnDiscoverySend s fun t => t.lo = s.lo ∧ t.mem = s.mem ∧ t.evr = s.evr
        ∧ SameRegs s t [Reg.NETP_TX_FRAMES 0, Reg.NETP_TX_FRAMES 1, Reg.NETP_TX_DROPPED 0, Reg.NETP_TX_DROPPED 1]))
  ∧ (∀ (s : State) (p : Fin 2) (k : SacnPacket), s.lightOn = false ∨ s.inRecords k.sacn p.val = [] → Completes (.sacnPacketReceived p k) s fun t => t = s)
  ∧ (∀ (s : State) (p : Fin 2) (k : SacnPacket) (i : Nat), s.lightOn = true → s.inRecords k.sacn p.val = [i] →
      (k.start ≠ 0 → Completes (.sacnPacketReceived p k) s fun t => t.fld (Reg.LO_RX_STATUS i) 9 0 = (s.fld (Reg.LO_RX_STATUS i) 9 0 + 1) % 1024
        ∧ t.lo = s.lo ∧ SameRegs s t [Reg.LO_RX_STATUS i] ∧ t.evr = s.evr)
      ∧ (k.kind = 0 → k.start = 0 → k.preview = false → (∀ x ∈ s.senders i, x.cid ≠ k.cid) → k.terminated = false → (s.senders i).length < 4 →
        Completes (.sacnPacketReceived p k) s fun t => t.senders i = s.senders i ++ [⟨k.cid, k.priority, k.seq % 256, p.val,
            (k.slots.take 512).map (·.toNat), s.clk.stm⟩] ∧ t.fld (Reg.LO_RX_STATUS i) 30 28 = (s.senders i).length + 1
          ∧ (∀ m, m ≠ i → t.senders m = s.senders m) ∧ SameRegs s t [Reg.LO_RX_STATUS i]))
  ∧ (∀ (s : State) (i : Fin 256) (cid : Nat), Completes (.sacnSenderTimeout i cid) s fun t => t.senders i.val = (s.senders i.val).filter (fun x => x.cid != cid)
      ∧ (∀ m, m ≠ i.val → t.senders m = s.senders m) ∧ SameRegs s t [Reg.LO_RX_STATUS i.val] ∧ t.mem = s.mem ∧ t.evr = s.evr)
  ∧ (∀ (s : State) (p : Fin 8), (s.dmxSending p.val = false → Completes (.dmxPacketEnd p) s fun t => t = s)
      ∧ (s.dmxSending p.val = true → s.dmxOn p.val = false → Completes (.dmxPacketEnd p) s fun t => t.dmxSending p.val = false
        ∧ t.fld (Reg.LO_DMX_STATUS p.val) 31 16 = (s.fld (Reg.LO_DMX_STATUS p.val) 31 16 + 1) % 65536 ∧ (t.dmx p.val).owed = false
        ∧ SameRegs s t [Reg.LO_DMX_STATUS p.val])
      ∧ (s.dmxSending p.val = true → s.dmxOn p.val = true → (s.dmx p.val).rdm = none → (s.dmx p.val).queue = [] → (s.dmx p.val).due = false →
        Completes (.dmxPacketEnd p) s fun t => t.dmxSending p.val = false ∧ SameRegs s t [Reg.LO_DMX_STATUS p.val]))
  ∧ (∀ (s : State) (p : Fin 8) (r : Rdm), (s.dmx p.val).rdm = some r →
      (r.listening = false → ∀ w, Completes (.rdmResponseByte p w) s fun t => t = s)
      ∧ (∀ b j, r.listening = true → s.job r.ctx r.sq = some j → r.got < j.f 0x14 2 → (s.reach r.ctx 0x20 (j.f 0x20 8 + r.got) 1 true).2 = none →
        s.eccIn true (j.f 0x20 8 + r.got) 1 = none →
        Completes (.rdmResponseByte p (.byte b)) s fun t => (t.dmx p.val).rdm = some { r with got := r.got + 1, listening := decide (r.got + 1 < j.f 0x14 2) }
          ∧ t.mem = (s.bufWrite (s.ctxPaddock r.ctx) (j.f 0x20 8 + r.got) [b]).mem ∧ t.evr = s.evr)
      ∧ (r.listening = true → Completes (.rdmResponseByte p .framing) s fun t => (t.dmx p.val).rdm = some { r with collision := true } ∧ t.mem = s.mem)
      ∧ (r.listening = true → Completes (.rdmResponseTimeout p) s fun t =>
        (t.dmx p.val).rdm = some { r with listening := false, none := decide (r.got = 0) } ∧ t.mem = s.mem ∧ t.regs = s.regs)
      ∧ (r.listening = false → Completes (.rdmResponseTimeout p) s fun t => t = s)
      ∧ (r.listening = true → Completes (.rdmTransactionEnd p) s fun t => t = s)
      ∧ (∀ j, r.listening = false → s.job r.ctx r.sq = some j → Completes (.rdmTransactionEnd p) s fun t => ∀ k ∈ (t.ctx r.ctx).jobs, k.sq ≠ r.sq))
  ∧ (∀ (s : State) (p : Fin 8), (s.dmx p.val).rdm = none → Completes (.rdmResponseTimeout p) s (fun t => t = s)
      ∧ Completes (.rdmTransactionEnd p) s (fun t => t = s) ∧ ∀ w, Completes (.rdmResponseByte p w) s fun t => t = s)

/-- R381: a packet of a live sender is accepted exactly when the difference between its sequence number and the last accepted one, taken as a signed
8-bit value, is greater than 0 or at most −20; another changes nothing but the count of discarded packets. -/
def Obligations.SacnSequenceRule : Prop :=
  ∀ (s : State) (p : Fin 2) (k : SacnPacket) (i : Nat) (x : Sender) (d : Int), s.lightOn = true → s.inRecords k.sacn p.val = [i] → k.kind = 0 →
    k.start = 0 → k.preview = false → s.senders i = [x] → x.cid = k.cid → x.port = p.val → x.seq < 256 →
    d = signedOf 8 ((k.seq % 256 + 256 - x.seq) % 256) →
    (0 < d ∨ d ≤ -20 → k.terminated = false → Completes (.sacnPacketReceived p k) s fun t => t.senders i =
      [{ x with prio := k.priority, seq := k.seq % 256, slots := (k.slots.take 512).map (·.toNat) }] ∧ SameRegs s t [Reg.LO_RX_STATUS i])
    ∧ (0 < d ∨ d ≤ -20 → k.terminated = true → Completes (.sacnPacketReceived p k) s fun t => t.senders i = [])
    ∧ (-20 < d → d ≤ 0 → Completes (.sacnPacketReceived p k) s fun t => t.lo = s.lo ∧ SameRegs s t [Reg.LO_RX_STATUS i]
      ∧ t.fld (Reg.LO_RX_STATUS i) 9 0 = (s.fld (Reg.LO_RX_STATUS i) 9 0 + 1) % 1024)

/-- Network ports (R387–R392, R401; Tables 15.1, 15.2): a fault takes a link down and counts it, and a module fault drives TXDIS for its pulse; a link comes
up after its lock and reports its groups; a received frame is counted as an error, discarded or left to its protocol; the port answers for its own address alone; a query is answered by
the groups joined; and a go write of the module's I2C runs one transaction.
Where a clause rests on a reading of the model, log entry 76 gives it. -/
def Obligations.NetworkPorts : Prop :=
  (∀ (s : State) (p : Fin 2), s.netOn p.val = false → (∀ c, Completes (.netLinkDown p c) s fun t => t = s)
      ∧ Completes (.netLinkUp p) s (fun t => t = s) ∧ Completes (.moduleFaultRetry p) s (fun t => t = s)
      ∧ (∀ f, Completes (.ethernetFrameReceived p f) s fun t => t = s) ∧ (∀ m a b, Completes (.arpRequest p m a b) s fun t => t = s)
      ∧ (∀ a b d, Completes (.icmpEchoRequest p a b d) s fun t => t = s) ∧ (∀ v g, Completes (.igmpQuery p v g) s fun t => t = s))
  ∧ (∀ (s : State) (p : Fin 2), s.netOn p.val = true → s.netUp p.val = true → (s.ptpPort ≠ p.val ∨ s.ptpRole = 0) →
      (∀ c, c ≠ .txflt → Completes (.netLinkDown p c) s fun t => t.netUp p.val = false ∧ t.bit Reg.NET_EVENT 0 = true
        ∧ t.fld (Reg.NETP_STATUS p.val) 15 0 = min (s.fld (Reg.NETP_STATUS p.val) 15 0 + 1) 65535
        ∧ t.reg (Reg.NETP_TX_DROPPED p.val) = (s.reg (Reg.NETP_TX_DROPPED p.val) + (s.lo.tx.filter (fun x => x.port == p.val)).length
            + (s.net.waiting.filter (fun f => f.port == p.val)).length) % 2 ^ 32
        ∧ t.lo.tx = s.lo.tx.filter (fun x => x.port != p.val) ∧ t.evr.offered.length = s.evr.offered.length + 1 ∧ t.mem = s.mem
        ∧ t.net = { s.net with waiting := s.net.waiting.filter fun f => f.port != p.val }
        ∧ t.out = s.out ∧ (c = .modabs → t.bit (Reg.NETP_STATUS p.val) 30 = false) ∧ (c = .los → t.bit (Reg.NETP_STATUS p.val) 29 = true)
        ∧ (c = .lock → t.bit (Reg.NETP_STATUS p.val) 16 = false))
      ∧ Completes (.netLinkDown p .txflt) s (fun t => t.netUp p.val = false ∧ t.bit (Reg.NETP_STATUS p.val) 28 = true
        ∧ t.bit (Reg.NETP_STATUS p.val) 27 = true ∧ (s.held 1 = false → t.out = .pin ("NET" ++ toString p.val ++ "_TXDIS") 1 :: s.out)
        ∧ ∃ r, t.evr.offered = s.evr.offered ++ [r, mkRec 0x0B03 [(8, p.val)] s.clk.stm])
      ∧ Completes (.netLinkUp p) s (fun t => t = s))
  ∧ (∀ (s : State) (p : Fin 2), s.netOn p.val = true → s.netUp p.val = false → (s.ptpPort ≠ p.val ∨ s.ptpRole = 0) →
      (∀ c, c ≠ .txflt → Completes (.netLinkDown p c) s fun t => SameRegs s t [Reg.NETP_STATUS p.val] ∧ t.evr = s.evr ∧ t.lo = s.lo ∧ t.mem = s.mem)
      ∧ Completes (.netLinkUp p) s (fun t => t.netUp p.val = true ∧ t.bit (Reg.NETP_STATUS p.val) 16 = true ∧ t.bit (Reg.NETP_STATUS p.val) 30 = true
        ∧ t.bit (Reg.NETP_STATUS p.val) 29 = false ∧ t.bit (Reg.NETP_STATUS p.val) 28 = false
        ∧ t.fld (Reg.NETP_STATUS p.val) 15 0 = s.fld (Reg.NETP_STATUS p.val) 15 0 ∧ t.bit Reg.NET_EVENT 0 = true
        ∧ t.evr.offered = s.evr.offered ++ [mkRec 0x0B02 [(8, p.val), (8, s.fld (Reg.NETP_CFG p.val) 0 0)] s.clk.stm] ∧ t.mem = s.mem
        ∧ t.net = { s.net with waiting := t.net.waiting, wire := t.net.wire, req := t.net.req }
        ∧ ∀ g ∈ s.joined p.val, Emit.frame p.val 7 0 (s.netTag p.val 4) [if s.net.igmpV2.getD p.val false then 2 else 3, g] ∈ t.out
          ∨ s.held 1 = true ∨ ∃ f ∈ t.net.waiting, f.port = p.val ∧ f.kind = 7 ∧ f.data = [if s.net.igmpV2.getD p.val false then 2 else 3, g]))
  ∧ (∀ (s : State) (p : Fin 2), (s.bit (Reg.NETP_STATUS p.val) 27 = true → Completes (.txdisPulseEnd p) s fun t =>
        t.bit (Reg.NETP_STATUS p.val) 27 = false ∧ (s.held 1 = false → t.out = .pin ("NET" ++ toString p.val ++ "_TXDIS") 0 :: s.out)
          ∧ SameRegs s t [Reg.NETP_STATUS p.val] ∧ t.evr = s.evr ∧ t.mem = s.mem)
      ∧ (s.bit (Reg.NETP_STATUS p.val) 27 = false → Completes (.txdisPulseEnd p) s fun t => t = s)
      ∧ (s.netOn p.val = true → s.bit (Reg.NETP_STATUS p.val) 28 = true → Completes (.moduleFaultRetry p) s fun t =>
        t.bit (Reg.NETP_STATUS p.val) 27 = true ∧ (s.held 1 = false → t.out = .pin ("NET" ++ toString p.val ++ "_TXDIS") 1 :: s.out) ∧ t.bit Reg.NET_EVENT 1 = true
          ∧ t.evr.offered = s.evr.offered ++ [mkRec 0x0B03 [(8, p.val)] s.clk.stm] ∧ t.mem = s.mem)
      ∧ (s.bit (Reg.NETP_STATUS p.val) 28 = false → Completes (.moduleFaultRetry p) s fun t => t = s))
  ∧ (∀ (s : State) (p : Fin 2) (f : EthFrame), s.netOn p.val = true → s.netUp p.val = true →
      (f.fcsOk = false ∨ f.sumsOk = false → Completes (.ethernetFrameReceived p f) s fun t =>
        t.reg (Reg.NETP_RX_ERRORS p.val) = (s.reg (Reg.NETP_RX_ERRORS p.val) + 1) % 2 ^ 32 ∧ SameRegs s t [Reg.NETP_RX_ERRORS p.val] ∧ t.evr = s.evr)
      ∧ (f.fcsOk = true → f.sumsOk = true → f.known = false ∨ f.fragment = true ∨ f.dest = .other →
        Completes (.ethernetFrameReceived p f) s fun t => t.reg (Reg.NETP_RX_FRAMES p.val) = (s.reg (Reg.NETP_RX_FRAMES p.val) + 1) % 2 ^ 32
          ∧ t.reg (Reg.NETP_RX_DISCARDS p.val) = (s.reg (Reg.NETP_RX_DISCARDS p.val) + 1) % 2 ^ 32
          ∧ SameRegs s t [Reg.NETP_RX_FRAMES p.val, Reg.NETP_RX_DISCARDS p.val] ∧ t.evr = s.evr ∧ t.net = s.net)
      ∧ (f.fcsOk = true → f.sumsOk = true → f.known = true → f.fragment = false → f.vid = none → s.bit (Reg.NETP_CFG p.val) 16 = false →
        f.dest = .own ∨ f.dest = .broadcast ∨ (∃ g, f.dest = .group g ∧ g ∈ s.joined p.val) →
        Completes (.ethernetFrameReceived p f) s fun t => t.reg (Reg.NETP_RX_FRAMES p.val) = (s.reg (Reg.NETP_RX_FRAMES p.val) + 1) % 2 ^ 32
          ∧ SameRegs s t [Reg.NETP_RX_FRAMES p.val] ∧ t.evr = s.evr ∧ t.net = s.net))
  ∧ (∀ (s : State) (p : Fin 2) (mac ip : Nat) (d : List Byte), s.netOn p.val = true → s.netUp p.val = true →
      Completes (.arpRequest p mac ip (s.reg (Reg.NETP_IP p.val))) s (fun t => SameRegs s t [Reg.NETP_TX_FRAMES p.val] ∧ t.mem = s.mem
        ∧ (s.wireFree p.val → t.out = .frame p.val 5 0 (s.netTag p.val 4)
          [mac, ip, s.reg64 (Reg.NETP_MAC_LO p.val) (Reg.NETP_MAC_HI p.val), s.reg (Reg.NETP_IP p.val)] :: s.out))
      ∧ Completes (.icmpEchoRequest p ip (s.reg (Reg.NETP_IP p.val)) d) s (fun t => SameRegs s t [Reg.NETP_TX_FRAMES p.val] ∧ t.mem = s.mem
        ∧ (s.wireFree p.val → t.out = .frame p.val 6 0 (s.netTag p.val 4) (ip :: s.reg (Reg.NETP_IP p.val) :: d.map (·.toNat)) :: s.out))
      ∧ (∀ a, a ≠ s.reg (Reg.NETP_IP p.val) → Completes (.arpRequest p mac ip a) s (fun t => t = s) ∧ Completes (.icmpEchoRequest p ip a d) s fun t => t = s)
      ∧ (∀ v2 g, p.val < s.net.igmpV2.length → Completes (.igmpQuery p v2 g) s fun t => t.net.igmpV2 = s.net.igmpV2.set p.val v2
        ∧ SameRegs s t [Reg.NETP_TX_FRAMES p.val] ∧ t.evr = s.evr ∧ t.mem = s.mem
        ∧ (s.wireFree p.val → ∀ x xs, (s.joined p.val).filter (fun x => g = 0 ∨ x = g) = x :: xs →
          t.out = .frame p.val 7 0 (s.netTag p.val 4) [if v2 then 2 else 3, x] :: s.out
            ∧ t.net.waiting = xs.map fun y => ⟨p.val, 7, [if v2 then 2 else 3, y], s.clk.stm⟩)))
  ∧ (∀ (s : State) (p : Fin 2) (v : Nat) (ack : Bool) (d : Byte), s.bit (Reg.NETP_I2C p.val) 30 = false →
      (v.testBit 31 = false → Completes (.sfpI2cTransaction p v ack d) s fun t => t.bit (Reg.NETP_I2C p.val) 30 = false ∧ t.out = s.out
        ∧ t.fld (Reg.NETP_I2C p.val) 22 0 = bitsOf v 22 0 ∧ t.bit (Reg.NETP_I2C p.val) 29 = s.bit (Reg.NETP_I2C p.val) 29
        ∧ SameRegs s t [Reg.NETP_I2C p.val])
      ∧ (v.testBit 31 = true → Completes (.sfpI2cTransaction p v ack d) s fun t => t.bit (Reg.NETP_I2C p.val) 30 = false
        ∧ t.bit (Reg.NETP_I2C p.val) 29 = !ack ∧ t.fld (Reg.NETP_I2C p.val) 22 8 = bitsOf v 22 8
        ∧ t.fld (Reg.NETP_I2C p.val) 7 0 = (if ack && v.testBit 24 then d.toNat else bitsOf v 7 0) ∧ SameRegs s t [Reg.NETP_I2C p.val]
        ∧ (s.held 1 = false → t.out = .i2c p.val (bitsOf v 22 16) (bitsOf v 15 8) (if v.testBit 24 then 256 else bitsOf v 7 0) :: s.out)))

/-- PTP and AES67 (R393–R400; Tables 15.3–15.5): PTP is heard on its port, in its domain and role alone; an Announce counts a clock; a Sync of the leader gives the
measured error, which makes a forward step, a growth of STM_OFS or a slew; the path delay is half of two transits; the device sends what its state calls for; a
receipt timeout enters HOLDOVER; an AES67 packet leaves with the next samples, or is played at its instant or lost, and one that has arrived on the other port of a
pair is dropped; and a stream that is lost runs its inputs dry.
Where a clause rests on a reading of the model, log entries 37 and 77 give it. -/
def Obligations.PtpAndAes67 : Prop :=
  (∀ (s : State) (p : Fin 2) (d : Nat) (m : PtpMsg), s.netOn p.val = false ∨ s.netUp p.val = false ∨ s.ptpPort ≠ p.val ∨ s.ptpRole = 0
      ∨ d ≠ s.fld Reg.NET_PTP_CFG 31 24 → Completes (.ptpMessageReceived p d m) s fun t => t = s)
  ∧ (∀ (s : State) (p : Fin 2) (d : Nat), s.netOn p.val = true → s.netUp p.val = true → s.ptpPort = p.val → s.ptpRole ≠ 0 →
      d = s.fld Reg.NET_PTP_CFG 31 24 →
      Completes (.ptpMessageReceived p d .management) s (fun t => SameRegs s t [Reg.NETP_RX_DISCARDS p.val] ∧ t.net = s.net ∧ t.clk = s.clk
        ∧ t.reg (Reg.NETP_RX_DISCARDS p.val) = (s.reg (Reg.NETP_RX_DISCARDS p.val) + 1) % 2 ^ 32)
      ∧ (∀ src ds, s.ptpRole = 2 → Completes (.ptpMessageReceived p d (.announce src ds)) s fun t => t = s)
      ∧ (∀ src ds, s.ptpRole = 1 → s.net.foreign = [] → Completes (.ptpMessageReceived p d (.announce src ds)) s fun t =>
        t.net = { s.net with foreign := [⟨src, ds, 1, s.clk.stm⟩] } ∧ t.regs = s.regs ∧ t.evr = s.evr)
      ∧ (∀ src ds ds' tm, s.ptpRole = 1 → s.net.foreign = [⟨src, ds', 1, tm⟩] → s.net.leader = none → ds.steps < 65535 →
        Completes (.ptpMessageReceived p d (.announce src ds)) s fun t => t.net.leader = some ⟨src, ds, 2, s.clk.stm⟩ ∧ t.net.synced = false
          ∧ t.fld Reg.NET_PTP_STATUS 15 0 = ds.steps + 1 ∧ t.fld Reg.NET_PTP_STATUS 27 24 = 8 ∧ t.clk = s.clk)
      ∧ (∀ l src seq two o, s.net.leader = some l → l.source ≠ src → Completes (.ptpMessageReceived p d (.sync src seq two o)) s fun t => t = s)
      ∧ (∀ l seq o, s.net.leader = some l → Completes (.ptpMessageReceived p d (.sync l.source seq true o)) s fun t =>
        t.net = { s.net with sync := some (seq, s.clk.stm) } ∧ t.regs = s.regs ∧ t.clk = s.clk)
      ∧ (∀ l seq o e, s.net.leader = some l → s.net.synced = true → s.stmState = 2 →
        e = (s.clk.stm : Int) - (o + s.pathDelay + s.asym + (s.stmOfs : Int)) → -2 ^ 31 ≤ e → e < 2 ^ 31 →
        Completes (.ptpMessageReceived p d (.sync l.source seq false o)) s fun t => t.fld Reg.NET_PTP_STATUS 27 24 = 9 ∧ t.net.sync = none
          ∧ t.net.pair = some (o, s.clk.stm) ∧ t.reg Reg.NET_PTP_OFFSET = toSigned 32 e
          ∧ t.net.good = (if e.natAbs ≤ 1000 then s.net.good + 1 else 0) ∧ t.stmState = 2
          ∧ (e < -(s.fld Reg.STM_CFG 15 0 : Int) * 1000 → (t.clk.stm : Int) = s.clk.stm - e ∧ t.bit Reg.STM_STATUS 8 = true
            ∧ t.bit Reg.NET_EVENT 3 = true ∧ t.stmOfs = s.stmOfs)
          ∧ ((s.fld Reg.STM_CFG 15 0 : Int) * 1000 < e → t.clk.stm = s.clk.stm ∧ t.bit Reg.STM_STATUS 9 = true
            ∧ (t.stmOfs : Int) = ((s.stmOfs : Int) + e) % 2 ^ 64)
          ∧ (-(s.fld Reg.STM_CFG 15 0 : Int) * 1000 ≤ e → e ≤ (s.fld Reg.STM_CFG 15 0 : Int) * 1000 → t.clk.stm = s.clk.stm ∧ t.stmOfs = s.stmOfs
            ∧ t.evr = s.evr ∧ ∃ r : Int, t.net.rate = some r ∧ -(s.fld Reg.STM_CFG 24 16 * 1000 : Nat) ≤ r ∧ r ≤ (s.fld Reg.STM_CFG 24 16 * 1000 : Nat)))
      ∧ (∀ l seq t4 t1 t2 t3, s.net.leader = some l → s.p2p = false → s.net.req = some (seq, t3) → s.net.pair = some (t1, t2) →
        Completes (.ptpMessageReceived p d (.delayResp l.source seq t4)) s fun t => SameRegs s t [Reg.NET_PTP_DELAY] ∧ t.clk.stm = s.clk.stm
          ∧ ∃ b : Nat, b < 2 ∧ t.reg Reg.NET_PTP_DELAY = toSigned 32 (((((t2 : Int) - t1) + (t4 - (t3 : Int))) + b) / 2))
      ∧ (∀ src seq t1 t2 t3, s.p2p = true → s.net.req = some (seq, t1) → Completes (.ptpMessageReceived p d (.pdelayResp src seq t2 t3)) s fun t =>
        SameRegs s t [Reg.NET_PTP_DELAY] ∧ ∃ b : Nat, b < 2 ∧
          t.reg Reg.NET_PTP_DELAY = toSigned 32 ((((s.clk.stm : Int) - (t1 : Int)) - (t3 - t2) + b) / 2))
      ∧ (∀ src seq, s.ptpLeads = true → s.p2p = false → Completes (.ptpMessageReceived p d (.delayReq src seq)) s fun t =>
        (s.wireFree p.val → t.out = .frame p.val 3 46 (s.netTag p.val 1) [9, seq, src, toSigned 80 s.ptpTime] :: s.out) ∧ SameRegs s t [Reg.NETP_TX_FRAMES p.val])
      ∧ (∀ src seq, s.p2p = true → Completes (.ptpMessageReceived p d (.pdelayReq src seq)) s fun t =>
        (s.wireFree p.val → t.out = .frame p.val 3 46 (s.netTag p.val 1) [3, seq, src, toSigned 80 s.ptpTime, toSigned 80 s.ptpTime] :: s.out)
          ∧ SameRegs s t [Reg.NETP_TX_FRAMES p.val]))
  ∧ (∀ (s : State), (s.ptpRole = 0 → ∀ w, Completes (.ptpMessageSend w) s fun t => t = s)
      ∧ (s.ptpRole ≠ 0 → s.ptpLeads = false → Completes (.ptpMessageSend .sync) s (fun t => t = s) ∧ Completes (.ptpMessageSend .announce) s fun t => t = s)
      ∧ (s.ptpRole ≠ 0 → s.netOn s.ptpPort = true → s.netUp s.ptpPort = true → ∀ q0 q1 q2, s.net.seqs = [q0, q1, q2] →
        (s.ptpLeads = true → Completes (.ptpMessageSend .sync) s (fun t => t.net.seqs = [(q0 + 1) % 65536, q1, q2] ∧ SameRegs s t [Reg.NETP_TX_FRAMES s.ptpPort]
            ∧ (s.wireFree s.ptpPort → t.out = .frame s.ptpPort 3 46 (s.netTag s.ptpPort 1)
                [0, q0, if s.bit Reg.NET_PTP_CFG 15 then toSigned 80 s.ptpTime else 0] :: s.out
              ∧ (s.bit Reg.NET_PTP_CFG 15 = false → t.net.waiting = [⟨s.ptpPort, 3, [8, q0, toSigned 80 s.ptpTime], s.clk.stm⟩])))
          ∧ Completes (.ptpMessageSend .announce) s (fun t => t.net.seqs = [q0, (q1 + 1) % 65536, q2] ∧ SameRegs s t [Reg.NETP_TX_FRAMES s.ptpPort]))
        ∧ (s.p2p = true → Completes (.ptpMessageSend .delayReq) s fun t =>
            (s.wireFree s.ptpPort → t.net.req = some (q2, s.clk.stm) ∧ t.out = .frame s.ptpPort 3 46 (s.netTag s.ptpPort 1) [2, q2] :: s.out)
          ∧ t.net.seqs = [q0, q1, (q2 + 1) % 65536] ∧ SameRegs s t [Reg.NETP_TX_FRAMES s.ptpPort])
        ∧ (s.p2p = false → s.ptpLeads = false → s.net.pair ≠ none → Completes (.ptpMessageSend .delayReq) s fun t =>
          t.net.seqs = [q0, q1, (q2 + 1) % 65536] ∧ SameRegs s t [Reg.NETP_TX_FRAMES s.ptpPort] ∧ (s.wireFree s.ptpPort →
            t.net.req = some (q2, s.clk.stm) ∧ t.out = .frame s.ptpPort 3 46 (s.netTag s.ptpPort 1) [1, q2] :: s.out))
        ∧ (s.p2p = false → s.ptpLeads = true ∨ s.net.pair = none → Completes (.ptpMessageSend .delayReq) s fun t => t = s)))
  ∧ (∀ (s : State) (a : Bool), (s.ptpRole = 0 ∨ s.stmState = 4 → Completes (.ptpReceiptTimeout a) s fun t => t = s)
      ∧ (s.ptpRole ≠ 0 → s.stmState = 2 → Completes (.ptpReceiptTimeout false) s fun t => t.stmState = 3 ∧ t.bit Reg.NET_EVENT 2 = true ∧ t.net = s.net
        ∧ t.evr.offered.length = s.evr.offered.length + 1 ∧ t.clk = s.clk)
      ∧ (s.ptpRole = 1 → s.stmState = 2 → Completes (.ptpReceiptTimeout true) s fun t => t.stmState = 3 ∧ t.net.leader = none ∧ t.net.foreign = [] ∧ t.clk = s.clk)
      ∧ (s.ptpRole = 3 → s.stmState = 2 → Completes (.ptpReceiptTimeout true) s fun t => t.stmState = 4 ∧ t.net.leader = none
        ∧ t.fld Reg.NET_PTP_STATUS 27 24 = 6 ∧ t.clk = s.clk))
  ∧ (∀ (s : State), (s.bit Reg.STM_PPS 0 = true → Completes .ppsPulse s fun t =>
        t = if s.held 9 = true then s else (s.emit (.pin "PPS_OUT" 1)).emit (.pin "PPS_OUT" 0))
      ∧ (s.bit Reg.STM_PPS 0 = false → Completes .ppsPulse s fun t => t = s))
  ∧ (∀ (s : State) (k : Fin 8) (c : Nat), c = s.reg (Reg.NET_AES_TX_CFG k.val) → (c.testBit 31 = false → Completes (.aes67TxPacket k) s fun t => t = s)
      ∧ (c.testBit 31 = true → k.val < s.net.tx.length → Completes (.aes67TxPacket k) s fun t => t.aesTx k.val =
          ⟨((s.aesTx k.val).seq + 1) % 65536, (s.aesTx k.val).fifo.drop (ptime c)⟩ ∧ (∀ m, m ≠ k.val → t.aesTx m = s.aesTx m) ∧ t.mem = s.mem
          ∧ t.reg (Reg.NET_AES_TX_STATUS k.val) = (s.reg (Reg.NET_AES_TX_STATUS k.val) + 1) % 2 ^ 32 ∧ t.evr = s.evr
          ∧ SameRegs s t [Reg.NET_AES_TX_STATUS k.val, Reg.NETP_TX_FRAMES 0, Reg.NETP_TX_FRAMES 1, Reg.NETP_TX_DROPPED 0, Reg.NETP_TX_DROPPED 1]))
  ∧ (∀ (s : State) (k : Fin 8) (p : Fin 2) (seq stamp : Nat) (xs : List (List Int)),
      (s.netOn p.val = false ∨ s.netUp p.val = false ∨ s.aesRxOn k.val p.val = false → Completes (.aes67RxPacket k p seq stamp xs) s fun t => t = s)
      ∧ (∀ play : Int, s.netOn p.val = true → s.netUp p.val = true → s.aesRxOn k.val p.val = true → s.netPair = false →
        (s.aesRx k.val).last = none → (s.aesRx k.val).seen = [] → (s.aesRx k.val).missing = [] →
        play = s.mediaNow + signedOf 32 ((((stamp % 2 ^ 32 : Nat) : Int) - s.mediaNow) % 2 ^ 32).toNat + (s.fld (Reg.NET_AES_RX_DELAY k.val) 9 0 : Int) →
        (play < s.mediaNow ∨ 960 < play - s.mediaNow → Completes (.aes67RxPacket k p seq stamp xs) s fun t =>
          (t.aesRx k.val).buf = (s.aesRx k.val).buf ∧ t.evr = s.evr ∧ t.fld (Reg.NET_AES_RX_STATUS k.val) 15 0 = (s.fld (Reg.NET_AES_RX_STATUS k.val) 15 0 + 1) % 65536 ∧ SameRegs s t [Reg.NET_AES_RX_STATUS k.val])
        ∧ (s.mediaNow ≤ play → play - s.mediaNow ≤ 960 → k.val < s.net.rx.length → Completes (.aes67RxPacket k p seq stamp xs) s fun t =>
          t.bit (Reg.NET_AES_RX_STATUS k.val) 31 = true ∧ SameRegs s t [Reg.NET_AES_RX_STATUS k.val] ∧ t.evr = s.evr ∧ (t.aesRx k.val).last = some (seq % 65536)
            ∧ (t.aesRx k.val).seen = [(seq % 65536, p.val)] ∧ (t.aesRx k.val).buf = (s.aesRx k.val).buf ++ (xs.take (ptime (s.reg (Reg.NET_AES_RX_CFG k.val)))).zipIdx.map fun f => (play.toNat + f.2, f.1)))
      ∧ (s.netOn p.val = true → s.netUp p.val = true → s.aesRxOn k.val p.val = true → s.netPair = true → (s.aesRx k.val).missing = [] →
        (s.aesRx k.val).seen.length ≤ 1024 → (seq % 65536, 1 - p.val) ∈ (s.aesRx k.val).seen → Completes (.aes67RxPacket k p seq stamp xs) s fun t =>
          t.net = s.net ∧ t.evr = s.evr ∧ SameRegs s t [Reg.NET_AES_RX_STATUS k.val]
            ∧ t.fld (Reg.NET_AES_RX_STATUS k.val) 15 0 = s.fld (Reg.NET_AES_RX_STATUS k.val) 15 0))
  ∧ (∀ (s : State) (k : Fin 8), (s.bit (Reg.NET_AES_RX_STATUS k.val) 31 = false → Completes (.aesRxLoss k) s fun t => t = s)
      ∧ (s.bit (Reg.NET_AES_RX_STATUS k.val) 31 = true → Completes (.aesRxLoss k) s fun t => t.bit (Reg.NET_AES_RX_STATUS k.val) 31 = false
        ∧ t.bit Reg.NET_EVENT 4 = true ∧ t.net = s.net ∧ t.mem = s.mem
        ∧ (s.bit Reg.AUD_STATUS 31 = false → t.evr.offered = s.evr.offered ++ [mkRec 0x0B07 [(8, k.val)] s.clk.stm])
        ∧ (s.bit Reg.AUD_STATUS 31 = true → ∀ i < 128, s.fld (Reg.AUD_IN_CFG_ACT i) 26 24 = 2 → s.fld (Reg.AUD_IN_CFG_ACT i) 22 16 / 8 = k.val →
          t.bit (Reg.AUD_IN_METER i) 30 = true)))

/-- Touch (R402–R423; Tables 16.1, 16.5): enabling a unit begins its first capture or is refused with CONFLICT, and clearing it stops it; a frame ends with its
stamp and number, and its captures advance; a node tracks its raw value; a key goes down and up after its frames; a stuck touch is released with reason STUCK; a
privileged key held long is marked; a commit is busy, rejected or waits; and the wake zone is captured, scanned, and wakes the chip.
Where a clause rests on a reading of the model, log entries 60, 61, 62, 63, 64 and 65 give it. -/
def Obligations.TouchFramesAndKeys : Prop :=
  (∀ (s : State) (u : Nat), u < 9 → s.fld Reg.TCH_CTRL 8 0 = 0 → s.tch.commit = none → u < s.tch.units.length → (s.tchUnit u).begun = false →
      (s.tchConflict u = false → Completes (.tchCtrlWrite (2 ^ u)) s fun t => t.fld Reg.TCH_CTRL 8 0 = 2 ^ u ∧ t.reg Reg.TCH_FRAME = 0
        ∧ t.bit Reg.PCR_GATE 14 = false ∧ t.fld (tchStatus u) 31 30 = 1 ∧ t.fld (tchStatus u) 29 28 = s.startPlan u
        ∧ t.bit Reg.TCH_STATUS (16 + u) = true ∧ (t.tchUnit u).begun = true ∧ t.mem = s.mem ∧ t.evr = s.evr
        ∧ (t.tchUnit u).caps = [⟨s.startPlan u, (List.range (s.unitGrid u).size).map fun i => (i, 0), 0, true⟩])
      ∧ (s.tchConflict u = true → Completes (.tchCtrlWrite (2 ^ u)) s fun t => t.fld Reg.TCH_CTRL 8 0 = 0 ∧ t.bit Reg.TCH_EVENT 8 = true ∧ t.tch = s.tch
        ∧ t.mem = s.mem ∧ t.evr.offered = s.evr.offered ++ [mkRec 0x0C09 [(8, u)] s.clk.stm]))
  ∧ (∀ (s : State) (n : Nat), n < 8 → s.fld Reg.TCH_CTRL 8 0 = 2 ^ n → (s.tchUnit n).contacts = [] → Completes (.tchCtrlWrite 0) s fun t =>
      t.fld Reg.TCH_CTRL 8 0 = 0 ∧ t.tchUnit n = {} ∧ t.fld (tchStatus n) 31 30 = 0 ∧ t.bit Reg.TCH_STATUS n = false
        ∧ t.bit Reg.TCH_STATUS (16 + n) = false ∧ SameRegs s t [Reg.TCH_CTRL, Reg.TCH_STATUS, tchStatus n] ∧ t.mem = s.mem ∧ t.evr = s.evr)
  ∧ (∀ (s : State) (raw : List (Nat × List Nat)) (noise : List (Nat × Nat × Nat)),
      (s.fld Reg.TCH_CTRL 8 0 = 0 → Completes (.touchFrameEnd raw noise) s fun t => t = s)
      ∧ (∀ u p l f, u < 9 → s.fld Reg.TCH_CTRL 8 0 = 2 ^ u → s.tch.commit = none → s.tch.lost = [] → s.tch.resync = [] → s.safetyPaddock = none →
        (∀ v < 9, v ≠ u → (s.tchUnit v).begun = false) → (s.tchUnit u).begun = true → s.plans u ≠ 0 → s.reg Reg.TCH_FRAME % 16 ≠ 15 →
        s.fld (tchStatus u) 31 30 = 1 → s.planNow u = p → (s.tchUnit u).caps = [⟨p, l, f, true⟩] → f < 3 →
        Completes (.touchFrameEnd raw noise) s fun t => t.tch.tF = s.clk.stm ∧ t.tch.nF = s.reg Reg.TCH_FRAME
          ∧ t.reg Reg.TCH_FRAME = (s.reg Reg.TCH_FRAME + 1) % 2 ^ 32 ∧ SameRegs s t [Reg.TCH_FRAME] ∧ t.mem = s.mem ∧ t.evr = s.evr
          ∧ (t.tchUnit u).frames = (s.tchUnit u).frames + 1 ∧ (t.tchUnit u).caps =
            [⟨p, l.map fun e => (e.1, e.2 + (((raw.find? fun r => r.1 == u).map (·.2)).getD []).getD e.1 0), f + 1, true⟩]))
  ∧ (∀ (s : State) (u p : Nat) (l : List (Nat × Nat)) (raw : List Nat), u < 9 → u < s.tch.units.length → (s.tchUnit u).caps = [⟨p, l, 3, true⟩] →
      s.fld (tchStatus u) 31 30 = 1 → p < 4 → (s.captureFrame u p raw).fld (tchStatus u) 31 30 = 2 ∧ (s.captureFrame u p raw).captured u p = true
        ∧ (s.captureFrame u p raw).bit Reg.TCH_STATUS u = true ∧ (s.captureFrame u p raw).bit Reg.TCH_EVENT 1 = true
        ∧ ((s.captureFrame u p raw).tchUnit u).caps = []
        ∧ (s.captureFrame u p raw).evr.offered = s.evr.offered ++ [mkRec 0x0C02 [(8, u), (8, p)] s.clk.stm])
  ∧ (∀ (g : Grid) (base raw : List Nat) (shift i : Nat), i < g.size → base.getD i 0 < 65536 → raw.getD i 0 < 65536 →
      ∃ b, (trackNodes g base raw [] [] shift)[i]? = some b ∧ (raw.getD i 0 = base.getD i 0 → b = base.getD i 0)
        ∧ min (base.getD i 0) (raw.getD i 0) ≤ b ∧ b ≤ max (base.getD i 0) (raw.getD i 0))
  ∧ (∀ (s : State) (m : Nat) (v : List Int) (th key : Nat), th = s.reg (Reg.TCH_CTL_THRESH_ACT m) → key = s.reg (Reg.TCH_CTL_KEY_ACT m) →
      s.fld (Reg.TCH_CTL_CFG m) 1 0 = 1 → s.pkOf m = none → s.bit (Reg.TCH_CTL_ACT_ACT m) 13 = false →
      ((s.ctl m).pressed = false → (bitsOf th 15 0 : Int) ≤ v.foldl max 0 → max 1 (bitsOf key 3 0) ≤ (s.ctl m).run + 1 →
        ((s.controlFrame m v).1.ctl m).pressed = true ∧ ((s.controlFrame m v).1.ctl m).pressT = s.clk.stm ∧ (s.controlFrame m v).2.2 = []
          ∧ (s.controlFrame m v).2.1.map (·.state) = (if s.ctlHolder m = none then [] else [0]))
      ∧ ((s.ctl m).pressed = false → v.foldl max 0 < (bitsOf th 15 0 : Int) →
        (s.controlFrame m v).1.ctl m = { s.ctl m with run := 0 } ∧ (s.controlFrame m v).2 = ([], []))
      ∧ ((s.ctl m).pressed = true → v.foldl max 0 < (bitsOf th 31 16 : Int) → max 1 (bitsOf key 7 4) ≤ (s.ctl m).run + 1 →
        ((s.controlFrame m v).1.ctl m).pressed = false ∧ ((s.controlFrame m v).1.ctl m).run = 0
          ∧ (s.controlFrame m v).2.1.map (·.state) = (if s.ctlHolder m = none then [] else [2]))
      ∧ ((s.ctl m).pressed = true → (bitsOf th 31 16 : Int) ≤ v.foldl max 0 → ((s.controlFrame m v).1.ctl m).pressed = true
        ∧ ((s.controlFrame m v).1.ctl m).run = 0 ∧ (s.controlFrame m v).2 = ([], [])))
  ∧ (∀ (s : State) (n : Fin 8) (d : Fin 20),
      ((s.tchUnit n.val).contacts.find? (fun c => c.ident == d.val) = none → Completes (.stuckRelease (.contact n d)) s fun t => t = s)
      ∧ (∀ x, (s.tchUnit n.val).contacts.find? (fun c => c.ident == d.val) = some x →
        (s.stuck x.still = false → Completes (.stuckRelease (.contact n d)) s fun t => t = s)
        ∧ (s.stuck x.still = true → s.fieldHolder n.val = none → Completes (.stuckRelease (.contact n d)) s fun t =>
          (∀ c ∈ (t.tchUnit n.val).contacts, c.ident ≠ d.val) ∧ t.bit Reg.TCH_EVENT 6 = true ∧ t.mem = s.mem
            ∧ t.evr.offered = s.evr.offered ++ [mkRec 0x0C07 [(8, n.val), (8, d.val)] s.clk.stm])))
  ∧ (∀ (s : State) (m : Fin 256), ((s.pkOf m.val).isSome = true → Completes (.stuckRelease (.control m)) s fun t => t = s)
      ∧ (∀ o, (s.ctl m.val).pressed = true → s.pkOf m.val = none → (s.ctl m.val).still = some o → s.stuck o = true → s.ctlHolder m.val = none →
        Completes (.stuckRelease (.control m)) s fun t => (t.ctl m.val).pressed = false ∧ t.bit Reg.TCH_EVENT 6 = true ∧ t.mem = s.mem
          ∧ t.evr.offered = s.evr.offered ++ [mkRec 0x0C07 [(16, m.val), (8, 0)] s.clk.stm]))
  ∧ (∀ (s : State) (k : Fin 32), (s.ctlOfPk k.val = none → Completes (.keyHeldLong k) s fun t => t = s)
      ∧ (∀ m n, s.ctlOfPk k.val = some m → n = s.fld (Reg.TCH_CTL_KEY_ACT m) 31 16 →
        ((s.ctl m).pressed = false ∨ n = 0 ∨ s.bit Reg.TCH_PK_LONG k.val = true ∨ s.clk.stm < (s.ctl m).pressT + n * 1000000000 →
          Completes (.keyHeldLong k) s fun t => t = s)
        ∧ ((s.ctl m).pressed = true → n ≠ 0 → s.bit Reg.TCH_PK_LONG k.val = false → (s.ctl m).pressT + n * 1000000000 ≤ s.clk.stm →
          s.safetyPaddock = none → Completes (.keyHeldLong k) s fun t => t.bit Reg.TCH_PK_LONG k.val = true ∧ t.bit Reg.TCH_EVENT 5 = true ∧ t.tch = s.tch
            ∧ t.evr.offered = s.evr.offered ++ [mkRec 0x0C06 [(8, k.val)] s.clk.stm] ∧ t.mem = s.mem)))
  ∧ (∀ (s : State) (p : Fin 64), (s.reaches p.val = true → Completes (.touchResync p) s fun t => t.tch = { s.tch with asked := p.val :: s.tch.asked }
        ∧ t.regs = s.regs ∧ t.mem = s.mem ∧ t.evr = s.evr) ∧ (s.reaches p.val = false → Completes (.touchResync p) s fun t => t = s))
  ∧ (∀ (s : State) (scope : Nat), (s.tch.commit ≠ none → Completes (.touchCommit scope) s fun t => t.bit Reg.TCH_COMMIT_STATUS 4 = true
        ∧ SameRegs s t [Reg.TCH_COMMIT_STATUS] ∧ t.tch = s.tch ∧ t.evr = s.evr)
      ∧ (s.tch.commit = none → s.touchCheck scope = 0 → Completes (.touchCommit scope) s fun t => t.bit Reg.TCH_COMMIT_STATUS 0 = true
        ∧ SameRegs s t [Reg.TCH_COMMIT_STATUS] ∧ t.evr = s.evr ∧ ∃ ws, t.tch.commit = some ⟨ws⟩ ∧ ∀ k ∈ tchKeys scope, (k, s.reg k) ∈ ws)
      ∧ (s.tch.commit = none → s.touchCheck scope ≠ 0 → Completes (.touchCommit scope) s fun t => t.bit Reg.TCH_COMMIT_STATUS 3 = true
        ∧ t.fld Reg.TCH_COMMIT_STATUS 15 8 = s.touchCheck scope ∧ t.bit Reg.TCH_EVENT 0 = true ∧ t.tch = s.tch
        ∧ t.evr.offered.length = s.evr.offered.length + 1))
  ∧ (∀ (s : State) (raw : List Nat), (s.grazing = false → Completes (.grazeScan raw) s fun t => t = s)
      ∧ (s.grazing = true → s.tch.graze.frames < 4 → Completes (.grazeScan raw) s fun t => t.tch.graze.frames = s.tch.graze.frames + 1 ∧ t.regs = s.regs
        ∧ t.tch.graze.sums = (List.range s.zoneGrid.size).map (fun i => s.tch.graze.sums.getD i 0 + raw.getD i 0) ∧ t.pwr = s.pwr ∧ t.evr = s.evr)
      ∧ (s.grazing = true → 4 ≤ s.tch.graze.frames → s.fld Reg.TCH_GRAZE 10 9 = 1 →
        ((∀ i < s.zoneGrid.size, (deltas s.tch.graze.base raw).getD i 0 < (s.fld Reg.TCH_GRAZE 31 16 : Int)) →
          Completes (.grazeScan raw) s fun t => t.regs = s.regs ∧ t.pwr = s.pwr ∧ t.tch.graze.woke = s.tch.graze.woke ∧ t.evr = s.evr)
        ∧ (∀ i < s.zoneGrid.size, (s.fld Reg.TCH_GRAZE 31 16 : Int) ≤ (deltas s.tch.graze.base raw).getD i 0 →
          (∀ j < i, (deltas s.tch.graze.base raw).getD j 0 < (s.fld Reg.TCH_GRAZE 31 16 : Int)) → s.devState = 3 → s.bit Reg.PCR_WAKE_CFG 0 = true →
          s.pwr.trans = none → Completes (.grazeScan raw) s fun t => t.tch.graze.woke = some (1, i) ∧ t.pwr.wake = some (0, 1, 0)
            ∧ t.fld Reg.PCR_WAKE_INFO 31 24 = 0 ∧ SameRegs s t [Reg.PCR_WAKE_INFO] ∧ t.evr = s.evr)))
  ∧ (∀ (s : State), Completes .grazeSlideTimeout s fun t => t.tch.graze = { s.tch.graze with slide := none } ∧ t.regs = s.regs ∧ t.mem = s.mem
      ∧ t.evr = s.evr ∧ t.pwr = s.pwr)

/-- Haptics (R425–R435; Tables 17.2–17.4): the library is checked once and its bad effects recorded; a tick of a disabled block does nothing, and one of an idle
block only counts; the loop's drive is clamped to u_max; a playing effect advances, brakes at its end, and trips at a limit; triggers queue, cut or are dropped; a
fault pin, a stop, a clear and a SPUR pin act on their channel, and in RECOVERY the SPUR pins show in WH_STATUS (R87); and a commit is busy, rejected or waits for its channels.
Where a clause rests on a reading of the model, log entries 66 and 67 give it. -/
def Obligations.HapticEffectsAndFaults : Prop :=
  (∀ (s : State), (s.hap.enabledOnce = false ∨ s.bit Reg.HAP_STATUS 16 = true → Completes .hapLibraryCheckDone s fun t => t = s)
      ∧ (s.hap.enabledOnce = true → s.bit Reg.HAP_STATUS 16 = false → Completes .hapLibraryCheckDone s fun t => t.bit Reg.HAP_STATUS 16 = true
        ∧ t.hap.lib = (List.range 256).map s.effectCheck ∧ t.mem = s.mem
        ∧ t.reg Reg.HAP_LIB = ((List.range 256).filter fun e => 2 ≤ s.effectCheck e).length * 65536 + ((List.range 256).filter fun e => s.effectCheck e = 1).length
        ∧ t.evr.offered.length = s.evr.offered.length + ((List.range 256).filter fun e => 2 ≤ s.effectCheck e).length))
  ∧ (∀ (s : State) (e : Nat), (s.effect e 2 2 = 0 → s.effectCheck e = 0)
      ∧ (s.effectCheck e = 1 → 64 * s.effect e 0 2 + 2 * s.effect e 2 2 ≤ s.hapBytes ∧ s.effect e 7 1 = 0 ∧ s.effect e 12 4 = 0
        ∧ crc32c (s.bytes .basin (s.hapBase + 64 * s.effect e 0 2) (2 * s.effect e 2 2)) = s.effect e 8 4))
  ∧ (∀ (s : State) (acc : List (List Nat)), (s.bit Reg.HAP_STATUS 31 = false → Completes (.hapticControlTick acc) s fun t => t = s)
      ∧ (s.bit Reg.HAP_STATUS 31 = true → s.bit Reg.HAP_COMMIT_STATUS 0 = false → s.hap.arrivals = [] → s.hap.waits = [] → s.hap.chans.length = 16 →
        (∀ n < 16, s.hapOn n = false ∧ s.hapState n = 0 ∧ (s.hapCh n).words = [] ∧ (s.hapCh n).play = none ∧ (s.hapCh n).fifo = []
          ∧ 64 ≤ (s.hapCh n).zeroTicks ∧ (s.hapCh n).drive = 0) → Completes (.hapticControlTick acc) s fun t => t.hap.tick = s.hap.tick + 1
          ∧ t.out = s.out ∧ t.evr = s.evr ∧ t.mem = s.mem ∧ t.ctxs = s.ctxs ∧ ∀ n < 16, t.hapState n = 0 ∧ (t.hapCh n).play = none ∧ (t.hapCh n).integ = 0))
  ∧ (∀ (s : State) (n : Nat) (g a i : Int), s.fld (Reg.HAPC_DRIVE n) 31 24 ≠ 0 →
      s.uMax n = (1024 * s.fld (Reg.HAPC_LIMIT_ACT n) 31 24 / s.fld (Reg.HAPC_DRIVE n) 31 24 : Nat) ∧ |(s.hapLoop n g a i).1| ≤ s.uMax n
        ∧ ((s.hapLoop n g a i).2 = true → |(s.hapLoop n g a i).1| = s.uMax n)
        ∧ ((s.hapLoop n g a i).2 = false → s.openLoop n = true → (s.hapLoop n g a i).1 = Int.tdiv ((s.fld (Reg.HAPC_LOOP_ACT n) 31 24 : Int) * g) 256))
  ∧ (∀ (s : State) (n : Nat) (p : Play) (a : Int), n < 16 → s.hap.chans.length = 16 → p.brake = none → p.tripped = false →
      (p.i + 1 < s.effectLen p.trig.effect → ((s.hapCh n).counted s.hap.tick true).on < s.fld (Reg.HAPC_LIMIT_ACT n) 15 8 * 80 →
        ((s.hapCh n).counted s.hap.tick true).duty s.hap.tick < s.dutyBound n →
        ((s.playTick n p a).hapCh n).play = some { p with i := p.i + 1 } ∧ (s.playTick n p a).hapState n = 1 ∧ (s.playTick n p a).evr = s.evr
          ∧ |((s.playTick n p a).hapCh n).integ| ≤ 32767)
      ∧ (s.effectLen p.trig.effect ≤ p.i + 1 → ((s.hapCh n).counted s.hap.tick true).on < s.fld (Reg.HAPC_LIMIT_ACT n) 15 8 * 80 →
        ((s.hapCh n).counted s.hap.tick true).duty s.hap.tick < s.dutyBound n →
        ((s.playTick n p a).hapCh n).play = some { p with i := p.i + 1, brake := some 0 } ∧ (s.playTick n p a).hapState n = 2)
      ∧ (p.i + 1 < s.effectLen p.trig.effect → s.fld (Reg.HAPC_LIMIT_ACT n) 15 8 * 80 ≤ ((s.hapCh n).counted s.hap.tick true).on →
        ((s.playTick n p a).hapCh n).play = some { p with i := p.i + 1, brake := some 0, tripped := true } ∧ (s.playTick n p a).hapState n = 2
          ∧ (s.playTick n p a).fld (Reg.HAPC_COUNT n) 15 0 = min (s.fld (Reg.HAPC_COUNT n) 15 0 + 1) 65535 ∧ (s.playTick n p a).bit Reg.HAP_EVENT 0 = true
          ∧ (s.playTick n p a).evr.offered = s.evr.offered ++ [mkRec 0x0D02 [(8, n), (8, 0), (8, p.trig.effect)] s.clk.stm]))
  ∧ (∀ (s : State) (a : Arrival) (cut : Option Arrival), a.source = 1 → a.channel < 16 → s.hap.chans.length = 16 → a.trig.job = none →
      (s.hapOn a.channel = true → s.bit Reg.HAP_STATUS 16 = true → s.hapState a.channel ≠ 4 → s.effectOk a.trig.effect = true → s.resting a.channel = false →
        a.trig.cut = false → (s.hapCh a.channel).fifo.length < 4 → (s.takeTrigger cut a).2 = cut
          ∧ ((s.takeTrigger cut a).1.hapCh a.channel).fifo = (s.hapCh a.channel).fifo ++ [a.trig]
          ∧ (s.takeTrigger cut a).1.hap.arrivals = s.hap.arrivals.erase a ∧ (s.takeTrigger cut a).1.evr = s.evr)
      ∧ (s.hapOn a.channel = false → (s.takeTrigger cut a).2 = cut ∧ (s.takeTrigger cut a).1.hap.chans = s.hap.chans
        ∧ (s.takeTrigger cut a).1.fld (Reg.HAPC_COUNT a.channel) 31 16 = min (s.fld (Reg.HAPC_COUNT a.channel) 31 16 + 1) 65535))
  ∧ (∀ (s : State) (n : Fin 16), s.hap.chans.length = 16 →
      Completes (.hapFaultPin n false) s (fun t => (t.hapCh n.val) = { s.hapCh n.val with fltLow := false } ∧ SameRegs s t [Reg.HAPC_STATUS n.val] ∧ t.evr = s.evr)
      ∧ (s.hapState n.val = 4 → Completes (.hapFaultPin n true) s fun t => (t.hapCh n.val) = { s.hapCh n.val with fltLow := true } ∧ t.evr = s.evr)
      ∧ (s.hapState n.val ≠ 4 → (s.hapCh n.val).play = none → (s.hapCh n.val).fifo = [] → (s.hapCh n.val).drive = 0 →
        Completes (.hapFaultPin n true) s fun t => t.hapState n.val = 4 ∧ (t.hapCh n.val).fltLow = true ∧ (t.hapCh n.val).integ = 0
          ∧ t.bit Reg.HAP_EVENT 1 = true ∧ t.out = s.out ∧ t.mem = s.mem
          ∧ t.evr.offered = s.evr.offered ++ [mkRec 0x0D03 [(8, n.val), (8, s.fld (Reg.HAPC_STATUS n.val) 23 16)] s.clk.stm])
      ∧ ((s.hapCh n.val).fltLow = true ∨ (s.hapState n.val ≠ 4 ∧ s.openLoop n.val = false) → Completes (.hapClearFault n) s fun t => t = s)
      ∧ ((s.hapCh n.val).fltLow = false → s.hapState n.val = 4 → Completes (.hapClearFault n) s fun t => t.hapState n.val = 0 ∧ t.openLoop n.val = false
        ∧ (t.hapCh n.val).zero = none ∧ (t.hapCh n.val).zeroTicks = 0 ∧ t.evr = s.evr ∧ t.mem = s.mem
        ∧ SameRegs s t [Reg.HAPC_STATUS n.val, Reg.HAP_STATUS])
      ∧ ((∀ t ∈ (s.hapCh n.val).fifo, t.job = none) → (∀ p, (s.hapCh n.val).play = some p → Completes (.hapStop n) s fun t => t.hapState n.val = 2
          ∧ (t.hapCh n.val).fifo = [] ∧ (t.hapCh n.val).play = some { p with brake := some (p.brake.getD 0) } ∧ t.mem = s.mem ∧ t.evr = s.evr)
        ∧ ((s.hapCh n.val).play = none → Completes (.hapStop n) s fun t => (t.hapCh n.val) = { s.hapCh n.val with fifo := [] } ∧ t.mem = s.mem
          ∧ SameRegs s t [Reg.HAPC_STATUS n.val])))
  ∧ (∀ (s : State) (k : Fin 4) (l : Bool) (w : Nat), w = s.reg (Reg.HAP_SPUR_CFG k.val) →
      (s.pins.spur.testBit k.val = l ∨ w.testBit 31 = false ∨ w.testBit 30 = l ∨ s.devState ≠ 3 ∨ s.bit Reg.HAP_STATUS 31 = false →
        Completes (.spurTrigger k l) s fun t => t.pins.spur.testBit k.val = l ∧ t.hap = s.hap ∧ t.evr = s.evr ∧ t.mem = s.mem
          ∧ (s.devState ≠ 4 → t.regs = s.regs)
          ∧ (s.devState = 4 → t.fld Reg.WH_STATUS 11 8 = t.pins.spur % 16 ∧ SameRegs s t [Reg.WH_STATUS]))
      ∧ (s.pins.spur.testBit k.val ≠ l → w.testBit 31 = true → w.testBit 30 ≠ l → s.devState = 3 → s.bit Reg.HAP_STATUS 31 = true →
        Completes (.spurTrigger k l) s fun t => t.pins.spur.testBit k.val = l ∧ t.regs = s.regs ∧ t.evr = s.evr ∧ t.hap =
          { s.hap with arrivals := s.hap.arrivals ++ [⟨0, k.val, bitsOf w 3 0, ⟨bitsOf w 19 12, w.testBit 20, 255, none⟩⟩] }))
  ∧ (∀ (s : State) (scope : Nat), (s.bit Reg.HAP_COMMIT_STATUS 0 = true → Completes (.hapCommit scope) s fun t => t.bit Reg.HAP_COMMIT_STATUS 4 = true
        ∧ SameRegs s t [Reg.HAP_COMMIT_STATUS] ∧ t.hap = s.hap ∧ t.evr = s.evr)
      ∧ (s.bit Reg.HAP_COMMIT_STATUS 0 = false → s.hapCheck ((List.range 16).filter scope.testBit) ≠ 0 → Completes (.hapCommit scope) s fun t =>
        t.bit Reg.HAP_COMMIT_STATUS 3 = true ∧ t.fld Reg.HAP_COMMIT_STATUS 15 8 = s.hapCheck ((List.range 16).filter scope.testBit) ∧ t.hap = s.hap
          ∧ t.bit Reg.HAP_EVENT 0 = true ∧ t.evr.offered.length = s.evr.offered.length + 1)
      ∧ (s.bit Reg.HAP_COMMIT_STATUS 0 = false → s.hapCheck ((List.range 16).filter scope.testBit) = 0 → s.hap.chans.length = 16 →
        Completes (.hapCommit scope) s fun t => t.bit Reg.HAP_COMMIT_STATUS 0 = true ∧ t.evr = s.evr ∧ t.mem = s.mem
          ∧ ∀ n < 16, scope.testBit n = true → ((t.hapCh n).words.map (·.1)) = hapKeys n ∧ ∀ k ∈ hapKeys n, (k, s.reg k) ∈ (t.hapCh n).words))
  ∧ (∀ (s : State) (v : Nat), (v.testBit 0 = false → (∀ n < 16, (s.hapCh n).drive = 0) → Completes (.hapCtrlWrite v) s fun t => t.reg Reg.HAP_CTRL = 0
        ∧ t.bit Reg.HAP_STATUS 31 = false ∧ SameRegs s t [Reg.HAP_CTRL, Reg.HAP_STATUS] ∧ t.hap = s.hap ∧ t.out = s.out ∧ t.evr = s.evr)
      ∧ (v.testBit 0 = true → s.hap.enabledOnce = true → Completes (.hapCtrlWrite v) s fun t => t.reg Reg.HAP_CTRL = 1 ∧ t.bit Reg.HAP_STATUS 31 = true
        ∧ t.bit Reg.PCR_GATE 15 = false ∧ SameRegs s t [Reg.HAP_CTRL, Reg.HAP_STATUS, Reg.PCR_GATE] ∧ t.hap = s.hap ∧ t.evr = s.evr)
      ∧ (v.testBit 0 = true → s.hap.enabledOnce = false → s.hap.chans.length = 16 → Completes (.hapCtrlWrite v) s fun t => t.reg Reg.HAP_CTRL = 1
        ∧ t.bit Reg.HAP_STATUS 31 = true ∧ t.hap.enabledOnce = true ∧ t.evr = s.evr ∧ t.mem = s.mem
        ∧ ∀ n < 16, s.hapOn n = true → (t.hapCh n).zeroTicks = 0 ∧ (t.hapCh n).zeroSum = 0))

/-- Audio (R437–R452; Tables 18.1–18.6): the first enable zeroes the matrix; a block start numbers and stamps the block and makes it begin; a gain is written to
the inactive bank and a copy makes both alike; a commit is busy, rejected or waits, and applies; voices ask, start and fade; a sink stays within 24 bits; a
realignment and a slave port's slip, loss and lock are recorded; and clips are checked once.
Where a clause rests on a reading of the model, log entries 68 and 69 give it. -/
def Obligations.AudioBlocksAndMatrix : Prop :=
  (∀ (s : State) (v : Nat), (v.testBit 0 = false → Completes (.audCtrlWrite v) s fun t => t.reg Reg.AUD_CTRL = 0 ∧ t.bit Reg.AUD_STATUS 31 = false
        ∧ SameRegs s t [Reg.AUD_CTRL, Reg.AUD_STATUS] ∧ t.aud.inBlock = false ∧ t.aud.ready = [] ∧ t.aud.bufs = s.aud.bufs ∧ t.mem = s.mem ∧ t.evr = s.evr
        ∧ (s.held 7 = false → t.out = .pin "AUD_MCLK_OUT" 0 :: s.out))
      ∧ (v.testBit 0 = true → s.bit Reg.AUD_STATUS 31 = true → Completes (.audCtrlWrite v) s fun t => t.reg Reg.AUD_CTRL = 1 ∧ t.bit Reg.AUD_STATUS 31 = true
        ∧ t.bit Reg.PCR_GATE 16 = false ∧ SameRegs s t [Reg.AUD_CTRL, Reg.AUD_STATUS, Reg.PCR_GATE] ∧ t.aud = s.aud ∧ t.mem = s.mem
        ∧ (s.held 7 = false → t.out = .pin "AUD_MCLK_OUT" (b2n (s.bit Reg.AUD_CFG 4)) :: s.out))
      ∧ (v.testBit 0 = true → s.bit Reg.AUD_STATUS 31 = false → s.aud.enabledOnce = false → s.mem.bad = [] → Completes (.audCtrlWrite v) s fun t =>
        t.reg Reg.AUD_CTRL = 1 ∧ t.bit Reg.AUD_STATUS 31 = true ∧ t.reg Reg.AUD_BLOCK = 0 ∧ t.aud.enabledOnce = true ∧ t.evr = s.evr
          ∧ ∀ b < 2, ∀ e < 8192, t.gainIn b e = 0))
  ∧ (∀ (s : State) (tdm : List (Nat × List Int)), (s.bit Reg.AUD_STATUS 31 = false → ∀ sl, Completes (.audioBlockStart tdm sl) s fun t => t = s)
      ∧ (s.bit Reg.AUD_STATUS 31 = true → s.aud.inBlock = false → s.aud.ready = [] → s.aud.commit = none → s.aud.asks = [] → s.aud.voices = [] →
        s.aud.plays = [] → s.aud.caps = [] → (∀ i < 128, s.fld (Reg.AUD_IN_CFG_ACT i) 26 24 ≠ 3 ∧ bitsOf (s.oldWord (Reg.AUD_IN_CFG_ACT i)) 26 24 ≠ 3) → Completes (.audioBlockStart tdm []) s fun t =>
          t.reg Reg.AUD_BLOCK = (s.reg Reg.AUD_BLOCK + 1) % 2 ^ 32 ∧ t.reg64 Reg.AUD_BLOCK_TIME_LO Reg.AUD_BLOCK_TIME_HI = s.clk.stm % 2 ^ 64
            ∧ t.aud = { s.aud with inBlock := true, media := s.blockIndex } ∧ t.mem = s.mem ∧ t.evr = s.evr ∧ t.out = s.out ∧ t.ctxs = s.ctxs
            ∧ ∀ k < 8, k < s.net.tx.length → (t.aesTx k).fifo = (s.aesTx k).fifo ++
              (if s.bit (Reg.NET_AES_TX_CFG k) 31 = true ∧ s.fast = false ∧ s.mclkIn = false then List.replicate 64 (List.replicate 8 0) else [])))
  ∧ (∀ (s : State) (p : Nat) (d : Bool), p < 8 → (s.tdmLocked p = false ∨ s.bit (Reg.AUD_TDM_CFG p) 1 = true → s.tdmSlip p d = s)
      ∧ (s.tdmLocked p = true → s.bit (Reg.AUD_TDM_CFG p) 1 = false → (s.tdmSlip p d).bit Reg.AUD_EVENT 3 = true
        ∧ (s.tdmSlip p d).fld (Reg.AUD_TDM_STATUS p) 15 0 = min (s.fld (Reg.AUD_TDM_STATUS p) 15 0 + 1) 65535 ∧ (s.tdmSlip p d).aud = s.aud))
  ∧ (∀ (s : State) (bs : List (Nat × List Nat)) (k : Nat), (s.sinkOf bs k).length = 64 ∧ ∀ x ∈ s.sinkOf bs k, -8388608 ≤ x ∧ x ≤ 8388607)
  ∧ (∀ cfg n : Nat, (cfg.testBit 0 = true → factorOf cfg n = (0, 0)) ∧ (cfg.testBit 0 = false → cfg.testBit 1 = false ∨ n ≤ 1 → factorOf cfg n = (3, 0))
      ∧ (cfg.testBit 0 = false → cfg.testBit 1 = true → 1 < n → factorOf cfg n = (if cfg.testBit 2 then 2 else 1, n)))
  ∧ (∀ (s : State) (v : Fin 64), Completes (.voiceStart v) s (fun t => t.aud = { s.aud with asks := s.aud.asks ++ [(v.val, true)] } ∧ t.regs = s.regs
        ∧ t.mem = s.mem ∧ t.evr = s.evr)
      ∧ Completes (.voiceStop v) s (fun t => t.aud = { s.aud with asks := s.aud.asks ++ [(v.val, false)] } ∧ t.regs = s.regs ∧ t.mem = s.mem ∧ t.evr = s.evr))
  ∧ (∀ (s : State) (v : Nat), v < 64 → (s.aud.clips.getD (s.voiceClip v) 0 = 1 → v < s.voicesOn → (s.voiceAct v true).voice v = { pos := some 0 }
        ∧ (s.voiceAct v true).bit (Reg.AUD_VOICE_STATUS v) 0 = true ∧ (s.voiceAct v true).evr = s.evr)
      ∧ (2 ≤ s.aud.clips.getD (s.voiceClip v) 0 → (s.voiceAct v true).aud = s.aud ∧ (s.voiceAct v true).evr.offered =
        s.evr.offered ++ [mkRec 0x0E06 [(8, s.voiceClip v), (8, s.aud.clips.getD (s.voiceClip v) 0 - 2)] s.clk.stm])
      ∧ (∀ i, (s.voice v).pos = some i → ((s.voiceAct v false).voice v).fade = true ∧ ((s.voiceAct v false).voice v).pos = some i))
  ∧ (∀ (s : State) (v : Nat), (s.aud.sync ≠ none → Completes (.audXpDataWrite v) s fun t => t.bit Reg.AUD_EVENT 6 = true ∧ t.mem = s.mem ∧ t.aud = s.aud
        ∧ t.reg Reg.AUD_XP_ADDR = s.reg Reg.AUD_XP_ADDR ∧ t.evr.offered = s.evr.offered ++ [mkRec 0x0E09 [(32, Reg.AUD_XP_DATA)] s.clk.stm])
      ∧ (∀ e, s.aud.sync = none → e = s.fld Reg.AUD_XP_ADDR 12 0 → s.mem.bad = [] → Completes (.audXpDataWrite v) s fun t =>
        t.gainIn (1 - s.audBank) e = v % 65536 ∧ t.fld Reg.AUD_XP_ADDR 12 0 = (e + 1) % 8192 ∧ SameRegs s t [Reg.AUD_XP_ADDR] ∧ t.evr = s.evr ∧ t.aud = s.aud
          ∧ ∀ m a, m ≠ .basin ∨ a < s.xpAt (1 - s.audBank) + 2 * e ∨ s.xpAt (1 - s.audBank) + 2 * e + 2 ≤ a → t.byte m a = s.byte m a)
      ∧ Completes (.audXpSync v) s (fun t => t.fld Reg.AUD_XP_ADDR 12 0 = v % 8192 ∧ SameRegs s t [Reg.AUD_XP_ADDR] ∧ t.mem = s.mem ∧ t.evr = s.evr
        ∧ t.aud.sync = (if v.testBit 31 = true ∧ s.aud.sync = none then some s.audBank else s.aud.sync)))
  ∧ (∀ (s : State), (s.aud.sync = none → Completes .audXpSyncDone s fun t => t = s)
      ∧ (∀ b, s.aud.sync = some b → b < 2 → s.mem.bad = [] → Completes .audXpSyncDone s fun t => t.aud.sync = none ∧ t.regs = s.regs ∧ t.evr = s.evr
        ∧ ∀ e < 8192, t.gainIn (1 - b) e = s.gainIn b e ∧ t.gainIn b e = s.gainIn b e))
  ∧ (∀ (s : State) (sw at' : Bool), (s.aud.commit ≠ none → Completes (.audCommit sw at') s fun t => t.bit Reg.AUD_COMMIT_STATUS 4 = true
        ∧ SameRegs s t [Reg.AUD_COMMIT_STATUS] ∧ t.aud = s.aud ∧ t.evr = s.evr)
      ∧ (s.aud.commit = none → s.audCheck ≠ 0 → Completes (.audCommit sw at') s fun t => t.bit Reg.AUD_COMMIT_STATUS 3 = true ∧ t.aud = s.aud
        ∧ t.fld Reg.AUD_COMMIT_STATUS 15 8 = s.audCheck ∧ t.bit Reg.AUD_EVENT 0 = true ∧ t.evr.offered.length = s.evr.offered.length + 1)
      ∧ (s.aud.commit = none → s.audCheck = 0 → Completes (.audCommit sw at') s fun t => t.bit Reg.AUD_COMMIT_STATUS 0 = true ∧ t.bit Reg.AUD_STATUS 28 = true
        ∧ SameRegs s t [Reg.AUD_COMMIT_STATUS, Reg.AUD_STATUS] ∧ t.evr = s.evr ∧ ∃ ws, (∀ k ∈ audKeys, (k, s.reg k) ∈ ws) ∧ t.aud.commit =
          some ⟨sw, if at' then some (s.reg64 Reg.AUD_COMMIT_TIME_LO Reg.AUD_COMMIT_TIME_HI) else none, ws⟩))
  ∧ (∀ (s : State) (m : AudCommit), s.aud.commit = some m → (∀ g, m.target = some g → s.clk.stm < g → s.audApply = s)
      ∧ ((∀ g, m.target = some g → g ≤ s.clk.stm) → s.audApply.aud.commit = none ∧ s.audApply.bit Reg.AUD_COMMIT_STATUS 1 = true
        ∧ s.audApply.bit Reg.AUD_COMMIT_STATUS 0 = false ∧ s.audApply.bit Reg.AUD_STATUS 28 = false ∧ s.audApply.bit Reg.AUD_EVENT 0 = true
        ∧ (m.switch = true → s.audApply.audBank = 1 - s.audBank) ∧ s.audApply.evr.offered.length = s.evr.offered.length + 1))
  ∧ (∀ (s : State) (sh : Int), (s.bit Reg.AUD_STATUS 31 = false ∨ s.mclkIn = true → Completes (.realign sh) s fun t => t = s)
      ∧ (s.bit Reg.AUD_STATUS 31 = true → s.mclkIn = false → Completes (.realign sh) s fun t => t.bit Reg.AUD_EVENT 5 = true ∧ t.aud = s.aud ∧ t.mem = s.mem
        ∧ t.evr.offered = s.evr.offered ++ [mkRec 0x0E08 [(32, toSigned 32 sh)] s.clk.stm]))
  ∧ (∀ (s : State) (p : Fin 8), (s.tdmLocked p.val = false ∨ s.bit (Reg.AUD_TDM_CFG p.val) 1 = true → Completes (.tdmLost p) s fun t => t = s)
      ∧ (s.tdmLocked p.val = true → s.bit (Reg.AUD_TDM_CFG p.val) 1 = false → Completes (.tdmLost p) s fun t => t.tdmLocked p.val = false
        ∧ t.bit Reg.AUD_EVENT 3 = true ∧ t.aud = s.aud ∧ t.evr.offered = s.evr.offered ++ [mkRec 0x0E05 [(8, p.val)] s.clk.stm])
      ∧ (s.bit (Reg.AUD_TDM_CFG p.val) 0 = true → s.bit Reg.AUD_STATUS 31 = true → Completes (.tdmLocked p) s fun t => t.tdmLocked p.val = true
        ∧ SameRegs s t [Reg.AUD_TDM_STATUS p.val] ∧ t.aud = s.aud ∧ t.evr = s.evr)
      ∧ (s.bit (Reg.AUD_TDM_CFG p.val) 0 = false ∨ s.bit Reg.AUD_STATUS 31 = false → Completes (.tdmLocked p) s fun t => t = s))
  ∧ (∀ (s : State), (s.aud.enabledOnce = false ∨ s.aud.clips ≠ [] → Completes .clipCheckDone s fun t => t = s)
      ∧ (s.aud.enabledOnce = true → s.aud.clips = [] → Completes .clipCheckDone s fun t => t.aud = { s.aud with clips := (List.range 256).map s.clipCheck }
        ∧ t.regs = s.regs ∧ t.mem = s.mem ∧ t.evr.offered.length = s.evr.offered.length + ((List.range 256).filter fun k => 2 ≤ s.clipCheck k).length))

/-- Power states and wake (R465–R473, R85; Tables 20.1–20.5): a request is dropped, refused or begins a transition; a block's answer delays, refuses or
accepts, and the last acceptance enters GALLOP, TROT, WALK or GRAZE with its rails commanded over AVSBus; a timeout refuses; a gate is set, denied for a claimed block or refused for an enabled one; a wake source
refuses a transition, starts the wake or reboots; the wake goes by its steps; and RUN is entered once a slot is loaded.
Where a clause rests on a reading of the model, log entries 18, 20, 21, 53, 57 and 92 give it. -/
def Obligations.PowerStatesAndRunEntry : Prop :=
  (∀ (s : State) (v : Nat), v.testBit 31 = false ∨ s.devState ≠ 3 → Completes (.powerStateRequest v) s fun t => t = s)
  ∧ (∀ (s : State) (v n : Nat), v.testBit 31 = true → n = bitsOf v 2 0 → s.devState = 3 →
      (s.pwr.trans ≠ none → Completes (.powerStateRequest v) s fun t => t.fld Reg.PCR_STATUS 15 8 = 3 ∧ t.bit Reg.PCR_STATUS 2 = true ∧ t.pwr = s.pwr
        ∧ t.bit Reg.PCR_EVENT 1 = true ∧ t.evr.offered.length = s.evr.offered.length + 1)
      ∧ (s.pwr.trans = none → (4 < n ∨ n = s.power ∨ (n = 3 ∧ s.bit Reg.PCR_CFG 30 = false) ∨ (n = 4 ∧ s.bit Reg.PCR_CFG 31 = false)) →
        Completes (.powerStateRequest v) s fun t => t.fld Reg.PCR_STATUS 15 8 = 5 ∧ t.fld Reg.PCR_STATUS 26 24 = n ∧ t.bit Reg.PCR_STATUS 2 = true
          ∧ t.power = s.power ∧ t.pwr = s.pwr ∧ t.bit Reg.PCR_EVENT 1 = true)
      ∧ (s.pwr.trans = none → n ≤ 4 → n ≠ s.power → (n = 3 → s.bit Reg.PCR_CFG 30 = true) → (n = 4 → s.bit Reg.PCR_CFG 31 = true) →
        Completes (.powerStateRequest v) s fun t => t.pwr = { s.pwr with trans := some (n, if n ≤ 2 then [10] else List.range 23) } ∧ t.evr = s.evr
          ∧ t.bit Reg.PCR_STATUS 23 = true ∧ t.fld Reg.PCR_STATUS 26 24 = n ∧ t.power = s.power ∧ SameRegs s t [Reg.PCR_STATUS]))
  ∧ (∀ (s : State) (b : Fin 23) (a : HsAnswer), (s.pwr.trans = none → Completes (.blockHandshakeAnswer b a) s fun t => t = s)
      ∧ (∀ n l, s.pwr.trans = some (n, l) → (b.val ∉ l ∨ s.answerOf b.val n a = .delay → Completes (.blockHandshakeAnswer b a) s fun t => t = s)
        ∧ (∀ r, b.val ∈ l → s.answerOf b.val n a = .refuse r → Completes (.blockHandshakeAnswer b a) s fun t => t.pwr = { s.pwr with trans := none }
          ∧ t.fld Reg.PCR_STATUS 20 16 = b.val ∧ t.fld Reg.PCR_STATUS 15 8 = r.val ∧ t.bit Reg.PCR_STATUS 23 = false ∧ t.bit Reg.PCR_STATUS 2 = true
          ∧ t.power = s.power ∧ t.bit Reg.PCR_EVENT 1 = true
          ∧ t.evr.offered = s.evr.offered ++ [mkRec 0x1002 [(8, b.val), (8, r.val), (8, n)] s.clk.stm])
        ∧ (b.val ∈ l → s.answerOf b.val n a = .accept → l.erase b.val ≠ [] → Completes (.blockHandshakeAnswer b a) s fun t =>
          t = { s with pwr := { s.pwr with trans := some (n, l.erase b.val) } })
        ∧ (b.val ∈ l → s.answerOf b.val n a = .accept → l.erase b.val = [] → n = 2 → Completes (.blockHandshakeAnswer b a) s fun t => t.power = 2
          ∧ t.ja.clkMhz = 0 ∧ t.pwr = { s.pwr with trans := none, avs := s.pwr.avs ++ [(0, 0, 550, 0)] } ∧ t.bit Reg.PCR_STATUS 23 = false
          ∧ t.bit Reg.PCR_STATUS 1 = true ∧ t.bit Reg.PCR_EVENT 0 = true ∧ (s.pwr.avs = [] → s.held 9 = false → t.out = .avs 0 0 550 :: s.out)
          ∧ t.evr.offered = s.evr.offered ++ [mkRec 0x1001 [(8, s.power), (8, 2)] s.clk.stm])
        ∧ (b.val ∈ l → s.answerOf b.val n a = .accept → l.erase b.val = [] → n ≤ 1 → Completes (.blockHandshakeAnswer b a) s fun t => t.power = n
          ∧ t.pwr.trans = none ∧ t.bit Reg.PCR_STATUS 23 = false ∧ t.bit Reg.PCR_STATUS 1 = true ∧ t.bit Reg.PCR_EVENT 0 = true
          ∧ (s.power = 2 → t.pwr.moving = some t.targetPoint ∧ t.pwr.avs = s.pwr.avs ++ [(0, 0, pointMv t.targetPoint, 0)])
          ∧ t.evr.offered = s.evr.offered ++ [mkRec 0x1001 [(8, s.power), (8, n)] s.clk.stm])
        ∧ (b.val ∈ l → s.answerOf b.val n a = .accept → l.erase b.val = [] → n = 3 → (∀ k < 19, s.claimed k = false) →
          Completes (.blockHandshakeAnswer b a) s fun t => t.power = 3 ∧ t.sec.paused = true ∧ t.pins.maskedRails = [0] ∧ t.pins.pgoodMasked = true
            ∧ t.pwr.trans = none ∧ t.pwr.back = s.power ∧ t.pwr.wake = s.pwr.wake ∧ t.tch.graze = {} ∧ t.ja.clkMhz = 0
            ∧ t.pwr.avs = s.pwr.avs ++ [(0, 5, 0, 0), (1, 0, 600, 0)]
            ∧ (∀ c < 8, s.bit Reg.MEM_STATUS (16 + c) = true → t.bit (Reg.MEM_CH_STATUS c) 8 = true) ∧ t.mem = s.mem)))
  ∧ (∀ (s : State), ((s.pwr.trans = none ∨ ∃ n, s.pwr.trans = some (n, [])) → Completes .handshakeTimeout s fun t => t = s)
      ∧ (∀ n b l, s.pwr.trans = some (n, b :: l) → b < 32 → Completes .handshakeTimeout s fun t => t.pwr = { s.pwr with trans := none }
        ∧ t.fld Reg.PCR_STATUS 20 16 = b ∧ t.fld Reg.PCR_STATUS 15 8 = 4 ∧ t.bit Reg.PCR_STATUS 23 = false ∧ t.power = s.power
        ∧ t.evr.offered = s.evr.offered ++ [mkRec 0x1002 [(8, b), (8, 4), (8, n)] s.clk.stm]))
  ∧ (∀ (s : State) (v : Nat) (l : List Nat), l = (List.range 23).filter (fun b => v.testBit b && !s.bit Reg.PCR_GATE b) →
      (∀ b, l.find? s.claimed = some b → Completes (.pcrGateWrite v) s fun t => t.reg Reg.PCR_GATE = s.reg Reg.PCR_GATE ∧ t.fld Reg.PCR_DENIED 4 0 = b
        ∧ t.bit Reg.PCR_EVENT 2 = true ∧ t.evr.offered = s.evr.offered ++ [mkRec 0x1003 [(8, b), (32, Reg.PCR_GATE)] s.clk.stm])
      ∧ ((∀ b ∈ l, s.claimed b = false) → (∃ b ∈ l, s.blockOn b = true) → Completes (.pcrGateWrite v) s fun t =>
        t.reg Reg.PCR_GATE = s.reg Reg.PCR_GATE ∧ t.bit Reg.PCR_EVENT 5 = true ∧ t.evr.offered = s.evr.offered ++ [mkRec 0x1008 [(32, Reg.PCR_GATE)] s.clk.stm])
      ∧ ((∀ b ∈ l, s.claimed b = false ∧ s.blockOn b = false) → Completes (.pcrGateWrite v) s fun t => t.fld Reg.PCR_GATE 22 0 = v % 2 ^ 23
        ∧ SameRegs s t [Reg.PCR_GATE] ∧ t.evr = s.evr ∧ t.pwr = s.pwr))
  ∧ (∀ (s : State) (k : Fin 3) (b : Fin 4), (s.devState ≠ 3 ∨ s.bit Reg.PCR_WAKE_CFG k.val = false → Completes (.wakeSource k b) s fun t => t = s.jumpers b)
      ∧ (s.devState = 3 → s.bit Reg.PCR_WAKE_CFG k.val = true →
        (∀ n l, s.pwr.trans = some (n, l) → (n < 3 → Completes (.wakeSource k b) s fun t => t = s.jumpers b)
          ∧ (3 ≤ n → Completes (.wakeSource k b) s fun t => t.pwr = { s.pwr with trans := none } ∧ t.fld Reg.PCR_STATUS 15 8 = 6 ∧ t.power = s.power
            ∧ t.fld Reg.PCR_STATUS 20 16 = (if k.val = 2 then 20 else 14) ∧ t.bit Reg.PCR_EVENT 1 = true))
        ∧ (s.pwr.trans = none → s.power < 3 → Completes (.wakeSource k b) s fun t => t = s.jumpers b)
        ∧ (s.pwr.trans = none → s.power = 3 → s.pwr.wake = none → Completes (.wakeSource k b) s fun t => t.pwr = { s.pwr with
            wake := some (k.val, 1, 0)
            avs := s.pwr.avs ++ [(0, 5, 1, 0), (0, 0, 550, 0), (1, 0, s.fusedMv, 0)] }
          ∧ t.fld Reg.PCR_WAKE_INFO 31 24 = k.val ∧ SameRegs s t [Reg.PCR_WAKE_INFO] ∧ t.evr = s.evr)
        ∧ (s.pwr.trans = none → s.power = 4 → k.val = 1 → Completes (.wakeSource k b) s fun t => t.devState = 1 ∧ t.fld Reg.SYS_STATE 23 16 = 5
          ∧ t.fld Reg.PCR_WAKE_INFO 31 24 = 1 ∧ t.pins.bootSample = b.val ∧ t.pins.maskedRails = [] ∧ t.pins.pgoodMasked = false)))
  ∧ (∀ (s : State) (b : Fin 4), (s.devState = 3 → s.power = 4 → s.bit Reg.PCR_WAKE_CFG 3 = true → s.reg Reg.PCR_STABLED_TIMER ≠ 0 →
        Completes (.stabledTimerExpiry b) s fun t => t.devState = 1 ∧ t.fld Reg.SYS_STATE 23 16 = 5 ∧ t.fld Reg.PCR_WAKE_INFO 31 24 = 3
          ∧ t.pins.bootSample = b.val ∧ t.pins.maskedRails = [] ∧ t.pins.pgoodMasked = false)
      ∧ (s.devState ≠ 3 ∨ s.power ≠ 4 ∨ s.bit Reg.PCR_WAKE_CFG 3 = false ∨ s.reg Reg.PCR_STABLED_TIMER = 0 →
        Completes (.stabledTimerExpiry b) s fun t => t = s)
      ∧ (s.pwr.wake = none → Completes .wakeStepReady s (fun t => t = s) ∧ Completes .wakeStepTimeout s fun t => t = s)
      ∧ (∀ a n k, s.pwr.wake = some (a, n, k) → (n ≠ 4 → Completes .wakeStepReady s fun t => t.pwr = { s.pwr with wake := some (a, n + 1, k) } ∧ t.clk = s.clk
          ∧ t.evr = s.evr ∧ (n = 1 → t.pins.maskedRails = [] ∧ t.pins.pgoodMasked = false ∧ t.regs = s.regs) ∧ (n = 2 → t.regs = s.regs)
          ∧ (n = 3 → ∀ c < 8, s.bit Reg.MEM_STATUS (16 + c) = true → t.bit (Reg.MEM_CH_STATUS c) 8 = false))
        ∧ (n = 4 → s.pwr.back < 8 → s.tch.graze.woke = none → Completes .wakeStepReady s fun t => t.power = s.pwr.back ∧ t.pwr.wake = none
          ∧ t.sec.paused = false ∧ t.clk.stm = s.clk.stm + aonNs s.pwr.grazeTicks ∧ t.sec.lastKick = t.clk.stm
          ∧ t.fld Reg.PCR_WAKE_INFO 12 0 = min (k * 5 / 6000) 8191
          ∧ (s.pwr.back ≠ 2 → t.pwr.moving = some t.targetPoint ∧ t.pwr.avs = s.pwr.avs ++ [(0, 0, pointMv t.targetPoint, 0)])
          ∧ t.evr.offered = s.evr.offered ++ [mkRec 0x1007 [(8, a), (32, k * 5 / 6000)] (s.clk.stm + aonNs s.pwr.grazeTicks)])
        ∧ Completes .wakeStepTimeout s (fun t => t.boot.resetCause = some 3 ∧ t.fld Reg.PCR_WAKE_INFO 18 16 = n % 8 ∧ t.mem = {})))
  ∧ (∀ (s : State), (s.devState ≠ 2 ∨ s.boot.loaded = none → Completes .runEntry s fun t => t = s)
      ∧ (s.devState = 2 → s.boot.loaded ≠ none → s.bit Reg.JA_CTRL 0 = false → (∀ n < 8, s.bit (Reg.HD_CTRL n) 0 = false ∧ s.bit (Reg.LO_DMX_CFG n) 1 = false) →
        s.bit Reg.LO_CTRL 0 = false → s.reg Reg.NET_CTRL % 4 = 0 → s.reg Reg.TCH_CTRL % 512 = 0 → s.bit Reg.HAP_CTRL 0 = false → s.bit Reg.AUD_CTRL 0 = false →
        Completes .runEntry s fun t => t.devState = 3 ∧ t.fld Reg.SYS_STATE 10 8 = 2 ∧ t.boot.loaded = none ∧ t.clk.runEntry = s.clk.stm
          ∧ t.power = (if s.boot.runPower ≤ 2 then s.boot.runPower else 0) ∧ t.bit Reg.SEC_STATUS 0 = true ∧ t.bit Reg.SEC_STATUS 1 = true
          ∧ t.sec.paused = false ∧ (s.clk.stm < 65536000000 → t.fld Reg.WH_LOAD_TIME 15 0 = s.clk.stm / 1000000)))

/-- Clocks and the AVSBus (R474–R478; Table 20.7): a point is requested when it differs from the one in force; its change waits for target jobs and then goes out
over AVSBus, after the transactions that wait there; each is acknowledged, which sets its rail, tried three times or failed; a thermal sample is shown; and the cap falls while a limit is exceeded and rises once both are
clear.
Where a clause rests on a reading of the model, log entries 18, 19 and 57 give it. -/
def Obligations.JetPointsAndThrottle : Prop :=
  (∀ (s : State) (v : Nat), Completes (.pcrJetPointWrite v) s fun t => t.fld Reg.PCR_JET_POINT 2 0 = v % 8 ∧ SameRegs s t [Reg.PCR_JET_POINT] ∧ t.evr = s.evr
      ∧ t.pwr = { s.pwr with dvfs := if t.targetPoint = s.pwr.moving.getD (s.fld Reg.PCR_JET_STATE 18 16) then none else some t.targetPoint })
  ∧ (∀ (s : State), s.targetPoint ≤ s.fld Reg.PCR_JET_POINT 2 0 ∧ s.targetPoint ≤ s.fld Reg.PCR_JET_STATE 26 24
      ∧ (s.power = 1 → s.targetPoint ≤ s.fld Reg.PCR_CFG 18 16))
  ∧ (∀ (s : State) (c : Instr), c = .dvfs ∨ c = .dvfsDeferralExpiry →
      (s.pwr.dvfs = none ∨ s.pwr.moving ≠ none ∨ 1 < s.power → Completes c s fun t => t = s)
      ∧ (c = .dvfs → s.bit Reg.JA_PREEMPT_STATUS 31 = true → Completes c s fun t => t = s)
      ∧ (∀ n, (c = .dvfs → s.bit Reg.JA_PREEMPT_STATUS 31 = false) → s.pwr.dvfs = some n → n < 8 → s.pwr.moving = none → s.power ≤ 1 → Completes c s fun t =>
        t.pwr = { s.pwr with dvfs := none, moving := some n, avs := s.pwr.avs ++ [(0, 0, pointMv n, 0)] } ∧ t.evr = s.evr
          ∧ (s.pwr.avs = [] → s.held 9 = false → t.out = .avs 0 0 (pointMv n) :: s.out) ∧ (s.pwr.avs ≠ [] → t.out = s.out)
          ∧ t.fld Reg.PCR_JET_STATE 18 16 = min n (s.fld Reg.PCR_JET_STATE 18 16) ∧ t.fld Reg.PCR_JET_STATE 10 0 = s.fld Reg.PCR_JET_STATE 10 0
          ∧ SameRegs s t [Reg.PCR_JET_STATE, Reg.JA_FREQ]))
  ∧ (∀ (s : State) (ack : Bool), (s.pwr.avs = [] → Completes (.avsTransactionEnd ack) s fun t => t = s)
      ∧ (∀ r c v f l, s.pwr.avs = (r, c, v, f) :: l →
        (∀ n, s.pwr.moving = some n → n < 8 → r = 0 → c = 0 → v = pointMv n → Completes (.avsTransactionEnd true) s fun t => t.pwr.avs = l
          ∧ t.pwr.moving = none ∧ t.fld Reg.PCR_JET_STATE 18 16 = n ∧ t.fld Reg.PCR_JET_STATE 10 0 = v ∧ t.pins.jetMv = v
          ∧ t.reg Reg.JA_FREQ = n * 65536 + pointMhz n
          ∧ t.evr.offered = s.evr.offered ++ [mkRec 0x1004 [(8, n), (16, v)] s.clk.stm])
        ∧ (s.pwr.moving = none → r = 0 → c = 0 → v < 2048 → Completes (.avsTransactionEnd true) s fun t => t.pwr = { s.pwr with avs := l }
          ∧ t.fld Reg.PCR_JET_STATE 10 0 = v ∧ t.pins.jetMv = v ∧ SameRegs s t [Reg.PCR_JET_STATE] ∧ t.evr = s.evr)
        ∧ (r = 1 → c = 0 → Completes (.avsTransactionEnd true) s fun t => t.pwr = { s.pwr with avs := l } ∧ t.pins.coreMv = v
          ∧ t.regs = s.regs ∧ t.evr = s.evr)
        ∧ (f < 2 → s.held 9 = false → Completes (.avsTransactionEnd false) s fun t => t.pwr = { s.pwr with avs := (r, c, v, f + 1) :: l }
          ∧ t.out = .avs r c v :: s.out ∧ t.regs = s.regs ∧ t.evr = s.evr)
        ∧ (2 ≤ f → Completes (.avsTransactionEnd false) s fun t => t.pwr.avs = l ∧ t.bit Reg.PCR_AVS_STATUS 8 = true
          ∧ t.pwr.moving = (if r = 0 ∧ c = 0 ∧ s.pwr.moving.map pointMv = some v then none else s.pwr.moving)
          ∧ t.fld Reg.PCR_AVS_STATUS 2 0 = r % 8 ∧ t.bit Reg.PCR_EVENT 4 = true
          ∧ t.evr.offered = s.evr.offered ++ [mkRec 0x1006 [(8, r), (8, c)] s.clk.stm])))
  ∧ (∀ (s : State) (tj ma : Nat), Completes (.thermalSample tj ma) s fun t => t.fld Reg.PCR_TEMP 15 0 = tj % 65536 ∧ t.fld Reg.PCR_TEMP 31 16 = ma % 65536
      ∧ SameRegs s t [Reg.PCR_TEMP] ∧ t.evr = s.evr ∧ t.pwr = s.pwr)
  ∧ (∀ (s : State) (tj c : Int) (i a cap : Nat), tj = signedOf 16 (s.fld Reg.PCR_TEMP 15 0) → i = s.fld Reg.PCR_TEMP 31 16 → c = s.fld Reg.PCR_THERMAL 15 8 →
      a = s.fld Reg.PCR_THERMAL 7 0 → cap = s.fld Reg.PCR_JET_STATE 26 24 →
      ((16 * c ≤ tj ∨ 100 * a ≤ i) → 0 < cap → Completes .throttle s fun t => t.fld Reg.PCR_JET_STATE 26 24 = cap - 1 ∧ t.bit Reg.PCR_EVENT 3 = true
        ∧ t.evr.offered.length = s.evr.offered.length + 1
        ∧ (tj < 16 * c → t.evr.offered = s.evr.offered ++ [mkRec 0x1005 [(8, 1), (8, cap - 1)] s.clk.stm])
        ∧ (i < 100 * a → t.evr.offered = s.evr.offered ++ [mkRec 0x1005 [(8, 0), (8, cap - 1)] s.clk.stm]))
      ∧ ((16 * c ≤ tj ∨ 100 * a ≤ i) → cap = 0 → Completes .throttle s fun t => t = s)
      ∧ (tj < 16 * (c - 5) → i < 90 * a → cap < 7 → Completes .throttle s fun t => t.fld Reg.PCR_JET_STATE 26 24 = cap + 1 ∧ t.bit Reg.PCR_EVENT 3 = true
        ∧ t.evr.offered.length = s.evr.offered.length + 1)
      ∧ (tj < 16 * c → i < 100 * a → (16 * (c - 5) ≤ tj ∨ 90 * a ≤ i ∨ cap = 7) → Completes .throttle s fun t => t = s))

/-- The headline invariant: whatever waits, a step answers a next state; and if Basin, DRAM, flash and the register file were in
canonical form and every part there as often as the device has it, they still are. Fuses are only ever blown (R92), and no command
touches the queue but to leave it (the device's order of commands, log entry 10). -/
def Obligations.StepKeepsMemoriesSizesFusesAndQueue : Prop :=
  ∀ s : State, ∃ t, step s = .next t ∧ t.pending = s.pending.tail ∧ Fuses.grown s.fuses t.fuses
    ∧ (s.memWf = true → t.memWf = true) ∧ (s.sized → t.sized)

/-- State.reset meets the invariant of the headline, waits for no command, stands in BOOT (R13, R29), and every register reads its reset word but the two that
show the fuses (log entry 38 gives those, the model's choice). -/
def Obligations.ResetIsWellKept : Prop :=
  State.reset.memWf = true ∧ State.reset.sized ∧ State.reset.pending = [] ∧ State.reset.devState = 1 ∧ State.reset.mem = {}
    ∧ (∀ m a, State.reset.byte m a = 0) ∧ ∀ k, k ≠ Reg.PCR_CORE → k ≠ Reg.SEC_OTP_STATUS → State.reset.reg k = (regReset k).toNat
end

