-- ==== Sys2Proof/Laws/Sparse.lean ====
section
/-! SUPPORT. The laws of the sparse map: a read after a write to the same key gives the value, a write leaves every other
key alone, and every write keeps the canonical form. -/

namespace Sys2Proof.Machine

theorem spGet_spIns_same {α : Type} (d : Nat → α) (k : Nat) (v : α) (l : List (Nat × α)) :
    spGet d (spIns l k v) k = v := by
  induction l with
  | nil => simp [spIns, spGet]
  | cons p l ih => simp only [spIns]; (repeat' split) <;> simp_all [spGet]

theorem spGet_spIns_ne {α : Type} (d : Nat → α) (k m : Nat) (v : α) (l : List (Nat × α)) (h : m ≠ k) :
    spGet d (spIns l k v) m = spGet d l m := by
  induction l with
  | nil => simp [spIns, spGet, h]
  | cons p l ih =>
    simp only [spIns]
    split
    · simp [spGet, h]
    · split
      · rename_i hkj; subst hkj; simp [spGet, h]
      · simp [spGet, ih]

theorem spGet_spDel_same {α : Type} (d : Nat → α) (k : Nat) (l : List (Nat × α)) : spGet d (spDel l k) k = d k := by
  induction l with
  | nil => rfl
  | cons p l ih => simp only [spDel]; split <;> simp_all [spGet]

theorem spGet_spDel_ne {α : Type} (d : Nat → α) (k m : Nat) (l : List (Nat × α)) (h : m ≠ k) :
    spGet d (spDel l k) m = spGet d l m := by
  induction l with
  | nil => rfl
  | cons p l ih =>
    simp only [spDel]
    split
    · rename_i hkj; subst hkj; simp [spGet, h, ih]
    · simp [spGet, ih]

/-- A read after a write to the same key gives the value written. -/
theorem spGet_spSet_same {α : Type} [DecidableEq α] (d : Nat → α) (l : List (Nat × α)) (k : Nat) (v : α) :
    spGet d (spSet d l k v) k = v := by
  unfold spSet
  split
  · rename_i hv; rw [spGet_spDel_same, hv]
  · exact spGet_spIns_same d k v l

/-- A write leaves every other key alone. -/
theorem spGet_spSet_ne {α : Type} [DecidableEq α] (d : Nat → α) (l : List (Nat × α)) (k m : Nat) (v : α)
    (h : m ≠ k) : spGet d (spSet d l k v) m = spGet d l m := by
  unfold spSet
  split
  · exact spGet_spDel_ne d k m l h
  · exact spGet_spIns_ne d k m v l h

theorem spAbove_trans {α : Type} (a b : Nat) (h : a < b) (l : List (Nat × α)) (hb : spAbove b l = true) :
    spAbove a l = true := by
  cases l with
  | nil => rfl
  | cons p l => simp only [spAbove, decide_eq_true_eq] at *; omega

theorem spAbove_spDel {α : Type} [DecidableEq α] (d : Nat → α) (b k : Nat) (l : List (Nat × α)) :
    spAbove b l = true → spWf d l = true → spAbove b (spDel l k) = true := by
  induction l generalizing b with
  | nil => intros; rfl
  | cons p l ih =>
    intro h hw
    simp only [spWf, Bool.and_eq_true] at hw
    simp only [spAbove, decide_eq_true_eq] at h
    simp only [spDel]
    split
    · exact ih b (spAbove_trans b p.1 h l hw.1.2) hw.2
    · simpa [spAbove] using h

theorem spWf_spDel {α : Type} [DecidableEq α] (d : Nat → α) (k : Nat) (l : List (Nat × α)) (hw : spWf d l = true) :
    spWf d (spDel l k) = true := by
  induction l with
  | nil => rfl
  | cons p l ih =>
    simp only [spWf, Bool.and_eq_true] at hw
    simp only [spDel]
    split
    · exact ih hw.2
    · simp only [spWf, Bool.and_eq_true]
      exact ⟨⟨hw.1.1, spAbove_spDel d p.1 k l hw.1.2 hw.2⟩, ih hw.2⟩

theorem spAbove_spIns {α : Type} (b k : Nat) (v : α) (hb : b < k) (l : List (Nat × α)) (h : spAbove b l = true) :
    spAbove b (spIns l k v) = true := by
  cases l with
  | nil => simp [spIns, spAbove, hb]
  | cons p l => simp only [spIns]; (repeat' split) <;> simp_all [spAbove]

theorem spWf_spIns {α : Type} [DecidableEq α] (d : Nat → α) (k : Nat) (v : α) (hv : v ≠ d k) (l : List (Nat × α))
    (hw : spWf d l = true) : spWf d (spIns l k v) = true := by
  induction l with
  | nil => simp [spIns, spWf, spAbove, hv]
  | cons p l ih =>
    have hw' := hw
    simp only [spWf, Bool.and_eq_true] at hw
    simp only [spIns]
    split
    · rename_i hkj
      rw [spWf]
      simp only [Bool.and_eq_true]
      exact ⟨⟨by simpa using hv, by simpa [spAbove] using hkj⟩, hw'⟩
    · split
      · rename_i hkj; subst hkj
        simp only [spWf, Bool.and_eq_true]
        exact ⟨⟨by simpa using hv, hw.1.2⟩, hw.2⟩
      · simp only [spWf, Bool.and_eq_true]
        exact ⟨⟨hw.1.1, spAbove_spIns p.1 k v (by omega) l hw.1.2⟩, ih hw.2⟩

/-- A write keeps the canonical form. -/
theorem spWf_spSet {α : Type} [DecidableEq α] (d : Nat → α) (l : List (Nat × α)) (k : Nat) (v : α)
    (h : spWf d l = true) : spWf d (spSet d l k v) = true := by
  unfold spSet
  split
  · exact spWf_spDel d k l h
  · rename_i hv; exact spWf_spIns d k v hv l h

end Sys2Proof.Machine
end

