-- ==== Sys2Proof/Laws/KeepsCore.lean ====
section
/-! SUPPORT. What no operation of the device undoes: the relation `Keeps r s` says that `s`, reached from `r`, has the same
waiting commands, fuses that were only blown, and canonical memories and the device's sizes where `r` had them. This file has the relation and the
operations that write what it speaks of; the files Keeps… after it carry it through every operation of the model. -/

namespace Sys2Proof.Machine

/-- A state with this queue, these fuses, memories, flash and registers follows `r`. -/
structure KeepsAt (r : State) (q : List Instr) (f : Fuses) (basin dram : List Host.Cell) (flash : List (Nat × Byte))
    (regs : List (Nat × Word)) (sizes : List Nat) (ims : List ImHead) : Prop where
  queue : q = r.pending
  fuses : r.fuses.grown f
  mem : r.memWf = true → spWf zeroByte basin = true ∧ spWf zeroByte dram = true ∧ spWf erasedByte flash = true
    ∧ spWf regReset regs = true
  sizes : r.sized → sizes = deviceSizes
  ims : r.sized → ims.length = 8 ∧ ∀ h ∈ ims, h.checks.length = 19

/-- `s` follows `r`: same queue, fuses only blown, memories canonical where they were. -/
abbrev Keeps (r s : State) : Prop := KeepsAt r s.pending s.fuses s.mem.basin s.mem.dram s.boot.flash s.regs
  [s.hp.ports.length, s.hd.heads.length, s.cmp.comps.length, s.im.cvus.length, s.lo.srcs.length, s.lo.dmx.length,
    s.net.tx.length, s.net.rx.length, s.tch.units.length, s.hap.chans.length, s.ja.jets.length, s.ja.strs.length,
    s.net.igmpV2.length, s.net.seqs.length] s.im.heads

/-- The outcome is a next state that follows `r`. -/
def KeepsOut (r : State) (o : Host.Outcome State Fault Refusal) : Prop := ∃ t, o = .next t ∧ Keeps r t

theorem KeepsOut.next {r t : State} (h : Keeps r t) : KeepsOut r (.next t) := ⟨t, rfl, h⟩

theorem KeepsOut.ite {r : State} {a b : Host.Outcome State Fault Refusal} {c : Prop} [Decidable c] (ha : KeepsOut r a)
    (hb : KeepsOut r b) : KeepsOut r (if c then a else b) := by
  split
  · exact ha
  · exact hb

theorem Fuses.grown_refl (f : Fuses) : f.grown f := by simp [Fuses.grown]

theorem Fuses.grown_trans {f g k : Fuses} (h : f.grown g) (h' : g.grown k) : f.grown k := by
  obtain ⟨a, b, c, d, e, p, q, u, v, w⟩ := h
  obtain ⟨a', b', c', d', e', p', q', u', v', w'⟩ := h'
  exact ⟨fun n x => a' n (a n x), fun n x => b' n (b n x), fun n x => (c' n (a n x)).trans (c n x),
    fun x => ⟨(d' (d x).1).1, (d' (d x).1).2.trans (d x).2⟩, e.trans e', p'.trans p, q'.trans q, u'.trans u, v'.trans v,
    w'.trans w⟩

theorem memWf_iff (s : State) : s.memWf = true ↔ spWf zeroByte s.mem.basin = true ∧ spWf zeroByte s.mem.dram = true
    ∧ spWf erasedByte s.boot.flash = true ∧ spWf regReset s.regs = true := by
  simp [State.memWf, and_assoc]

theorem Keeps.refl (s : State) : Keeps s s := ⟨rfl, Fuses.grown_refl _, (memWf_iff s).1, fun w => w.1, fun w => w.2⟩

theorem Keeps.trans {r s t : State} (h : Keeps r s) (h' : Keeps s t) : Keeps r t :=
  ⟨h'.queue.trans h.queue, Fuses.grown_trans h.fuses h'.fuses, fun w => h'.mem ((memWf_iff s).2 (h.mem w)),
    fun w => h'.sizes ⟨h.sizes w, h.ims w⟩, fun w => h'.ims ⟨h.sizes w, h.ims w⟩⟩

theorem Keeps.ite {r a b : State} {c : Prop} [Decidable c] (ha : Keeps r a) (hb : Keeps r b) :
    Keeps r (if c then a else b) := by
  split
  · exact ha
  · exact hb

theorem State.each_keeps {α : Type} {r : State} {f : α → State → State} {l : List α} {s : State}
    (hf : ∀ a t, Keeps r t → Keeps r (f a t)) (h : Keeps r s) : Keeps r (State.each f l s) := by
  induction l generalizing s with
  | nil => exact h
  | cons a l ih => exact ih (hf a s h)

theorem foldl_keeps {α : Type} {r : State} {f : State → α → State} {l : List α} {s : State}
    (hf : ∀ t a, Keeps r t → Keeps r (f t a)) (h : Keeps r s) : Keeps r (l.foldl f s) := by
  induction l generalizing s with
  | nil => exact h
  | cons a l ih => exact ih (hf s a h)

/-- A fold over something that carries a state. -/
theorem foldl_keeps_of {α β : Type} {r : State} (g : β → State) {f : β → α → β} {l : List α} {b : β}
    (hf : ∀ c a, Keeps r (g c) → Keeps r (g (f c a))) (h : Keeps r (g b)) : Keeps r (g (l.foldl f b)) := by
  induction l generalizing b with
  | nil => exact h
  | cons a l ih => exact ih (hf b a h)

theorem map_keeps {α : Type} {r t : State} {o : Option α} {f : α → State} (e : o.map f = some t)
    (hf : ∀ a, Keeps r (f a)) : Keeps r t := by
  cases o with
  | none => cases e
  | some a => cases e; exact hf a

theorem getD_keeps {r s : State} {o : Option State} (ho : ∀ t, o = some t → Keeps r t) (h : Keeps r s) :
    Keeps r (o.getD s) := by
  cases o with
  | none => exact h
  | some t => exact ho t rfl

theorem fst_keeps {α : Type} {r a : State} {p : State × α} {b : α} (e : p = (a, b)) (h : Keeps r p.1) : Keeps r a := by
  subst e; exact h

theorem snd_keeps {α : Type} {r a : State} {p : α × State} {b : α} (e : p = (b, a)) (h : Keeps r p.2) : Keeps r a := by
  subst e; exact h

theorem State.setReg_keeps {r : State} {s : State} {k v : Nat} (h : Keeps r s) : Keeps r (s.setReg k v) :=
  ⟨h.queue, h.fuses, fun w => ⟨(h.mem w).1, (h.mem w).2.1, (h.mem w).2.2.1, spWf_spSet _ _ _ _ (h.mem w).2.2.2⟩, h.sizes, h.ims⟩

theorem State.putByte_keeps {r s : State} {m : MemSel} {a : Nat} {b : Byte} (h : Keeps r s) :
    Keeps r (s.putByte m a b) := by
  cases m
  · exact ⟨h.queue, h.fuses, fun w => ⟨spWf_spSet _ _ _ _ (h.mem w).1, (h.mem w).2⟩, h.sizes, h.ims⟩
  · exact ⟨h.queue, h.fuses, fun w => ⟨(h.mem w).1, spWf_spSet _ _ _ _ (h.mem w).2.1, (h.mem w).2.2⟩, h.sizes, h.ims⟩

theorem spWf_putBytes (m : List Host.Cell) (a : Nat) (bs : List Byte) (h : spWf zeroByte m = true) :
    spWf zeroByte (putBytes m a bs) = true := by
  induction bs generalizing m a with
  | nil => exact h
  | cons b bs ih => exact ih _ _ (spWf_spSet _ _ _ _ h)

theorem spAbove_filter {α : Type} [DecidableEq α] (d : Nat → α) (p : Nat × α → Bool) (b : Nat) (l : List (Nat × α))
    (h : spAbove b l = true) (w : spWf d l = true) : spAbove b (l.filter p) = true := by
  induction l generalizing b with
  | nil => rfl
  | cons q l ih =>
    simp only [spWf, Bool.and_eq_true] at w
    rw [List.filter_cons]
    split
    · simpa [spAbove] using h
    · refine ih b (spAbove_trans b q.1 ?_ l w.1.2) w.2
      simpa [spAbove] using h

/-- Dropping entries keeps the canonical form. -/
theorem spWf_filter {α : Type} [DecidableEq α] (d : Nat → α) (p : Nat × α → Bool) (l : List (Nat × α))
    (w : spWf d l = true) : spWf d (l.filter p) = true := by
  induction l with
  | nil => rfl
  | cons q l ih =>
    simp only [spWf, Bool.and_eq_true] at w
    rw [List.filter_cons]
    split
    · simp only [spWf, Bool.and_eq_true]
      exact ⟨⟨w.1.1, spAbove_filter d p _ _ w.1.2 w.2⟩, ih w.2⟩
    · exact ih w.2

end Sys2Proof.Machine
end

