-- ==== Sys2Proof/Laws/KeepsBase.lean ====
section
/-! SUPPORT. The relation `Keeps` (KeepsCore.lean) through the registers, records, memories, resets, contexts and
start-up. -/

set_option linter.unreachableTactic false
set_option linter.unusedTactic false
set_option linter.unusedSimpArgs false

namespace Sys2Proof.Machine

theorem State.setFld_keeps {s₀ : State} (s : State) (k hi lo v : Nat) (hk : Keeps s₀ s) : Keeps s₀ (State.setFld s k hi lo v) := by
  unfold State.setFld
  dsimp only [Keeps]
  repeat' first | with_reducible assumption | with_reducible apply State.setReg_keeps | with_reducible apply Keeps.ite | dsimp only | (intro _ _ _ _ _) | (intro _ _ _) | (intro _ _) | split

theorem State.setBit_keeps {s₀ : State} (s : State) (k i : Nat) (b : Bool) (hk : Keeps s₀ s) : Keeps s₀ (State.setBit s k i b) := by
  unfold State.setBit
  dsimp only [Keeps]
  repeat' first | with_reducible assumption | with_reducible apply State.setFld_keeps | with_reducible apply Keeps.ite | dsimp only | (intro _ _ _ _ _) | (intro _ _ _) | (intro _ _) | split

theorem State.count_keeps {s₀ : State} (s : State) (k hi lo n : Nat) (hk : Keeps s₀ s) : Keeps s₀ (State.count s k hi lo n) := by
  unfold State.count
  dsimp only [Keeps]
  repeat' first | with_reducible assumption | with_reducible apply State.setFld_keeps | with_reducible apply Keeps.ite | dsimp only | (intro _ _ _ _ _) | (intro _ _ _) | (intro _ _) | split

theorem State.setReg64_keeps {s₀ : State} (s : State) (klo khi v : Nat) (hk : Keeps s₀ s) : Keeps s₀ (State.setReg64 s klo khi v) := by
  unfold State.setReg64
  dsimp only [Keeps]
  repeat' first | with_reducible assumption | with_reducible apply State.setReg_keeps | with_reducible apply Keeps.ite | dsimp only | (intro _ _ _ _ _) | (intro _ _ _) | (intro _ _) | split

theorem State.emit_keeps {s₀ : State} (s : State) (e : Emit) (hk : Keeps s₀ s) : Keeps s₀ (State.emit s e) := by
  unfold State.emit
  dsimp only [Keeps]
  repeat' first | with_reducible assumption | with_reducible apply Keeps.ite | dsimp only | (intro _ _ _ _ _) | (intro _ _ _) | (intro _ _) | split

theorem State.emitOn_keeps {s₀ : State} (s : State) (g : Nat) (e : Emit) (hk : Keeps s₀ s) : Keeps s₀ (State.emitOn s g e) := by
  unfold State.emitOn
  dsimp only [Keeps]
  repeat' first | with_reducible assumption | with_reducible apply State.emit_keeps | with_reducible apply Keeps.ite | dsimp only | (intro _ _ _ _ _) | (intro _ _ _) | (intro _ _) | split

theorem State.holdGroups_keeps {s₀ : State} (s : State) (live : List Nat) (hk : Keeps s₀ s) : Keeps s₀ (State.holdGroups s live) := by
  unfold State.holdGroups
  dsimp only [Keeps]
  repeat' first | with_reducible assumption | with_reducible apply Keeps.ite | dsimp only | (intro _ _ _ _ _) | (intro _ _ _) | (intro _ _) | split | simp only [Keeps, List.length_set, List.length_map, List.length_modify]

theorem State.took_keeps {s₀ : State} (s : State) (hk : Keeps s₀ s) : Keeps s₀ (State.took s) := by
  unfold State.took
  dsimp only [Keeps]
  repeat' first | with_reducible assumption | with_reducible apply Keeps.ite | dsimp only | (intro _ _ _ _ _) | (intro _ _ _) | (intro _ _) | split

theorem State.lutStore_keeps {s₀ : State} (s : State) (c value : Nat) (hk : Keeps s₀ s) : Keeps s₀ (State.lutStore s c value) := by
  unfold State.lutStore
  dsimp only [Keeps]
  repeat' first | with_reducible assumption | with_reducible apply State.setReg_keeps | with_reducible apply State.setFld_keeps | with_reducible apply Keeps.ite | dsimp only | (intro _ _ _ _ _) | (intro _ _ _) | (intro _ _) | split

theorem State.xpStep_keeps {s₀ : State} (s : State) (value : Nat) (hk : Keeps s₀ s) : Keeps s₀ (State.xpStep s value) := by
  unfold State.xpStep
  dsimp only [Keeps]
  repeat' first | with_reducible assumption | with_reducible apply State.setReg_keeps | with_reducible apply State.setFld_keeps | with_reducible apply Keeps.ite | dsimp only | (intro _ _ _ _ _) | (intro _ _ _) | (intro _ _) | split

theorem State.ungate_keeps {s₀ : State} (s : State) (b : Nat) (hk : Keeps s₀ s) : Keeps s₀ (State.ungate s b) := by
  unfold State.ungate
  dsimp only [Keeps]
  repeat' first | with_reducible assumption | with_reducible apply State.setBit_keeps | with_reducible apply Keeps.ite | dsimp only | (intro _ _ _ _ _) | (intro _ _ _) | (intro _ _) | split

theorem State.offer_keeps {s₀ : State} (s : State) (code : Nat) (items : List (Nat × Nat)) (hk : Keeps s₀ s) : Keeps s₀ (State.offer s code items) := by
  unfold State.offer
  dsimp only [Keeps]
  repeat' first | with_reducible assumption | with_reducible apply Keeps.ite | dsimp only | (intro _ _ _ _ _) | (intro _ _ _) | (intro _ _) | split

theorem State.endCycle_keeps {s₀ : State} (s : State) (hk : Keeps s₀ s) : Keeps s₀ (State.endCycle s) := by
  unfold State.endCycle
  exact hk

theorem State.evrSync_keeps {s₀ : State} (s : State) (hk : Keeps s₀ s) : Keeps s₀ (State.evrSync s) := by
  unfold State.evrSync
  dsimp only [Keeps]
  repeat' first | with_reducible assumption | with_reducible apply State.setReg64_keeps | with_reducible apply Keeps.ite | dsimp only | (intro _ _ _ _ _) | (intro _ _ _) | (intro _ _) | split

theorem State.setFn_keeps {s₀ : State} (s : State) (p : Nat) (f : Fn) (hk : Keeps s₀ s) : Keeps s₀ (State.setFn s p f) := by
  unfold State.setFn
  dsimp only [Keeps]
  repeat' first | with_reducible assumption | with_reducible apply Keeps.ite | dsimp only | (intro _ _ _ _ _) | (intro _ _ _) | (intro _ _) | split

theorem State.raiseVec_keeps {s₀ : State} (s : State) (p v : Nat) (hk : Keeps s₀ s) : Keeps s₀ (State.raiseVec s p v) := by
  unfold State.raiseVec
  dsimp only [Keeps]
  repeat' first | with_reducible assumption | with_reducible apply State.setBit_keeps | with_reducible apply Keeps.ite | dsimp only | (intro _ _ _ _ _) | (intro _ _ _) | (intro _ _) | split

theorem State.stick_keeps {s₀ : State} (s : State) (p v : Nat) (hk : Keeps s₀ s) : Keeps s₀ (State.stick s p v) := by
  unfold State.stick
  dsimp only [Keeps]
  repeat' first | with_reducible assumption | with_reducible apply Keeps.ite | dsimp only | (intro _ _ _ _ _) | (intro _ _ _) | (intro _ _) | split

theorem State.forgetCause_keeps {s₀ : State} (s : State) (k b : Nat) (hk : Keeps s₀ s) : Keeps s₀ (State.forgetCause s k b) := by
  unfold State.forgetCause
  dsimp only [Keeps]
  repeat' first | with_reducible assumption | with_reducible apply Keeps.ite | dsimp only | (intro _ _ _ _ _) | (intro _ _ _) | (intro _ _) | split

theorem State.raiseFor_keeps {s₀ : State} (s : State) (p v k b : Nat) (hk : Keeps s₀ s) : Keeps s₀ (State.raiseFor s p v k b) := by
  unfold State.raiseFor
  dsimp only [Keeps]
  repeat' first | with_reducible assumption | with_reducible apply State.raiseVec_keeps | with_reducible apply State.forgetCause_keeps | with_reducible apply Keeps.ite | dsimp only | (intro _ _ _ _ _) | (intro _ _ _) | (intro _ _) | split

theorem State.mgrIrq_keeps {s₀ : State} (s : State) (k b : Nat) (hk : Keeps s₀ s) : Keeps s₀ (State.mgrIrq s k b) := by
  unfold State.mgrIrq
  dsimp only [Keeps]
  repeat' first | with_reducible assumption | with_reducible apply State.raiseFor_keeps | with_reducible apply Keeps.ite | dsimp only | (intro _ _ _ _ _) | (intro _ _ _) | (intro _ _) | split

theorem State.mgrIrqSticky_keeps {s₀ : State} (s : State) (hk : Keeps s₀ s) : Keeps s₀ (State.mgrIrqSticky s) := by
  unfold State.mgrIrqSticky
  dsimp only [Keeps]
  repeat' first | with_reducible assumption | with_reducible apply State.raiseVec_keeps | with_reducible apply State.stick_keeps | with_reducible apply Keeps.ite | dsimp only | (intro _ _ _ _ _) | (intro _ _ _) | (intro _ _) | split

theorem State.setEvent_keeps {s₀ : State} (s : State) (ev en b : Nat) (hk : Keeps s₀ s) : Keeps s₀ (State.setEvent s ev en b) := by
  unfold State.setEvent
  dsimp only [Keeps]
  repeat' first | with_reducible assumption | with_reducible apply State.setBit_keeps | with_reducible apply State.forgetCause_keeps | with_reducible apply State.mgrIrq_keeps | with_reducible apply Keeps.ite | dsimp only | (intro _ _ _ _ _) | (intro _ _ _) | (intro _ _) | split

theorem State.pdkCause_keeps {s₀ : State} (s : State) (p b : Nat) (hk : Keeps s₀ s) : Keeps s₀ (State.pdkCause s p b) := by
  unfold State.pdkCause
  dsimp only [Keeps]
  repeat' first | with_reducible assumption | with_reducible apply State.setBit_keeps | with_reducible apply State.raiseFor_keeps | with_reducible apply Keeps.ite | dsimp only | (intro _ _ _ _ _) | (intro _ _ _) | (intro _ _) | split

theorem State.heal_keeps {s₀ : State} (s : State) (m : MemSel) (a n : Nat) (hk : Keeps s₀ s) : Keeps s₀ (State.heal s m a n) := by
  unfold State.heal
  dsimp only [Keeps]
  repeat' first | with_reducible assumption | with_reducible apply Keeps.ite | dsimp only | (intro _ _ _ _ _) | (intro _ _ _) | (intro _ _) | split

theorem State.accept1_keeps {s₀ : State} (s : State) (q : Rec) (h : Keeps s₀ s) : Keeps s₀ (s.accept1 q) := by
  dsimp only [State.accept1, Keeps]
  with_reducible apply State.evrSync_keeps
  split
  · exact ⟨h.queue, h.fuses, fun w => ⟨spWf_putBytes _ _ _ (h.mem w).1, (h.mem w).2⟩, h.sizes, h.ims⟩
  · repeat' first | with_reducible assumption | with_reducible apply State.setEvent_keeps | with_reducible apply State.count_keeps | with_reducible apply Keeps.ite | dsimp only | (intro _ _ _ _ _) | (intro _ _ _) | (intro _ _) | split

theorem State.levelCheck_keeps {s₀ : State} (s : State) (hk : Keeps s₀ s) : Keeps s₀ (State.levelCheck s) := by
  unfold State.levelCheck
  dsimp only [Keeps]
  repeat' first | with_reducible assumption | with_reducible apply State.offer_keeps | with_reducible apply State.setEvent_keeps | with_reducible apply Keeps.ite | dsimp only | (intro _ _ _ _ _) | (intro _ _ _) | (intro _ _) | split

theorem State.accept_keeps {s₀ : State} (s : State) (r : Rec) (hk : Keeps s₀ s) : Keeps s₀ (State.accept s r) := by
  unfold State.accept
  dsimp only [Keeps]
  repeat' first | with_reducible assumption | with_reducible apply State.setBit_keeps | with_reducible apply State.setEvent_keeps | with_reducible apply State.accept1_keeps | with_reducible apply State.levelCheck_keeps | with_reducible apply Keeps.ite | dsimp only | (intro _ _ _ _ _) | (intro _ _ _) | (intro _ _) | split

theorem State.acceptN_keeps {s₀ s : State} {n : Nat} (h : Keeps s₀ s) : Keeps s₀ (s.acceptN n) := by
  induction n generalizing s with
  | zero => exact h
  | succ n ih =>
    unfold State.acceptN
    repeat' first | with_reducible assumption | with_reducible apply ih | with_reducible apply State.accept_keeps | with_reducible apply Keeps.ite | dsimp only | (intro _ _ _ _ _) | (intro _ _ _) | (intro _ _) | split

theorem State.acceptFirst_keeps {s₀ : State} (s : State) (n : Nat) (hk : Keeps s₀ s) : Keeps s₀ (State.acceptFirst s n) := by
  unfold State.acceptFirst
  exact State.acceptN_keeps hk

theorem State.acceptAll_keeps {s₀ : State} (s : State) (hk : Keeps s₀ s) : Keeps s₀ (State.acceptAll s) := by
  unfold State.acceptAll
  exact State.acceptFirst_keeps _ _ hk

theorem State.recordNow_keeps {s₀ : State} (s : State) (code : Nat) (items : List (Nat × Nat)) (hk : Keeps s₀ s) : Keeps s₀ (State.recordNow s code items) := by
  unfold State.recordNow
  exact State.accept_keeps _ _ (State.acceptFirst_keeps _ _ hk)

theorem State.offerRateN_keeps {s₀ : State} (s : State) (code unit len k : Nat) (pre post : List (Nat × Nat)) (hk : Keeps s₀ s) : Keeps s₀ (State.offerRateN s code unit len k pre post) := by
  unfold State.offerRateN
  dsimp only [Keeps]
  repeat' first | with_reducible assumption | with_reducible apply State.offer_keeps | with_reducible apply Keeps.ite | dsimp only | (intro _ _ _ _ _) | (intro _ _ _) | (intro _ _) | split

theorem State.offerRate_keeps {s₀ : State} (s : State) (code unit len : Nat) (pre post : List (Nat × Nat)) (hk : Keeps s₀ s) : Keeps s₀ (State.offerRate s code unit len pre post) := by
  unfold State.offerRate
  dsimp only [Keeps]
  repeat' first | with_reducible assumption | with_reducible apply State.offerRateN_keeps | with_reducible apply Keeps.ite | dsimp only | (intro _ _ _ _ _) | (intro _ _ _) | (intro _ _) | split

theorem State.store_keeps {s₀ : State} (s : State) (m : MemSel) (a0 n0 a : Nat) (bs : List Byte) (h : Keeps s₀ s) :
    Keeps s₀ (s.store m a0 n0 a bs) := by
  induction bs generalizing s a with
  | nil => exact h
  | cons b bs ih =>
    unfold State.store
    dsimp only
    apply ih
    split
    · exact h
    · exact State.putByte_keeps h

theorem State.initGranule_keeps {s₀ : State} (s : State) (m : MemSel) (a : Nat) (hk : Keeps s₀ s) : Keeps s₀ (State.initGranule s m a) := by
  unfold State.initGranule
  dsimp only [Keeps]
  repeat' first | with_reducible assumption | with_reducible apply Keeps.ite | dsimp only | (intro _ _ _ _ _) | (intro _ _ _) | (intro _ _) | split

theorem State.initRange_keeps {s₀ : State} (s : State) (m : MemSel) (a n : Nat) (hk : Keeps s₀ s) : Keeps s₀ (State.initRange s m a n) := by
  unfold State.initRange
  dsimp only [Keeps]
  repeat' first | with_reducible assumption | with_reducible apply State.initGranule_keeps | with_reducible apply State.each_keeps | with_reducible apply Keeps.ite | dsimp only | (intro _ _ _ _ _) | (intro _ _ _) | (intro _ _) | split

theorem State.write_keeps {s₀ : State} (s : State) (m : MemSel) (a : Nat) (bs : List Byte) (hk : Keeps s₀ s) : Keeps s₀ (State.write s m a bs) := by
  unfold State.write
  dsimp only [Keeps]
  repeat' first | with_reducible assumption | with_reducible apply State.heal_keeps | with_reducible apply State.store_keeps | with_reducible apply State.initRange_keeps | with_reducible apply Keeps.ite | dsimp only | (intro _ _ _ _ _) | (intro _ _ _) | (intro _ _) | split

theorem State.setOwner_keeps {s₀ : State} (s : State) (g e : Nat) (hk : Keeps s₀ s) : Keeps s₀ (State.setOwner s g e) := by
  unfold State.setOwner
  dsimp only [Keeps]
  repeat' first | with_reducible assumption | with_reducible apply Keeps.ite | dsimp only | (intro _ _ _ _ _) | (intro _ _ _) | (intro _ _) | split

theorem State.newEntry_keeps {s₀ : State} (s : State) (g e : Nat) (hk : Keeps s₀ s) : Keeps s₀ (State.newEntry s g e) := by
  unfold State.newEntry
  dsimp only [Keeps]
  repeat' first | with_reducible assumption | with_reducible apply State.setOwner_keeps | with_reducible apply Keeps.ite | dsimp only | (intro _ _ _ _ _) | (intro _ _ _) | (intro _ _) | split

theorem State.writeEntries_keeps {s₀ : State} (s : State) (a : Nat) (bs : List Byte) (hk : Keeps s₀ s) :
    Keeps s₀ (s.writeEntries a bs) := by
  induction bs generalizing s a with
  | nil => exact hk
  | cons b bs ih =>
    unfold State.writeEntries
    refine ih _ _ ?_
    split
    · exact State.newEntry_keeps _ _ _ hk
    · exact hk

theorem State.busWrite_keeps {s₀ : State} (s : State) (m : MemSel) (a : Nat) (bs : List Byte) (hk : Keeps s₀ s) : Keeps s₀ (State.busWrite s m a bs) := by
  unfold State.busWrite
  dsimp only [Keeps]
  repeat' first | with_reducible assumption | with_reducible apply State.heal_keeps | with_reducible apply State.write_keeps | with_reducible apply State.writeEntries_keeps | with_reducible apply Keeps.ite | dsimp only | (intro _ _ _ _ _) | (intro _ _ _) | (intro _ _) | split

theorem State.userOf_keeps {s₀ : State} (s : State) (m : Master) (hk : Keeps s₀ s) : Keeps s₀ (s.userOf m).2 := by
  cases m <;> exact hk

theorem State.noteRefusal_keeps {s₀ : State} (s : State) (ms : Master) (gran : Nat) (hk : Keeps s₀ s) : Keeps s₀ (State.noteRefusal s ms gran) := by
  unfold State.noteRefusal
  dsimp only [Keeps]
  repeat' first | with_reducible assumption | with_reducible apply State.offerRate_keeps | with_reducible apply State.userOf_keeps | (with_reducible refine fst_keeps ‹_› ?_) | (with_reducible refine snd_keeps ‹_› ?_) | with_reducible apply Keeps.ite | dsimp only | (intro _ _ _ _ _) | (intro _ _ _) | (intro _ _) | split

theorem State.eccAddr_keeps {s₀ : State} (s : State) (m : MemSel) (word : Nat) (uncorr : Bool) (hk : Keeps s₀ s) : Keeps s₀ (State.eccAddr s m word uncorr) := by
  unfold State.eccAddr
  dsimp only [Keeps]
  repeat' first | with_reducible assumption | with_reducible apply State.setReg_keeps | with_reducible apply Keeps.ite | dsimp only | (intro _ _ _ _ _) | (intro _ _ _) | (intro _ _) | split

theorem State.eccUncorr_keeps {s₀ : State} (s : State) (m : MemSel) (word : Nat) (hk : Keeps s₀ s) : Keeps s₀ (State.eccUncorr s m word) := by
  unfold State.eccUncorr
  dsimp only [Keeps]
  repeat' first | with_reducible assumption | with_reducible apply State.count_keeps | with_reducible apply State.offer_keeps | with_reducible apply State.eccAddr_keeps | with_reducible apply Keeps.ite | dsimp only | (intro _ _ _ _ _) | (intro _ _ _) | (intro _ _) | split

theorem State.mergeWrite_keeps {s₀ : State} (s : State) (m : MemSel) (a : Nat) (bs : List Byte) (hk : Keeps s₀ s) : Keeps s₀ (State.mergeWrite s m a bs) := by
  unfold State.mergeWrite
  dsimp only [Keeps]
  repeat' first | with_reducible assumption | with_reducible apply State.write_keeps | with_reducible apply State.eccUncorr_keeps | with_reducible apply foldl_keeps | with_reducible apply Keeps.ite | dsimp only | (intro _ _ _ _ _) | (intro _ _ _) | (intro _ _) | split

theorem State.eccSeen_keeps {s₀ : State} (s : State) (n : Nat) (hk : Keeps s₀ s) : Keeps s₀ (State.eccSeen s n) := by
  unfold State.eccSeen
  dsimp only [Keeps]
  repeat' first | with_reducible assumption | with_reducible apply State.eccUncorr_keeps | with_reducible apply Keeps.ite | dsimp only | split

theorem State.netDropped_keeps {s₀ : State} (s : State) (p n : Nat) (hk : Keeps s₀ s) : Keeps s₀ (State.netDropped s p n) := by
  unfold State.netDropped
  dsimp only [Keeps]
  repeat' first | with_reducible assumption | with_reducible apply State.setReg_keeps | with_reducible apply Keeps.ite | dsimp only | (intro _ _ _ _ _) | (intro _ _ _) | (intro _ _) | split

theorem State.netLeave_keeps {s₀ : State} (s : State) (p kind : Nat) (data : List Nat) (at' : Nat) (hk : Keeps s₀ s) : Keeps s₀ (State.netLeave s p kind data at') := by
  unfold State.netLeave
  dsimp only [Keeps]
  repeat' first | with_reducible assumption | with_reducible apply State.setReg_keeps | with_reducible apply State.emitOn_keeps | with_reducible apply Keeps.ite | dsimp only | (intro _ _ _ _ _) | (intro _ _ _) | (intro _ _) | split | simp only [Keeps, List.length_set, List.length_map, List.length_modify]

theorem State.netPump_keeps {s₀ : State} (s : State) (p n : Nat) (hk : Keeps s₀ s) : Keeps s₀ (s.netPump p n) := by
  induction n generalizing s with
  | zero => exact hk
  | succ n ih =>
    unfold State.netPump
    split
    · dsimp only
      split
      · exact ih _ (State.netLeave_keeps _ _ _ _ _ hk)
      · exact hk
    · exact hk

theorem State.netTick_keeps {s₀ : State} (s : State) (hk : Keeps s₀ s) : Keeps s₀ (State.netTick s) := by
  unfold State.netTick
  dsimp only [Keeps]
  repeat' first | with_reducible assumption | with_reducible apply State.netPump_keeps | with_reducible apply State.each_keeps | with_reducible apply Keeps.ite | dsimp only | (intro _ _ _ _ _) | (intro _ _ _) | (intro _ _) | split

theorem State.netSend_keeps {s₀ : State} (s : State) (p kind : Nat) (data : List Nat) (hk : Keeps s₀ s) : Keeps s₀ (State.netSend s p kind data) := by
  unfold State.netSend
  dsimp only [Keeps]
  repeat' first | with_reducible assumption | with_reducible apply State.netDropped_keeps | with_reducible apply State.netPump_keeps | with_reducible apply Keeps.ite | dsimp only | (intro _ _ _ _ _) | (intro _ _ _) | (intro _ _) | split

theorem State.netSendLight_keeps {s₀ : State} (s : State) (p : Nat) (data : List Nat) (hk : Keeps s₀ s) : Keeps s₀ (State.netSendLight s p data) := by
  unfold State.netSendLight
  dsimp only [Keeps]
  repeat' first | with_reducible assumption | with_reducible apply State.netLeave_keeps | with_reducible apply State.each_keeps | with_reducible apply Keeps.ite | dsimp only | (intro _ _ _ _ _) | (intro _ _ _) | (intro _ _) | split

theorem State.netEvent_keeps {s₀ : State} (s : State) (b : Nat) (hk : Keeps s₀ s) : Keeps s₀ (State.netEvent s b) := by
  unfold State.netEvent
  dsimp only [Keeps]
  repeat' first | with_reducible assumption | with_reducible apply State.setEvent_keeps | with_reducible apply Keeps.ite | dsimp only | (intro _ _ _ _ _) | (intro _ _ _) | (intro _ _) | split

theorem State.pass_keeps {s₀ : State} (s : State) (n : Nat) (hk : Keeps s₀ s) : Keeps s₀ (State.pass s n) := by
  unfold State.pass
  have hs := State.endCycle_keeps s hk
  dsimp only [Keeps] at hs ⊢
  repeat' first | with_reducible assumption | with_reducible apply Keeps.ite | dsimp only | (intro _ _ _ _ _) | (intro _ _ _) | (intro _ _) | split | simp only [Keeps, List.length_set, List.length_map, List.length_modify]

theorem State.tick_keeps {s₀ : State} (s : State) (hk : Keeps s₀ s) : Keeps s₀ (State.tick s) := by
  unfold State.tick
  dsimp only [Keeps]
  repeat' first | with_reducible assumption | with_reducible apply State.netTick_keeps | with_reducible apply State.pass_keeps | with_reducible apply Keeps.ite | dsimp only | (intro _ _ _ _ _) | (intro _ _ _) | (intro _ _) | split

theorem State.reload_keeps {s₀ : State} (s : State) (hk : Keeps s₀ s) : Keeps s₀ (State.reload s) := by
  unfold State.reload
  dsimp only [Keeps]
  repeat' first | with_reducible assumption | with_reducible apply Keeps.ite | dsimp only | (intro _ _ _ _ _) | (intro _ _ _) | (intro _ _) | split | simp only [Keeps, List.length_set, List.length_map, List.length_modify]

theorem State.reloads_keeps {s₀ : State} (s : State) (n : Nat) (h : Keeps s₀ s) : Keeps s₀ (s.reloads n) := by
  induction n generalizing s with
  | zero => exact h
  | succ n ih => exact ih _ (State.netTick_keeps _ (State.reload_keeps _ (State.pass_keeps _ _ h)))

theorem execShowTimeEchoReload_keeps {s₀ : State} (reloads : Nat) (s : State) (hk : Keeps s₀ s) : KeepsOut s₀ (execShowTimeEchoReload reloads s) := by
  unfold execShowTimeEchoReload
  repeat' first | with_reducible assumption | with_reducible apply State.reloads_keeps | with_reducible apply KeepsOut.next | with_reducible apply KeepsOut.ite | with_reducible apply Keeps.ite | dsimp only | (intro _ _ _ _ _) | (intro _ _ _) | (intro _ _) | split

theorem State.setJet_keeps {s₀ : State} (s : State) (n : Nat) (j : Jet) (hk : Keeps s₀ s) : Keeps s₀ (State.setJet s n j) := by
  unfold State.setJet
  dsimp only [Keeps]
  repeat' first | with_reducible assumption | with_reducible apply Keeps.ite | dsimp only | (intro _ _ _ _ _) | (intro _ _ _) | (intro _ _) | split | simp only [Keeps, List.length_set, List.length_map, List.length_modify]

theorem State.setStr_keeps {s₀ : State} (s : State) (n : Nat) (t : Str) (hk : Keeps s₀ s) : Keeps s₀ (State.setStr s n t) := by
  unfold State.setStr
  dsimp only [Keeps]
  repeat' first | with_reducible assumption | with_reducible apply Keeps.ite | dsimp only | (intro _ _ _ _ _) | (intro _ _ _) | (intro _ _) | split | simp only [Keeps, List.length_set, List.length_map, List.length_modify]

theorem State.modJjob_keeps {s₀ : State} (s : State) (c sq : Nat) (f : JetJob → JetJob) (hk : Keeps s₀ s) : Keeps s₀ (State.modJjob s c sq f) := by
  unfold State.modJjob
  dsimp only [Keeps]
  repeat' first | with_reducible assumption | with_reducible apply Keeps.ite | dsimp only | (intro _ _ _ _ _) | (intro _ _ _) | (intro _ _) | split | simp only [Keeps, List.length_set, List.length_map, List.length_modify]

theorem State.mapJets_keeps {s₀ : State} (s : State) (f : Jet → Jet) (hk : Keeps s₀ s) : Keeps s₀ (State.mapJets s f) := by
  unfold State.mapJets
  dsimp only [Keeps]
  repeat' first | with_reducible assumption | with_reducible apply Keeps.ite | dsimp only | (intro _ _ _ _ _) | (intro _ _ _) | (intro _ _) | split | simp only [Keeps, List.length_set, List.length_map, List.length_modify]

theorem State.mapStrs_keeps {s₀ : State} (s : State) (f : Str → Str) (hk : Keeps s₀ s) : Keeps s₀ (State.mapStrs s f) := by
  unfold State.mapStrs
  dsimp only [Keeps]
  repeat' first | with_reducible assumption | with_reducible apply Keeps.ite | dsimp only | (intro _ _ _ _ _) | (intro _ _ _) | (intro _ _) | split | simp only [Keeps, List.length_set, List.length_map, List.length_modify]

theorem State.jaSync_keeps {s₀ : State} (s : State) (hk : Keeps s₀ s) : Keeps s₀ (State.jaSync s) := by
  unfold State.jaSync
  dsimp only [Keeps]
  repeat' first | with_reducible assumption | with_reducible apply State.setReg_keeps | with_reducible apply State.setFld_keeps | with_reducible apply State.setBit_keeps | with_reducible apply State.each_keeps | with_reducible apply Keeps.ite | dsimp only | (intro _ _ _ _ _) | (intro _ _ _) | (intro _ _) | split | simp only [Keeps, List.length_set, List.length_map, List.length_modify]

theorem State.jaEvent_keeps {s₀ : State} (s : State) (b : Nat) (hk : Keeps s₀ s) : Keeps s₀ (State.jaEvent s b) := by
  unfold State.jaEvent
  dsimp only [Keeps]
  repeat' first | with_reducible assumption | with_reducible apply State.setEvent_keeps | with_reducible apply Keeps.ite | dsimp only | (intro _ _ _ _ _) | (intro _ _ _) | (intro _ _) | split

theorem State.dlEvent_keeps {s₀ : State} (s : State) (b : Nat) (hk : Keeps s₀ s) : Keeps s₀ (State.dlEvent s b) := by
  unfold State.dlEvent
  dsimp only [Keeps]
  repeat' first | with_reducible assumption | with_reducible apply State.setEvent_keeps | with_reducible apply Keeps.ite | dsimp only | (intro _ _ _ _ _) | (intro _ _ _) | (intro _ _) | split

theorem State.jetClockAt_keeps {s₀ : State} (s : State) (mhz : Nat) (hk : Keeps s₀ s) : Keeps s₀ (State.jetClockAt s mhz) := by
  unfold State.jetClockAt
  dsimp only [Keeps]
  repeat' first | with_reducible assumption | with_reducible apply Keeps.ite | dsimp only | (intro _ _ _ _ _) | (intro _ _ _) | (intro _ _) | split

theorem State.jetsForget_keeps {s₀ : State} (s : State) (c sq : Nat) (hk : Keeps s₀ s) : Keeps s₀ (State.jetsForget s c sq) := by
  unfold State.jetsForget
  dsimp only [Keeps]
  repeat' first | with_reducible assumption | with_reducible apply State.mapJets_keeps | with_reducible apply State.mapStrs_keeps | with_reducible apply Keeps.ite | dsimp only | (intro _ _ _ _ _) | (intro _ _ _) | (intro _ _) | split

theorem State.freePreempts_keeps {s₀ : State} (s : State) (hk : Keeps s₀ s) : Keeps s₀ (State.freePreempts s) := by
  unfold State.freePreempts
  dsimp only [Keeps]
  repeat' first | with_reducible assumption | with_reducible apply State.mapJets_keeps | with_reducible apply Keeps.ite | dsimp only | (intro _ _ _ _ _) | (intro _ _ _) | (intro _ _) | split

theorem State.jetsCalm_keeps {s₀ : State} (s : State) (c : Nat) (hk : Keeps s₀ s) : Keeps s₀ (State.jetsCalm s c) := by
  unfold State.jetsCalm
  dsimp only [Keeps]
  repeat' first | with_reducible assumption | with_reducible apply State.jaSync_keeps | with_reducible apply Keeps.ite | dsimp only | (intro _ _ _ _ _) | (intro _ _ _) | (intro _ _) | split | simp only [Keeps, List.length_set, List.length_map, List.length_modify]

theorem State.jaDisable_keeps {s₀ : State} (s : State) (hk : Keeps s₀ s) : Keeps s₀ (State.jaDisable s) := by
  unfold State.jaDisable
  dsimp only [Keeps]
  repeat' first | with_reducible assumption | with_reducible apply State.setBit_keeps | with_reducible apply State.jetClockAt_keeps | with_reducible apply Keeps.ite | dsimp only | (intro _ _ _ _ _) | (intro _ _ _) | (intro _ _) | split

theorem State.slackOut_keeps {s₀ : State} (s : State) (j : JetJob) (hk : Keeps s₀ s) : Keeps s₀ (State.slackOut s j) := by
  unfold State.slackOut
  dsimp only [Keeps]
  repeat' first | with_reducible assumption | with_reducible apply State.setReg_keeps | with_reducible apply Keeps.ite | dsimp only | (intro _ _ _ _ _) | (intro _ _ _) | (intro _ _) | split

theorem State.jetsEnd_keeps {s₀ : State} (s : State) (c sq : Nat) (hk : Keeps s₀ s) : Keeps s₀ (State.jetsEnd s c sq) := by
  unfold State.jetsEnd
  dsimp only [Keeps]
  repeat' first | with_reducible assumption | with_reducible apply State.jaSync_keeps | with_reducible apply State.jetsForget_keeps | with_reducible apply State.freePreempts_keeps | with_reducible apply State.jaDisable_keeps | with_reducible apply State.slackOut_keeps | with_reducible apply Keeps.ite | dsimp only | (intro _ _ _ _ _) | (intro _ _ _) | (intro _ _) | split

theorem State.cvuDrop_keeps {s₀ : State} (s : State) (c sq : Nat) (hk : Keeps s₀ s) : Keeps s₀ (State.cvuDrop s c sq) := by
  unfold State.cvuDrop
  dsimp only [Keeps]
  repeat' first | with_reducible assumption | with_reducible apply State.setBit_keeps | with_reducible apply Keeps.ite | dsimp only | (intro _ _ _ _ _) | (intro _ _ _) | (intro _ _) | split

theorem State.resetCvu_keeps {s₀ : State} (s : State) (m : Nat) (hk : Keeps s₀ s) : Keeps s₀ (State.resetCvu s m) := by
  unfold State.resetCvu
  dsimp only [Keeps]
  repeat' first | with_reducible assumption | with_reducible apply State.setReg_keeps | with_reducible apply State.each_keeps | with_reducible apply Keeps.ite | dsimp only | (intro _ _ _ _ _) | (intro _ _ _) | (intro _ _) | split | simp only [Keeps, List.length_set, List.length_map, List.length_modify]

theorem State.rdmDrop_keeps {s₀ : State} (s : State) (c sq : Nat) (hk : Keeps s₀ s) : Keeps s₀ (State.rdmDrop s c sq) := by
  unfold State.rdmDrop
  dsimp only [Keeps]
  repeat' first | with_reducible assumption | with_reducible apply State.setBit_keeps | with_reducible apply State.emitOn_keeps | with_reducible apply State.each_keeps | with_reducible apply Keeps.ite | dsimp only | (intro _ _ _ _ _) | (intro _ _ _) | (intro _ _) | split | simp only [Keeps, List.length_set, List.length_map, List.length_modify]

theorem State.lightDrop_keeps {s₀ : State} (s : State) (c sq : Nat) (hk : Keeps s₀ s) : Keeps s₀ (State.lightDrop s c sq) := by
  unfold State.lightDrop
  dsimp only [Keeps]
  repeat' first | with_reducible assumption | with_reducible apply Keeps.ite | dsimp only | (intro _ _ _ _ _) | (intro _ _ _) | (intro _ _) | split

theorem State.setHapState_keeps {s₀ : State} (s : State) (n st : Nat) (hk : Keeps s₀ s) : Keeps s₀ (State.setHapState s n st) := by
  unfold State.setHapState
  dsimp only [Keeps]
  repeat' first | with_reducible assumption | with_reducible apply State.setFld_keeps | with_reducible apply State.setBit_keeps | with_reducible apply Keeps.ite | dsimp only | (intro _ _ _ _ _) | (intro _ _ _) | (intro _ _) | split

theorem State.setHapCh_keeps {s₀ : State} (s : State) (n : Nat) (x : HapCh) (hk : Keeps s₀ s) : Keeps s₀ (State.setHapCh s n x) := by
  unfold State.setHapCh
  dsimp only [Keeps]
  repeat' first | with_reducible assumption | with_reducible apply State.setFld_keeps | with_reducible apply Keeps.ite | dsimp only | (intro _ _ _ _ _) | (intro _ _ _) | (intro _ _) | split | simp only [Keeps, List.length_set, List.length_map, List.length_modify]

theorem State.hapDrop_keeps {s₀ : State} (s : State) (c sq : Nat) (hk : Keeps s₀ s) : Keeps s₀ (State.hapDrop s c sq) := by
  have h1 : ∀ (t : State) (l : List HapWait), Keeps s₀ t → Keeps s₀ { t with hap := { t.hap with waits := l } } := fun _ _ h => h
  unfold State.hapDrop
  exact h1 _ _ (State.each_keeps (fun _ _ h => State.setHapCh_keeps _ _ _ h) hk)

theorem State.audDrop_keeps {s₀ : State} (s : State) (c sq : Nat) (hk : Keeps s₀ s) : Keeps s₀ (State.audDrop s c sq) := by
  unfold State.audDrop
  dsimp only [Keeps]
  repeat' first | with_reducible assumption | with_reducible apply foldl_keeps | with_reducible apply Keeps.ite | dsimp only | (intro _ _ _ _ _) | (intro _ _ _) | (intro _ _) | split | simp only [Keeps, List.length_set, List.length_map, List.length_modify]

theorem State.dropRefs_keeps {s₀ : State} (s : State) (c sq : Nat) (hk : Keeps s₀ s) : Keeps s₀ (State.dropRefs s c sq) := by
  have h1 : ∀ t : State, Keeps s₀ t → Keeps s₀ { t with cmp := t.cmp.drop c sq } := fun _ h => h
  exact State.audDrop_keeps _ _ _ (State.hapDrop_keeps _ _ _ (State.rdmDrop_keeps _ _ _ (State.lightDrop_keeps _ _ _
    (State.cvuDrop_keeps _ _ _ (h1 _ (State.jetsEnd_keeps _ _ _ hk))))))

theorem spWf_keptRegs (s : State) (cold : Bool) : spWf regReset (s.keptRegs cold) = true := by
  unfold State.keptRegs
  dsimp only
  split <;> simp only [State.setReg] <;> repeat' apply spWf_spSet
  all_goals rfl

theorem State.blocksReset_keeps {s₀ : State} (s : State) (cold : Bool) (h : Keeps s₀ s) :
    Keeps s₀ (s.blocksReset cold) :=
  ⟨h.queue, h.fuses, fun w => ⟨rfl, rfl, (h.mem w).2.2.1, spWf_keptRegs s cold⟩, fun _ => rfl, fun _ => ⟨rfl, fun x hx => by rw [List.eq_of_mem_replicate hx]; rfl⟩⟩

theorem State.enter_keeps {s₀ : State} (s : State) (st : Nat) (cause : Option Nat) (hk : Keeps s₀ s) : Keeps s₀ (State.enter s st cause) := by
  unfold State.enter
  dsimp only [Keeps]
  repeat' first | with_reducible assumption | with_reducible apply State.setFld_keeps | with_reducible apply Keeps.ite | dsimp only | (intro _ _ _ _ _) | (intro _ _ _) | (intro _ _) | split

theorem State.loadFuses_keeps {s₀ : State} (s : State) (hk : Keeps s₀ s) : Keeps s₀ (State.loadFuses s) := by
  unfold State.loadFuses
  dsimp only [Keeps]
  repeat' first | with_reducible assumption | with_reducible apply State.setReg_keeps | with_reducible apply Keeps.ite | dsimp only | (intro _ _ _ _ _) | (intro _ _ _) | (intro _ _) | split

theorem State.enterBoot_keeps {s₀ : State} (s : State) (cause : Nat) (hk : Keeps s₀ s) : Keeps s₀ (State.enterBoot s cause) := by
  unfold State.enterBoot
  dsimp only [Keeps]
  repeat' first | with_reducible assumption | with_reducible apply State.holdGroups_keeps | with_reducible apply State.enter_keeps | with_reducible apply State.loadFuses_keeps | with_reducible apply Keeps.ite | dsimp only | (intro _ _ _ _ _) | (intro _ _ _) | (intro _ _) | split

theorem State.jumpers_keeps {s₀ : State} (s : State) (sel : Fin 4) (hk : Keeps s₀ s) : Keeps s₀ (State.jumpers s sel) := by
  unfold State.jumpers
  dsimp only [Keeps]
  repeat' first | with_reducible assumption | with_reducible apply Keeps.ite | dsimp only | (intro _ _ _ _ _) | (intro _ _ _) | (intro _ _) | split

theorem State.recoveryHeads_keeps {s₀ : State} (s : State) (hk : Keeps s₀ s) : Keeps s₀ (State.recoveryHeads s) := by
  unfold State.recoveryHeads
  dsimp only [Keeps]
  repeat' first | with_reducible assumption | with_reducible apply State.setReg_keeps | with_reducible apply State.setBit_keeps | with_reducible apply State.each_keeps | with_reducible apply Keeps.ite | dsimp only | (intro _ _ _ _ _) | (intro _ _ _) | (intro _ _) | split

theorem State.enterRecovery_keeps {s₀ : State} (s : State) (cause : Nat) (hk : Keeps s₀ s) : Keeps s₀ (State.enterRecovery s cause) := by
  unfold State.enterRecovery
  dsimp only [Keeps]
  repeat' first | with_reducible assumption | with_reducible apply State.setFld_keeps | with_reducible apply State.setBit_keeps | with_reducible apply State.holdGroups_keeps | with_reducible apply State.enter_keeps | with_reducible apply State.recoveryHeads_keeps | with_reducible apply Keeps.ite | dsimp only | (intro _ _ _ _ _) | (intro _ _ _) | (intro _ _) | split

theorem State.brownOut_keeps {s₀ : State} (s : State) (hk : Keeps s₀ s) : Keeps s₀ (State.brownOut s) := by
  unfold State.brownOut
  dsimp only [Keeps]
  repeat' first | with_reducible assumption | with_reducible apply State.blocksReset_keeps | with_reducible apply Keeps.ite | dsimp only | (intro _ _ _ _ _) | (intro _ _ _) | (intro _ _) | split

theorem State.chipReset_keeps {s₀ : State} (s : State) (cause : Nat) (hk : Keeps s₀ s) : Keeps s₀ (State.chipReset s cause) := by
  unfold State.chipReset
  dsimp only [Keeps]
  repeat' first | with_reducible assumption | with_reducible apply State.blocksReset_keeps | with_reducible apply Keeps.ite | dsimp only | (intro _ _ _ _ _) | (intro _ _ _) | (intro _ _) | split

theorem State.setCtx_keeps {s₀ : State} (s : State) (c : Nat) (x : Ctx) (hk : Keeps s₀ s) : Keeps s₀ (State.setCtx s c x) := by
  unfold State.setCtx
  dsimp only [Keeps]
  repeat' first | with_reducible assumption | with_reducible apply Keeps.ite | dsimp only | (intro _ _ _ _ _) | (intro _ _ _) | (intro _ _) | split

theorem State.setCtxState_keeps {s₀ : State} (s : State) (c st : Nat) (hk : Keeps s₀ s) : Keeps s₀ (State.setCtxState s c st) := by
  unfold State.setCtxState
  dsimp only [Keeps]
  repeat' first | with_reducible assumption | with_reducible apply State.setFld_keeps | with_reducible apply Keeps.ite | dsimp only | (intro _ _ _ _ _) | (intro _ _ _) | (intro _ _) | split

theorem State.modJob_keeps {s₀ : State} (s : State) (c sq : Nat) (f : Job → Job) (hk : Keeps s₀ s) : Keeps s₀ (State.modJob s c sq f) := by
  unfold State.modJob
  dsimp only [Keeps]
  repeat' first | with_reducible assumption | with_reducible apply State.setCtx_keeps | with_reducible apply Keeps.ite | dsimp only | (intro _ _ _ _ _) | (intro _ _ _) | (intro _ _) | split | simp only [Keeps, List.length_set, List.length_map, List.length_modify]

theorem State.markStarted_keeps {s₀ : State} (s : State) (c sq : Nat) (hk : Keeps s₀ s) : Keeps s₀ (State.markStarted s c sq) := by
  unfold State.markStarted
  dsimp only [Keeps]
  repeat' first | with_reducible assumption | with_reducible apply State.modJob_keeps | with_reducible apply Keeps.ite | dsimp only | (intro _ _ _ _ _) | (intro _ _ _) | (intro _ _) | split

theorem State.ownWrite_keeps {s₀ : State} (s : State) (p : Nat) (m : MemSel) (a : Nat) (bs : List Byte) (hk : Keeps s₀ s) : Keeps s₀ (State.ownWrite s p m a bs) := by
  unfold State.ownWrite
  dsimp only [Keeps]
  repeat' first | with_reducible assumption | with_reducible apply State.noteRefusal_keeps | with_reducible apply State.mergeWrite_keeps | with_reducible apply Keeps.ite | dsimp only | (intro _ _ _ _ _) | (intro _ _ _) | (intro _ _) | split

theorem State.bufWrite_keeps {s₀ : State} (s : State) (p a : Nat) (bs : List Byte) (hk : Keeps s₀ s) : Keeps s₀ (State.bufWrite s p a bs) := by
  unfold State.bufWrite
  dsimp only [Keeps]
  repeat' first | with_reducible assumption | with_reducible apply State.emit_keeps | with_reducible apply State.ownWrite_keeps | with_reducible apply Keeps.ite | dsimp only | (intro _ _ _ _ _) | (intro _ _ _) | (intro _ _) | split

theorem State.modPort_keeps {s₀ : State} (s : State) (n : Nat) (f : Port → Port) (hk : Keeps s₀ s) : Keeps s₀ (State.modPort s n f) := by
  unfold State.modPort
  dsimp only [Keeps]
  repeat' first | with_reducible assumption | with_reducible apply Keeps.ite | dsimp only | (intro _ _ _ _ _) | (intro _ _ _) | (intro _ _) | split | simp only [Keeps, List.length_set, List.length_map, List.length_modify]

theorem State.sendRead_keeps {s₀ : State} (s : State) (t : Nat) (r : ReadWait) (hk : Keeps s₀ s) : Keeps s₀ (State.sendRead s t r) := by
  unfold State.sendRead
  dsimp only [Keeps]
  repeat' first | with_reducible assumption | with_reducible apply State.emit_keeps | with_reducible apply State.modPort_keeps | with_reducible apply State.hostRead_keeps | with_reducible apply Keeps.ite | dsimp only | (intro _ _ _ _ _) | (intro _ _ _) | (intro _ _) | split

theorem State.hostRead_keeps {s₀ : State} (s : State) (c sq off a n : Nat) (hk : Keeps s₀ s) : Keeps s₀ (State.hostRead s c sq off a n) := by
  unfold State.hostRead
  dsimp only [Keeps]
  repeat' first | with_reducible assumption | with_reducible apply State.sendRead_keeps | with_reducible apply Keeps.ite | dsimp only | (intro _ _ _ _ _) | (intro _ _ _) | (intro _ _) | split

theorem State.orphan_keeps {s₀ : State} (s : State) (c : Nat) (sq : Option Nat) (hk : Keeps s₀ s) : Keeps s₀ (State.orphan s c sq) := by
  unfold State.orphan
  dsimp only [Keeps]
  repeat' first | with_reducible assumption | with_reducible apply State.modPort_keeps | with_reducible apply Keeps.ite | dsimp only | (intro _ _ _ _ _) | (intro _ _ _) | (intro _ _) | split | simp only [Keeps, List.length_set, List.length_map, List.length_modify]

theorem State.writeEntry_keeps {s₀ : State} (s : State) (c : Nat) (bs : List Byte) (hk : Keeps s₀ s) : Keeps s₀ (State.writeEntry s c bs) := by
  unfold State.writeEntry
  dsimp only [Keeps]
  repeat' first | with_reducible assumption | with_reducible apply State.setCtx_keeps | with_reducible apply State.bufWrite_keeps | with_reducible apply Keeps.ite | dsimp only | (intro _ _ _ _ _) | (intro _ _ _) | (intro _ _) | split | simp only [Keeps, List.length_set, List.length_map, List.length_modify]

theorem State.syncFull_keeps {s₀ : State} (s : State) (c : Nat) (hk : Keeps s₀ s) : Keeps s₀ (State.syncFull s c) := by
  unfold State.syncFull
  dsimp only [Keeps]
  repeat' first | with_reducible assumption | with_reducible apply State.setBit_keeps | with_reducible apply State.setCtx_keeps | with_reducible apply Keeps.ite | dsimp only | (intro _ _ _ _ _) | (intro _ _ _) | (intro _ _) | split

theorem State.ctxMsg_keeps {s₀ : State} (s : State) (c : Nat) (hk : Keeps s₀ s) : Keeps s₀ (State.ctxMsg s c) := by
  unfold State.ctxMsg
  dsimp only [Keeps]
  repeat' first | with_reducible assumption | with_reducible apply State.raiseVec_keeps | with_reducible apply Keeps.ite | dsimp only | (intro _ _ _ _ _) | (intro _ _ _) | (intro _ _) | split

theorem State.sendEntry_keeps {s₀ : State} (s : State) (c : Nat) (e : List Byte × Bool) (hk : Keeps s₀ s) : Keeps s₀ (State.sendEntry s c e) := by
  unfold State.sendEntry
  dsimp only [Keeps]
  repeat' first | with_reducible assumption | with_reducible apply State.writeEntry_keeps | with_reducible apply State.ctxMsg_keeps | with_reducible apply Keeps.ite | dsimp only | (intro _ _ _ _ _) | (intro _ _ _) | (intro _ _) | split

theorem State.pushEntry_keeps {s₀ : State} (s : State) (c : Nat) (bs : List Byte) (msg : Bool) (hk : Keeps s₀ s) : Keeps s₀ (State.pushEntry s c bs msg) := by
  unfold State.pushEntry
  dsimp only [Keeps]
  repeat' first | with_reducible assumption | with_reducible apply State.setCtx_keeps | with_reducible apply State.syncFull_keeps | with_reducible apply State.sendEntry_keeps | with_reducible apply Keeps.ite | dsimp only | (intro _ _ _ _ _) | (intro _ _ _) | (intro _ _) | split

theorem State.drainHeld_keeps {s₀ : State} (s : State) (c n : Nat) (h : Keeps s₀ s) : Keeps s₀ (s.drainHeld c n) := by
  induction n generalizing s with
  | zero => exact h
  | succ n ih =>
    dsimp only [State.drainHeld, Keeps]
    repeat' first | with_reducible assumption | with_reducible apply ih | with_reducible apply State.sendEntry_keeps | with_reducible apply State.setCtx_keeps | with_reducible apply Keeps.ite | dsimp only | (intro _ _ _ _ _) | (intro _ _ _) | (intro _ _) | split

theorem State.syncProgress_keeps {s₀ : State} (s : State) (c sq : Nat) (hk : Keeps s₀ s) : Keeps s₀ (State.syncProgress s c sq) := by
  unfold State.syncProgress
  dsimp only [Keeps]
  repeat' first | with_reducible assumption | with_reducible apply State.count_keeps | with_reducible apply State.modJob_keeps | (with_reducible refine fst_keeps ‹_› ?_) | (with_reducible refine snd_keeps ‹_› ?_) | with_reducible apply Keeps.ite | dsimp only | (intro _ _ _ _ _) | (intro _ _ _) | (intro _ _) | split

theorem State.complete_keeps {s₀ : State} (s : State) (c : Nat) (j : Job) (status time detail seq : Nat) (hk : Keeps s₀ s) : Keeps s₀ (State.complete s c j status time detail seq) := by
  unfold State.complete
  dsimp only [Keeps]
  repeat' first | with_reducible assumption | with_reducible apply State.count_keeps | with_reducible apply State.bufWrite_keeps | with_reducible apply State.pushEntry_keeps | with_reducible apply Keeps.ite | dsimp only | (intro _ _ _ _ _) | (intro _ _ _) | (intro _ _) | split

theorem State.settle_keeps {s₀ : State} (s : State) (c : Nat) (hk : Keeps s₀ s) : Keeps s₀ (State.settle s c) := by
  unfold State.settle
  dsimp only [Keeps]
  repeat' first | with_reducible assumption | with_reducible apply State.setFld_keeps | with_reducible apply State.setCtx_keeps | with_reducible apply State.setCtxState_keeps | with_reducible apply Keeps.ite | dsimp only | (intro _ _ _ _ _) | (intro _ _ _) | (intro _ _) | split

theorem State.endUnstarted_keeps {s₀ : State} (s : State) (c time seq : Nat) (hk : Keeps s₀ s) : Keeps s₀ (State.endUnstarted s c time seq) := by
  unfold State.endUnstarted
  dsimp only [Keeps]
  repeat' first | with_reducible assumption | with_reducible apply State.count_keeps | with_reducible apply State.dropRefs_keeps | with_reducible apply State.setCtx_keeps | with_reducible apply State.complete_keeps | with_reducible apply State.each_keeps | with_reducible apply Keeps.ite | dsimp only | (intro _ _ _ _ _) | (intro _ _ _) | (intro _ _) | split

theorem State.endJob_keeps {s₀ : State} (s0 : State) (c sq status detail seq : Nat) (hk : Keeps s₀ s0) : Keeps s₀ (State.endJob s0 c sq status detail seq) := by
  unfold State.endJob
  dsimp only [Keeps]
  repeat' first | with_reducible assumption | with_reducible apply State.dropRefs_keeps | with_reducible apply State.setCtx_keeps | with_reducible apply State.orphan_keeps | with_reducible apply State.syncProgress_keeps | with_reducible apply State.complete_keeps | with_reducible apply State.settle_keeps | with_reducible apply State.endUnstarted_keeps | with_reducible apply Keeps.ite | dsimp only | (intro _ _ _ _ _) | (intro _ _ _) | (intro _ _) | split

theorem State.faultJob_keeps {s₀ : State} (s : State) (c sq status detail off : Nat) (hk : Keeps s₀ s) : Keeps s₀ (State.faultJob s c sq status detail off) := by
  unfold State.faultJob
  dsimp only [Keeps]
  repeat' first | with_reducible assumption | with_reducible apply State.recordNow_keeps | with_reducible apply State.endJob_keeps | with_reducible apply Keeps.ite | dsimp only | (intro _ _ _ _ _) | (intro _ _ _) | (intro _ _) | split

theorem State.faultAt_keeps {s₀ : State} (s : State) (c sq status detail off : Nat) (hk : Keeps s₀ s) : Keeps s₀ (State.faultAt s c sq status detail off) := by
  unfold State.faultAt
  dsimp only [Keeps]
  repeat' first | with_reducible assumption | with_reducible apply State.faultJob_keeps | with_reducible apply State.eccSeen_keeps | with_reducible apply Keeps.ite | dsimp only | split

theorem State.readHost_keeps {s₀ : State} (s : State) (c sq off a n : Nat) (hk : Keeps s₀ s) : Keeps s₀ (State.readHost s c sq off a n) := by
  unfold State.readHost
  dsimp only [Keeps]
  repeat' first | with_reducible assumption | with_reducible apply State.hostRead_keeps | with_reducible apply State.faultJob_keeps | with_reducible apply Keeps.ite | dsimp only | (intro _ _ _ _ _) | (intro _ _ _) | (intro _ _) | split

theorem State.drainReads_keeps {s₀ : State} (s : State) (l : List ReadWait) (hk : Keeps s₀ s) : Keeps s₀ (s.drainReads l) := by
  induction l generalizing s with
  | nil => exact hk
  | cons r rs ih =>
    unfold State.drainReads
    dsimp only [Keeps]
    repeat' first | with_reducible assumption | with_reducible apply ih | with_reducible apply State.faultJob_keeps | with_reducible apply State.sendRead_keeps | with_reducible apply Keeps.ite | dsimp only | (intro _ _ _ _ _) | (intro _ _ _) | (intro _ _) | split

theorem State.touchMem_keeps {s₀ : State} (s : State) (a n : Nat) (hk : Keeps s₀ s) : Keeps s₀ (State.touchMem s a n) := by
  unfold State.touchMem
  dsimp only [Keeps]
  repeat' first | with_reducible assumption | with_reducible apply State.initRange_keeps | with_reducible apply Keeps.ite | dsimp only | (intro _ _ _ _ _) | (intro _ _ _) | (intro _ _) | split

theorem State.touchRanges_keeps {s₀ : State} (s : State) (l : List (Nat × Nat)) (hk : Keeps s₀ s) : Keeps s₀ (State.touchRanges s l) := by
  unfold State.touchRanges
  dsimp only [Keeps]
  repeat' first | with_reducible assumption | with_reducible apply State.touchMem_keeps | with_reducible apply State.each_keeps | with_reducible apply Keeps.ite | dsimp only | (intro _ _ _ _ _) | (intro _ _ _) | (intro _ _) | split

theorem State.reinCtx_keeps {s₀ : State} (s : State) (c src : Nat) (hk : Keeps s₀ s) : Keeps s₀ (State.reinCtx s c src) := by
  unfold State.reinCtx
  dsimp only [Keeps]
  repeat' first | with_reducible assumption | with_reducible apply State.jetsCalm_keeps | with_reducible apply State.setCtx_keeps | with_reducible apply State.setCtxState_keeps | with_reducible apply Keeps.ite | dsimp only | (intro _ _ _ _ _) | (intro _ _ _) | (intro _ _) | split

theorem State.resetCtx_keeps {s₀ : State} (s : State) (c : Nat) (hk : Keeps s₀ s) : Keeps s₀ (State.resetCtx s c) := by
  unfold State.resetCtx
  dsimp only [Keeps]
  repeat' first | with_reducible assumption | with_reducible apply State.setFld_keeps | with_reducible apply State.setBit_keeps | with_reducible apply State.setCtx_keeps | with_reducible apply State.setCtxState_keeps | with_reducible apply Keeps.ite | dsimp only | (intro _ _ _ _ _) | (intro _ _ _) | (intro _ _) | split

theorem State.clearCtx_keeps {s₀ : State} (s : State) (c : Nat) (hk : Keeps s₀ s) : Keeps s₀ (State.clearCtx s c) := by
  unfold State.clearCtx
  dsimp only [Keeps]
  repeat' first | with_reducible assumption | with_reducible apply State.setReg_keeps | with_reducible apply State.setCtx_keeps | with_reducible apply Keeps.ite | dsimp only | (intro _ _ _ _ _) | (intro _ _ _) | (intro _ _) | split

theorem State.movePdk_keeps {s₀ : State} (s : State) (p st : Nat) (hk : Keeps s₀ s) : Keeps s₀ (State.movePdk s p st) := by
  unfold State.movePdk
  dsimp only [Keeps]
  repeat' first | with_reducible assumption | with_reducible apply State.setFld_keeps | with_reducible apply State.offer_keeps | with_reducible apply State.mgrIrqSticky_keeps | with_reducible apply State.pdkCause_keeps | with_reducible apply Keeps.ite | dsimp only | (intro _ _ _ _ _) | (intro _ _ _) | (intro _ _) | split

theorem State.quiesce_keeps {s₀ : State} (s : State) (p cause : Nat) (hk : Keeps s₀ s) : Keeps s₀ (State.quiesce s p cause) := by
  unfold State.quiesce
  dsimp only [Keeps]
  repeat' first | with_reducible assumption | with_reducible apply State.setFld_keeps | with_reducible apply State.reinCtx_keeps | with_reducible apply State.movePdk_keeps | with_reducible apply State.each_keeps | with_reducible apply Keeps.ite | dsimp only | (intro _ _ _ _ _) | (intro _ _ _) | (intro _ _) | split

theorem State.resetWindow_keeps {s₀ : State} (s : State) (p : Nat) (h : Keeps s₀ s) : Keeps s₀ (s.resetWindow p) :=
  ⟨h.queue, h.fuses, fun w => ⟨(h.mem w).1, (h.mem w).2.1, (h.mem w).2.2.1, spWf_filter _ _ _ (h.mem w).2.2.2⟩, h.sizes, h.ims⟩

theorem State.resetFn_keeps {s₀ : State} (s : State) (p : Nat) (hk : Keeps s₀ s) : Keeps s₀ (State.resetFn s p) := by
  unfold State.resetFn
  dsimp only [Keeps]
  repeat' first | with_reducible assumption | with_reducible apply State.setBit_keeps | with_reducible apply State.setFn_keeps | with_reducible apply State.resetWindow_keeps | with_reducible apply Keeps.ite | dsimp only | (intro _ _ _ _ _) | (intro _ _ _) | (intro _ _) | split

theorem State.idleCtx_keeps {s₀ : State} (s : State) (c : Nat) (hk : Keeps s₀ s) : Keeps s₀ (State.idleCtx s c) := by
  unfold State.idleCtx
  dsimp only [Keeps]
  repeat' first | with_reducible assumption | with_reducible apply State.setCtx_keeps | with_reducible apply State.reinCtx_keeps | with_reducible apply State.clearCtx_keeps | with_reducible apply Keeps.ite | dsimp only | (intro _ _ _ _ _) | (intro _ _ _) | (intro _ _) | split

theorem State.endReset_keeps {s₀ : State} (s : State) (p : Nat) (hk : Keeps s₀ s) : Keeps s₀ (State.endReset s p) := by
  unfold State.endReset
  dsimp only [Keeps]
  repeat' first | with_reducible assumption | with_reducible apply State.resetFn_keeps | with_reducible apply Keeps.ite | dsimp only | (intro _ _ _ _ _) | (intro _ _ _) | (intro _ _) | split

theorem State.flr_keeps {s₀ : State} (s : State) (p cause : Nat) (hk : Keeps s₀ s) : Keeps s₀ (State.flr s p cause) := by
  unfold State.flr
  dsimp only [Keeps]
  repeat' first | with_reducible assumption | with_reducible apply State.setFn_keeps | with_reducible apply State.quiesce_keeps | with_reducible apply State.resetFn_keeps | with_reducible apply State.idleCtx_keeps | with_reducible apply State.each_keeps | with_reducible apply Keeps.ite | dsimp only | (intro _ _ _ _ _) | (intro _ _ _) | (intro _ _) | split

theorem State.doPornAssert_keeps {s₀ : State} (s : State) (hk : Keeps s₀ s) : Keeps s₀ (State.doPornAssert s) := by
  unfold State.doPornAssert
  dsimp only [Keeps]
  repeat' first | with_reducible assumption | with_reducible apply State.setReg_keeps | with_reducible apply State.blocksReset_keeps | with_reducible apply Keeps.ite | dsimp only | (intro _ _ _ _ _) | (intro _ _ _) | (intro _ _) | split

theorem execPornAssert_keeps {s₀ : State} (s : State) (hk : Keeps s₀ s) : KeepsOut s₀ (execPornAssert s) := by
  unfold execPornAssert
  repeat' first | with_reducible assumption | with_reducible apply State.doPornAssert_keeps | with_reducible apply KeepsOut.next | with_reducible apply KeepsOut.ite | with_reducible apply Keeps.ite | dsimp only | (intro _ _ _ _ _) | (intro _ _ _) | (intro _ _) | split

theorem execPornDeassert_keeps {s₀ : State} (s : State) (bootsel : Fin 4) (hk : Keeps s₀ s) : KeepsOut s₀ (execPornDeassert s bootsel) := by
  unfold execPornDeassert
  repeat' first | with_reducible assumption | with_reducible apply State.enterBoot_keeps | with_reducible apply State.jumpers_keeps | with_reducible apply State.sample_keeps | with_reducible apply KeepsOut.next | with_reducible apply KeepsOut.ite | with_reducible apply Keeps.ite | dsimp only | (intro _ _ _ _ _) | (intro _ _ _) | (intro _ _) | split

theorem execAllRailsGood_keeps {s₀ : State} (s : State) (bootsel : Fin 4) (hk : Keeps s₀ s) : KeepsOut s₀ (execAllRailsGood s bootsel) := by
  unfold execAllRailsGood
  repeat' first | with_reducible assumption | with_reducible apply State.enterBoot_keeps | with_reducible apply State.jumpers_keeps | with_reducible apply KeepsOut.next | with_reducible apply KeepsOut.ite | with_reducible apply Keeps.ite | dsimp only | (intro _ _ _ _ _) | (intro _ _ _) | (intro _ _) | split

theorem execRomCheckDone_keeps {s₀ : State} (romOk fuseOk : Bool) (s : State) (hk : Keeps s₀ s) : KeepsOut s₀ (execRomCheckDone romOk fuseOk s) := by
  unfold execRomCheckDone
  repeat' first | with_reducible assumption | with_reducible apply State.enter_keeps | with_reducible apply State.loadFuses_keeps | with_reducible apply State.enterRecovery_keeps | with_reducible apply KeepsOut.next | with_reducible apply KeepsOut.ite | with_reducible apply Keeps.ite | dsimp only | (intro _ _ _ _ _) | (intro _ _ _) | (intro _ _) | split

theorem State.monitor_keeps {s₀ : State} (x : RailSample) (s : State) (hk : Keeps s₀ s) : Keeps s₀ (State.monitor x s) := by
  unfold State.monitor
  dsimp only [Keeps]
  repeat' first | with_reducible assumption | with_reducible apply State.took_keeps | with_reducible apply Keeps.ite | dsimp only | (intro _ _ _ _ _) | (intro _ _ _) | (intro _ _) | split

theorem execBrownOut_keeps {s₀ : State} (rails : List RailSample) (s : State) (hk : Keeps s₀ s) : KeepsOut s₀ (execBrownOut rails s) := by
  have h : Keeps s₀ (rails.foldl (fun (a : State × Bool) x => (State.monitor x a.1, a.2 || a.1.sees x)) (s, false)).1 :=
    foldl_keeps_of (g := Prod.fst) (fun a x h => State.monitor_keeps x a.1 h) hk
  exact KeepsOut.next (Keeps.ite (State.brownOut_keeps _ h) h)

theorem execBrownOutRecovery_keeps {s₀ : State} (s : State) (bootsel : Fin 4) (hk : Keeps s₀ s) : KeepsOut s₀ (execBrownOutRecovery s bootsel) := by
  unfold execBrownOutRecovery
  repeat' first | with_reducible assumption | with_reducible apply State.enterBoot_keeps | with_reducible apply State.jumpers_keeps | with_reducible apply KeepsOut.next | with_reducible apply KeepsOut.ite | with_reducible apply Keeps.ite | dsimp only | (intro _ _ _ _ _) | (intro _ _ _) | (intro _ _) | split

theorem execVrPgoodLow_keeps {s₀ : State} (s : State) (hk : Keeps s₀ s) : KeepsOut s₀ (execVrPgoodLow s) := by
  unfold execVrPgoodLow
  repeat' first | with_reducible assumption | with_reducible apply State.brownOut_keeps | with_reducible apply KeepsOut.next | with_reducible apply KeepsOut.ite | with_reducible apply Keeps.ite | dsimp only | (intro _ _ _ _ _) | (intro _ _ _) | (intro _ _) | split

theorem execThermalTrip_keeps {s₀ : State} (s : State) (hk : Keeps s₀ s) : KeepsOut s₀ (execThermalTrip s) := by
  unfold execThermalTrip
  repeat' first | with_reducible assumption | with_reducible apply KeepsOut.next | with_reducible apply KeepsOut.ite | with_reducible apply Keeps.ite | dsimp only | (intro _ _ _ _ _) | (intro _ _ _) | (intro _ _) | split | simp only [Keeps, List.length_set, List.length_map, List.length_modify]

theorem execTapBypass_keeps {s₀ : State} (s : State) (hk : Keeps s₀ s) : KeepsOut s₀ (execTapBypass s) := by
  unfold execTapBypass
  repeat' first | with_reducible assumption | with_reducible apply KeepsOut.next | with_reducible apply KeepsOut.ite | with_reducible apply Keeps.ite | dsimp only | (intro _ _ _ _ _) | (intro _ _ _) | (intro _ _) | split

theorem execTapIdcode_keeps {s₀ : State} (s : State) (hk : Keeps s₀ s) : KeepsOut s₀ (execTapIdcode s) := by
  unfold execTapIdcode
  repeat' first | with_reducible assumption | with_reducible apply State.emit_keeps | with_reducible apply KeepsOut.next | with_reducible apply KeepsOut.ite | with_reducible apply Keeps.ite | dsimp only | (intro _ _ _ _ _) | (intro _ _ _) | (intro _ _) | split

theorem State.scan_keeps {s₀ : State} (s : State) (balls shifted : List Bool) (hk : Keeps s₀ s) : Keeps s₀ (State.scan s balls shifted) := by
  unfold State.scan
  dsimp only [Keeps]
  repeat' first | with_reducible assumption | with_reducible apply State.emit_keeps | with_reducible apply Keeps.ite | dsimp only | (intro _ _ _ _ _) | (intro _ _ _) | (intro _ _) | split

theorem execTapExtest_keeps {s₀ : State} (s : State) (balls shifted : List Bool) (hk : Keeps s₀ s) : KeepsOut s₀ (execTapExtest s balls shifted) := by
  unfold execTapExtest
  repeat' first | with_reducible assumption | with_reducible apply State.emit_keeps | with_reducible apply State.scan_keeps | with_reducible apply KeepsOut.next | with_reducible apply KeepsOut.ite | with_reducible apply Keeps.ite | dsimp only | (intro _ _ _ _ _) | (intro _ _ _) | (intro _ _) | split

theorem execTapSamplePreload_keeps {s₀ : State} (s : State) (balls shifted : List Bool) (hk : Keeps s₀ s) : KeepsOut s₀ (execTapSamplePreload s balls shifted) := by
  unfold execTapSamplePreload
  repeat' first | with_reducible assumption | with_reducible apply State.scan_keeps | with_reducible apply State.sample_keeps | with_reducible apply KeepsOut.next | with_reducible apply KeepsOut.ite | with_reducible apply Keeps.ite | dsimp only | (intro _ _ _ _ _) | (intro _ _ _) | (intro _ _) | split

theorem execTestLogicReset_keeps {s₀ : State} (s : State) (hk : Keeps s₀ s) : KeepsOut s₀ (execTestLogicReset s) := by
  unfold execTestLogicReset
  repeat' first | with_reducible assumption | with_reducible apply KeepsOut.next | with_reducible apply KeepsOut.ite | with_reducible apply Keeps.ite | dsimp only | (intro _ _ _ _ _) | (intro _ _ _) | (intro _ _) | split

theorem State.secRecord_keeps {s₀ : State} (s : State) (code : Nat) (items : List (Nat × Nat)) (hk : Keeps s₀ s) : Keeps s₀ (State.secRecord s code items) := by
  unfold State.secRecord
  dsimp only [Keeps]
  repeat' first | with_reducible assumption | with_reducible apply State.setReg_keeps | with_reducible apply Keeps.ite | dsimp only | (intro _ _ _ _ _) | (intro _ _ _) | (intro _ _) | split

theorem State.secHardware_keeps {s₀ : State} (s : State) (code : Nat) (items : List (Nat × Nat)) (hk : Keeps s₀ s) : Keeps s₀ (State.secHardware s code items) := by
  unfold State.secHardware
  dsimp only [Keeps]
  repeat' first | with_reducible assumption | with_reducible apply State.secRecord_keeps | with_reducible apply Keeps.ite | dsimp only | (intro _ _ _ _ _) | (intro _ _ _) | (intro _ _) | split

theorem execDebugSel_keeps {s₀ : State} (s : State) (hk : Keeps s₀ s) : KeepsOut s₀ (execDebugSel s) := by
  unfold execDebugSel
  repeat' first | with_reducible assumption | with_reducible apply State.setBit_keeps | with_reducible apply State.secHardware_keeps | with_reducible apply KeepsOut.next | with_reducible apply KeepsOut.ite | with_reducible apply Keeps.ite | dsimp only | (intro _ _ _ _ _) | (intro _ _ _) | (intro _ _) | split

theorem execSecureRecordWrite_keeps {s₀ : State} (code d0 d1 d2 : Nat) (s : State) (hk : Keeps s₀ s) : KeepsOut s₀ (execSecureRecordWrite code d0 d1 d2 s) := by
  unfold execSecureRecordWrite
  repeat' first | with_reducible assumption | with_reducible apply State.secRecord_keeps | with_reducible apply KeepsOut.next | with_reducible apply KeepsOut.ite | with_reducible apply Keeps.ite | dsimp only | (intro _ _ _ _ _) | (intro _ _ _) | (intro _ _) | split

theorem execChipResetEnd_keeps {s₀ : State} (s : State) (bootsel : Fin 4) (hk : Keeps s₀ s) : KeepsOut s₀ (execChipResetEnd s bootsel) := by
  unfold execChipResetEnd
  repeat' first | with_reducible assumption | with_reducible apply State.enterBoot_keeps | with_reducible apply State.jumpers_keeps | with_reducible apply KeepsOut.next | with_reducible apply KeepsOut.ite | with_reducible apply Keeps.ite | dsimp only | (intro _ _ _ _ _) | (intro _ _ _) | (intro _ _) | split

theorem execPcrReset_keeps {s₀ : State} (value : Nat) (s : State) (hk : Keeps s₀ s) : KeepsOut s₀ (execPcrReset value s) := by
  unfold execPcrReset
  repeat' first | with_reducible assumption | with_reducible apply State.chipReset_keeps | with_reducible apply KeepsOut.next | with_reducible apply KeepsOut.ite | with_reducible apply Keeps.ite | dsimp only | (intro _ _ _ _ _) | (intro _ _ _) | (intro _ _) | split

theorem State.applyRecord_keeps {s₀ : State} (t : Nat) (r : Nat × Nat) (s : State) (hk : Keeps s₀ s) : Keeps s₀ (State.applyRecord t r s) := by
  unfold State.applyRecord
  dsimp only [Keeps]
  repeat' first | with_reducible assumption | with_reducible apply State.setReg_keeps | with_reducible apply State.lutStore_keeps | with_reducible apply State.xpStep_keeps | with_reducible apply Keeps.ite | dsimp only | (intro _ _ _ _ _) | (intro _ _ _) | (intro _ _) | split

theorem State.applyDefaults_keeps {s₀ : State} (xs : List Section) (s0 : State) (hk : Keeps s₀ s0) : Keeps s₀ (State.applyDefaults xs s0) := by
  unfold State.applyDefaults
  dsimp only [Keeps]
  repeat' first | with_reducible assumption | with_reducible apply State.setReg_keeps | with_reducible apply State.each_keeps | with_reducible apply Keeps.ite | dsimp only | (intro _ _ _ _ _) | (intro _ _ _) | (intro _ _) | split | simp only [Keeps, List.length_set, List.length_map, List.length_modify]

theorem State.applyLists_keeps {s₀ : State} (xs : List Section) (s : State) (hk : Keeps s₀ s) : Keeps s₀ (State.applyLists xs s) := by
  unfold State.applyLists
  dsimp only [Keeps]
  repeat' first | with_reducible assumption | with_reducible apply State.applyRecord_keeps | with_reducible apply State.applyDefaults_keeps | with_reducible apply State.each_keeps | with_reducible apply Keeps.ite | dsimp only | (intro _ _ _ _ _) | (intro _ _ _) | (intro _ _) | split

theorem State.applyPlatform_keeps {s₀ : State} (p : List Byte) (s : State) (hk : Keeps s₀ s) : Keeps s₀ (State.applyPlatform p s) := by
  unfold State.applyPlatform
  dsimp only [Keeps]
  repeat' first | with_reducible assumption | with_reducible apply State.setReg_keeps | with_reducible apply State.setBit_keeps | with_reducible apply Keeps.ite | dsimp only | (intro _ _ _ _ _) | (intro _ _ _) | (intro _ _) | split

theorem State.withImage_keeps {s₀ : State} (s : State) (h : Header) (xs : List Section) (plat : List Byte) (hk : Keeps s₀ s) : Keeps s₀ (State.withImage s h xs plat) := by
  unfold State.withImage
  dsimp only [Keeps]
  repeat' first | with_reducible assumption | with_reducible apply State.applyLists_keeps | with_reducible apply State.applyPlatform_keeps | with_reducible apply Keeps.ite | dsimp only | (intro _ _ _ _ _) | (intro _ _ _) | (intro _ _) | split | simp only [Keeps, List.length_set, List.length_map, List.length_modify]

theorem State.applyGains_keeps {s₀ : State} (s : State) (xs : List Section) (hk : Keeps s₀ s) : Keeps s₀ (s.applyGains xs) := by
  unfold State.applyGains
  refine foldl_keeps_of (g := Prod.fst) (fun a r h => ?_) hk
  split
  · exact h
  · split
    · exact State.write_keeps _ _ _ _ h
    · exact h

theorem State.applyData_keeps {s₀ : State} (s : State) (xs : List Section) (hk : Keeps s₀ s) :
    Keeps s₀ (State.applyData s xs) := by
  have h0 : Keeps s₀ { s with mem := {} } := ⟨hk.queue, hk.fuses, fun w => ⟨rfl, rfl, (hk.mem w).2.2⟩, hk.sizes, hk.ims⟩
  have h1 := State.applyGains_keeps _ xs h0
  unfold State.applyData
  generalize State.applyGains { s with mem := {} } xs = s1 at h1 ⊢
  dsimp only [Keeps] at h1 ⊢
  repeat' first | with_reducible assumption | with_reducible apply State.setReg_keeps | with_reducible apply State.write_keeps | with_reducible apply State.setOwner_keeps | with_reducible apply State.each_keeps | with_reducible apply Keeps.ite | dsimp only | (intro _ _ _ _ _) | (intro _ _ _) | (intro _ _) | split

theorem State.logStep_keeps {s₀ : State} (s : State) (step slot : Nat) (hk : Keeps s₀ s) : Keeps s₀ (State.logStep s step slot) := by
  unfold State.logStep
  dsimp only [Keeps]
  repeat' first | with_reducible assumption | with_reducible apply Keeps.ite | dsimp only | (intro _ _ _ _ _) | (intro _ _ _) | (intro _ _) | split

theorem State.showFailure_keeps {s₀ : State} (s : State) (slot : Nat) (f : Failure) (hk : Keeps s₀ s) : Keeps s₀ (State.showFailure s slot f) := by
  unfold State.showFailure
  dsimp only [Keeps]
  repeat' first | with_reducible assumption | with_reducible apply State.setReg_keeps | with_reducible apply Keeps.ite | dsimp only | (intro _ _ _ _ _) | (intro _ _ _) | (intro _ _) | split

theorem State.recordFailure_keeps {s₀ : State} (s : State) (slot : Nat) (f : Failure) (hk : Keeps s₀ s) : Keeps s₀ (State.recordFailure s slot f) := by
  unfold State.recordFailure
  dsimp only [Keeps]
  repeat' first | with_reducible assumption | with_reducible apply State.showFailure_keeps | with_reducible apply Keeps.ite | dsimp only | (intro _ _ _ _ _) | (intro _ _ _) | (intro _ _) | split

theorem State.stampLog_keeps {s₀ : State} (s : State) (steps : List Nat) (hk : Keeps s₀ s) : Keeps s₀ (State.stampLog s steps) := by
  unfold State.stampLog
  dsimp only [Keeps]
  repeat' first | with_reducible assumption | with_reducible apply Keeps.ite | dsimp only | (intro _ _ _ _ _) | (intro _ _ _) | (intro _ _) | split | simp only [Keeps, List.length_set, List.length_map, List.length_modify]

theorem State.stage_keeps {s₀ : State} (s : State) (b : Nat) (hk : Keeps s₀ s) : Keeps s₀ (State.stage s b) := by
  unfold State.stage
  dsimp only [Keeps]
  repeat' first | with_reducible assumption | with_reducible apply State.write_keeps | with_reducible apply Keeps.ite | dsimp only | (intro _ _ _ _ _) | (intro _ _ _) | (intro _ _) | split

theorem State.logSteps_keeps {s₀ : State} (s : State) (slot n : Nat) (hk : Keeps s₀ s) : Keeps s₀ (State.logSteps s slot n) := by
  unfold State.logSteps
  dsimp only [Keeps]
  repeat' first | with_reducible assumption | with_reducible apply State.logStep_keeps | with_reducible apply State.each_keeps | with_reducible apply Keeps.ite | dsimp only | (intro _ _ _ _ _) | (intro _ _ _) | (intro _ _) | split

theorem State.loadSlot_keeps {s₀ : State} (s t : State) (slot : Nat) (facts : LoadFacts) (h : Keeps s₀ s)
    (e : s.loadSlot slot facts = .ok t) : Keeps s₀ t := by
  unfold State.loadSlot at e
  simp only [bind, Except.bind, pure, Except.pure, throw, throwThe, MonadExceptOf.throw] at e
  repeat' split at e
  all_goals cases e
  all_goals
    repeat' first | with_reducible assumption | with_reducible apply State.setBit_keeps | with_reducible apply State.setFld_keeps | with_reducible apply State.setReg_keeps | with_reducible apply State.applyData_keeps | with_reducible apply State.withImage_keeps | with_reducible apply State.each_keeps | with_reducible apply Keeps.ite | dsimp only | (intro _ _ _)

theorem State.decideDir_keeps {s₀ : State} (s : State) (cur : Option (Nat × Dir)) (f : Dir → Dir) (h : Keeps s₀ s) :
    Keeps s₀ (s.decideDir cur f).1 := by
  unfold State.decideDir
  split <;> exact h

theorem State.showDir_keeps {s₀ : State} (s : State) (d : Dir) (hk : Keeps s₀ s) : Keeps s₀ (State.showDir s d) := by
  unfold State.showDir
  dsimp only [Keeps]
  repeat' first | with_reducible assumption | with_reducible apply State.setReg_keeps | with_reducible apply Keeps.ite | dsimp only | (intro _ _ _ _ _) | (intro _ _ _) | (intro _ _) | split

theorem State.startRecorder_keeps {s₀ : State} (s : State) (hk : Keeps s₀ s) : Keeps s₀ (State.startRecorder s) := by
  unfold State.startRecorder
  dsimp only [Keeps]
  repeat' first | with_reducible assumption | with_reducible apply State.setReg_keeps | with_reducible apply State.setBit_keeps | with_reducible apply State.accept_keeps | with_reducible apply State.each_keeps | with_reducible apply foldl_keeps | with_reducible apply Keeps.ite | dsimp only | (intro _ _ _ _ _) | (intro _ _ _) | (intro _ _) | split

theorem State.trySlots_keeps {s₀ : State} (s : State) (l : List (Nat × LoadFacts)) (h : Keeps s₀ s) :
    Keeps s₀ (s.trySlots l).1 := by
  induction l generalizing s with
  | nil => exact h
  | cons p l ih =>
    unfold State.trySlots
    split
    · rename_i t e
      exact State.logSteps_keeps _ _ _ (State.loadSlot_keeps s t _ _ h e)
    · exact ih _ (State.recordFailure_keeps _ _ _ (State.logSteps_keeps _ _ _ (State.stage_keeps _ _ h)))

theorem State.settleDir_keeps {s₀ : State} (s : State) (found : Option (Nat × Dir)) (slot : Nat) (tried : List Nat) (hk : Keeps s₀ s) : Keeps s₀ (State.settleDir s found slot tried) := by
  unfold State.settleDir
  dsimp only [Keeps]
  repeat' first | with_reducible assumption | with_reducible apply State.decideDir_keeps | with_reducible apply Keeps.ite | dsimp only | (intro _ _ _ _ _) | (intro _ _ _) | (intro _ _) | split

theorem State.loadOrder_keeps {s₀ : State} (s : State) (hk : Keeps s₀ s) : Keeps s₀ (State.loadOrder s).1 := by
  unfold State.loadOrder
  dsimp only [Keeps]
  repeat' first | with_reducible assumption | with_reducible apply State.decideDir_keeps | with_reducible apply Keeps.ite | dsimp only | (intro _ _ _ _ _) | (intro _ _ _) | (intro _ _) | split

theorem State.showFound_keeps {s₀ : State} (s : State) (found : Option (Nat × Dir)) (hk : Keeps s₀ s) : Keeps s₀ (State.showFound s found) := by
  unfold State.showFound
  dsimp only [Keeps]
  repeat' first | with_reducible assumption | with_reducible apply State.showDir_keeps | with_reducible apply Keeps.ite | dsimp only | (intro _ _ _ _ _) | (intro _ _ _) | (intro _ _) | split

theorem State.slotLoaded_keeps {s₀ : State} (s : State) (found : Option (Nat × Dir)) (slot : Nat) (tried steps : List Nat) (h : Keeps s₀ s) :
    Keeps s₀ (s.slotLoaded found slot tried steps) := by
  have h1 := State.showFound_keeps _ found (State.settleDir_keeps _ found slot tried h)
  refine State.startRecorder_keeps _ (State.stampLog_keeps _ _ ?_)
  exact (State.holdGroups_keeps _ (List.range 10) h1 :)

theorem State.doWellheadLoad_keeps {s₀ : State} (s : State) (sfdpOk : Bool) (fa fb : LoadFacts) (steps : List Nat) (hk : Keeps s₀ s) : Keeps s₀ (State.doWellheadLoad s sfdpOk fa fb steps) := by
  have h0 : Keeps s₀ ((((s.holdGroups [0, 4]).emit (.pin "XSPI_RSTn" 0)).emit (.pin "XSPI_RSTn" 1)).logStep 4 0xFF) :=
    State.logStep_keeps _ _ _ (State.emit_keeps _ _ (State.emit_keeps _ _ (State.holdGroups_keeps _ _ hk)))
  unfold State.doWellheadLoad
  generalize (((s.holdGroups [0, 4]).emit (.pin "XSPI_RSTn" 0)).emit (.pin "XSPI_RSTn" 1)).logStep 4 0xFF = s0 at h0 ⊢
  have h1 := State.loadOrder_keeps _ (State.setBit_keeps _ Reg.WH_STATUS 2 s0.dirInForce.isSome (State.logStep_keeps _ 5 0xFF h0))
  dsimp only
  generalize ((s0.logStep 5 0xFF).setBit Reg.WH_STATUS 2 s0.dirInForce.isSome).loadOrder = r at h1 ⊢
  have h2 := State.trySlots_keeps _ (r.2.2.map fun q => (q, if q = 0 then fa else fb)) h1
  generalize State.trySlots _ _ = q at h2 ⊢
  split
  · exact State.enterRecovery_keeps _ _ (State.stampLog_keeps _ _ (State.recordFailure_keeps _ _ _ (State.recordFailure_keeps _ _ _ h0)))
  · split
    · exact State.slotLoaded_keeps _ _ _ _ _ h2
    · exact State.enterRecovery_keeps _ _ (State.stampLog_keeps _ _ (State.showFound_keeps _ _ h2))

theorem execWellheadLoad_keeps {s₀ : State} (sfdpOk : Bool) (a b : LoadFacts) (s : State) (steps : List Nat) (hk : Keeps s₀ s) : KeepsOut s₀ (execWellheadLoad sfdpOk a b s steps) := by
  unfold execWellheadLoad
  repeat' first | with_reducible assumption | with_reducible apply State.doWellheadLoad_keeps | with_reducible apply KeepsOut.next | with_reducible apply KeepsOut.ite | with_reducible apply Keeps.ite | dsimp only | (intro _ _ _ _ _) | (intro _ _ _) | (intro _ _) | split

theorem State.eraseSector_keeps {s₀ : State} (s : State) (a : Nat) (h : Keeps s₀ s) : Keeps s₀ (s.eraseSector a) :=
  ⟨h.queue, h.fuses, fun w => ⟨(h.mem w).1, (h.mem w).2.1, spWf_filter _ _ _ (h.mem w).2.2.1, (h.mem w).2.2.2⟩, h.sizes, h.ims⟩

theorem State.program_keeps {s₀ : State} (s : State) (a : Nat) (bs : List Byte) (h : Keeps s₀ s) :
    Keeps s₀ (s.program a bs) := by
  induction bs generalizing s a with
  | nil => exact h
  | cons b bs ih =>
    exact ih _ _ ⟨h.queue, h.fuses,
      fun w => ⟨(h.mem w).1, (h.mem w).2.1, spWf_spSet _ _ _ _ (h.mem w).2.2.1, (h.mem w).2.2.2⟩, h.sizes, h.ims⟩

theorem State.writeDir_keeps {s₀ : State} (s : State) (c : Nat) (d : Dir) (hk : Keeps s₀ s) : Keeps s₀ (State.writeDir s c d) := by
  unfold State.writeDir
  dsimp only [Keeps]
  repeat' first | with_reducible assumption | with_reducible apply State.eraseSector_keeps | with_reducible apply State.program_keeps | with_reducible apply Keeps.ite | dsimp only | (intro _ _ _ _ _) | (intro _ _ _) | (intro _ _) | split

theorem State.confirm_keeps {s₀ : State} (s : State) (hk : Keeps s₀ s) : Keeps s₀ s.confirm := by
  have hm : ∀ (t : State) (v : Nat), Keeps s₀ t →
      Keeps s₀ (if t.fuses.minSec < v then { t with fuses := { t.fuses with minSec := v } } else t) := by
    intro t v ht
    split
    · rename_i lt
      obtain ⟨a, b, c, d, e, rest⟩ := ht.fuses
      exact ⟨ht.queue, ⟨a, b, c, d, e.trans (Nat.le_of_lt lt), rest⟩, ht.mem, ht.sizes, ht.ims⟩
    · exact ht
  unfold State.confirm
  dsimp only
  split
  · with_reducible apply State.offer_keeps
    repeat' first | with_reducible assumption | with_reducible apply hm | with_reducible apply State.setBit_keeps | with_reducible apply State.setFld_keeps | with_reducible apply State.showDir_keeps | with_reducible apply State.decideDir_keeps | with_reducible apply Keeps.ite | split
  · exact hk

theorem execSlotConfirm_keeps {s₀ : State} (value : Nat) (s : State) (hk : Keeps s₀ s) : KeepsOut s₀ (execSlotConfirm value s) := by
  unfold execSlotConfirm
  repeat' first | with_reducible assumption | with_reducible apply State.confirm_keeps | with_reducible apply KeepsOut.next | with_reducible apply KeepsOut.ite | with_reducible apply Keeps.ite | dsimp only | (intro _ _ _ _ _) | (intro _ _ _) | (intro _ _) | split

theorem State.afterFlash_keeps {s₀ : State} (s : State) (hk : Keeps s₀ s) : Keeps s₀ (State.afterFlash s) := by
  unfold State.afterFlash
  dsimp only [Keeps]
  repeat' first | with_reducible assumption | with_reducible apply State.confirm_keeps | with_reducible apply Keeps.ite | dsimp only | (intro _ _ _ _ _) | (intro _ _ _) | (intro _ _) | split

theorem execDirectoryWrite_keeps {s₀ : State} (s : State) (hk : Keeps s₀ s) : KeepsOut s₀ (execDirectoryWrite s) := by
  unfold execDirectoryWrite
  repeat' first | with_reducible assumption | with_reducible apply State.setBit_keeps | with_reducible apply State.writeDir_keeps | with_reducible apply State.afterFlash_keeps | (with_reducible refine fst_keeps ‹_› ?_) | (with_reducible refine snd_keeps ‹_› ?_) | with_reducible apply KeepsOut.next | with_reducible apply KeepsOut.ite | with_reducible apply Keeps.ite | dsimp only | (intro _ _ _ _ _) | (intro _ _ _) | (intro _ _) | split

theorem execRebootKey_keeps {s₀ : State} (value : Nat) (s : State) (bootsel : Fin 4) (hk : Keeps s₀ s) : KeepsOut s₀ (execRebootKey value s bootsel) := by
  unfold execRebootKey
  repeat' first | with_reducible assumption | with_reducible apply State.blocksReset_keeps | with_reducible apply State.enterBoot_keeps | with_reducible apply State.jumpers_keeps | with_reducible apply KeepsOut.next | with_reducible apply KeepsOut.ite | with_reducible apply Keeps.ite | dsimp only | (intro _ _ _ _ _) | (intro _ _ _) | (intro _ _) | split

theorem State.flashEnd_keeps {s₀ : State} (s : State) (cmd : Nat) (reason verify : Nat) (hk : Keeps s₀ s) : Keeps s₀ (State.flashEnd s cmd reason verify) := by
  unfold State.flashEnd
  dsimp only [Keeps]
  repeat' first | with_reducible assumption | with_reducible apply State.setFld_keeps | with_reducible apply State.setBit_keeps | with_reducible apply State.offer_keeps | with_reducible apply State.mgrIrq_keeps | with_reducible apply Keeps.ite | dsimp only | (intro _ _ _ _ _) | (intro _ _ _) | (intro _ _) | split

theorem State.flashStart_keeps {s₀ : State} (s : State) (cmd n : Nat) (effect : State → State)
    (he : ∀ t, Keeps s₀ t → Keeps s₀ (effect t)) (h : Keeps s₀ s) : Keeps s₀ (s.flashStart cmd n effect) := by
  unfold State.flashStart
  dsimp only [Keeps]
  repeat' first | with_reducible assumption | with_reducible apply he | with_reducible apply State.setBit_keeps | with_reducible apply State.setFld_keeps | with_reducible apply State.flashEnd_keeps | with_reducible apply Keeps.ite | dsimp only | (intro _ _ _ _ _) | (intro _ _ _) | (intro _ _) | split

theorem execFlashRead_keeps {s₀ : State} (s : State) (hk : Keeps s₀ s) : KeepsOut s₀ (execFlashRead s) := by
  unfold execFlashRead
  repeat' first | with_reducible assumption | with_reducible apply State.setFld_keeps | with_reducible apply State.flashStart_keeps | with_reducible apply State.each_keeps | with_reducible apply KeepsOut.next | with_reducible apply KeepsOut.ite | with_reducible apply Keeps.ite | dsimp only | (intro _ _ _ _ _) | (intro _ _ _) | (intro _ _) | split

theorem execFlashErase_keeps {s₀ : State} (s : State) (hk : Keeps s₀ s) : KeepsOut s₀ (execFlashErase s) := by
  unfold execFlashErase
  repeat' first | with_reducible assumption | with_reducible apply State.eraseSector_keeps | with_reducible apply State.flashStart_keeps | with_reducible apply KeepsOut.next | with_reducible apply KeepsOut.ite | with_reducible apply Keeps.ite | dsimp only | (intro _ _ _ _ _) | (intro _ _ _) | (intro _ _) | split

theorem execFlashProgram_keeps {s₀ : State} (s : State) (hk : Keeps s₀ s) : KeepsOut s₀ (execFlashProgram s) := by
  unfold execFlashProgram
  repeat' first | with_reducible assumption | with_reducible apply State.program_keeps | with_reducible apply State.flashStart_keeps | with_reducible apply KeepsOut.next | with_reducible apply KeepsOut.ite | with_reducible apply Keeps.ite | dsimp only | (intro _ _ _ _ _) | (intro _ _ _) | (intro _ _) | split

theorem execSetTrial_keeps {s₀ : State} (s : State) (hk : Keeps s₀ s) : KeepsOut s₀ (execSetTrial s) := by
  unfold execSetTrial
  repeat' first | with_reducible assumption | with_reducible apply State.setFld_keeps | with_reducible apply State.offer_keeps | with_reducible apply State.showFailure_keeps | with_reducible apply State.flashStart_keeps | with_reducible apply KeepsOut.next | with_reducible apply KeepsOut.ite | with_reducible apply Keeps.ite | dsimp only | (intro _ _ _ _ _) | (intro _ _ _) | (intro _ _) | split

theorem execFlashCmdEnd_keeps {s₀ : State} (error : Bool) (s : State) (hk : Keeps s₀ s) : KeepsOut s₀ (execFlashCmdEnd error s) := by
  unfold execFlashCmdEnd
  repeat' first | with_reducible assumption | with_reducible apply State.setBit_keeps | with_reducible apply State.showDir_keeps | with_reducible apply State.writeDir_keeps | with_reducible apply State.afterFlash_keeps | with_reducible apply State.flashEnd_keeps | with_reducible apply KeepsOut.next | with_reducible apply KeepsOut.ite | with_reducible apply Keeps.ite | dsimp only | (intro _ _ _ _ _) | (intro _ _ _) | (intro _ _) | split | simp only [Keeps, List.length_set, List.length_map, List.length_modify]

end Sys2Proof.Machine
end

