-- ==== Sys2Proof/Laws/KeepsHost.lean ====
section
/-! SUPPORT. The relation `Keeps` through host ports, paddocks, power, the secure world, memory, the recorder and contexts. -/

set_option linter.unreachableTactic false
set_option linter.unusedTactic false
set_option linter.unusedSimpArgs false

namespace Sys2Proof.Machine

theorem State.flushVec_keeps {s₀ : State} (s : State) (p v : Nat) (hk : Keeps s₀ s) : Keeps s₀ (State.flushVec s p v) := by
  unfold State.flushVec
  dsimp only [Keeps]
  repeat' first | with_reducible assumption | with_reducible apply State.setBit_keeps | with_reducible apply Keeps.ite | dsimp only | (intro _ _ _ _ _) | (intro _ _ _) | (intro _ _) | split

theorem State.flushAll_keeps {s₀ : State} (s : State) (p : Nat) (hk : Keeps s₀ s) : Keeps s₀ (State.flushAll s p) := by
  unfold State.flushAll
  dsimp only [Keeps]
  repeat' first | with_reducible assumption | with_reducible apply State.flushVec_keeps | with_reducible apply State.each_keeps | with_reducible apply Keeps.ite | dsimp only | (intro _ _ _ _ _) | (intro _ _ _) | (intro _ _) | split

theorem State.msixUnmask_keeps {s₀ : State} (s : State) (p : Nat) (v : Option Nat) (hk : Keeps s₀ s) : Keeps s₀ (State.msixUnmask s p v) := by
  unfold State.msixUnmask
  dsimp only [Keeps]
  repeat' first | with_reducible assumption | with_reducible apply State.setBit_keeps | with_reducible apply State.setFn_keeps | with_reducible apply State.flushVec_keeps | with_reducible apply State.flushAll_keeps | with_reducible apply Keeps.ite | dsimp only | (intro _ _ _ _ _) | (intro _ _ _) | (intro _ _) | split

theorem execMsixUnmask_keeps {s₀ : State} (paddock : Fin 64) (vector : Option (Fin 32)) (s : State) (hk : Keeps s₀ s) : KeepsOut s₀ (execMsixUnmask paddock vector s) := by
  unfold execMsixUnmask
  repeat' first | with_reducible assumption | with_reducible apply State.msixUnmask_keeps | with_reducible apply State.each_keeps | with_reducible apply KeepsOut.next | with_reducible apply KeepsOut.ite | with_reducible apply Keeps.ite | dsimp only | (intro _ _ _ _ _) | (intro _ _ _) | (intro _ _) | split

theorem execMsixSend_keeps {s₀ : State} (paddock : Fin 64) (vector : Fin 32) (s : State) (hk : Keeps s₀ s) : KeepsOut s₀ (execMsixSend paddock vector s) := by
  unfold execMsixSend
  repeat' first | with_reducible assumption | with_reducible apply State.setBit_keeps | with_reducible apply State.emit_keeps | with_reducible apply State.stick_keeps | with_reducible apply State.acceptAll_keeps | with_reducible apply KeepsOut.next | with_reducible apply KeepsOut.ite | with_reducible apply Keeps.ite | dsimp only | (intro _ _ _ _ _) | (intro _ _ _) | (intro _ _) | split

theorem State.setVfs_keeps {s₀ : State} (s : State) (port num : Nat) (hk : Keeps s₀ s) : Keeps s₀ (State.setVfs s port num) := by
  unfold State.setVfs
  dsimp only [Keeps]
  repeat' first | with_reducible assumption | with_reducible apply State.setBit_keeps | with_reducible apply State.modPort_keeps | with_reducible apply State.each_keeps | with_reducible apply Keeps.ite | dsimp only | (intro _ _ _ _ _) | (intro _ _ _) | (intro _ _) | split

theorem State.setBar_keeps {s₀ : State} (s : State) (p b v : Nat) (hk : Keeps s₀ s) : Keeps s₀ (State.setBar s p b v) := by
  unfold State.setBar
  dsimp only [Keeps]
  repeat' first | with_reducible assumption | with_reducible apply State.setFn_keeps | with_reducible apply Keeps.ite | dsimp only | (intro _ _ _ _ _) | (intro _ _ _) | (intro _ _) | split

theorem State.config_keeps {s₀ : State} (s : State) (port fn : Nat) (op : CfgOp) (hk : Keeps s₀ s) : Keeps s₀ (State.config s port fn op) := by
  unfold State.config
  dsimp only [Keeps]
  repeat' first | with_reducible assumption | with_reducible apply State.setBit_keeps | with_reducible apply State.emit_keeps | with_reducible apply State.setFn_keeps | with_reducible apply State.modPort_keeps | with_reducible apply State.flushAll_keeps | with_reducible apply State.setVfs_keeps | with_reducible apply State.setBar_keeps | with_reducible apply Keeps.ite | dsimp only | (intro _ _ _ _ _) | (intro _ _ _) | (intro _ _) | split

theorem execConfigRequest_keeps {s₀ : State} (port : Fin 4) (fn : Fin 16) (op : CfgOp) (s : State) (hk : Keeps s₀ s) : KeepsOut s₀ (execConfigRequest port fn op s) := by
  unfold execConfigRequest
  repeat' first | with_reducible assumption | with_reducible apply State.emit_keeps | with_reducible apply State.config_keeps | with_reducible apply State.each_keeps | with_reducible apply KeepsOut.next | with_reducible apply KeepsOut.ite | with_reducible apply Keeps.ite | dsimp only | (intro _ _ _ _ _) | (intro _ _ _) | (intro _ _) | split

theorem State.aerLog_keeps {s₀ : State} (s : State) (n bit : Nat) (hk : Keeps s₀ s) : Keeps s₀ (State.aerLog s n bit) := by
  unfold State.aerLog
  dsimp only [Keeps]
  repeat' first | with_reducible assumption | with_reducible apply State.modPort_keeps | with_reducible apply Keeps.ite | dsimp only | (intro _ _ _ _ _) | (intro _ _ _) | (intro _ _) | split

theorem State.portError_keeps {s₀ : State} (s : State) (n bits : Nat) (hk : Keeps s₀ s) : Keeps s₀ (State.portError s n bits) := by
  unfold State.portError
  dsimp only [Keeps]
  repeat' first | with_reducible assumption | with_reducible apply State.setReg_keeps | with_reducible apply State.offer_keeps | with_reducible apply Keeps.ite | dsimp only | (intro _ _ _ _ _) | (intro _ _ _) | (intro _ _) | split

theorem State.poisonedTlp_keeps {s₀ : State} (s : State) (n : Nat) (ecrc : Bool) (hk : Keeps s₀ s) : Keeps s₀ (State.poisonedTlp s n ecrc) := by
  unfold State.poisonedTlp
  dsimp only [Keeps]
  repeat' first | with_reducible assumption | with_reducible apply State.aerLog_keeps | with_reducible apply State.portError_keeps | with_reducible apply Keeps.ite | dsimp only | (intro _ _ _ _ _) | (intro _ _ _) | (intro _ _) | split

theorem State.urTlp_keeps {s₀ : State} (s : State) (n : Nat) (hk : Keeps s₀ s) : Keeps s₀ (State.urTlp s n) := by
  unfold State.urTlp
  dsimp only [Keeps]
  repeat' first | with_reducible assumption | with_reducible apply State.aerLog_keeps | with_reducible apply State.portError_keeps | with_reducible apply Keeps.ite | dsimp only | (intro _ _ _ _ _) | (intro _ _ _) | (intro _ _) | split

theorem State.declareDown_keeps {s₀ : State} (s : State) (n bits : Nat) (hk : Keeps s₀ s) : Keeps s₀ (State.declareDown s n bits) := by
  unfold State.declareDown
  dsimp only [Keeps]
  repeat' first | with_reducible assumption | with_reducible apply State.setBit_keeps | with_reducible apply State.count_keeps | with_reducible apply State.modPort_keeps | with_reducible apply State.quiesce_keeps | with_reducible apply State.portError_keeps | with_reducible apply State.each_keeps | with_reducible apply Keeps.ite | dsimp only | (intro _ _ _ _ _) | (intro _ _ _) | (intro _ _) | split | simp only [Keeps, List.length_set, List.length_map, List.length_modify]

theorem execPortDown_keeps {s₀ : State} (port : Fin 4) (cause : DownCause) (s : State) (hk : Keeps s₀ s) : KeepsOut s₀ (execPortDown port cause s) := by
  unfold execPortDown
  repeat' first | with_reducible assumption | with_reducible apply State.aerLog_keeps | with_reducible apply State.declareDown_keeps | with_reducible apply KeepsOut.next | with_reducible apply KeepsOut.ite | with_reducible apply Keeps.ite | dsimp only | (intro _ _ _ _ _) | (intro _ _ _) | (intro _ _) | split

theorem execCompletionTimeout_keeps {s₀ : State} (port : Fin 4) (tag : Nat) (s : State) (hk : Keeps s₀ s) : KeepsOut s₀ (execCompletionTimeout port tag s) := by
  unfold execCompletionTimeout
  repeat' first | with_reducible assumption | with_reducible apply State.modPort_keeps | with_reducible apply State.drainReads_keeps | with_reducible apply State.aerLog_keeps | with_reducible apply State.declareDown_keeps | with_reducible apply KeepsOut.next | with_reducible apply KeepsOut.ite | with_reducible apply Keeps.ite | dsimp only | (intro _ _ _ _ _) | (intro _ _ _) | (intro _ _) | split

theorem execLinkRetrain_keeps {s₀ : State} (port : Fin 4) (gen width ltssm : Nat) (s : State) (hk : Keeps s₀ s) : KeepsOut s₀ (execLinkRetrain port gen width ltssm s) := by
  unfold execLinkRetrain
  repeat' first | with_reducible assumption | with_reducible apply State.setReg_keeps | with_reducible apply State.setBit_keeps | with_reducible apply State.emitOn_keeps | with_reducible apply State.setFn_keeps | with_reducible apply State.modPort_keeps | with_reducible apply State.resetFn_keeps | with_reducible apply State.idleCtx_keeps | with_reducible apply State.each_keeps | with_reducible apply KeepsOut.next | with_reducible apply KeepsOut.ite | with_reducible apply Keeps.ite | dsimp only | (intro _ _ _ _ _) | (intro _ _ _) | (intro _ _) | split

theorem State.managerBack_keeps {s₀ : State} (s : State) (p : Nat) (hk : Keeps s₀ s) : Keeps s₀ (State.managerBack s p) := by
  unfold State.managerBack
  dsimp only [Keeps]
  repeat' first | with_reducible assumption | with_reducible apply State.movePdk_keeps | with_reducible apply Keeps.ite | dsimp only | (intro _ _ _ _ _) | (intro _ _ _) | (intro _ _) | split

theorem execBusMasterEnableSet_keeps {s₀ : State} (paddock : Fin 64) (s : State) (hk : Keeps s₀ s) : KeepsOut s₀ (execBusMasterEnableSet paddock s) := by
  unfold execBusMasterEnableSet
  repeat' first | with_reducible assumption | with_reducible apply State.setBit_keeps | with_reducible apply State.managerBack_keeps | with_reducible apply State.each_keeps | with_reducible apply KeepsOut.next | with_reducible apply KeepsOut.ite | with_reducible apply Keeps.ite | dsimp only | (intro _ _ _ _ _) | (intro _ _ _) | (intro _ _) | split

theorem execBmeClear_keeps {s₀ : State} (paddock : Fin 64) (s : State) (hk : Keeps s₀ s) : KeepsOut s₀ (execBmeClear paddock s) := by
  unfold execBmeClear
  repeat' first | with_reducible assumption | with_reducible apply State.setBit_keeps | with_reducible apply State.reinCtx_keeps | with_reducible apply State.quiesce_keeps | with_reducible apply State.each_keeps | with_reducible apply KeepsOut.next | with_reducible apply KeepsOut.ite | with_reducible apply Keeps.ite | dsimp only | (intro _ _ _ _ _) | (intro _ _ _) | (intro _ _) | split

theorem execFlr_keeps {s₀ : State} (paddock : Fin 64) (s : State) (hk : Keeps s₀ s) : KeepsOut s₀ (execFlr paddock s) := by
  unfold execFlr
  repeat' first | with_reducible assumption | with_reducible apply State.flr_keeps | with_reducible apply State.each_keeps | with_reducible apply KeepsOut.next | with_reducible apply KeepsOut.ite | with_reducible apply Keeps.ite | dsimp only | (intro _ _ _ _ _) | (intro _ _ _) | (intro _ _) | split

theorem execVfEnableClear_keeps {s₀ : State} (port : Fin 4) (s : State) (hk : Keeps s₀ s) : KeepsOut s₀ (execVfEnableClear port s) := by
  unfold execVfEnableClear
  repeat' first | with_reducible assumption | with_reducible apply State.setBit_keeps | with_reducible apply State.modPort_keeps | with_reducible apply State.flr_keeps | with_reducible apply State.each_keeps | with_reducible apply KeepsOut.next | with_reducible apply KeepsOut.ite | with_reducible apply Keeps.ite | dsimp only | (intro _ _ _ _ _) | (intro _ _ _) | (intro _ _) | split

theorem State.poisonedRead_keeps {s₀ : State} (s : State) (r : HostRead) (hk : Keeps s₀ s) : Keeps s₀ (State.poisonedRead s r) := by
  unfold State.poisonedRead
  dsimp only [Keeps]
  repeat' first | with_reducible assumption | with_reducible apply State.took_keeps | with_reducible apply State.faultJob_keeps | with_reducible apply Keeps.ite | dsimp only | (intro _ _ _ _ _) | (intro _ _ _) | (intro _ _) | split

theorem execHostCompletionReceived_keeps {s₀ : State} (port : Fin 4) (tag : Nat) (reply : HostReply) (s : State) (hk : Keeps s₀ s) : KeepsOut s₀ (execHostCompletionReceived port tag reply s) := by
  unfold execHostCompletionReceived
  repeat' first | with_reducible assumption | with_reducible apply State.modJob_keeps | with_reducible apply State.modPort_keeps | with_reducible apply State.faultJob_keeps | with_reducible apply State.drainReads_keeps | with_reducible apply State.poisonedTlp_keeps | with_reducible apply State.urTlp_keeps | with_reducible apply State.poisonedRead_keeps | with_reducible apply KeepsOut.next | with_reducible apply KeepsOut.ite | with_reducible apply Keeps.ite | dsimp only | (intro _ _ _ _ _) | (intro _ _ _) | (intro _ _) | split

theorem execMalformedTlp_keeps {s₀ : State} (port : Fin 4) (s : State) (hk : Keeps s₀ s) : KeepsOut s₀ (execMalformedTlp port s) := by
  unfold execMalformedTlp
  repeat' first | with_reducible assumption | with_reducible apply State.aerLog_keeps | with_reducible apply State.declareDown_keeps | with_reducible apply KeepsOut.next | with_reducible apply KeepsOut.ite | with_reducible apply Keeps.ite | dsimp only | (intro _ _ _ _ _) | (intro _ _ _) | (intro _ _) | split

theorem execPoisonedBarWrite_keeps {s₀ : State} (port : Fin 4) (s : State) (ecrc : Bool) (hk : Keeps s₀ s) : KeepsOut s₀ (execPoisonedBarWrite port s ecrc) := by
  unfold execPoisonedBarWrite
  repeat' first | with_reducible assumption | with_reducible apply State.poisonedTlp_keeps | with_reducible apply KeepsOut.next | with_reducible apply KeepsOut.ite | with_reducible apply Keeps.ite | dsimp only | (intro _ _ _ _ _) | (intro _ _ _) | (intro _ _) | split

theorem State.setGrant_keeps {s₀ : State} (s : State) (p kind index : Nat) (on : Bool) (hk : Keeps s₀ s) : Keeps s₀ (State.setGrant s p kind index on) := by
  unfold State.setGrant
  dsimp only [Keeps]
  repeat' first | with_reducible assumption | with_reducible apply State.setReg_keeps | with_reducible apply State.setBit_keeps | with_reducible apply State.resetCvu_keeps | with_reducible apply Keeps.ite | dsimp only | (intro _ _ _ _ _) | (intro _ _ _) | (intro _ _) | split

theorem State.pdkEnd_keeps {s₀ : State} (s : State) (op p reason : Nat) (hk : Keeps s₀ s) : Keeps s₀ (State.pdkEnd s op p reason) := by
  unfold State.pdkEnd
  dsimp only [Keeps]
  repeat' first | with_reducible assumption | with_reducible apply State.setFld_keeps | with_reducible apply State.setBit_keeps | with_reducible apply State.offer_keeps | with_reducible apply State.mgrIrq_keeps | with_reducible apply Keeps.ite | dsimp only | (intro _ _ _ _ _) | (intro _ _ _) | (intro _ _) | split

theorem State.layerChange_keeps {s₀ : State} (s : State) (p index : Nat) (on : Bool) (hk : Keeps s₀ s) : Keeps s₀ (State.layerChange s p index on) := by
  unfold State.layerChange
  dsimp only [Keeps]
  repeat' first | with_reducible assumption | with_reducible apply Keeps.ite | dsimp only | (intro _ _ _ _ _) | (intro _ _ _) | (intro _ _) | split

theorem State.syncContexts_keeps {s₀ : State} (s : State) (p : Nat) (hk : Keeps s₀ s) : Keeps s₀ (State.syncContexts s p) := by
  unfold State.syncContexts
  dsimp only [Keeps]
  repeat' first | with_reducible assumption | with_reducible apply State.setFld_keeps | with_reducible apply Keeps.ite | dsimp only | (intro _ _ _ _ _) | (intro _ _ _) | (intro _ _) | split

theorem State.pdkEffect_keeps {s₀ : State} (s : State) (op kind p arg : Nat) (hk : Keeps s₀ s) : Keeps s₀ (State.pdkEffect s op kind p arg) := by
  unfold State.pdkEffect
  dsimp only [Keeps]
  repeat' first | with_reducible assumption | with_reducible apply State.setReg_keeps | with_reducible apply State.setFld_keeps | with_reducible apply State.clearCtx_keeps | with_reducible apply State.movePdk_keeps | with_reducible apply State.quiesce_keeps | with_reducible apply State.setGrant_keeps | with_reducible apply State.layerChange_keeps | with_reducible apply State.syncContexts_keeps | with_reducible apply State.each_keeps | with_reducible apply Keeps.ite | dsimp only | (intro _ _ _ _ _) | (intro _ _ _) | (intro _ _) | split

theorem State.pdkCommand_keeps {s₀ : State} (s : State) (op kind p arg : Nat) (hk : Keeps s₀ s) : Keeps s₀ (State.pdkCommand s op kind p arg) := by
  unfold State.pdkCommand
  dsimp only [Keeps]
  repeat' first | with_reducible assumption | with_reducible apply State.setReg_keeps | with_reducible apply State.setBit_keeps | with_reducible apply State.pdkEnd_keeps | with_reducible apply State.pdkEffect_keeps | with_reducible apply Keeps.ite | dsimp only | (intro _ _ _ _ _) | (intro _ _ _) | (intro _ _) | split

theorem execActivate_keeps {s₀ : State} (paddock : Fin 64) (s : State) (hk : Keeps s₀ s) : KeepsOut s₀ (execActivate paddock s) := by
  unfold execActivate
  repeat' first | with_reducible assumption | with_reducible apply State.pdkCommand_keeps | with_reducible apply KeepsOut.next | with_reducible apply KeepsOut.ite | with_reducible apply Keeps.ite | dsimp only | (intro _ _ _ _ _) | (intro _ _ _) | (intro _ _) | split

theorem execQuiesce_keeps {s₀ : State} (paddock : Fin 64) (s : State) (hk : Keeps s₀ s) : KeepsOut s₀ (execQuiesce paddock s) := by
  unfold execQuiesce
  repeat' first | with_reducible assumption | with_reducible apply State.pdkCommand_keeps | with_reducible apply KeepsOut.next | with_reducible apply KeepsOut.ite | with_reducible apply Keeps.ite | dsimp only | (intro _ _ _ _ _) | (intro _ _ _) | (intro _ _) | split

theorem execResume_keeps {s₀ : State} (paddock : Fin 64) (s : State) (hk : Keeps s₀ s) : KeepsOut s₀ (execResume paddock s) := by
  unfold execResume
  repeat' first | with_reducible assumption | with_reducible apply State.pdkCommand_keeps | with_reducible apply KeepsOut.next | with_reducible apply KeepsOut.ite | with_reducible apply Keeps.ite | dsimp only | (intro _ _ _ _ _) | (intro _ _ _) | (intro _ _) | split

theorem execRemove_keeps {s₀ : State} (paddock : Fin 64) (s : State) (hk : Keeps s₀ s) : KeepsOut s₀ (execRemove paddock s) := by
  unfold execRemove
  repeat' first | with_reducible assumption | with_reducible apply State.pdkCommand_keeps | with_reducible apply KeepsOut.next | with_reducible apply KeepsOut.ite | with_reducible apply Keeps.ite | dsimp only | (intro _ _ _ _ _) | (intro _ _ _) | (intro _ _) | split

theorem execAssign_keeps {s₀ : State} (paddock : Fin 64) (s : State) (hk : Keeps s₀ s) : KeepsOut s₀ (execAssign paddock s) := by
  unfold execAssign
  repeat' first | with_reducible assumption | with_reducible apply State.pdkCommand_keeps | with_reducible apply KeepsOut.next | with_reducible apply KeepsOut.ite | with_reducible apply Keeps.ite | dsimp only | (intro _ _ _ _ _) | (intro _ _ _) | (intro _ _) | split

theorem execAssignCtx_keeps {s₀ : State} (paddock : Fin 64) (arg : Nat) (s : State) (hk : Keeps s₀ s) : KeepsOut s₀ (execAssignCtx paddock arg s) := by
  unfold execAssignCtx
  repeat' first | with_reducible assumption | with_reducible apply State.pdkCommand_keeps | with_reducible apply KeepsOut.next | with_reducible apply KeepsOut.ite | with_reducible apply Keeps.ite | dsimp only | (intro _ _ _ _ _) | (intro _ _ _) | (intro _ _) | split

theorem execUnassignCtx_keeps {s₀ : State} (paddock : Fin 64) (arg : Nat) (s : State) (hk : Keeps s₀ s) : KeepsOut s₀ (execUnassignCtx paddock arg s) := by
  unfold execUnassignCtx
  repeat' first | with_reducible assumption | with_reducible apply State.pdkCommand_keeps | with_reducible apply KeepsOut.next | with_reducible apply KeepsOut.ite | with_reducible apply Keeps.ite | dsimp only | (intro _ _ _ _ _) | (intro _ _ _) | (intro _ _) | split

theorem execGrant_keeps {s₀ : State} (paddock : Fin 64) (kind : Fin 16) (index : Nat) (s : State) (hk : Keeps s₀ s) : KeepsOut s₀ (execGrant paddock kind index s) := by
  unfold execGrant
  repeat' first | with_reducible assumption | with_reducible apply State.pdkCommand_keeps | with_reducible apply KeepsOut.next | with_reducible apply KeepsOut.ite | with_reducible apply Keeps.ite | dsimp only | (intro _ _ _ _ _) | (intro _ _ _) | (intro _ _) | split

theorem execRevoke_keeps {s₀ : State} (paddock : Fin 64) (kind : Fin 16) (index : Nat) (s : State) (hk : Keeps s₀ s) : KeepsOut s₀ (execRevoke paddock kind index s) := by
  unfold execRevoke
  repeat' first | with_reducible assumption | with_reducible apply State.pdkCommand_keeps | with_reducible apply KeepsOut.next | with_reducible apply KeepsOut.ite | with_reducible apply Keeps.ite | dsimp only | (intro _ _ _ _ _) | (intro _ _ _) | (intro _ _) | split

theorem State.layerDone_keeps {s₀ : State} (s : State) (g : LayerChange) (hk : Keeps s₀ s) : Keeps s₀ (State.layerDone s g) := by
  unfold State.layerDone
  dsimp only [Keeps]
  repeat' first | with_reducible assumption | with_reducible apply State.setReg_keeps | with_reducible apply State.setGrant_keeps | with_reducible apply State.each_keeps | with_reducible apply Keeps.ite | dsimp only | (intro _ _ _ _ _) | (intro _ _ _) | (intro _ _) | split

theorem State.layersDone_keeps {s₀ : State} (s : State) (p : Nat) (hk : Keeps s₀ s) : Keeps s₀ (State.layersDone s p) := by
  unfold State.layersDone
  dsimp only [Keeps]
  repeat' first | with_reducible assumption | with_reducible apply State.layerDone_keeps | with_reducible apply State.each_keeps | with_reducible apply Keeps.ite | dsimp only | (intro _ _ _ _ _) | (intro _ _ _) | (intro _ _) | split

theorem State.removeEnd_keeps {s₀ : State} (s : State) (p : Nat) (hk : Keeps s₀ s) : Keeps s₀ (State.removeEnd s p) := by
  unfold State.removeEnd
  dsimp only [Keeps]
  repeat' first | with_reducible assumption | with_reducible apply State.setReg_keeps | with_reducible apply State.resetCvu_keeps | with_reducible apply State.clearCtx_keeps | with_reducible apply State.movePdk_keeps | with_reducible apply State.syncContexts_keeps | with_reducible apply State.each_keeps | with_reducible apply Keeps.ite | dsimp only | (intro _ _ _ _ _) | (intro _ _ _) | (intro _ _) | split

theorem execPdkCmdEnd_keeps {s₀ : State} (s : State) (hk : Keeps s₀ s) : KeepsOut s₀ (execPdkCmdEnd s) := by
  unfold execPdkCmdEnd
  repeat' first | with_reducible assumption | with_reducible apply State.setBit_keeps | with_reducible apply State.pdkCause_keeps | with_reducible apply State.pdkEnd_keeps | with_reducible apply State.layersDone_keeps | with_reducible apply State.removeEnd_keeps | with_reducible apply KeepsOut.next | with_reducible apply KeepsOut.ite | with_reducible apply Keeps.ite | dsimp only | (intro _ _ _ _ _) | (intro _ _ _) | (intro _ _) | split

theorem execPaddockQuiesced_keeps {s₀ : State} (paddock : Fin 64) (s : State) (hk : Keeps s₀ s) : KeepsOut s₀ (execPaddockQuiesced paddock s) := by
  unfold execPaddockQuiesced
  repeat' first | with_reducible assumption | with_reducible apply State.movePdk_keeps | with_reducible apply State.endReset_keeps | with_reducible apply State.managerBack_keeps | with_reducible apply KeepsOut.next | with_reducible apply KeepsOut.ite | with_reducible apply Keeps.ite | dsimp only | (intro _ _ _ _ _) | (intro _ _ _) | (intro _ _) | split

theorem State.selfQuiesce_keeps {s₀ : State} (s : State) (p value : Nat) (hk : Keeps s₀ s) : Keeps s₀ (State.selfQuiesce s p value) := by
  unfold State.selfQuiesce
  dsimp only [Keeps]
  repeat' first | with_reducible assumption | with_reducible apply State.offer_keeps | with_reducible apply State.quiesce_keeps | with_reducible apply Keeps.ite | dsimp only | (intro _ _ _ _ _) | (intro _ _ _) | (intro _ _) | split

theorem execSelfQuiesce_keeps {s₀ : State} (paddock : Fin 64) (value : Nat) (s : State) (hk : Keeps s₀ s) : KeepsOut s₀ (execSelfQuiesce paddock value s) := by
  unfold execSelfQuiesce
  repeat' first | with_reducible assumption | with_reducible apply State.selfQuiesce_keeps | with_reducible apply State.each_keeps | with_reducible apply KeepsOut.next | with_reducible apply KeepsOut.ite | with_reducible apply Keeps.ite | dsimp only | (intro _ _ _ _ _) | (intro _ _ _) | (intro _ _) | split

theorem State.setPoint_keeps {s₀ : State} (s : State) (p : Nat) (hk : Keeps s₀ s) : Keeps s₀ (State.setPoint s p) := by
  unfold State.setPoint
  dsimp only [Keeps]
  repeat' first | with_reducible assumption | with_reducible apply State.setReg_keeps | with_reducible apply State.setFld_keeps | with_reducible apply State.jetClockAt_keeps | with_reducible apply Keeps.ite | dsimp only | (intro _ _ _ _ _) | (intro _ _ _) | (intro _ _) | split

theorem State.setMv_keeps {s₀ : State} (s : State) (mv : Nat) (hk : Keeps s₀ s) : Keeps s₀ (State.setMv s mv) := by
  unfold State.setMv
  dsimp only [Keeps]
  repeat' first | with_reducible assumption | with_reducible apply State.setFld_keeps | with_reducible apply Keeps.ite | dsimp only | (intro _ _ _ _ _) | (intro _ _ _) | (intro _ _) | split

theorem State.avsSend_keeps {s₀ : State} (s : State) (x : Nat × Nat × Nat) (hk : Keeps s₀ s) : Keeps s₀ (State.avsSend s x) := by
  unfold State.avsSend
  dsimp only [Keeps]
  repeat' first | with_reducible assumption | with_reducible apply State.emitOn_keeps | with_reducible apply Keeps.ite | dsimp only | (intro _ _ _ _ _) | (intro _ _ _) | (intro _ _) | split

theorem State.avsNext_keeps {s₀ : State} (s : State) (hk : Keeps s₀ s) : Keeps s₀ (State.avsNext s) := by
  unfold State.avsNext
  dsimp only [Keeps]
  repeat' first | with_reducible assumption | with_reducible apply State.emitOn_keeps | (with_reducible refine fst_keeps ‹_› ?_) | (with_reducible refine snd_keeps ‹_› ?_) | with_reducible apply Keeps.ite | dsimp only | (intro _ _ _ _ _) | (intro _ _ _) | (intro _ _) | split

theorem State.railSet_keeps {s₀ : State} (s : State) (rail cmd v : Nat) (hk : Keeps s₀ s) : Keeps s₀ (State.railSet s rail cmd v) := by
  unfold State.railSet
  dsimp only [Keeps]
  repeat' first | with_reducible assumption | with_reducible apply State.setMv_keeps | with_reducible apply Keeps.ite | dsimp only | (intro _ _ _ _ _) | (intro _ _ _) | (intro _ _) | split

theorem State.changeTo_keeps {s₀ : State} (s : State) (t : Nat) (hk : Keeps s₀ s) : Keeps s₀ (State.changeTo s t) := by
  unfold State.changeTo
  dsimp only [Keeps]
  repeat' first | with_reducible assumption | with_reducible apply State.avsSend_keeps | with_reducible apply Keeps.ite | dsimp only | (intro _ _ _ _ _) | (intro _ _ _) | (intro _ _) | split

theorem State.requestPoint_keeps {s₀ : State} (s : State) (hk : Keeps s₀ s) : Keeps s₀ (State.requestPoint s) := by
  unfold State.requestPoint
  dsimp only [Keeps]
  repeat' first | with_reducible assumption | with_reducible apply Keeps.ite | dsimp only | (intro _ _ _ _ _) | (intro _ _ _) | (intro _ _) | split

theorem State.beginChange_keeps {s₀ : State} (s : State) (hk : Keeps s₀ s) : Keeps s₀ (State.beginChange s) := by
  unfold State.beginChange
  dsimp only [Keeps]
  repeat' first | with_reducible assumption | with_reducible apply State.setPoint_keeps | with_reducible apply State.changeTo_keeps | with_reducible apply Keeps.ite | dsimp only | (intro _ _ _ _ _) | (intro _ _ _) | (intro _ _) | split

theorem State.endChange_keeps {s₀ : State} (s : State) (hk : Keeps s₀ s) : Keeps s₀ (State.endChange s) := by
  unfold State.endChange
  dsimp only [Keeps]
  repeat' first | with_reducible assumption | with_reducible apply State.offer_keeps | with_reducible apply State.setPoint_keeps | with_reducible apply State.setMv_keeps | with_reducible apply State.requestPoint_keeps | with_reducible apply Keeps.ite | dsimp only | (intro _ _ _ _ _) | (intro _ _ _) | (intro _ _) | split

theorem execDvfs_keeps {s₀ : State} (s : State) (hk : Keeps s₀ s) : KeepsOut s₀ (execDvfs s) := by
  unfold execDvfs
  repeat' first | with_reducible assumption | with_reducible apply State.beginChange_keeps | with_reducible apply KeepsOut.next | with_reducible apply KeepsOut.ite | with_reducible apply Keeps.ite | dsimp only | (intro _ _ _ _ _) | (intro _ _ _) | (intro _ _) | split

theorem execDvfsDeferralExpiry_keeps {s₀ : State} (s : State) (hk : Keeps s₀ s) : KeepsOut s₀ (execDvfsDeferralExpiry s) := by
  unfold execDvfsDeferralExpiry
  repeat' first | with_reducible assumption | with_reducible apply State.beginChange_keeps | with_reducible apply KeepsOut.next | with_reducible apply KeepsOut.ite | with_reducible apply Keeps.ite | dsimp only | (intro _ _ _ _ _) | (intro _ _ _) | (intro _ _) | split

theorem State.jetPointWrite_keeps {s₀ : State} (s : State) (v : Nat) (hk : Keeps s₀ s) : Keeps s₀ (State.jetPointWrite s v) := by
  unfold State.jetPointWrite
  dsimp only [Keeps]
  repeat' first | with_reducible assumption | with_reducible apply State.setFld_keeps | with_reducible apply State.requestPoint_keeps | with_reducible apply Keeps.ite | dsimp only | (intro _ _ _ _ _) | (intro _ _ _) | (intro _ _) | split

theorem execPcrJetPointWrite_keeps {s₀ : State} (value : Nat) (s : State) (hk : Keeps s₀ s) : KeepsOut s₀ (execPcrJetPointWrite value s) := by
  unfold execPcrJetPointWrite
  repeat' first | with_reducible assumption | with_reducible apply State.jetPointWrite_keeps | with_reducible apply KeepsOut.next | with_reducible apply KeepsOut.ite | with_reducible apply Keeps.ite | dsimp only | (intro _ _ _ _ _) | (intro _ _ _) | (intro _ _) | split

theorem execAvsTransactionEnd_keeps {s₀ : State} (ack : Bool) (s : State) (hk : Keeps s₀ s) : KeepsOut s₀ (execAvsTransactionEnd ack s) := by
  unfold execAvsTransactionEnd
  repeat' first | with_reducible assumption | with_reducible apply State.setFld_keeps | with_reducible apply State.setBit_keeps | with_reducible apply State.emitOn_keeps | with_reducible apply State.offer_keeps | with_reducible apply State.setEvent_keeps | with_reducible apply State.avsNext_keeps | with_reducible apply State.railSet_keeps | with_reducible apply State.endChange_keeps | with_reducible apply KeepsOut.next | with_reducible apply KeepsOut.ite | with_reducible apply Keeps.ite | dsimp only | (intro _ _ _ _ _) | (intro _ _ _) | (intro _ _) | split | simp only [Keeps, List.length_set, List.length_map, List.length_modify]

theorem execThermalSample_keeps {s₀ : State} (tj ma10 : Nat) (s : State) (hk : Keeps s₀ s) : KeepsOut s₀ (execThermalSample tj ma10 s) := by
  unfold execThermalSample
  repeat' first | with_reducible assumption | with_reducible apply State.setReg_keeps | with_reducible apply KeepsOut.next | with_reducible apply KeepsOut.ite | with_reducible apply Keeps.ite | dsimp only | (intro _ _ _ _ _) | (intro _ _ _) | (intro _ _) | split

theorem execThrottle_keeps {s₀ : State} (s : State) (hk : Keeps s₀ s) : KeepsOut s₀ (execThrottle s) := by
  unfold execThrottle
  repeat' first | with_reducible assumption | with_reducible apply State.setFld_keeps | with_reducible apply State.took_keeps | with_reducible apply State.offer_keeps | with_reducible apply State.setEvent_keeps | with_reducible apply State.requestPoint_keeps | (with_reducible refine fst_keeps ‹_› ?_) | (with_reducible refine snd_keeps ‹_› ?_) | with_reducible apply KeepsOut.next | with_reducible apply KeepsOut.ite | with_reducible apply Keeps.ite | dsimp only | (intro _ _ _ _ _) | (intro _ _ _) | (intro _ _) | split

theorem State.pwrRefuse_keeps {s₀ : State} (s : State) (block reason target : Nat) (hk : Keeps s₀ s) : Keeps s₀ (State.pwrRefuse s block reason target) := by
  unfold State.pwrRefuse
  dsimp only [Keeps]
  repeat' first | with_reducible assumption | with_reducible apply State.setFld_keeps | with_reducible apply State.setBit_keeps | with_reducible apply State.offer_keeps | with_reducible apply State.setEvent_keeps | with_reducible apply Keeps.ite | dsimp only | (intro _ _ _ _ _) | (intro _ _ _) | (intro _ _) | split

theorem State.abandon_keeps {s₀ : State} (s : State) (block reason : Nat) (hk : Keeps s₀ s) : Keeps s₀ (State.abandon s block reason) := by
  unfold State.abandon
  dsimp only [Keeps]
  repeat' first | with_reducible assumption | with_reducible apply State.setBit_keeps | with_reducible apply State.pwrRefuse_keeps | with_reducible apply Keeps.ite | dsimp only | (intro _ _ _ _ _) | (intro _ _ _) | (intro _ _) | split

theorem State.startWake_keeps {s₀ : State} (s : State) (src : Nat) (hk : Keeps s₀ s) : Keeps s₀ (State.startWake s src) := by
  unfold State.startWake
  dsimp only [Keeps]
  repeat' first | with_reducible assumption | with_reducible apply State.setFld_keeps | with_reducible apply State.avsSend_keeps | with_reducible apply State.each_keeps | with_reducible apply Keeps.ite | dsimp only | (intro _ _ _ _ _) | (intro _ _ _) | (intro _ _) | split

theorem State.leaveStabled_keeps {s₀ : State} (s : State) (src : Nat) (hk : Keeps s₀ s) : Keeps s₀ (State.leaveStabled s src) := by
  unfold State.leaveStabled
  dsimp only [Keeps]
  repeat' first | with_reducible assumption | with_reducible apply State.setFld_keeps | with_reducible apply State.emit_keeps | with_reducible apply State.blocksReset_keeps | with_reducible apply State.enterBoot_keeps | with_reducible apply State.modPort_keeps | with_reducible apply State.each_keeps | with_reducible apply Keeps.ite | dsimp only | (intro _ _ _ _ _) | (intro _ _ _) | (intro _ _) | split

theorem State.selfRefresh_keeps {s₀ : State} (s : State) (on : Bool) (hk : Keeps s₀ s) : Keeps s₀ (State.selfRefresh s on) := by
  unfold State.selfRefresh
  dsimp only [Keeps]
  repeat' first | with_reducible assumption | with_reducible apply State.setBit_keeps | with_reducible apply State.each_keeps | with_reducible apply Keeps.ite | dsimp only | (intro _ _ _ _ _) | (intro _ _ _) | (intro _ _) | split

theorem State.enterPower_keeps {s₀ : State} (s : State) (t : Nat) (hk : Keeps s₀ s) : Keeps s₀ (State.enterPower s t) := by
  unfold State.enterPower
  dsimp only [Keeps]
  repeat' first | with_reducible assumption | with_reducible apply State.setFld_keeps | with_reducible apply State.setBit_keeps | with_reducible apply State.offer_keeps | with_reducible apply State.setEvent_keeps | with_reducible apply State.jetClockAt_keeps | with_reducible apply State.declareDown_keeps | with_reducible apply State.avsSend_keeps | with_reducible apply State.changeTo_keeps | with_reducible apply State.requestPoint_keeps | with_reducible apply State.selfRefresh_keeps | with_reducible apply State.each_keeps | with_reducible apply Keeps.ite | dsimp only | (intro _ _ _ _ _) | (intro _ _ _) | (intro _ _) | split

theorem State.wakeClaimed_keeps {s₀ : State} (s : State) (t : Nat) (hk : Keeps s₀ s) : Keeps s₀ (State.wakeClaimed s t) := by
  unfold State.wakeClaimed
  dsimp only [Keeps]
  repeat' first | with_reducible assumption | with_reducible apply State.took_keeps | with_reducible apply State.startWake_keeps | with_reducible apply State.leaveStabled_keeps | with_reducible apply Keeps.ite | dsimp only | (intro _ _ _ _ _) | (intro _ _ _) | (intro _ _) | split

theorem State.powerRequest_keeps {s₀ : State} (s : State) (value : Nat) (hk : Keeps s₀ s) : Keeps s₀ (State.powerRequest s value) := by
  unfold State.powerRequest
  dsimp only [Keeps]
  repeat' first | with_reducible assumption | with_reducible apply State.setFld_keeps | with_reducible apply State.setBit_keeps | with_reducible apply State.took_keeps | with_reducible apply State.pwrRefuse_keeps | with_reducible apply Keeps.ite | dsimp only | (intro _ _ _ _ _) | (intro _ _ _) | (intro _ _) | split

theorem execPowerStateRequest_keeps {s₀ : State} (value : Nat) (s : State) (hk : Keeps s₀ s) : KeepsOut s₀ (execPowerStateRequest value s) := by
  unfold execPowerStateRequest
  repeat' first | with_reducible assumption | with_reducible apply State.powerRequest_keeps | with_reducible apply KeepsOut.next | with_reducible apply KeepsOut.ite | with_reducible apply Keeps.ite | dsimp only | (intro _ _ _ _ _) | (intro _ _ _) | (intro _ _) | split

theorem execBlockHandshakeAnswer_keeps {s₀ : State} (block : Fin 23) (answer : HsAnswer) (s : State) (hk : Keeps s₀ s) : KeepsOut s₀ (execBlockHandshakeAnswer block answer s) := by
  unfold execBlockHandshakeAnswer
  repeat' first | with_reducible assumption | with_reducible apply State.accept_keeps | with_reducible apply State.abandon_keeps | with_reducible apply State.enterPower_keeps | with_reducible apply State.wakeClaimed_keeps | with_reducible apply State.answer_keeps | with_reducible apply KeepsOut.next | with_reducible apply KeepsOut.ite | with_reducible apply Keeps.ite | dsimp only | (intro _ _ _ _ _) | (intro _ _ _) | (intro _ _) | split

theorem execHandshakeTimeout_keeps {s₀ : State} (s : State) (hk : Keeps s₀ s) : KeepsOut s₀ (execHandshakeTimeout s) := by
  unfold execHandshakeTimeout
  repeat' first | with_reducible assumption | with_reducible apply State.abandon_keeps | with_reducible apply KeepsOut.next | with_reducible apply KeepsOut.ite | with_reducible apply Keeps.ite | dsimp only | (intro _ _ _ _ _) | (intro _ _ _) | (intro _ _) | split

theorem State.pwrDenied_keeps {s₀ : State} (s : State) (block off : Nat) (hk : Keeps s₀ s) : Keeps s₀ (State.pwrDenied s block off) := by
  unfold State.pwrDenied
  dsimp only [Keeps]
  repeat' first | with_reducible assumption | with_reducible apply State.setFld_keeps | with_reducible apply State.setBit_keeps | with_reducible apply State.offer_keeps | with_reducible apply State.mgrIrq_keeps | with_reducible apply Keeps.ite | dsimp only | (intro _ _ _ _ _) | (intro _ _ _) | (intro _ _) | split

theorem State.gateWrite_keeps {s₀ : State} (s : State) (value : Nat) (hk : Keeps s₀ s) : Keeps s₀ (State.gateWrite s value) := by
  unfold State.gateWrite
  dsimp only [Keeps]
  repeat' first | with_reducible assumption | with_reducible apply State.setFld_keeps | with_reducible apply State.offer_keeps | with_reducible apply State.setEvent_keeps | with_reducible apply State.pwrDenied_keeps | with_reducible apply Keeps.ite | dsimp only | (intro _ _ _ _ _) | (intro _ _ _) | (intro _ _) | split

theorem execPcrGateWrite_keeps {s₀ : State} (value : Nat) (s : State) (hk : Keeps s₀ s) : KeepsOut s₀ (execPcrGateWrite value s) := by
  unfold execPcrGateWrite
  repeat' first | with_reducible assumption | with_reducible apply State.gateWrite_keeps | with_reducible apply KeepsOut.next | with_reducible apply KeepsOut.ite | with_reducible apply Keeps.ite | dsimp only | (intro _ _ _ _ _) | (intro _ _ _) | (intro _ _) | split

theorem State.wakeBy_keeps {s₀ : State} (s : State) (src : Nat) (hk : Keeps s₀ s) : Keeps s₀ (State.wakeBy s src) := by
  unfold State.wakeBy
  dsimp only [Keeps]
  repeat' first | with_reducible assumption | with_reducible apply State.abandon_keeps | with_reducible apply State.startWake_keeps | with_reducible apply State.leaveStabled_keeps | with_reducible apply Keeps.ite | dsimp only | (intro _ _ _ _ _) | (intro _ _ _) | (intro _ _) | split

theorem execWakeSource_keeps {s₀ : State} (source : Fin 3) (s : State) (bootsel : Fin 4) (hk : Keeps s₀ s) : KeepsOut s₀ (execWakeSource source s bootsel) := by
  unfold execWakeSource
  repeat' first | with_reducible assumption | with_reducible apply State.jumpers_keeps | with_reducible apply State.wakeBy_keeps | with_reducible apply KeepsOut.next | with_reducible apply KeepsOut.ite | with_reducible apply Keeps.ite | dsimp only | (intro _ _ _ _ _) | (intro _ _ _) | (intro _ _) | split

theorem execStabledTimerExpiry_keeps {s₀ : State} (s : State) (bootsel : Fin 4) (hk : Keeps s₀ s) : KeepsOut s₀ (execStabledTimerExpiry s bootsel) := by
  unfold execStabledTimerExpiry
  repeat' first | with_reducible assumption | with_reducible apply State.jumpers_keeps | with_reducible apply State.leaveStabled_keeps | with_reducible apply KeepsOut.next | with_reducible apply KeepsOut.ite | with_reducible apply Keeps.ite | dsimp only | (intro _ _ _ _ _) | (intro _ _ _) | (intro _ _) | split

theorem State.awake_keeps {s₀ : State} (s : State) (src ticks : Nat) (hk : Keeps s₀ s) : Keeps s₀ (State.awake s src ticks) := by
  unfold State.awake
  dsimp only [Keeps]
  repeat' first | with_reducible assumption | with_reducible apply State.setFld_keeps | with_reducible apply State.offer_keeps | with_reducible apply State.setEvent_keeps | with_reducible apply State.changeTo_keeps | with_reducible apply Keeps.ite | dsimp only | (intro _ _ _ _ _) | (intro _ _ _) | (intro _ _) | split

theorem execWakeStepReady_keeps {s₀ : State} (s : State) (hk : Keeps s₀ s) : KeepsOut s₀ (execWakeStepReady s) := by
  unfold execWakeStepReady
  repeat' first | with_reducible assumption | with_reducible apply State.selfRefresh_keeps | with_reducible apply State.awake_keeps | with_reducible apply KeepsOut.next | with_reducible apply KeepsOut.ite | with_reducible apply Keeps.ite | dsimp only | (intro _ _ _ _ _) | (intro _ _ _) | (intro _ _) | split

theorem execWakeStepTimeout_keeps {s₀ : State} (s : State) (hk : Keeps s₀ s) : KeepsOut s₀ (execWakeStepTimeout s) := by
  unfold execWakeStepTimeout
  repeat' first | with_reducible assumption | with_reducible apply State.setFld_keeps | with_reducible apply State.chipReset_keeps | with_reducible apply KeepsOut.next | with_reducible apply KeepsOut.ite | with_reducible apply Keeps.ite | dsimp only | (intro _ _ _ _ _) | (intro _ _ _) | (intro _ _) | split

theorem State.eccCorr_keeps {s₀ : State} (s : State) (m : MemSel) (word : Nat) (hk : Keeps s₀ s) : Keeps s₀ (State.eccCorr s m word) := by
  unfold State.eccCorr
  dsimp only [Keeps]
  repeat' first | with_reducible assumption | with_reducible apply State.count_keeps | with_reducible apply State.offerRate_keeps | with_reducible apply State.eccAddr_keeps | with_reducible apply Keeps.ite | dsimp only | (intro _ _ _ _ _) | (intro _ _ _) | (intro _ _) | split

theorem State.eccFind_keeps {s₀ : State} (s : State) (m : MemSel) (write : Bool) (a n : Nat) (e : EccFind) (hk : Keeps s₀ s) : Keeps s₀ (State.eccFind s m write a n e).1 := by
  unfold State.eccFind
  dsimp only [Keeps]
  repeat' first | with_reducible assumption | with_reducible apply State.write_keeps | with_reducible apply State.eccCorr_keeps | with_reducible apply State.eccUncorr_keeps | with_reducible apply State.each_keeps | with_reducible apply Keeps.ite | dsimp only | (intro _ _ _ _ _) | (intro _ _ _) | (intro _ _) | split

theorem State.accessRefused_keeps {s₀ : State} (s : State) (ms : Master) (gran : Nat) (job : Option JobRef) (hk : Keeps s₀ s) : Keeps s₀ (State.accessRefused s ms gran job) := by
  unfold State.accessRefused
  dsimp only [Keeps]
  repeat' first | with_reducible assumption | with_reducible apply State.noteRefusal_keeps | with_reducible apply State.faultJob_keeps | with_reducible apply Keeps.ite | dsimp only | (intro _ _ _ _ _) | (intro _ _ _) | (intro _ _) | split

theorem State.access_keeps {s₀ : State} (s : State) (r : HeldReq) (hk : Keeps s₀ s) : Keeps s₀ (State.access s r) := by
  unfold State.access
  dsimp only [Keeps]
  repeat' first | with_reducible assumption | with_reducible apply State.emit_keeps | with_reducible apply State.initRange_keeps | with_reducible apply State.write_keeps | with_reducible apply State.busWrite_keeps | with_reducible apply State.faultJob_keeps | with_reducible apply State.eccFind_keeps | with_reducible apply State.accessRefused_keeps | (with_reducible refine fst_keeps ‹_› ?_) | (with_reducible refine snd_keeps ‹_› ?_) | with_reducible apply Keeps.ite | dsimp only | (intro _ _ _ _ _) | (intro _ _ _) | (intro _ _) | split

theorem State.unitTakes_keeps {s₀ : State} (s : State) (r : HeldReq) (hk : Keeps s₀ s) (t : State) (e : State.unitTakes s r = some t) : Keeps s₀ t := by
  unfold State.unitTakes at e
  try dsimp only at e
  repeat' split at e
  all_goals first | cases e | (with_reducible refine map_keeps e fun _ => ?_)
  all_goals
    repeat' first | with_reducible assumption | with_reducible apply State.access_keeps | with_reducible apply Keeps.ite | dsimp only | (intro _ _ _ _ _) | (intro _ _ _) | (intro _ _) | split

theorem State.unitRequest_keeps {s₀ : State} (s : State) (r : HeldReq) (hk : Keeps s₀ s) : Keeps s₀ (State.unitRequest s r) := by
  unfold State.unitRequest
  dsimp only [Keeps]
  repeat' first | with_reducible assumption | (with_reducible refine getD_keeps (fun _ _ => ?_) ?_) | (with_reducible refine State.unitTakes_keeps _ _ ?_ _ ‹_›) | with_reducible apply Keeps.ite | dsimp only | (intro _ _ _ _ _) | (intro _ _ _) | (intro _ _) | split

theorem State.unitDrain_keeps {s₀ : State} (u : Nat) (s : State) (l : List HeldReq) (hk : Keeps s₀ s) :
    Keeps s₀ (State.unitDrain u s l) := by
  induction l generalizing s with
  | nil => exact hk
  | cons r rs ih =>
    unfold State.unitDrain
    split
    · split
      · rename_i t e
        exact ih _ (State.unitTakes_keeps _ _ (by exact hk) _ e)
      · exact hk
    · exact ih _ hk

theorem execMemoryAccess_keeps {s₀ : State} (master : Master) (actor : Fin 64) (mem : Option MemSel) (addr : Nat) (write : Bool) (data : List Byte) (len : Nat) (job : Option JobRef) (ecc : EccFind) (s : State) (layer : Option (Fin 10 × Fin 16)) (hk : Keeps s₀ s) : KeepsOut s₀ (execMemoryAccess master actor mem addr write data len job ecc s layer) := by
  unfold execMemoryAccess
  repeat' first | with_reducible assumption | with_reducible apply State.emit_keeps | with_reducible apply State.write_keeps | with_reducible apply State.hostRead_keeps | with_reducible apply State.faultJob_keeps | with_reducible apply State.access_keeps | with_reducible apply State.unitRequest_keeps | with_reducible apply KeepsOut.next | with_reducible apply KeepsOut.ite | with_reducible apply Keeps.ite | dsimp only | (intro _ _ _ _ _) | (intro _ _ _) | (intro _ _) | split

theorem execOwnerCacheMissFill_keeps {s₀ : State} (unit : Fin 12) (ecc : EccFind) (s : State) (hk : Keeps s₀ s) : KeepsOut s₀ (execOwnerCacheMissFill unit ecc s) := by
  unfold execOwnerCacheMissFill
  repeat' first | with_reducible assumption | with_reducible apply State.offer_keeps | with_reducible apply State.write_keeps | with_reducible apply State.eccUncorr_keeps | with_reducible apply State.eccCorr_keeps | with_reducible apply State.access_keeps | with_reducible apply State.unitDrain_keeps | with_reducible apply State.each_keeps | with_reducible apply KeepsOut.next | with_reducible apply KeepsOut.ite | with_reducible apply Keeps.ite | dsimp only | (intro _ _ _ _ _) | (intro _ _ _) | (intro _ _) | split

theorem execOwnerEntryRewrite_keeps {s₀ : State} (granule : Nat) (s : State) (hk : Keeps s₀ s) : KeepsOut s₀ (execOwnerEntryRewrite granule s) := by
  unfold execOwnerEntryRewrite
  repeat' first | with_reducible assumption | with_reducible apply KeepsOut.next | with_reducible apply KeepsOut.ite | with_reducible apply Keeps.ite | dsimp only | (intro _ _ _ _ _) | (intro _ _ _) | (intro _ _) | split

theorem execEccWriteback_keeps {s₀ : State} (mem : MemSel) (word : Nat) (s : State) (hk : Keeps s₀ s) : KeepsOut s₀ (execEccWriteback mem word s) := by
  unfold execEccWriteback
  repeat' first | with_reducible assumption | with_reducible apply KeepsOut.next | with_reducible apply KeepsOut.ite | with_reducible apply Keeps.ite | dsimp only | (intro _ _ _ _ _) | (intro _ _ _) | (intro _ _) | split

theorem execPatrolScrub_keeps {s₀ : State} (errors : List (Nat × Bool)) (s : State) (hk : Keeps s₀ s) : KeepsOut s₀ (execPatrolScrub errors s) := by
  unfold execPatrolScrub
  repeat' first | with_reducible assumption | with_reducible apply State.setBit_keeps | with_reducible apply State.eccCorr_keeps | with_reducible apply State.eccUncorr_keeps | with_reducible apply State.each_keeps | with_reducible apply KeepsOut.next | with_reducible apply KeepsOut.ite | with_reducible apply Keeps.ite | dsimp only | (intro _ _ _ _ _) | (intro _ _ _) | (intro _ _) | split

theorem execDramInitSweep_keeps {s₀ : State} (granules : Nat) (s : State) (hk : Keeps s₀ s) : KeepsOut s₀ (execDramInitSweep granules s) := by
  unfold execDramInitSweep
  repeat' first | with_reducible assumption | with_reducible apply KeepsOut.next | with_reducible apply KeepsOut.ite | with_reducible apply Keeps.ite | dsimp only | (intro _ _ _ _ _) | (intro _ _ _) | (intro _ _) | split

theorem execDramInitDone_keeps {s₀ : State} (s : State) (hk : Keeps s₀ s) : KeepsOut s₀ (execDramInitDone s) := by
  unfold execDramInitDone
  repeat' first | with_reducible assumption | with_reducible apply State.setBit_keeps | with_reducible apply State.offer_keeps | with_reducible apply KeepsOut.next | with_reducible apply KeepsOut.ite | with_reducible apply Keeps.ite | dsimp only | (intro _ _ _ _ _) | (intro _ _ _) | (intro _ _) | split

theorem execDramRefresh_keeps {s₀ : State} (channel : Fin 8) (s : State) (hk : Keeps s₀ s) : KeepsOut s₀ (execDramRefresh channel s) := by
  unfold execDramRefresh
  repeat' first | with_reducible assumption | with_reducible apply State.emitOn_keeps | with_reducible apply KeepsOut.next | with_reducible apply KeepsOut.ite | with_reducible apply Keeps.ite | dsimp only | (intro _ _ _ _ _) | (intro _ _ _) | (intro _ _) | split

theorem execMr4Read_keeps {s₀ : State} (rates : List Nat) (s : State) (hk : Keeps s₀ s) : KeepsOut s₀ (execMr4Read rates s) := by
  unfold execMr4Read
  repeat' first | with_reducible assumption | with_reducible apply State.setFld_keeps | with_reducible apply State.each_keeps | with_reducible apply KeepsOut.next | with_reducible apply KeepsOut.ite | with_reducible apply Keeps.ite | dsimp only | (intro _ _ _ _ _) | (intro _ _ _) | (intro _ _) | split

theorem execZqCalibration_keeps {s₀ : State} (s : State) (hk : Keeps s₀ s) : KeepsOut s₀ (execZqCalibration s) := by
  unfold execZqCalibration
  repeat' first | with_reducible assumption | with_reducible apply State.emitOn_keeps | with_reducible apply State.each_keeps | with_reducible apply KeepsOut.next | with_reducible apply KeepsOut.ite | with_reducible apply Keeps.ite | dsimp only | (intro _ _ _ _ _) | (intro _ _ _) | (intro _ _) | split

theorem execWckTracking_keeps {s₀ : State} (s : State) (hk : Keeps s₀ s) : KeepsOut s₀ (execWckTracking s) := by
  unfold execWckTracking
  repeat' first | with_reducible assumption | with_reducible apply State.emitOn_keeps | with_reducible apply State.each_keeps | with_reducible apply KeepsOut.next | with_reducible apply KeepsOut.ite | with_reducible apply Keeps.ite | dsimp only | (intro _ _ _ _ _) | (intro _ _ _) | (intro _ _) | split

theorem State.aperture_keeps {s₀ : State} (s : State) (offset : Nat) (write : Bool) (value : Nat) (ecc : EccFind) (hk : Keeps s₀ s) : Keeps s₀ (State.aperture s offset write value ecc) := by
  unfold State.aperture
  dsimp only [Keeps]
  repeat' first | with_reducible assumption | with_reducible apply State.emit_keeps | with_reducible apply State.offerRate_keeps | with_reducible apply State.write_keeps | with_reducible apply State.eccFind_keeps | (with_reducible refine fst_keeps ‹_› ?_) | (with_reducible refine snd_keeps ‹_› ?_) | with_reducible apply Keeps.ite | dsimp only | (intro _ _ _ _ _) | (intro _ _ _) | (intro _ _) | split

theorem execApertureAccess_keeps {s₀ : State} (offset : Nat) (write : Bool) (value : Nat) (ecc : EccFind) (s : State) (hk : Keeps s₀ s) : KeepsOut s₀ (execApertureAccess offset write value ecc s) := by
  unfold execApertureAccess
  repeat' first | with_reducible assumption | with_reducible apply State.emit_keeps | with_reducible apply State.offer_keeps | with_reducible apply State.write_keeps | with_reducible apply State.aperture_keeps | with_reducible apply State.each_keeps | with_reducible apply KeepsOut.next | with_reducible apply KeepsOut.ite | with_reducible apply Keeps.ite | dsimp only | (intro _ _ _ _ _) | (intro _ _ _) | (intro _ _) | split

theorem State.aptBaseWrite_keeps {s₀ : State} (s : State) (value : Nat) (hk : Keeps s₀ s) : Keeps s₀ (State.aptBaseWrite s value) := by
  unfold State.aptBaseWrite
  dsimp only [Keeps]
  repeat' first | with_reducible assumption | with_reducible apply State.setFld_keeps | with_reducible apply State.offer_keeps | with_reducible apply Keeps.ite | dsimp only | (intro _ _ _ _ _) | (intro _ _ _) | (intro _ _) | split

theorem execBsnAptBaseWrite_keeps {s₀ : State} (value : Nat) (s : State) (hk : Keeps s₀ s) : KeepsOut s₀ (execBsnAptBaseWrite value s) := by
  unfold execBsnAptBaseWrite
  repeat' first | with_reducible assumption | with_reducible apply State.aptBaseWrite_keeps | with_reducible apply State.each_keeps | with_reducible apply KeepsOut.next | with_reducible apply KeepsOut.ite | with_reducible apply Keeps.ite | dsimp only | (intro _ _ _ _ _) | (intro _ _ _) | (intro _ _) | split

theorem State.eccClear_keeps {s₀ : State} (s : State) (m : MemSel) (value : Nat) (hk : Keeps s₀ s) : Keeps s₀ (State.eccClear s m value) := by
  unfold State.eccClear
  dsimp only [Keeps]
  repeat' first | with_reducible assumption | with_reducible apply State.setReg_keeps | with_reducible apply Keeps.ite | dsimp only | (intro _ _ _ _ _) | (intro _ _ _) | (intro _ _) | split

theorem execEccClearWrite_keeps {s₀ : State} (mem : MemSel) (value : Nat) (error : Option (Nat × Bool)) (s : State) (hk : Keeps s₀ s) : KeepsOut s₀ (execEccClearWrite mem value error s) := by
  unfold execEccClearWrite
  repeat' first | with_reducible assumption | with_reducible apply State.eccCorr_keeps | with_reducible apply State.eccUncorr_keeps | with_reducible apply State.eccClear_keeps | with_reducible apply State.each_keeps | with_reducible apply KeepsOut.next | with_reducible apply KeepsOut.ite | with_reducible apply Keeps.ite | dsimp only | (intro _ _ _ _ _) | (intro _ _ _) | (intro _ _) | split

theorem State.secEnd_keeps {s₀ : State} (s : State) (op reason first count : Nat) (hk : Keeps s₀ s) : Keeps s₀ (State.secEnd s op reason first count) := by
  unfold State.secEnd
  dsimp only [Keeps]
  repeat' first | with_reducible assumption | with_reducible apply State.setFld_keeps | with_reducible apply State.setBit_keeps | with_reducible apply State.count_keeps | with_reducible apply State.offer_keeps | with_reducible apply State.mgrIrq_keeps | with_reducible apply Keeps.ite | dsimp only | (intro _ _ _ _ _) | (intro _ _ _) | (intro _ _) | split

theorem State.zeroGranule_keeps {s₀ : State} (s : State) (g : Nat) (h : Keeps s₀ s) : Keeps s₀ (s.zeroGranule g) := by
  unfold State.zeroGranule
  dsimp only
  by_cases hg : g < 0x100000
  · simp only [hg, if_true]
    exact ⟨h.queue, h.fuses, fun w => ⟨(h.mem w).1, spWf_filter _ _ _ (h.mem w).2.1, (h.mem w).2.2⟩, h.sizes, h.ims⟩
  · simp only [hg, if_false]
    exact ⟨h.queue, h.fuses, fun w => ⟨spWf_filter _ _ _ (h.mem w).1, (h.mem w).2⟩, h.sizes, h.ims⟩

theorem State.fuses_keeps {s₀ s : State} {g : Fuses} (hk : Keeps s₀ s) (hg : s.fuses.grown g) :
    Keeps s₀ { s with fuses := g } := ⟨hk.queue, Fuses.grown_trans hk.fuses hg, hk.mem, hk.sizes, hk.ims⟩

/-- An effect of a request: OTP_KEY on a slot without a key, OTP_IMAGE_KEY without an image key. -/
theorem State.secEffect_keeps {s₀ : State} (s : State) (op first count arg : Nat) (ro : Bool) (share : Nat)
    (h5 : op = 5 → s.fuses.keyProg.testBit arg = false) (h6 : op = 6 → s.fuses.imageKeyProg = false) (hk : Keeps s₀ s) :
    Keeps s₀ (s.secEffect op first count arg ro share) := by
  unfold State.secEffect
  dsimp only
  split
  · exact State.each_keeps (fun _ _ h => State.newEntry_keeps _ _ _ h) hk
  · exact State.each_keeps (fun _ _ h => State.newEntry_keeps _ _ _ (State.zeroGranule_keeps _ _ h)) hk
  · exact State.each_keeps (fun _ _ h => State.newEntry_keeps _ _ _ h) hk
  · apply State.loadFuses_keeps
    refine State.fuses_keeps hk ⟨by simp, ?_, by simp, by simp, le_refl _, rfl, rfl, rfl, rfl, rfl⟩
    intro n hn
    simp [Nat.testBit_or, hn]
  · apply State.loadFuses_keeps
    refine State.fuses_keeps hk ⟨?_, by simp, ?_, by simp, le_refl _, rfl, rfl, rfl, rfl, rfl⟩
    · intro n hn
      simp [Nat.testBit_or, hn]
    · intro n hn
      have : arg ≠ n := by rintro rfl; simp [h5 rfl] at hn
      simp [List.getElem?_set, this]
  · apply State.loadFuses_keeps
    refine State.fuses_keeps hk ⟨by simp, by simp, by simp, ?_, le_refl _, rfl, rfl, rfl, rfl, rfl⟩
    simp [h6 rfl]
  · exact hk

theorem of_ite_eq_zero {c : Prop} [Decidable c] {n x : Nat} (hn : n ≠ 0) (h : (if c then n else x) = 0) : ¬c ∧ x = 0 := by
  split at h
  · exact absurd h hn
  · exact ⟨‹_›, h⟩

/-- A request that is not refused programs no key slot twice, and no image key twice (R112). -/
theorem State.secReason_zero (s : State) (op f c arg : Nat) (h : s.secReason op f c arg = 0) :
    (op = 5 → s.fuses.keyProg.testBit arg = false) ∧ (op = 6 → s.fuses.imageKeyProg = false) := by
  unfold State.secReason at h
  dsimp only at h
  have h1 := (of_ite_eq_zero (by decide) h).2
  have h2 := (of_ite_eq_zero (by decide) h1).2
  have h3 := (of_ite_eq_zero (by decide) h2).2
  have h4 := (of_ite_eq_zero (by decide) h3).2
  have h5 := (of_ite_eq_zero (by decide) h4).2
  have h6 := (of_ite_eq_zero (by decide) h5).2
  have h7 := (of_ite_eq_zero (by decide) h6).2
  have h8 := (of_ite_eq_zero (by decide) h7).2
  have h9 := (of_ite_eq_zero (by decide) h8).2
  have hn := (of_ite_eq_zero (by decide) h9).1
  refine ⟨fun e => ?_, fun e => ?_⟩
  · by_contra hc
    exact hn (Or.inr (Or.inl ⟨e, eq_true_of_ne_false hc⟩))
  · by_contra hc
    exact hn (Or.inr (Or.inr ⟨e, eq_true_of_ne_false hc⟩))

theorem State.secRequest_keeps {s₀ : State} (s : State) (op arg : Nat) (ro : Bool) (share : Nat) (hk : Keeps s₀ s) :
    Keeps s₀ (s.secRequest op arg ro share) := by
  unfold State.secRequest
  dsimp only
  split
  · exact State.secEnd_keeps _ _ _ _ _ (State.setReg_keeps hk)
  · rename_i h
    have h' := s.secReason_zero _ _ _ _ (not_not.mp h)
    refine State.secEffect_keeps _ _ _ _ _ _ _ h'.1 h'.2 ?_
    dsimp only [Keeps]
    with_reducible apply State.setBit_keeps
    with_reducible apply State.setReg_keeps
    exact hk

theorem execOwnAssign_keeps {s₀ : State} (arg : Fin 64) (ro : Bool) (share : Fin 16) (s : State) (hk : Keeps s₀ s) : KeepsOut s₀ (execOwnAssign arg ro share s) := by
  unfold execOwnAssign
  repeat' first | with_reducible assumption | with_reducible apply State.secRequest_keeps | with_reducible apply KeepsOut.next | with_reducible apply KeepsOut.ite | with_reducible apply Keeps.ite | dsimp only | (intro _ _ _ _ _) | (intro _ _ _) | (intro _ _) | split

theorem execOwnRelease_keeps {s₀ : State} (s : State) (hk : Keeps s₀ s) : KeepsOut s₀ (execOwnRelease s) := by
  unfold execOwnRelease
  repeat' first | with_reducible assumption | with_reducible apply State.secRequest_keeps | with_reducible apply KeepsOut.next | with_reducible apply KeepsOut.ite | with_reducible apply Keeps.ite | dsimp only | (intro _ _ _ _ _) | (intro _ _ _) | (intro _ _) | split

theorem execOwnShare_keeps {s₀ : State} (share : Fin 16) (s : State) (hk : Keeps s₀ s) : KeepsOut s₀ (execOwnShare share s) := by
  unfold execOwnShare
  repeat' first | with_reducible assumption | with_reducible apply State.secRequest_keeps | with_reducible apply KeepsOut.next | with_reducible apply KeepsOut.ite | with_reducible apply Keeps.ite | dsimp only | (intro _ _ _ _ _) | (intro _ _ _) | (intro _ _) | split

theorem execRevokeKey_keeps {s₀ : State} (slot : Fin 64) (s : State) (hk : Keeps s₀ s) : KeepsOut s₀ (execRevokeKey slot s) := by
  unfold execRevokeKey
  repeat' first | with_reducible assumption | with_reducible apply State.secRequest_keeps | with_reducible apply KeepsOut.next | with_reducible apply KeepsOut.ite | with_reducible apply Keeps.ite | dsimp only | (intro _ _ _ _ _) | (intro _ _ _) | (intro _ _) | split

theorem execOtpKey_keeps {s₀ : State} (slot : Fin 64) (s : State) (hk : Keeps s₀ s) : KeepsOut s₀ (execOtpKey slot s) := by
  unfold execOtpKey
  repeat' first | with_reducible assumption | with_reducible apply State.secRequest_keeps | with_reducible apply KeepsOut.next | with_reducible apply KeepsOut.ite | with_reducible apply Keeps.ite | dsimp only | (intro _ _ _ _ _) | (intro _ _ _) | (intro _ _) | split

theorem execOtpImageKey_keeps {s₀ : State} (s : State) (hk : Keeps s₀ s) : KeepsOut s₀ (execOtpImageKey s) := by
  unfold execOtpImageKey
  repeat' first | with_reducible assumption | with_reducible apply State.secRequest_keeps | with_reducible apply KeepsOut.next | with_reducible apply KeepsOut.ite | with_reducible apply Keeps.ite | dsimp only | (intro _ _ _ _ _) | (intro _ _ _) | (intro _ _) | split

theorem execSecreqEnd_keeps {s₀ : State} (s : State) (hk : Keeps s₀ s) : KeepsOut s₀ (execSecreqEnd s) := by
  unfold execSecreqEnd
  repeat' first | with_reducible assumption | with_reducible apply State.setBit_keeps | with_reducible apply State.count_keeps | with_reducible apply State.secEnd_keeps | with_reducible apply KeepsOut.next | with_reducible apply KeepsOut.ite | with_reducible apply Keeps.ite | dsimp only | (intro _ _ _ _ _) | (intro _ _ _) | (intro _ _) | split

theorem State.kick_keeps {s₀ : State} (s : State) (value : Nat) (hk : Keeps s₀ s) : Keeps s₀ (State.kick s value) := by
  unfold State.kick
  dsimp only [Keeps]
  repeat' first | with_reducible assumption | with_reducible apply Keeps.ite | dsimp only | (intro _ _ _ _ _) | (intro _ _ _) | (intro _ _) | split

theorem execWdtKick_keeps {s₀ : State} (value : Nat) (s : State) (hk : Keeps s₀ s) : KeepsOut s₀ (execWdtKick value s) := by
  unfold execWdtKick
  repeat' first | with_reducible assumption | with_reducible apply State.kick_keeps | with_reducible apply KeepsOut.next | with_reducible apply KeepsOut.ite | with_reducible apply Keeps.ite | dsimp only | (intro _ _ _ _ _) | (intro _ _ _) | (intro _ _) | split

theorem State.wdtChip_keeps {s₀ : State} (s : State) (reason : Nat) (hk : Keeps s₀ s) : Keeps s₀ (State.wdtChip s reason) := by
  unfold State.wdtChip
  dsimp only [Keeps]
  repeat' first | with_reducible assumption | with_reducible apply State.setFld_keeps | with_reducible apply State.chipReset_keeps | with_reducible apply State.secHardware_keeps | with_reducible apply Keeps.ite | dsimp only | (intro _ _ _ _ _) | (intro _ _ _) | (intro _ _) | split

theorem execWdtExpiry_keeps {s₀ : State} (s : State) (hk : Keeps s₀ s) : KeepsOut s₀ (execWdtExpiry s) := by
  unfold execWdtExpiry
  repeat' first | with_reducible assumption | with_reducible apply State.setFld_keeps | with_reducible apply State.setBit_keeps | with_reducible apply State.mgrIrqSticky_keeps | with_reducible apply State.secHardware_keeps | with_reducible apply State.wdtChip_keeps | with_reducible apply KeepsOut.next | with_reducible apply KeepsOut.ite | with_reducible apply Keeps.ite | dsimp only | (intro _ _ _ _ _) | (intro _ _ _) | (intro _ _) | split

theorem State.reloadKoroft_keeps {s₀ : State} (s : State) (hk : Keeps s₀ s) : Keeps s₀ (State.reloadKoroft s) :=
  State.write_keeps _ _ _ _ ⟨hk.queue, hk.fuses, fun w => ⟨spWf_filter _ _ _ (hk.mem w).1, (hk.mem w).2⟩, hk.sizes, hk.ims⟩

theorem State.koroftRestart_keeps {s₀ : State} (s : State) (hk : Keeps s₀ s) : Keeps s₀ (State.koroftRestart s) := by
  unfold State.koroftRestart
  dsimp only [Keeps]
  repeat' first | with_reducible assumption | with_reducible apply State.setBit_keeps | with_reducible apply State.count_keeps | with_reducible apply State.secHardware_keeps | with_reducible apply Keeps.ite | dsimp only | (intro _ _ _ _ _) | (intro _ _ _) | (intro _ _) | split

theorem execKoroftRestarted_keeps {s₀ : State} (ecc : EccFind) (s : State) (hk : Keeps s₀ s) : KeepsOut s₀ (execKoroftRestarted ecc s) := by
  unfold execKoroftRestarted
  have h1 := State.reloadKoroft_keeps _ (State.eccFind_keeps s .basin false codeBase s.boot.codeLen ecc hk)
  exact KeepsOut.ite (KeepsOut.next (Keeps.ite (State.koroftRestart_keeps _ h1) (State.wdtChip_keeps _ _ h1))) (KeepsOut.next hk)

theorem State.claimSet_keeps {s₀ : State} (s : State) (i : Nat) (hk : Keeps s₀ s) : Keeps s₀ (State.claimSet s i) := by
  unfold State.claimSet
  dsimp only [Keeps]
  repeat' first | with_reducible assumption | with_reducible apply State.setBit_keeps | with_reducible apply State.abandon_keeps | with_reducible apply State.wakeClaimed_keeps | with_reducible apply Keeps.ite | dsimp only | (intro _ _ _ _ _) | (intro _ _ _) | (intro _ _) | split

theorem execSecureClaimSet_keeps {s₀ : State} (bit : Fin 16) (s : State) (hk : Keeps s₀ s) : KeepsOut s₀ (execSecureClaimSet bit s) := by
  unfold execSecureClaimSet
  repeat' first | with_reducible assumption | with_reducible apply State.claimSet_keeps | with_reducible apply KeepsOut.next | with_reducible apply KeepsOut.ite | with_reducible apply Keeps.ite | dsimp only | (intro _ _ _ _ _) | (intro _ _ _) | (intro _ _) | split

theorem execSecureClaimClear_keeps {s₀ : State} (bit : Fin 16) (s : State) (hk : Keeps s₀ s) : KeepsOut s₀ (execSecureClaimClear bit s) := by
  unfold execSecureClaimClear
  repeat' first | with_reducible assumption | with_reducible apply State.setBit_keeps | with_reducible apply KeepsOut.next | with_reducible apply KeepsOut.ite | with_reducible apply Keeps.ite | dsimp only | (intro _ _ _ _ _) | (intro _ _ _) | (intro _ _) | split

theorem execRecordAccept_keeps {s₀ : State} (s : State) (hk : Keeps s₀ s) : KeepsOut s₀ (execRecordAccept s) := by
  unfold execRecordAccept
  repeat' first | with_reducible assumption | with_reducible apply State.acceptAll_keeps | with_reducible apply KeepsOut.next | with_reducible apply KeepsOut.ite | with_reducible apply Keeps.ite | dsimp only | (intro _ _ _ _ _) | (intro _ _ _) | (intro _ _) | split

theorem State.evrEnable_keeps {s₀ : State} (s : State) (on : Bool) (hk : Keeps s₀ s) : Keeps s₀ (State.evrEnable s on) := by
  unfold State.evrEnable
  dsimp only [Keeps]
  repeat' first | with_reducible assumption | with_reducible apply State.setBit_keeps | with_reducible apply State.ungate_keeps | with_reducible apply Keeps.ite | dsimp only | (intro _ _ _ _ _) | (intro _ _ _) | (intro _ _) | split

theorem State.rearm_keeps {s₀ : State} (s : State) (hk : Keeps s₀ s) : Keeps s₀ (State.rearm s) := by
  unfold State.rearm
  dsimp only [Keeps]
  repeat' first | with_reducible assumption | with_reducible apply State.setBit_keeps | with_reducible apply State.evrSync_keeps | with_reducible apply State.accept_keeps | with_reducible apply Keeps.ite | dsimp only | (intro _ _ _ _ _) | (intro _ _ _) | (intro _ _) | split

theorem State.evrCtrl_keeps {s₀ : State} (s : State) (value : Nat) (hk : Keeps s₀ s) : Keeps s₀ (State.evrCtrl s value) := by
  unfold State.evrCtrl
  dsimp only [Keeps]
  repeat' first | with_reducible assumption | with_reducible apply State.evrEnable_keeps | with_reducible apply State.rearm_keeps | with_reducible apply Keeps.ite | dsimp only | (intro _ _ _ _ _) | (intro _ _ _) | (intro _ _) | split

theorem execRearm_keeps {s₀ : State} (value : Nat) (s : State) (hk : Keeps s₀ s) : KeepsOut s₀ (execRearm value s) := by
  unfold execRearm
  repeat' first | with_reducible assumption | with_reducible apply State.evrCtrl_keeps | with_reducible apply KeepsOut.next | with_reducible apply KeepsOut.ite | with_reducible apply Keeps.ite | dsimp only | (intro _ _ _ _ _) | (intro _ _ _) | (intro _ _) | split

theorem execEvrDisable_keeps {s₀ : State} (value : Nat) (s : State) (hk : Keeps s₀ s) : KeepsOut s₀ (execEvrDisable value s) := by
  unfold execEvrDisable
  repeat' first | with_reducible assumption | with_reducible apply State.evrCtrl_keeps | with_reducible apply KeepsOut.next | with_reducible apply KeepsOut.ite | with_reducible apply Keeps.ite | dsimp only | (intro _ _ _ _ _) | (intro _ _ _) | (intro _ _) | split

theorem State.evrAck_keeps {s₀ : State} (s : State) (value : Nat) (hk : Keeps s₀ s) : Keeps s₀ (State.evrAck s value) := by
  unfold State.evrAck
  dsimp only [Keeps]
  repeat' first | with_reducible assumption | with_reducible apply State.setReg_keeps | with_reducible apply State.levelCheck_keeps | with_reducible apply Keeps.ite | dsimp only | (intro _ _ _ _ _) | (intro _ _ _) | (intro _ _) | split

theorem execEvrAckWrite_keeps {s₀ : State} (value : Nat) (s : State) (hk : Keeps s₀ s) : KeepsOut s₀ (execEvrAckWrite value s) := by
  unfold execEvrAckWrite
  repeat' first | with_reducible assumption | with_reducible apply State.evrAck_keeps | with_reducible apply KeepsOut.next | with_reducible apply KeepsOut.ite | with_reducible apply Keeps.ite | dsimp only | (intro _ _ _ _ _) | (intro _ _ _) | (intro _ _) | split

theorem execRateLimitIntervalEnd_keeps {s₀ : State} (code unit : Nat) (s : State) (hk : Keeps s₀ s) : KeepsOut s₀ (execRateLimitIntervalEnd code unit s) := by
  unfold execRateLimitIntervalEnd
  repeat' first | with_reducible assumption | with_reducible apply State.count_keeps | with_reducible apply KeepsOut.next | with_reducible apply KeepsOut.ite | with_reducible apply Keeps.ite | dsimp only | (intro _ _ _ _ _) | (intro _ _ _) | (intro _ _) | split

theorem State.setTchUnit_keeps {s₀ : State} (s : State) (u : Nat) (x : TchUnit) (hk : Keeps s₀ s) : Keeps s₀ (State.setTchUnit s u x) := by
  unfold State.setTchUnit
  dsimp only [Keeps]
  repeat' first | with_reducible assumption | with_reducible apply Keeps.ite | dsimp only | (intro _ _ _ _ _) | (intro _ _ _) | (intro _ _) | split | simp only [Keeps, List.length_set, List.length_map, List.length_modify]

theorem State.setCtl_keeps {s₀ : State} (s : State) (m : Nat) (x : Ctl) (hk : Keeps s₀ s) : Keeps s₀ (State.setCtl s m x) := by
  unfold State.setCtl
  dsimp only [Keeps]
  repeat' first | with_reducible assumption | with_reducible apply Keeps.ite | dsimp only | (intro _ _ _ _ _) | (intro _ _ _) | (intro _ _) | split

theorem State.putReport_keeps {s₀ : State} (s : State) (c flags : Nat) (r : Report) (hk : Keeps s₀ s) : Keeps s₀ (State.putReport s c flags r) := by
  unfold State.putReport
  dsimp only [Keeps]
  repeat' first | with_reducible assumption | with_reducible apply State.writeEntry_keeps | with_reducible apply State.syncFull_keeps | with_reducible apply Keeps.ite | dsimp only | (intro _ _ _ _ _) | (intro _ _ _) | (intro _ _) | split

theorem State.loseReports_keeps {s₀ : State} (s : State) (p : Nat) (hk : Keeps s₀ s) : Keeps s₀ (State.loseReports s p) := by
  unfold State.loseReports
  dsimp only [Keeps]
  repeat' first | with_reducible assumption | with_reducible apply Keeps.ite | dsimp only | (intro _ _ _ _ _) | (intro _ _ _) | (intro _ _) | split

theorem State.tell_keeps {s₀ : State} (s : State) (flags : Nat) (r : Report) (hk : Keeps s₀ s) : Keeps s₀ (State.tell s flags r) := by
  unfold State.tell
  dsimp only [Keeps]
  repeat' first | with_reducible assumption | with_reducible apply State.putReport_keeps | with_reducible apply State.loseReports_keeps | with_reducible apply Keeps.ite | dsimp only | (intro _ _ _ _ _) | (intro _ _ _) | (intro _ _) | split

theorem State.sendSet_keeps {s₀ : State} (s : State) (p flags : Nat) (hk : Keeps s₀ s) : Keeps s₀ (State.sendSet s p flags) := by
  unfold State.sendSet
  dsimp only [Keeps]
  repeat' first | with_reducible assumption | with_reducible apply State.tell_keeps | with_reducible apply State.each_keeps | with_reducible apply Keeps.ite | dsimp only | (intro _ _ _ _ _) | (intro _ _ _) | (intro _ _) | split

theorem State.pkDrain_keeps {s₀ : State} (s : State) (hk : Keeps s₀ s) : Keeps s₀ (State.pkDrain s) := by
  unfold State.pkDrain
  dsimp only [Keeps]
  repeat' first | with_reducible assumption | with_reducible apply State.ctxMsg_keeps | with_reducible apply State.putReport_keeps | with_reducible apply State.each_keeps | with_reducible apply Keeps.ite | dsimp only | (intro _ _ _ _ _) | (intro _ _ _) | (intro _ _) | split

theorem State.pkTell_keeps {s₀ : State} (s : State) (k m state : Nat) (hk : Keeps s₀ s) : Keeps s₀ (State.pkTell s k m state) := by
  unfold State.pkTell
  dsimp only [Keeps]
  repeat' first | with_reducible assumption | with_reducible apply State.ctxMsg_keeps | with_reducible apply State.putReport_keeps | with_reducible apply Keeps.ite | dsimp only | (intro _ _ _ _ _) | (intro _ _ _) | (intro _ _) | split

theorem State.touchRoom_keeps {s₀ : State} (s : State) (p : Nat) (hk : Keeps s₀ s) : Keeps s₀ (State.touchRoom s p) := by
  unfold State.touchRoom
  dsimp only [Keeps]
  repeat' first | with_reducible assumption | with_reducible apply State.setBit_keeps | with_reducible apply State.ctxMsg_keeps | with_reducible apply State.sendSet_keeps | with_reducible apply State.pkDrain_keeps | with_reducible apply Keeps.ite | dsimp only | (intro _ _ _ _ _) | (intro _ _ _) | (intro _ _) | split

theorem State.dropDoorbell_keeps {s₀ : State} (s : State) (c reason : Nat) (hk : Keeps s₀ s) : Keeps s₀ (State.dropDoorbell s c reason) := by
  unfold State.dropDoorbell
  dsimp only [Keeps]
  repeat' first | with_reducible assumption | with_reducible apply State.offer_keeps | with_reducible apply Keeps.ite | dsimp only | (intro _ _ _ _ _) | (intro _ _ _) | (intro _ _) | split

theorem State.notGranted_keeps {s₀ : State} (s : State) (p off : Nat) (hk : Keeps s₀ s) : Keeps s₀ (State.notGranted s p off) := by
  unfold State.notGranted
  dsimp only [Keeps]
  repeat' first | with_reducible assumption | with_reducible apply State.offer_keeps | with_reducible apply State.aerLog_keeps | with_reducible apply Keeps.ite | dsimp only | (intro _ _ _ _ _) | (intro _ _ _) | (intro _ _) | split

theorem State.wakeCtx_keeps {s₀ : State} (s : State) (c : Nat) (hk : Keeps s₀ s) : Keeps s₀ (State.wakeCtx s c) := by
  unfold State.wakeCtx
  dsimp only [Keeps]
  repeat' first | with_reducible assumption | with_reducible apply State.setCtxState_keeps | with_reducible apply State.settle_keeps | with_reducible apply Keeps.ite | dsimp only | (intro _ _ _ _ _) | (intro _ _ _) | (intro _ _) | split

theorem State.doorbell_keeps {s₀ : State} (s : State) (p n value : Nat) (hk : Keeps s₀ s) : Keeps s₀ (State.doorbell s p n value) := by
  unfold State.doorbell
  dsimp only [Keeps]
  repeat' first | with_reducible assumption | with_reducible apply State.setCtx_keeps | with_reducible apply State.dropDoorbell_keeps | with_reducible apply State.notGranted_keeps | with_reducible apply State.wakeCtx_keeps | with_reducible apply Keeps.ite | dsimp only | (intro _ _ _ _ _) | (intro _ _ _) | (intro _ _) | split

theorem execDoorbellTail_keeps {s₀ : State} (paddock : Fin 64) (slot : Fin 256) (value : Nat) (s : State) (hk : Keeps s₀ s) : KeepsOut s₀ (execDoorbellTail paddock slot value s) := by
  unfold execDoorbellTail
  repeat' first | with_reducible assumption | with_reducible apply State.doorbell_keeps | with_reducible apply State.each_keeps | with_reducible apply KeepsOut.next | with_reducible apply KeepsOut.ite | with_reducible apply Keeps.ite | dsimp only | (intro _ _ _ _ _) | (intro _ _ _) | (intro _ _) | split

theorem State.opReaches_keeps {s₀ : State} (s : State) (src : CtxSource) (c : Nat) (hk : Keeps s₀ s) (t : State) (e : State.opReaches s src c = some t) : Keeps s₀ t := by
  unfold State.opReaches at e
  try dsimp only at e
  repeat' split at e
  all_goals first | cases e | (with_reducible refine map_keeps e fun _ => ?_)
  all_goals
    repeat' first | with_reducible assumption | with_reducible apply State.dropDoorbell_keeps | with_reducible apply State.each_keeps | with_reducible apply Keeps.ite | dsimp only | (intro _ _ _ _ _) | (intro _ _ _) | (intro _ _) | split

theorem State.opRein_keeps {s₀ : State} (s : State) (src c : Nat) (hk : Keeps s₀ s) : Keeps s₀ (State.opRein s src c) := by
  unfold State.opRein
  dsimp only [Keeps]
  repeat' first | with_reducible assumption | with_reducible apply State.reinCtx_keeps | with_reducible apply Keeps.ite | dsimp only | (intro _ _ _ _ _) | (intro _ _ _) | (intro _ _) | split

theorem execRein_keeps {s₀ : State} (source : CtxSource) (ctx : Fin 1024) (s : State) (hk : Keeps s₀ s) : KeepsOut s₀ (execRein source ctx s) := by
  unfold execRein
  repeat' first | with_reducible assumption | (with_reducible refine State.opReaches_keeps _ _ _ ?_ _ ‹_›) | with_reducible apply State.opRein_keeps | with_reducible apply State.each_keeps | with_reducible apply KeepsOut.next | with_reducible apply KeepsOut.ite | with_reducible apply Keeps.ite | dsimp only | (intro _ _ _ _ _) | (intro _ _ _) | (intro _ _) | split

theorem State.opRestart_keeps {s₀ : State} (s : State) (c : Nat) (hk : Keeps s₀ s) : Keeps s₀ (State.opRestart s c) := by
  unfold State.opRestart
  dsimp only [Keeps]
  repeat' first | with_reducible assumption | with_reducible apply State.setFld_keeps | with_reducible apply State.setCtxState_keeps | with_reducible apply State.dropDoorbell_keeps | with_reducible apply State.wakeCtx_keeps | with_reducible apply Keeps.ite | dsimp only | (intro _ _ _ _ _) | (intro _ _ _) | (intro _ _) | split

theorem execRestart_keeps {s₀ : State} (source : CtxSource) (ctx : Fin 1024) (s : State) (hk : Keeps s₀ s) : KeepsOut s₀ (execRestart source ctx s) := by
  unfold execRestart
  repeat' first | with_reducible assumption | (with_reducible refine State.opReaches_keeps _ _ _ ?_ _ ‹_›) | with_reducible apply State.opRestart_keeps | with_reducible apply State.each_keeps | with_reducible apply KeepsOut.next | with_reducible apply KeepsOut.ite | with_reducible apply Keeps.ite | dsimp only | (intro _ _ _ _ _) | (intro _ _ _) | (intro _ _) | split

theorem State.opDiscard_keeps {s₀ : State} (s : State) (c : Nat) (hk : Keeps s₀ s) : Keeps s₀ (State.opDiscard s c) := by
  unfold State.opDiscard
  dsimp only [Keeps]
  repeat' first | with_reducible assumption | with_reducible apply State.setCtx_keeps | with_reducible apply State.dropDoorbell_keeps | with_reducible apply State.opRestart_keeps | with_reducible apply Keeps.ite | dsimp only | (intro _ _ _ _ _) | (intro _ _ _) | (intro _ _) | split

theorem execRestartDiscard_keeps {s₀ : State} (source : CtxSource) (ctx : Fin 1024) (s : State) (hk : Keeps s₀ s) : KeepsOut s₀ (execRestartDiscard source ctx s) := by
  unfold execRestartDiscard
  repeat' first | with_reducible assumption | (with_reducible refine State.opReaches_keeps _ _ _ ?_ _ ‹_›) | with_reducible apply State.opDiscard_keeps | with_reducible apply State.each_keeps | with_reducible apply KeepsOut.next | with_reducible apply KeepsOut.ite | with_reducible apply Keeps.ite | dsimp only | (intro _ _ _ _ _) | (intro _ _ _) | (intro _ _) | split

theorem State.opReset_keeps {s₀ : State} (s : State) (src c : Nat) (hk : Keeps s₀ s) : Keeps s₀ (State.opReset s src c) := by
  unfold State.opReset
  dsimp only [Keeps]
  repeat' first | with_reducible assumption | with_reducible apply State.setCtx_keeps | with_reducible apply State.reinCtx_keeps | with_reducible apply State.resetCtx_keeps | with_reducible apply Keeps.ite | dsimp only | (intro _ _ _ _ _) | (intro _ _ _) | (intro _ _) | split

theorem execReset_keeps {s₀ : State} (source : CtxSource) (ctx : Fin 1024) (s : State) (hk : Keeps s₀ s) : KeepsOut s₀ (execReset source ctx s) := by
  unfold execReset
  repeat' first | with_reducible assumption | (with_reducible refine State.opReaches_keeps _ _ _ ?_ _ ‹_›) | with_reducible apply State.opReset_keeps | with_reducible apply State.each_keeps | with_reducible apply KeepsOut.next | with_reducible apply KeepsOut.ite | with_reducible apply Keeps.ite | dsimp only | (intro _ _ _ _ _) | (intro _ _ _) | (intro _ _) | split

theorem State.edgeFault_keeps {s₀ : State} (s : State) (c sq a n : Nat) (t u : State) (hk : Keeps s₀ t)
    (e : s.edgeFault c sq a n t = some u) : Keeps s₀ u :=
  map_keeps e fun _ => State.faultJob_keeps _ _ _ _ _ _ hk

theorem State.copyRun_keeps {s₀ : State} (s : State) (c : Nat) (j : Job) (host : List (Nat × Byte)) (n : Nat) (hk : Keeps s₀ s) : Keeps s₀ (State.copyRun s c j host n) := by
  unfold State.copyRun
  dsimp only [Keeps]
  repeat' first | with_reducible assumption | with_reducible apply State.bufWrite_keeps | with_reducible apply State.touchMem_keeps | with_reducible apply Keeps.ite | dsimp only | (intro _ _ _ _ _) | (intro _ _ _) | (intro _ _) | split

theorem State.startCopy_keeps {s₀ : State} (s : State) (c : Nat) (j : Job) (hk : Keeps s₀ s) : Keeps s₀ (State.startCopy s c j) := by
  unfold State.startCopy
  dsimp only [Keeps]
  repeat' first | with_reducible assumption | with_reducible apply State.modJob_keeps | with_reducible apply State.markStarted_keeps | with_reducible apply State.hostRead_keeps | with_reducible apply State.faultJob_keeps | with_reducible apply State.faultAt_keeps | with_reducible apply State.eccSeen_keeps | (with_reducible refine fst_keeps ‹_› ?_) | (with_reducible refine snd_keeps ‹_› ?_) | with_reducible apply State.each_keeps | with_reducible apply Keeps.ite | dsimp only | (intro _ _ _ _ _) | (intro _ _ _) | (intro _ _) | split

theorem execCopy_keeps {s₀ : State} (ctx : Fin 1024) (s : State) (hk : Keeps s₀ s) : KeepsOut s₀ (execCopy ctx s) := by
  unfold execCopy
  repeat' first | with_reducible assumption | with_reducible apply State.startCopy_keeps | with_reducible apply KeepsOut.next | with_reducible apply KeepsOut.ite | with_reducible apply Keeps.ite | dsimp only | (intro _ _ _ _ _) | (intro _ _ _) | (intro _ _) | split

theorem execCopyFill_keeps {s₀ : State} (ctx : Fin 1024) (s : State) (hk : Keeps s₀ s) : KeepsOut s₀ (execCopyFill ctx s) := by
  unfold execCopyFill
  repeat' first | with_reducible assumption | with_reducible apply State.startCopy_keeps | with_reducible apply KeepsOut.next | with_reducible apply KeepsOut.ite | with_reducible apply Keeps.ite | dsimp only | (intro _ _ _ _ _) | (intro _ _ _) | (intro _ _) | split

theorem execCopyDone_keeps {s₀ : State} (ctx : Fin 1024) (host : List (Nat × Byte)) (s : State) (hk : Keeps s₀ s) : KeepsOut s₀ (execCopyDone ctx host s) := by
  unfold execCopyDone
  repeat' first | with_reducible assumption | with_reducible apply State.count_keeps | with_reducible apply State.modJob_keeps | with_reducible apply State.endJob_keeps | with_reducible apply State.faultAt_keeps | (with_reducible refine State.edgeFault_keeps _ _ _ _ _ _ _ ?_ ‹_›) | with_reducible apply State.copyRun_keeps | (with_reducible refine fst_keeps ‹_› ?_) | (with_reducible refine snd_keeps ‹_› ?_) | with_reducible apply State.each_keeps | with_reducible apply KeepsOut.next | with_reducible apply KeepsOut.ite | with_reducible apply Keeps.ite | dsimp only | (intro _ _ _ _ _) | (intro _ _ _) | (intro _ _) | split

theorem State.setFence_keeps {s₀ : State} (s : State) (f v : Nat) (hk : Keeps s₀ s) : Keeps s₀ (State.setFence s f v) := by
  unfold State.setFence
  dsimp only [Keeps]
  repeat' first | with_reducible assumption | with_reducible apply Keeps.ite | dsimp only | (intro _ _ _ _ _) | (intro _ _ _) | (intro _ _) | split

theorem State.endWait_keeps {s₀ : State} (s : State) (c : Nat) (j : Job) (hk : Keeps s₀ s) : Keeps s₀ (State.endWait s c j) := by
  unfold State.endWait
  dsimp only [Keeps]
  repeat' first | with_reducible assumption | with_reducible apply State.count_keeps | with_reducible apply State.modJob_keeps | with_reducible apply State.endJob_keeps | with_reducible apply Keeps.ite | dsimp only | (intro _ _ _ _ _) | (intro _ _ _) | (intro _ _) | split

theorem execFenceWait_keeps {s₀ : State} (ctx : Fin 1024) (s : State) (hk : Keeps s₀ s) : KeepsOut s₀ (execFenceWait ctx s) := by
  unfold execFenceWait
  repeat' first | with_reducible assumption | with_reducible apply State.markStarted_keeps | with_reducible apply State.settle_keeps | with_reducible apply State.endWait_keeps | with_reducible apply KeepsOut.next | with_reducible apply KeepsOut.ite | with_reducible apply Keeps.ite | dsimp only | (intro _ _ _ _ _) | (intro _ _ _) | (intro _ _) | split

theorem execFenceWaitSatisfied_keeps {s₀ : State} (ctx : Fin 1024) (s : State) (hk : Keeps s₀ s) : KeepsOut s₀ (execFenceWaitSatisfied ctx s) := by
  unfold execFenceWaitSatisfied
  repeat' first | with_reducible assumption | with_reducible apply State.endWait_keeps | with_reducible apply KeepsOut.next | with_reducible apply KeepsOut.ite | with_reducible apply Keeps.ite | dsimp only | (intro _ _ _ _ _) | (intro _ _ _) | (intro _ _) | split

theorem execFenceSignal_keeps {s₀ : State} (ctx : Fin 1024) (s : State) (hk : Keeps s₀ s) : KeepsOut s₀ (execFenceSignal ctx s) := by
  unfold execFenceSignal
  repeat' first | with_reducible assumption | (with_reducible refine getD_keeps (fun _ _ => ?_) ?_) | with_reducible apply State.count_keeps | with_reducible apply State.modJob_keeps | with_reducible apply State.markStarted_keeps | with_reducible apply State.bufWrite_keeps | with_reducible apply State.endJob_keeps | with_reducible apply State.faultJob_keeps | with_reducible apply State.faultAt_keeps | (with_reducible refine State.edgeFault_keeps _ _ _ _ _ _ _ ?_ ‹_›) | with_reducible apply State.setFence_keeps | (with_reducible refine fst_keeps ‹_› ?_) | (with_reducible refine snd_keeps ‹_› ?_) | with_reducible apply State.each_keeps | with_reducible apply KeepsOut.next | with_reducible apply KeepsOut.ite | with_reducible apply Keeps.ite | dsimp only | (intro _ _ _ _ _) | (intro _ _ _) | (intro _ _) | split

theorem execEventMark_keeps {s₀ : State} (ctx : Fin 1024) (s : State) (hk : Keeps s₀ s) : KeepsOut s₀ (execEventMark ctx s) := by
  unfold execEventMark
  repeat' first | with_reducible assumption | with_reducible apply State.count_keeps | with_reducible apply State.recordNow_keeps | with_reducible apply State.modJob_keeps | with_reducible apply State.markStarted_keeps | with_reducible apply State.endJob_keeps | with_reducible apply KeepsOut.next | with_reducible apply KeepsOut.ite | with_reducible apply Keeps.ite | dsimp only | (intro _ _ _ _ _) | (intro _ _ _) | (intro _ _) | split

theorem State.fenceSel_keeps {s₀ : State} (s : State) (value : Nat) (hk : Keeps s₀ s) : Keeps s₀ (State.fenceSel s value) := by
  unfold State.fenceSel
  dsimp only [Keeps]
  repeat' first | with_reducible assumption | with_reducible apply State.setReg_keeps | with_reducible apply State.offer_keeps | with_reducible apply State.setFence_keeps | with_reducible apply Keeps.ite | dsimp only | (intro _ _ _ _ _) | (intro _ _ _) | (intro _ _) | split

theorem execFenceSet_keeps {s₀ : State} (value : Nat) (s : State) (hk : Keeps s₀ s) : KeepsOut s₀ (execFenceSet value s) := by
  unfold execFenceSet
  repeat' first | with_reducible assumption | with_reducible apply State.fenceSel_keeps | with_reducible apply State.each_keeps | with_reducible apply KeepsOut.next | with_reducible apply KeepsOut.ite | with_reducible apply Keeps.ite | dsimp only | (intro _ _ _ _ _) | (intro _ _ _) | (intro _ _) | split

theorem State.cqHeadWrite_keeps {s₀ : State} (s : State) (c value : Nat) (hk : Keeps s₀ s) : Keeps s₀ (State.cqHeadWrite s c value) := by
  unfold State.cqHeadWrite
  dsimp only [Keeps]
  repeat' first | with_reducible assumption | with_reducible apply State.setBit_keeps | with_reducible apply State.setCtx_keeps | with_reducible apply State.syncFull_keeps | with_reducible apply State.drainHeld_keeps | with_reducible apply State.settle_keeps | with_reducible apply State.touchRoom_keeps | with_reducible apply Keeps.ite | dsimp only | (intro _ _ _ _ _) | (intro _ _ _) | (intro _ _) | split

theorem execCompletionHeadWrite_keeps {s₀ : State} (paddock : Fin 64) (slot : Fin 256) (value : Nat) (s : State) (hk : Keeps s₀ s) : KeepsOut s₀ (execCompletionHeadWrite paddock slot value s) := by
  unfold execCompletionHeadWrite
  repeat' first | with_reducible assumption | with_reducible apply State.notGranted_keeps | with_reducible apply State.cqHeadWrite_keeps | with_reducible apply State.each_keeps | with_reducible apply KeepsOut.next | with_reducible apply KeepsOut.ite | with_reducible apply Keeps.ite | dsimp only | (intro _ _ _ _ _) | (intro _ _ _) | (intro _ _) | split

theorem State.ctxRegSet_keeps {s₀ : State} (s : State) (c : Nat) (w : CtxReg) (v : Nat) (hk : Keeps s₀ s) : Keeps s₀ (State.ctxRegSet s c w v) := by
  unfold State.ctxRegSet
  dsimp only [Keeps]
  repeat' first | with_reducible assumption | with_reducible apply State.setReg_keeps | with_reducible apply State.setCtx_keeps | with_reducible apply Keeps.ite | dsimp only | (intro _ _ _ _ _) | (intro _ _ _) | (intro _ _) | split

theorem State.ctxRegWrite_keeps {s₀ : State} (s : State) (c : Nat) (w : CtxReg) (value : Nat) (hk : Keeps s₀ s) : Keeps s₀ (State.ctxRegWrite s c w value) := by
  unfold State.ctxRegWrite
  dsimp only [Keeps]
  repeat' first | with_reducible assumption | with_reducible apply State.setBit_keeps | with_reducible apply State.offer_keeps | with_reducible apply State.ctxRegSet_keeps | with_reducible apply Keeps.ite | dsimp only | (intro _ _ _ _ _) | (intro _ _ _) | (intro _ _) | split

theorem execContextCfgWrite_keeps {s₀ : State} (ctx : Fin 1024) (which : CtxReg) (value : Nat) (s : State) (hk : Keeps s₀ s) : KeepsOut s₀ (execContextCfgWrite ctx which value s) := by
  unfold execContextCfgWrite
  repeat' first | with_reducible assumption | with_reducible apply State.ctxRegWrite_keeps | with_reducible apply State.each_keeps | with_reducible apply KeepsOut.next | with_reducible apply KeepsOut.ite | with_reducible apply Keeps.ite | dsimp only | (intro _ _ _ _ _) | (intro _ _ _) | (intro _ _) | split

end Sys2Proof.Machine
end

