-- ==== Sys2Proof/Laws/KeepsJets.lean ====
section
/-! SUPPORT. The relation `Keeps` through the jet array. -/

set_option linter.unreachableTactic false
set_option linter.unusedTactic false
set_option linter.unusedSimpArgs false

namespace Sys2Proof.Machine

theorem State.runs_keeps {s₀ : State} (s : State) (p : Nat) (l : List (Nat × List Byte)) (hk : Keeps s₀ s) : Keeps s₀ (State.runs s p l) := by
  unfold State.runs
  dsimp only [Keeps]
  repeat' first | with_reducible assumption | with_reducible apply State.bufWrite_keeps | with_reducible apply State.each_keeps | with_reducible apply Keeps.ite | dsimp only | (intro _ _ _ _ _) | (intro _ _ _) | (intro _ _) | split

theorem State.jobRuns_keeps {s₀ : State} (s : State) (c : Nat) (l : List (Nat × List Byte)) (hk : Keeps s₀ s) :
    Keeps s₀ (s.jobRuns c l).1 := by
  induction l generalizing s with
  | nil => exact hk
  | cons r l ih => exact ih _ (State.bufWrite_keeps _ _ _ _ hk)

theorem State.jetFault_keeps {s₀ : State} (s : State) (c sq : Nat) (b : Bad) (hk : Keeps s₀ s) : Keeps s₀ (State.jetFault s c sq b) := by
  unfold State.jetFault
  dsimp only [Keeps]
  repeat' first | with_reducible assumption | with_reducible apply State.faultJob_keeps | with_reducible apply State.faultAt_keeps | with_reducible apply State.eccSeen_keeps | with_reducible apply Keeps.ite | dsimp only | (intro _ _ _ _ _) | (intro _ _ _) | (intro _ _) | split

theorem State.missCheck_keeps {s₀ : State} (s : State) (j : JetJob) (late : Nat) (hk : Keeps s₀ s) : Keeps s₀ (State.missCheck s j late) := by
  unfold State.missCheck
  dsimp only [Keeps]
  repeat' first | with_reducible assumption | with_reducible apply State.count_keeps | with_reducible apply State.offer_keeps | with_reducible apply State.modJjob_keeps | with_reducible apply State.dlEvent_keeps | with_reducible apply Keeps.ite | dsimp only | (intro _ _ _ _ _) | (intro _ _ _) | (intro _ _) | split

theorem State.jetsDone_keeps {s₀ : State} (s : State) (j : JetJob) (hk : Keeps s₀ s) : Keeps s₀ (State.jetsDone s j) := by
  unfold State.jetsDone
  dsimp only [Keeps]
  repeat' first | with_reducible assumption | with_reducible apply State.endJob_keeps | with_reducible apply State.missCheck_keeps | with_reducible apply Keeps.ite | dsimp only | (intro _ _ _ _ _) | (intro _ _ _) | (intro _ _) | split

theorem State.renderCheck_keeps {s₀ : State} (s : State) (c sq : Nat) (hk : Keeps s₀ s) : Keeps s₀ (State.renderCheck s c sq) := by
  unfold State.renderCheck
  dsimp only [Keeps]
  repeat' first | with_reducible assumption | with_reducible apply State.jetsDone_keeps | with_reducible apply Keeps.ite | dsimp only | (intro _ _ _ _ _) | (intro _ _ _) | (intro _ _) | split

theorem State.startRound_keeps {s₀ : State} (s : State) (c sq : Nat) (hk : Keeps s₀ s) : Keeps s₀ (State.startRound s c sq) := by
  unfold State.startRound
  dsimp only [Keeps]
  repeat' first | with_reducible assumption | with_reducible apply State.write_keeps | with_reducible apply State.pass_keeps | with_reducible apply State.modJjob_keeps | with_reducible apply Keeps.ite | dsimp only | (intro _ _ _ _ _) | (intro _ _ _) | (intro _ _) | split

theorem State.takeHome_keeps {s₀ : State} (s : State) (j : JetJob) (n : Nat) (hk : Keeps s₀ s) : Keeps s₀ (State.takeHome s j n) := by
  unfold State.takeHome
  dsimp only [Keeps]
  repeat' first | with_reducible assumption | with_reducible apply State.modJjob_keeps | with_reducible apply State.jaSync_keeps | with_reducible apply State.startRound_keeps | with_reducible apply Keeps.ite | dsimp only | (intro _ _ _ _ _) | (intro _ _ _) | (intro _ _) | split

theorem State.feed_keeps {s₀ : State} (s : State) (n : Nat) (hk : Keeps s₀ s) : Keeps s₀ (State.feed s n) := by
  unfold State.feed
  dsimp only [Keeps]
  repeat' first | with_reducible assumption | with_reducible apply State.setStr_keeps | with_reducible apply State.modJjob_keeps | with_reducible apply Keeps.ite | dsimp only | (intro _ _ _ _ _) | (intro _ _ _) | (intro _ _) | split | simp only [Keeps, List.length_set, List.length_map, List.length_modify]

theorem State.assignHomes_keeps {s₀ : State} (s : State) (hk : Keeps s₀ s) : Keeps s₀ (State.assignHomes s) := by
  unfold State.assignHomes
  dsimp only [Keeps]
  repeat' first | with_reducible assumption | with_reducible apply State.jaSync_keeps | with_reducible apply State.takeHome_keeps | with_reducible apply State.feed_keeps | with_reducible apply State.each_keeps | with_reducible apply foldl_keeps | with_reducible apply Keeps.ite | dsimp only | (intro _ _ _ _ _) | (intro _ _ _) | (intro _ _) | split

theorem State.startJets_keeps {s₀ : State} (s : State) (c : Nat) (j : Job) (hk : Keeps s₀ s) : Keeps s₀ (State.startJets s c j) := by
  unfold State.startJets
  dsimp only [Keeps]
  repeat' first | with_reducible assumption | with_reducible apply State.modJjob_keeps | with_reducible apply State.markStarted_keeps | with_reducible apply State.faultJob_keeps | with_reducible apply State.faultAt_keeps | with_reducible apply State.eccSeen_keeps | with_reducible apply State.assignHomes_keeps | with_reducible apply Keeps.ite | dsimp only | (intro _ _ _ _ _) | (intro _ _ _) | (intro _ _) | split

theorem State.drawRead_keeps {s₀ : State} (s : State) (c sq : Nat) (host : List (Nat × Byte)) (hk : Keeps s₀ s) : Keeps s₀ (State.drawRead s c sq host) := by
  unfold State.drawRead
  dsimp only [Keeps]
  repeat' first | with_reducible assumption | with_reducible apply State.count_keeps | with_reducible apply State.pass_keeps | with_reducible apply State.modJjob_keeps | with_reducible apply State.touchMem_keeps | with_reducible apply State.jetFault_keeps | with_reducible apply Keeps.ite | dsimp only | (intro _ _ _ _ _) | (intro _ _ _) | (intro _ _) | split

theorem execDrawRecordRead_keeps {s₀ : State} (ctx : Fin 1024) (sq : Nat) (host : List (Nat × Byte)) (s : State) (hk : Keeps s₀ s) : KeepsOut s₀ (execDrawRecordRead ctx sq host s) := by
  unfold execDrawRecordRead
  repeat' first | with_reducible assumption | with_reducible apply State.drawRead_keeps | with_reducible apply KeepsOut.next | with_reducible apply KeepsOut.ite | with_reducible apply Keeps.ite | dsimp only | (intro _ _ _ _ _) | (intro _ _ _) | (intro _ _) | split

theorem State.vertexBatch_keeps {s₀ : State} (s : State) (c sq : Nat) (host : List (Nat × Byte)) (hk : Keeps s₀ s) : Keeps s₀ (State.vertexBatch s c sq host) := by
  unfold State.vertexBatch
  dsimp only [Keeps]
  repeat' first | with_reducible assumption | with_reducible apply State.count_keeps | with_reducible apply State.setJet_keeps | with_reducible apply State.modJjob_keeps | with_reducible apply State.jaSync_keeps | with_reducible apply State.touchRanges_keeps | with_reducible apply State.jetFault_keeps | with_reducible apply Keeps.ite | dsimp only | (intro _ _ _ _ _) | (intro _ _ _) | (intro _ _) | split | simp only [Keeps, List.length_set, List.length_map, List.length_modify]

theorem execVertexBatch_keeps {s₀ : State} (ctx : Fin 1024) (sq : Nat) (host : List (Nat × Byte)) (s : State) (hk : Keeps s₀ s) : KeepsOut s₀ (execVertexBatch ctx sq host s) := by
  unfold execVertexBatch
  repeat' first | with_reducible assumption | with_reducible apply State.vertexBatch_keeps | with_reducible apply KeepsOut.next | with_reducible apply KeepsOut.ite | with_reducible apply Keeps.ite | dsimp only | (intro _ _ _ _ _) | (intro _ _ _) | (intro _ _) | split

theorem State.appendEntry_keeps {s₀ : State} (s : State) (c sq prim : Nat) (tw : Nat × Bool) (hk : Keeps s₀ s) : Keeps s₀ (State.appendEntry s c sq prim tw) := by
  unfold State.appendEntry
  dsimp only [Keeps]
  repeat' first | with_reducible assumption | with_reducible apply State.write_keeps | with_reducible apply State.mergeWrite_keeps | with_reducible apply State.modJjob_keeps | with_reducible apply Keeps.ite | dsimp only | (intro _ _ _ _ _) | (intro _ _ _) | (intro _ _) | split

theorem State.place_keeps {s₀ : State} (s : State) (c sq : Nat) (p : Prim) (hk : Keeps s₀ s) : Keeps s₀ (State.place s c sq p) := by
  unfold State.place
  dsimp only [Keeps]
  repeat' first | with_reducible assumption | with_reducible apply State.count_keeps | with_reducible apply State.recordNow_keeps | with_reducible apply State.write_keeps | with_reducible apply State.pass_keeps | with_reducible apply State.modJjob_keeps | with_reducible apply State.jaEvent_keeps | with_reducible apply State.jetFault_keeps | with_reducible apply State.appendEntry_keeps | with_reducible apply State.each_keeps | with_reducible apply Keeps.ite | dsimp only | (intro _ _ _ _ _) | (intro _ _ _) | (intro _ _) | split

theorem State.placeReady_keeps {s₀ : State} (s : State) (c sq n : Nat) (hk : Keeps s₀ s) :
    Keeps s₀ (s.placeReady c sq n) := by
  induction n generalizing s with
  | zero => exact hk
  | succ n ih =>
    unfold State.placeReady
    dsimp only [Keeps]
    repeat' first | with_reducible assumption | with_reducible apply ih | with_reducible apply State.place_keeps | with_reducible apply Keeps.ite | dsimp only | (intro _ _ _ _ _) | (intro _ _ _) | (intro _ _) | split

theorem State.binPrimitive_keeps {s₀ : State} (s : State) (c sq : Nat) (hk : Keeps s₀ s) : Keeps s₀ (State.binPrimitive s c sq) := by
  unfold State.binPrimitive
  dsimp only [Keeps]
  repeat' first | with_reducible assumption | with_reducible apply State.pass_keeps | with_reducible apply State.modJjob_keeps | with_reducible apply State.placeReady_keeps | with_reducible apply Keeps.ite | dsimp only | (intro _ _ _ _ _) | (intro _ _ _) | (intro _ _) | split | simp only [Keeps, List.length_set, List.length_map, List.length_modify]

theorem execBinPrimitive_keeps {s₀ : State} (ctx : Fin 1024) (sq : Nat) (s : State) (hk : Keeps s₀ s) : KeepsOut s₀ (execBinPrimitive ctx sq s) := by
  unfold execBinPrimitive
  repeat' first | with_reducible assumption | with_reducible apply State.binPrimitive_keeps | with_reducible apply KeepsOut.next | with_reducible apply KeepsOut.ite | with_reducible apply Keeps.ite | dsimp only | (intro _ _ _ _ _) | (intro _ _ _) | (intro _ _) | split

theorem State.noteMalformed_keeps {s₀ : State} (s : State) (c sq : Nat) (l : List (Nat × Nat)) (hk : Keeps s₀ s) : Keeps s₀ (State.noteMalformed s c sq l) := by
  unfold State.noteMalformed
  dsimp only [Keeps]
  repeat' first | with_reducible assumption | with_reducible apply State.offer_keeps | with_reducible apply State.modJjob_keeps | with_reducible apply State.each_keeps | with_reducible apply Keeps.ite | dsimp only | (intro _ _ _ _ _) | (intro _ _ _) | (intro _ _) | split

theorem State.writeTile_keeps {s₀ : State} (s : State) (host : List (Nat × Byte)) (c sq t : Nat) (buf : List (Nat × Nat)) (dirty : List Nat) (skipLoaded : Bool) (hk : Keeps s₀ s) : Keeps s₀ (State.writeTile s host c sq t buf dirty skipLoaded) := by
  unfold State.writeTile
  dsimp only [Keeps]
  repeat' first | with_reducible assumption | with_reducible apply State.modJjob_keeps | with_reducible apply State.faultJob_keeps | with_reducible apply State.jobRuns_keeps | with_reducible apply State.jetFault_keeps | (with_reducible refine fst_keeps ‹_› ?_) | (with_reducible refine snd_keeps ‹_› ?_) | with_reducible apply Keeps.ite | dsimp only | (intro _ _ _ _ _) | (intro _ _ _) | (intro _ _) | split

theorem State.emptyTile_keeps {s₀ : State} (s : State) (host : List (Nat × Byte)) (c sq t : Nat) (hk : Keeps s₀ s) : Keeps s₀ (State.emptyTile s host c sq t) := by
  unfold State.emptyTile
  dsimp only [Keeps]
  repeat' first | with_reducible assumption | with_reducible apply State.pass_keeps | with_reducible apply State.touchRanges_keeps | with_reducible apply State.jetFault_keeps | with_reducible apply State.noteMalformed_keeps | with_reducible apply State.writeTile_keeps | (with_reducible refine fst_keeps ‹_› ?_) | (with_reducible refine snd_keeps ‹_› ?_) | with_reducible apply Keeps.ite | dsimp only | (intro _ _ _ _ _) | (intro _ _ _) | (intro _ _) | split | simp only [Keeps, List.length_set, List.length_map, List.length_modify]

theorem State.geometryEnd_keeps {s₀ : State} (s : State) (c sq : Nat) (host : List (Nat × Byte)) (hk : Keeps s₀ s) : Keeps s₀ (State.geometryEnd s c sq host) := by
  unfold State.geometryEnd
  dsimp only [Keeps]
  repeat' first | with_reducible assumption | with_reducible apply State.pass_keeps | with_reducible apply State.modJjob_keeps | with_reducible apply State.jaSync_keeps | with_reducible apply State.renderCheck_keeps | with_reducible apply State.feed_keeps | with_reducible apply State.emptyTile_keeps | with_reducible apply State.each_keeps | with_reducible apply Keeps.ite | dsimp only | (intro _ _ _ _ _) | (intro _ _ _) | (intro _ _) | split

theorem execGeometryPhaseEnd_keeps {s₀ : State} (ctx : Fin 1024) (sq : Nat) (host : List (Nat × Byte)) (s : State) (hk : Keeps s₀ s) : KeepsOut s₀ (execGeometryPhaseEnd ctx sq host s) := by
  unfold execGeometryPhaseEnd
  repeat' first | with_reducible assumption | with_reducible apply State.geometryEnd_keeps | with_reducible apply KeepsOut.next | with_reducible apply KeepsOut.ite | with_reducible apply Keeps.ite | dsimp only | (intro _ _ _ _ _) | (intro _ _ _) | (intro _ _) | split

theorem State.roundEnd_keeps {s₀ : State} (s : State) (c sq : Nat) (hk : Keeps s₀ s) : Keeps s₀ (State.roundEnd s c sq) := by
  unfold State.roundEnd
  dsimp only [Keeps]
  repeat' first | with_reducible assumption | with_reducible apply State.modJjob_keeps | with_reducible apply State.jaSync_keeps | with_reducible apply State.startRound_keeps | with_reducible apply Keeps.ite | dsimp only | (intro _ _ _ _ _) | (intro _ _ _) | (intro _ _) | split

theorem execRoundEnd_keeps {s₀ : State} (ctx : Fin 1024) (sq : Nat) (s : State) (hk : Keeps s₀ s) : KeepsOut s₀ (execRoundEnd ctx sq s) := by
  unfold execRoundEnd
  repeat' first | with_reducible assumption | with_reducible apply State.roundEnd_keeps | with_reducible apply KeepsOut.next | with_reducible apply KeepsOut.ite | with_reducible apply Keeps.ite | dsimp only | (intro _ _ _ _ _) | (intro _ _ _) | (intro _ _) | split

theorem State.launch_keeps {s₀ : State} (s : State) (n k : Nat) (hk : Keeps s₀ s) : Keeps s₀ (s.launch n k) := by
  induction k generalizing s with
  | zero => exact hk
  | succ k ih =>
    unfold State.launch
    dsimp only [Keeps]
    repeat' first | with_reducible assumption | with_reducible apply ih | with_reducible apply State.setJet_keeps | with_reducible apply Keeps.ite | dsimp only | (intro _ _ _ _ _) | (intro _ _ _) | (intro _ _) | split

theorem State.refill_keeps {s₀ : State} (s : State) (n : Nat) (hk : Keeps s₀ s) : Keeps s₀ (State.refill s n) := by
  unfold State.refill
  dsimp only [Keeps]
  repeat' first | with_reducible assumption | with_reducible apply State.launch_keeps | with_reducible apply Keeps.ite | dsimp only | (intro _ _ _ _ _) | (intro _ _ _) | (intro _ _) | split

theorem State.requeue_keeps {s₀ : State} (s : State) (n : Nat) (is : List Item) (hk : Keeps s₀ s) : Keeps s₀ (State.requeue s n is) := by
  unfold State.requeue
  dsimp only [Keeps]
  repeat' first | with_reducible assumption | with_reducible apply State.setStr_keeps | with_reducible apply Keeps.ite | dsimp only | (intro _ _ _ _ _) | (intro _ _ _) | (intro _ _) | split

theorem State.dropHeld_keeps {s₀ : State} (s : State) (k : Nat) (hk : Keeps s₀ s) : Keeps s₀ (State.dropHeld s k) := by
  unfold State.dropHeld
  dsimp only [Keeps]
  repeat' first | with_reducible assumption | with_reducible apply State.setJet_keeps | with_reducible apply State.modJjob_keeps | with_reducible apply State.requeue_keeps | with_reducible apply Keeps.ite | dsimp only | (intro _ _ _ _ _) | (intro _ _ _) | (intro _ _) | split | simp only [Keeps, List.length_set, List.length_map, List.length_modify]

theorem State.dryCheck_keeps {s₀ : State} (s : State) (n : Nat) (hk : Keeps s₀ s) : Keeps s₀ (State.dryCheck s n) := by
  unfold State.dryCheck
  dsimp only [Keeps]
  repeat' first | with_reducible assumption | with_reducible apply State.offer_keeps | with_reducible apply State.setStr_keeps | with_reducible apply Keeps.ite | dsimp only | (intro _ _ _ _ _) | (intro _ _ _) | (intro _ _) | split

theorem State.computeCheck_keeps {s₀ : State} (s : State) (c sq : Nat) (hk : Keeps s₀ s) : Keeps s₀ (State.computeCheck s c sq) := by
  unfold State.computeCheck
  dsimp only [Keeps]
  repeat' first | with_reducible assumption | with_reducible apply State.jetsDone_keeps | with_reducible apply Keeps.ite | dsimp only | (intro _ _ _ _ _) | (intro _ _ _) | (intro _ _) | split

theorem State.deadCheck_keeps {s₀ : State} (s : State) (hk : Keeps s₀ s) : Keeps s₀ (State.deadCheck s) := by
  unfold State.deadCheck
  dsimp only [Keeps]
  repeat' first | with_reducible assumption | with_reducible apply State.faultJob_keeps | with_reducible apply State.faultAt_keeps | with_reducible apply State.eccSeen_keeps | with_reducible apply State.each_keeps | with_reducible apply Keeps.ite | dsimp only | (intro _ _ _ _ _) | (intro _ _ _) | (intro _ _) | split

theorem State.retireJet_keeps {s₀ : State} (s : State) (k cause : Nat) (job : Option (Nat × Nat)) (hk : Keeps s₀ s) : Keeps s₀ (State.retireJet s k cause job) := by
  unfold State.retireJet
  dsimp only [Keeps]
  repeat' first | with_reducible assumption | with_reducible apply State.setFld_keeps | with_reducible apply State.setBit_keeps | with_reducible apply State.offer_keeps | with_reducible apply State.recordNow_keeps | with_reducible apply State.setJet_keeps | with_reducible apply State.modJjob_keeps | with_reducible apply State.jaSync_keeps | with_reducible apply State.jaEvent_keeps | with_reducible apply State.dropHeld_keeps | with_reducible apply State.dryCheck_keeps | with_reducible apply State.computeCheck_keeps | with_reducible apply State.deadCheck_keeps | with_reducible apply State.each_keeps | with_reducible apply Keeps.ite | dsimp only | (intro _ _ _ _ _) | (intro _ _ _) | (intro _ _) | split | simp only [Keeps, List.length_set, List.length_map, List.length_modify]

theorem State.startItem_keeps {s₀ : State} (s : State) (host : List (Nat × Byte)) (k n : Nat) (i : Item) (tileBad : Bool) (hk : Keeps s₀ s) : Keeps s₀ (State.startItem s host k n i tileBad) := by
  unfold State.startItem
  dsimp only [Keeps]
  repeat' first | with_reducible assumption | with_reducible apply State.setReg_keeps | with_reducible apply State.pass_keeps | with_reducible apply State.setJet_keeps | with_reducible apply State.touchRanges_keeps | with_reducible apply State.stage_keeps | with_reducible apply State.jetFault_keeps | with_reducible apply State.noteMalformed_keeps | with_reducible apply State.refill_keeps | with_reducible apply State.retireJet_keeps | (with_reducible refine fst_keeps ‹_› ?_) | (with_reducible refine snd_keeps ‹_› ?_) | with_reducible apply Keeps.ite | dsimp only | (intro _ _ _ _ _) | (intro _ _ _) | (intro _ _) | split | simp only [Keeps, List.length_set, List.length_map, List.length_modify]

theorem State.dispatch_keeps {s₀ : State} (s : State) (n : Nat) (host : List (Nat × Byte)) (tileBad : Bool) (hk : Keeps s₀ s) : Keeps s₀ (State.dispatch s n host tileBad) := by
  unfold State.dispatch
  dsimp only [Keeps]
  repeat' first | with_reducible assumption | with_reducible apply State.setStr_keeps | with_reducible apply State.jaSync_keeps | with_reducible apply State.feed_keeps | with_reducible apply State.startItem_keeps | with_reducible apply State.each_keeps | with_reducible apply Keeps.ite | dsimp only | (intro _ _ _ _ _) | (intro _ _ _) | (intro _ _) | split

theorem execDispatch_keeps {s₀ : State} (str : Fin 8) (host : List (Nat × Byte)) (s : State) (tileBad : Bool) (hk : Keeps s₀ s) : KeepsOut s₀ (execDispatch str host s tileBad) := by
  unfold execDispatch
  repeat' first | with_reducible assumption | with_reducible apply State.dispatch_keeps | with_reducible apply KeepsOut.next | with_reducible apply KeepsOut.ite | with_reducible apply Keeps.ite | dsimp only | (intro _ _ _ _ _) | (intro _ _ _) | (intro _ _) | split

theorem State.steal_keeps {s₀ : State} (s : State) (k : Nat) (host : List (Nat × Byte)) (tileBad : Bool) (hk : Keeps s₀ s) : Keeps s₀ (State.steal s k host tileBad) := by
  unfold State.steal
  dsimp only [Keeps]
  repeat' first | with_reducible assumption | with_reducible apply State.setReg_keeps | with_reducible apply State.setStr_keeps | with_reducible apply State.jaSync_keeps | with_reducible apply State.startItem_keeps | with_reducible apply Keeps.ite | dsimp only | (intro _ _ _ _ _) | (intro _ _ _) | (intro _ _) | split

theorem execSiphonSteal_keeps {s₀ : State} (jet : Fin 64) (host : List (Nat × Byte)) (s : State) (tileBad : Bool) (hk : Keeps s₀ s) : KeepsOut s₀ (execSiphonSteal jet host s tileBad) := by
  unfold execSiphonSteal
  repeat' first | with_reducible assumption | with_reducible apply State.steal_keeps | with_reducible apply KeepsOut.next | with_reducible apply KeepsOut.ite | with_reducible apply Keeps.ite | dsimp only | (intro _ _ _ _ _) | (intro _ _ _) | (intro _ _) | split

theorem State.stopWriteOut_keeps {s₀ : State} (s : State) (k : Nat) (o : TileOut) (rows : Nat) (hk : Keeps s₀ s) : Keeps s₀ (State.stopWriteOut s k o rows) := by
  unfold State.stopWriteOut
  dsimp only [Keeps]
  repeat' first | with_reducible assumption | with_reducible apply State.recordNow_keeps | with_reducible apply State.pass_keeps | with_reducible apply State.modJjob_keeps | with_reducible apply State.runs_keeps | with_reducible apply State.renderCheck_keeps | with_reducible apply State.requeue_keeps | with_reducible apply State.retireJet_keeps | with_reducible apply Keeps.ite | dsimp only | (intro _ _ _ _ _) | (intro _ _ _) | (intro _ _) | split

theorem State.tileRetire_keeps {s₀ : State} (s : State) (k : Nat) (fail : Option Nat) (hk : Keeps s₀ s) : Keeps s₀ (State.tileRetire s k fail) := by
  unfold State.tileRetire
  dsimp only [Keeps]
  repeat' first | with_reducible assumption | with_reducible apply State.setJet_keeps | with_reducible apply State.setStr_keeps | with_reducible apply State.jaSync_keeps | with_reducible apply State.stopWriteOut_keeps | with_reducible apply Keeps.ite | dsimp only | (intro _ _ _ _ _) | (intro _ _ _) | (intro _ _) | split

theorem execTileRetire_keeps {s₀ : State} (jet : Fin 64) (fail : Option Nat) (s : State) (hk : Keeps s₀ s) : KeepsOut s₀ (execTileRetire jet fail s) := by
  unfold execTileRetire
  repeat' first | with_reducible assumption | with_reducible apply State.tileRetire_keeps | with_reducible apply KeepsOut.next | with_reducible apply KeepsOut.ite | with_reducible apply Keeps.ite | dsimp only | (intro _ _ _ _ _) | (intro _ _ _) | (intro _ _) | split

theorem State.tileWritten_keeps {s₀ : State} (s : State) (n : Nat) (host : List (Nat × Byte)) (fail : Option Nat) (hk : Keeps s₀ s) : Keeps s₀ (State.tileWritten s n host fail) := by
  unfold State.tileWritten
  dsimp only [Keeps]
  repeat' first | with_reducible assumption | with_reducible apply State.setStr_keeps | with_reducible apply State.jaSync_keeps | with_reducible apply State.renderCheck_keeps | with_reducible apply State.writeTile_keeps | with_reducible apply State.stopWriteOut_keeps | with_reducible apply Keeps.ite | dsimp only | (intro _ _ _ _ _) | (intro _ _ _) | (intro _ _) | split

theorem execTileWritten_keeps {s₀ : State} (str : Fin 8) (host : List (Nat × Byte)) (s : State) (fail : Option Nat) (hk : Keeps s₀ s) : KeepsOut s₀ (execTileWritten str host s fail) := by
  unfold execTileWritten
  repeat' first | with_reducible assumption | with_reducible apply State.tileWritten_keeps | with_reducible apply KeepsOut.next | with_reducible apply KeepsOut.ite | with_reducible apply Keeps.ite | dsimp only | (intro _ _ _ _ _) | (intro _ _ _) | (intro _ _) | split

theorem execRenderPass_keeps {s₀ : State} (ctx : Fin 1024) (s : State) (hk : Keeps s₀ s) : KeepsOut s₀ (execRenderPass ctx s) := by
  unfold execRenderPass
  repeat' first | with_reducible assumption | with_reducible apply State.startJets_keeps | with_reducible apply KeepsOut.next | with_reducible apply KeepsOut.ite | with_reducible apply Keeps.ite | dsimp only | (intro _ _ _ _ _) | (intro _ _ _) | (intro _ _) | split

theorem execCompute_keeps {s₀ : State} (ctx : Fin 1024) (s : State) (hk : Keeps s₀ s) : KeepsOut s₀ (execCompute ctx s) := by
  unfold execCompute
  repeat' first | with_reducible assumption | with_reducible apply State.startJets_keeps | with_reducible apply KeepsOut.next | with_reducible apply KeepsOut.ite | with_reducible apply Keeps.ite | dsimp only | (intro _ _ _ _ _) | (intro _ _ _) | (intro _ _) | split

theorem execHomeStringAssign_keeps {s₀ : State} (s : State) (hk : Keeps s₀ s) : KeepsOut s₀ (execHomeStringAssign s) := by
  unfold execHomeStringAssign
  repeat' first | with_reducible assumption | with_reducible apply State.assignHomes_keeps | with_reducible apply KeepsOut.next | with_reducible apply KeepsOut.ite | with_reducible apply Keeps.ite | dsimp only | (intro _ _ _ _ _) | (intro _ _ _) | (intro _ _) | split

theorem State.jaForce_keeps {s₀ : State} (s : State) (hk : Keeps s₀ s) : Keeps s₀ (State.jaForce s) := by
  unfold State.jaForce
  dsimp only [Keeps]
  repeat' first | with_reducible assumption | with_reducible apply Keeps.ite | dsimp only | (intro _ _ _ _ _) | (intro _ _ _) | (intro _ _) | split | simp only [Keeps, List.length_set, List.length_map, List.length_modify]

theorem State.preretire_keeps {s₀ : State} (s : State) (hk : Keeps s₀ s) : Keeps s₀ (State.preretire s) := by
  unfold State.preretire
  dsimp only [Keeps]
  repeat' first | with_reducible assumption | with_reducible apply State.retireJet_keeps | with_reducible apply State.each_keeps | with_reducible apply Keeps.ite | dsimp only | (intro _ _ _ _ _) | (intro _ _ _) | (intro _ _) | split

theorem Keeps.withClock {s₀ : State} (s : State) (a b c : Nat) (hk : Keeps s₀ s) :
    Keeps s₀ { s with ja := { s.ja with clkAcc := a, clkAt := b, clkMhz := c } } := hk

theorem State.jaCtrl_keeps {s₀ : State} (s : State) (value : Nat) (hk : Keeps s₀ s) : Keeps s₀ (s.jaCtrl value) := by
  have h1 := State.setBit_keeps s Reg.JA_CTRL 0 (value.testBit 0) hk
  have h2 := State.preretire_keeps _ (State.setBit_keeps _ Reg.JA_STATUS 31 true
    (State.jaForce_keeps _ (State.ungate_keeps _ 10 h1)))
  unfold State.jaCtrl
  dsimp only
  split
  · split
    · exact h1
    · exact State.jaSync_keeps _ (State.assignHomes_keeps _ (Keeps.withClock _ _ _ _ h2))
  · exact State.jaDisable_keeps _ h1

theorem execJaCtrlWrite_keeps {s₀ : State} (value : Nat) (s : State) (hk : Keeps s₀ s) : KeepsOut s₀ (execJaCtrlWrite value s) := by
  unfold execJaCtrlWrite
  repeat' first | with_reducible assumption | with_reducible apply State.jaCtrl_keeps | with_reducible apply KeepsOut.next | with_reducible apply KeepsOut.ite | with_reducible apply Keeps.ite | dsimp only | (intro _ _ _ _ _) | (intro _ _ _) | (intro _ _) | split

theorem State.icacheFill_keeps {s₀ : State} (s : State) (k c sq line : Nat) (host : List (Nat × Byte)) (hk : Keeps s₀ s) : Keeps s₀ (State.icacheFill s k c sq line host) := by
  unfold State.icacheFill
  dsimp only [Keeps]
  repeat' first | with_reducible assumption | with_reducible apply State.setJet_keeps | with_reducible apply State.touchMem_keeps | with_reducible apply State.jetFault_keeps | with_reducible apply Keeps.ite | dsimp only | (intro _ _ _ _ _) | (intro _ _ _) | (intro _ _) | split

theorem execIcacheFill_keeps {s₀ : State} (jet : Fin 64) (ctx : Fin 1024) (sq line : Nat) (host : List (Nat × Byte)) (s : State) (hk : Keeps s₀ s) : KeepsOut s₀ (execIcacheFill jet ctx sq line host s) := by
  unfold execIcacheFill
  repeat' first | with_reducible assumption | with_reducible apply State.icacheFill_keeps | with_reducible apply KeepsOut.next | with_reducible apply KeepsOut.ite | with_reducible apply Keeps.ite | dsimp only | (intro _ _ _ _ _) | (intro _ _ _) | (intro _ _) | split

theorem State.setTeam_keeps {s₀ : State} (s : State) (k n : Nat) (t : Team) (hk : Keeps s₀ s) : Keeps s₀ (State.setTeam s k n t) := by
  unfold State.setTeam
  dsimp only [Keeps]
  repeat' first | with_reducible assumption | with_reducible apply State.setJet_keeps | with_reducible apply Keeps.ite | dsimp only | (intro _ _ _ _ _) | (intro _ _ _) | (intro _ _) | split | simp only [Keeps, List.length_set, List.length_map, List.length_modify]

theorem State.illegalEnd_keeps {s₀ : State} (s : State) (j : JetJob) (t : Team) (reason : Nat) (hk : Keeps s₀ s) : Keeps s₀ (State.illegalEnd s j t reason) := by
  unfold State.illegalEnd
  dsimp only [Keeps]
  repeat' first | with_reducible assumption | with_reducible apply State.offer_keeps | with_reducible apply State.jetFault_keeps | with_reducible apply Keeps.ite | dsimp only | (intro _ _ _ _ _) | (intro _ _ _) | (intro _ _) | split

theorem State.issue_keeps {s₀ : State} (s : State) (k n op : Nat) (bad : Bool)
    (f : JetJob → Team → Ins → State → State) (hf : ∀ j t i u, Keeps s₀ u → Keeps s₀ (f j t i u)) (hk : Keeps s₀ s) :
    Keeps s₀ (s.issue k n op bad f) := by
  unfold State.issue
  split
  · exact hk
  · exact State.retireJet_keeps _ _ _ _ hk
  · exact State.illegalEnd_keeps _ _ _ _ hk
  · exact hf _ _ _ _ hk

theorem State.issueAlu_keeps {s₀ : State} (s : State) (k n op : Nat) (bad : Bool) (f : Ins → Nat → Nat → Nat → Nat) (hk : Keeps s₀ s) : Keeps s₀ (State.issueAlu s k n op bad f) := by
  unfold State.issueAlu
  dsimp only [Keeps]
  repeat' first | with_reducible assumption | with_reducible apply State.setTeam_keeps | with_reducible apply State.issue_keeps | with_reducible apply Keeps.ite | dsimp only | (intro _ _ _ _ _) | (intro _ _ _) | (intro _ _) | split

theorem State.issuePred_keeps {s₀ : State} (s : State) (k n op : Nat) (bad : Bool) (f : Ins → Team → Nat → Bool) (hk : Keeps s₀ s) : Keeps s₀ (State.issuePred s k n op bad f) := by
  unfold State.issuePred
  dsimp only [Keeps]
  repeat' first | with_reducible assumption | with_reducible apply State.setTeam_keeps | with_reducible apply State.issue_keeps | with_reducible apply Keeps.ite | dsimp only | (intro _ _ _ _ _) | (intro _ _ _) | (intro _ _) | split

theorem State.loadReturn_keeps {s₀ : State} (s : State) (k n idx : Nat) (hk : Keeps s₀ s) : Keeps s₀ (State.loadReturn s k n idx) := by
  unfold State.loadReturn
  dsimp only [Keeps]
  repeat' first | with_reducible assumption | with_reducible apply State.setTeam_keeps | with_reducible apply Keeps.ite | dsimp only | (intro _ _ _ _ _) | (intro _ _ _) | (intro _ _) | split

theorem execLoadDataReturn_keeps {s₀ : State} (jet : Fin 64) (team : Fin 16) (idx : Fin 16) (s : State) (hk : Keeps s₀ s) : KeepsOut s₀ (execLoadDataReturn jet team idx s) := by
  unfold execLoadDataReturn
  repeat' first | with_reducible assumption | with_reducible apply State.loadReturn_keeps | with_reducible apply KeepsOut.next | with_reducible apply KeepsOut.ite | with_reducible apply Keeps.ite | dsimp only | (intro _ _ _ _ _) | (intro _ _ _) | (intro _ _) | split

theorem State.endVertex_keeps {s₀ : State} (s : State) (k n : Nat) (j : JetJob) (t : Team) (hk : Keeps s₀ s) : Keeps s₀ (State.endVertex s k n j t) := by
  unfold State.endVertex
  dsimp only [Keeps]
  repeat' first | with_reducible assumption | with_reducible apply State.pass_keeps | with_reducible apply State.setJet_keeps | with_reducible apply State.modJjob_keeps | with_reducible apply State.jaSync_keeps | with_reducible apply State.setTeam_keeps | with_reducible apply Keeps.ite | dsimp only | (intro _ _ _ _ _) | (intro _ _ _) | (intro _ _) | split | simp only [Keeps, List.length_set, List.length_map, List.length_modify]

theorem State.leavePixel_keeps {s₀ : State} (s : State) (k n : Nat) (buf : Option (List (Nat × Nat))) (hk : Keeps s₀ s) : Keeps s₀ (State.leavePixel s k n buf) := by
  unfold State.leavePixel
  dsimp only [Keeps]
  repeat' first | with_reducible assumption | with_reducible apply State.setJet_keeps | with_reducible apply State.refill_keeps | with_reducible apply Keeps.ite | dsimp only | (intro _ _ _ _ _) | (intro _ _ _) | (intro _ _) | split

theorem State.endPixel_keeps {s₀ : State} (s : State) (k n : Nat) (j : JetJob) (t : Team) (hk : Keeps s₀ s) : Keeps s₀ (State.endPixel s k n j t) := by
  unfold State.endPixel
  dsimp only [Keeps]
  repeat' first | with_reducible assumption | with_reducible apply State.pass_keeps | with_reducible apply State.leavePixel_keeps | with_reducible apply Keeps.ite | dsimp only | (intro _ _ _ _ _) | (intro _ _ _) | (intro _ _) | split

theorem State.endCompute_keeps {s₀ : State} (s : State) (k n : Nat) (t : Team) (hk : Keeps s₀ s) : Keeps s₀ (State.endCompute s k n t) := by
  unfold State.endCompute
  dsimp only [Keeps]
  repeat' first | with_reducible assumption | with_reducible apply State.setJet_keeps | with_reducible apply State.setTeam_keeps | with_reducible apply Keeps.ite | dsimp only | (intro _ _ _ _ _) | (intro _ _ _) | (intro _ _) | split

theorem execJNop_keeps {s₀ : State} (jet : Fin 64) (team : Fin 16) (bad : Bool) (s : State) (hk : Keeps s₀ s) : KeepsOut s₀ (execJNop jet team bad s) := by
  unfold execJNop
  repeat' first | with_reducible assumption | with_reducible apply State.setTeam_keeps | with_reducible apply State.issue_keeps | with_reducible apply KeepsOut.next | with_reducible apply KeepsOut.ite | with_reducible apply Keeps.ite | dsimp only | (intro _ _ _ _ _) | (intro _ _ _) | (intro _ _) | split

theorem execJBra_keeps {s₀ : State} (jet : Fin 64) (team : Fin 16) (bad : Bool) (s : State) (hk : Keeps s₀ s) : KeepsOut s₀ (execJBra jet team bad s) := by
  unfold execJBra
  repeat' first | with_reducible assumption | with_reducible apply State.setTeam_keeps | with_reducible apply State.issue_keeps | with_reducible apply KeepsOut.next | with_reducible apply KeepsOut.ite | with_reducible apply Keeps.ite | dsimp only | (intro _ _ _ _ _) | (intro _ _ _) | (intro _ _) | split

theorem execJCall_keeps {s₀ : State} (jet : Fin 64) (team : Fin 16) (bad : Bool) (s : State) (hk : Keeps s₀ s) : KeepsOut s₀ (execJCall jet team bad s) := by
  unfold execJCall
  repeat' first | with_reducible assumption | with_reducible apply State.setTeam_keeps | with_reducible apply State.issue_keeps | with_reducible apply KeepsOut.next | with_reducible apply KeepsOut.ite | with_reducible apply Keeps.ite | dsimp only | (intro _ _ _ _ _) | (intro _ _ _) | (intro _ _) | split

theorem execJRet_keeps {s₀ : State} (jet : Fin 64) (team : Fin 16) (bad : Bool) (s : State) (hk : Keeps s₀ s) : KeepsOut s₀ (execJRet jet team bad s) := by
  unfold execJRet
  repeat' first | with_reducible assumption | with_reducible apply State.setTeam_keeps | with_reducible apply State.issue_keeps | with_reducible apply KeepsOut.next | with_reducible apply KeepsOut.ite | with_reducible apply Keeps.ite | dsimp only | (intro _ _ _ _ _) | (intro _ _ _) | (intro _ _) | split

theorem execJEnd_keeps {s₀ : State} (jet : Fin 64) (team : Fin 16) (bad : Bool) (s : State) (tileBad : Bool) (hk : Keeps s₀ s) : KeepsOut s₀ (execJEnd jet team bad s tileBad) := by
  unfold execJEnd
  repeat' first | with_reducible assumption | with_reducible apply State.pass_keeps | with_reducible apply State.stage_keeps | with_reducible apply State.retireJet_keeps | with_reducible apply State.issue_keeps | with_reducible apply State.endVertex_keeps | with_reducible apply State.endPixel_keeps | with_reducible apply State.endCompute_keeps | with_reducible apply KeepsOut.next | with_reducible apply KeepsOut.ite | with_reducible apply Keeps.ite | dsimp only | (intro _ _ _ _ _) | (intro _ _ _) | (intro _ _) | split

theorem execJDrop_keeps {s₀ : State} (jet : Fin 64) (team : Fin 16) (bad : Bool) (s : State) (hk : Keeps s₀ s) : KeepsOut s₀ (execJDrop jet team bad s) := by
  unfold execJDrop
  repeat' first | with_reducible assumption | with_reducible apply State.setTeam_keeps | with_reducible apply State.issue_keeps | with_reducible apply State.leavePixel_keeps | with_reducible apply KeepsOut.next | with_reducible apply KeepsOut.ite | with_reducible apply Keeps.ite | dsimp only | (intro _ _ _ _ _) | (intro _ _ _) | (intro _ _) | split

theorem execJWsync_keeps {s₀ : State} (jet : Fin 64) (team : Fin 16) (bad : Bool) (s : State) (hk : Keeps s₀ s) : KeepsOut s₀ (execJWsync jet team bad s) := by
  unfold execJWsync
  repeat' first | with_reducible assumption | with_reducible apply State.setJet_keeps | with_reducible apply State.setTeam_keeps | with_reducible apply State.issue_keeps | with_reducible apply KeepsOut.next | with_reducible apply KeepsOut.ite | with_reducible apply Keeps.ite | dsimp only | (intro _ _ _ _ _) | (intro _ _ _) | (intro _ _) | split

theorem execJMvis_keeps {s₀ : State} (jet : Fin 64) (team : Fin 16) (bad : Bool) (s : State) (hk : Keeps s₀ s) : KeepsOut s₀ (execJMvis jet team bad s) := by
  unfold execJMvis
  repeat' first | with_reducible assumption | with_reducible apply State.setTeam_keeps | with_reducible apply State.issue_keeps | with_reducible apply KeepsOut.next | with_reducible apply KeepsOut.ite | with_reducible apply Keeps.ite | dsimp only | (intro _ _ _ _ _) | (intro _ _ _) | (intro _ _) | split

theorem execJMov_keeps {s₀ : State} (jet : Fin 64) (team : Fin 16) (bad : Bool) (s : State) (hk : Keeps s₀ s) : KeepsOut s₀ (execJMov jet team bad s) := by
  unfold execJMov
  repeat' first | with_reducible assumption | with_reducible apply State.issueAlu_keeps | with_reducible apply KeepsOut.next | with_reducible apply KeepsOut.ite | with_reducible apply Keeps.ite | dsimp only | (intro _ _ _ _ _) | (intro _ _ _) | (intro _ _) | split

theorem execJIadd_keeps {s₀ : State} (jet : Fin 64) (team : Fin 16) (bad : Bool) (s : State) (hk : Keeps s₀ s) : KeepsOut s₀ (execJIadd jet team bad s) := by
  unfold execJIadd
  repeat' first | with_reducible assumption | with_reducible apply State.issueAlu_keeps | with_reducible apply KeepsOut.next | with_reducible apply KeepsOut.ite | with_reducible apply Keeps.ite | dsimp only | (intro _ _ _ _ _) | (intro _ _ _) | (intro _ _) | split

theorem execJIsub_keeps {s₀ : State} (jet : Fin 64) (team : Fin 16) (bad : Bool) (s : State) (hk : Keeps s₀ s) : KeepsOut s₀ (execJIsub jet team bad s) := by
  unfold execJIsub
  repeat' first | with_reducible assumption | with_reducible apply State.issueAlu_keeps | with_reducible apply KeepsOut.next | with_reducible apply KeepsOut.ite | with_reducible apply Keeps.ite | dsimp only | (intro _ _ _ _ _) | (intro _ _ _) | (intro _ _) | split

theorem execJImul_keeps {s₀ : State} (jet : Fin 64) (team : Fin 16) (bad : Bool) (s : State) (hk : Keeps s₀ s) : KeepsOut s₀ (execJImul jet team bad s) := by
  unfold execJImul
  repeat' first | with_reducible assumption | with_reducible apply State.issueAlu_keeps | with_reducible apply KeepsOut.next | with_reducible apply KeepsOut.ite | with_reducible apply Keeps.ite | dsimp only | (intro _ _ _ _ _) | (intro _ _ _) | (intro _ _) | split

theorem execJImulhi_keeps {s₀ : State} (jet : Fin 64) (team : Fin 16) (bad : Bool) (s : State) (hk : Keeps s₀ s) : KeepsOut s₀ (execJImulhi jet team bad s) := by
  unfold execJImulhi
  repeat' first | with_reducible assumption | with_reducible apply State.issueAlu_keeps | with_reducible apply KeepsOut.next | with_reducible apply KeepsOut.ite | with_reducible apply Keeps.ite | dsimp only | (intro _ _ _ _ _) | (intro _ _ _) | (intro _ _) | split

theorem execJUmulhi_keeps {s₀ : State} (jet : Fin 64) (team : Fin 16) (bad : Bool) (s : State) (hk : Keeps s₀ s) : KeepsOut s₀ (execJUmulhi jet team bad s) := by
  unfold execJUmulhi
  repeat' first | with_reducible assumption | with_reducible apply State.issueAlu_keeps | with_reducible apply KeepsOut.next | with_reducible apply KeepsOut.ite | with_reducible apply Keeps.ite | dsimp only | (intro _ _ _ _ _) | (intro _ _ _) | (intro _ _) | split

theorem execJImula_keeps {s₀ : State} (jet : Fin 64) (team : Fin 16) (bad : Bool) (s : State) (hk : Keeps s₀ s) : KeepsOut s₀ (execJImula jet team bad s) := by
  unfold execJImula
  repeat' first | with_reducible assumption | with_reducible apply State.issueAlu_keeps | with_reducible apply KeepsOut.next | with_reducible apply KeepsOut.ite | with_reducible apply Keeps.ite | dsimp only | (intro _ _ _ _ _) | (intro _ _ _) | (intro _ _) | split

theorem execJAnd_keeps {s₀ : State} (jet : Fin 64) (team : Fin 16) (bad : Bool) (s : State) (hk : Keeps s₀ s) : KeepsOut s₀ (execJAnd jet team bad s) := by
  unfold execJAnd
  repeat' first | with_reducible assumption | with_reducible apply State.issueAlu_keeps | with_reducible apply KeepsOut.next | with_reducible apply KeepsOut.ite | with_reducible apply Keeps.ite | dsimp only | (intro _ _ _ _ _) | (intro _ _ _) | (intro _ _) | split

theorem execJOr_keeps {s₀ : State} (jet : Fin 64) (team : Fin 16) (bad : Bool) (s : State) (hk : Keeps s₀ s) : KeepsOut s₀ (execJOr jet team bad s) := by
  unfold execJOr
  repeat' first | with_reducible assumption | with_reducible apply State.issueAlu_keeps | with_reducible apply KeepsOut.next | with_reducible apply KeepsOut.ite | with_reducible apply Keeps.ite | dsimp only | (intro _ _ _ _ _) | (intro _ _ _) | (intro _ _) | split

theorem execJXor_keeps {s₀ : State} (jet : Fin 64) (team : Fin 16) (bad : Bool) (s : State) (hk : Keeps s₀ s) : KeepsOut s₀ (execJXor jet team bad s) := by
  unfold execJXor
  repeat' first | with_reducible assumption | with_reducible apply State.issueAlu_keeps | with_reducible apply KeepsOut.next | with_reducible apply KeepsOut.ite | with_reducible apply Keeps.ite | dsimp only | (intro _ _ _ _ _) | (intro _ _ _) | (intro _ _) | split

theorem execJShl_keeps {s₀ : State} (jet : Fin 64) (team : Fin 16) (bad : Bool) (s : State) (hk : Keeps s₀ s) : KeepsOut s₀ (execJShl jet team bad s) := by
  unfold execJShl
  repeat' first | with_reducible assumption | with_reducible apply State.issueAlu_keeps | with_reducible apply KeepsOut.next | with_reducible apply KeepsOut.ite | with_reducible apply Keeps.ite | dsimp only | (intro _ _ _ _ _) | (intro _ _ _) | (intro _ _) | split

theorem execJShr_keeps {s₀ : State} (jet : Fin 64) (team : Fin 16) (bad : Bool) (s : State) (hk : Keeps s₀ s) : KeepsOut s₀ (execJShr jet team bad s) := by
  unfold execJShr
  repeat' first | with_reducible assumption | with_reducible apply State.issueAlu_keeps | with_reducible apply KeepsOut.next | with_reducible apply KeepsOut.ite | with_reducible apply Keeps.ite | dsimp only | (intro _ _ _ _ _) | (intro _ _ _) | (intro _ _) | split

theorem execJSar_keeps {s₀ : State} (jet : Fin 64) (team : Fin 16) (bad : Bool) (s : State) (hk : Keeps s₀ s) : KeepsOut s₀ (execJSar jet team bad s) := by
  unfold execJSar
  repeat' first | with_reducible assumption | with_reducible apply State.issueAlu_keeps | with_reducible apply KeepsOut.next | with_reducible apply KeepsOut.ite | with_reducible apply Keeps.ite | dsimp only | (intro _ _ _ _ _) | (intro _ _ _) | (intro _ _) | split

theorem execJMin_keeps {s₀ : State} (jet : Fin 64) (team : Fin 16) (bad : Bool) (s : State) (hk : Keeps s₀ s) : KeepsOut s₀ (execJMin jet team bad s) := by
  unfold execJMin
  repeat' first | with_reducible assumption | with_reducible apply State.issueAlu_keeps | with_reducible apply KeepsOut.next | with_reducible apply KeepsOut.ite | with_reducible apply Keeps.ite | dsimp only | (intro _ _ _ _ _) | (intro _ _ _) | (intro _ _) | split

theorem execJMax_keeps {s₀ : State} (jet : Fin 64) (team : Fin 16) (bad : Bool) (s : State) (hk : Keeps s₀ s) : KeepsOut s₀ (execJMax jet team bad s) := by
  unfold execJMax
  repeat' first | with_reducible assumption | with_reducible apply State.issueAlu_keeps | with_reducible apply KeepsOut.next | with_reducible apply KeepsOut.ite | with_reducible apply Keeps.ite | dsimp only | (intro _ _ _ _ _) | (intro _ _ _) | (intro _ _) | split

theorem execJBit_keeps {s₀ : State} (jet : Fin 64) (team : Fin 16) (bad : Bool) (s : State) (hk : Keeps s₀ s) : KeepsOut s₀ (execJBit jet team bad s) := by
  unfold execJBit
  repeat' first | with_reducible assumption | with_reducible apply State.issueAlu_keeps | with_reducible apply KeepsOut.next | with_reducible apply KeepsOut.ite | with_reducible apply Keeps.ite | dsimp only | (intro _ _ _ _ _) | (intro _ _ _) | (intro _ _) | split

theorem execJFadd_keeps {s₀ : State} (jet : Fin 64) (team : Fin 16) (bad : Bool) (s : State) (hk : Keeps s₀ s) : KeepsOut s₀ (execJFadd jet team bad s) := by
  unfold execJFadd
  repeat' first | with_reducible assumption | with_reducible apply State.issueAlu_keeps | with_reducible apply KeepsOut.next | with_reducible apply KeepsOut.ite | with_reducible apply Keeps.ite | dsimp only | (intro _ _ _ _ _) | (intro _ _ _) | (intro _ _) | split

theorem execJFsub_keeps {s₀ : State} (jet : Fin 64) (team : Fin 16) (bad : Bool) (s : State) (hk : Keeps s₀ s) : KeepsOut s₀ (execJFsub jet team bad s) := by
  unfold execJFsub
  repeat' first | with_reducible assumption | with_reducible apply State.issueAlu_keeps | with_reducible apply KeepsOut.next | with_reducible apply KeepsOut.ite | with_reducible apply Keeps.ite | dsimp only | (intro _ _ _ _ _) | (intro _ _ _) | (intro _ _) | split

theorem execJFmul_keeps {s₀ : State} (jet : Fin 64) (team : Fin 16) (bad : Bool) (s : State) (hk : Keeps s₀ s) : KeepsOut s₀ (execJFmul jet team bad s) := by
  unfold execJFmul
  repeat' first | with_reducible assumption | with_reducible apply State.issueAlu_keeps | with_reducible apply KeepsOut.next | with_reducible apply KeepsOut.ite | with_reducible apply Keeps.ite | dsimp only | (intro _ _ _ _ _) | (intro _ _ _) | (intro _ _) | split

theorem execJFma_keeps {s₀ : State} (jet : Fin 64) (team : Fin 16) (bad : Bool) (s : State) (hk : Keeps s₀ s) : KeepsOut s₀ (execJFma jet team bad s) := by
  unfold execJFma
  repeat' first | with_reducible assumption | with_reducible apply State.issueAlu_keeps | with_reducible apply KeepsOut.next | with_reducible apply KeepsOut.ite | with_reducible apply Keeps.ite | dsimp only | (intro _ _ _ _ _) | (intro _ _ _) | (intro _ _) | split

theorem execJFmin_keeps {s₀ : State} (jet : Fin 64) (team : Fin 16) (bad : Bool) (s : State) (hk : Keeps s₀ s) : KeepsOut s₀ (execJFmin jet team bad s) := by
  unfold execJFmin
  repeat' first | with_reducible assumption | with_reducible apply State.issueAlu_keeps | with_reducible apply KeepsOut.next | with_reducible apply KeepsOut.ite | with_reducible apply Keeps.ite | dsimp only | (intro _ _ _ _ _) | (intro _ _ _) | (intro _ _) | split

theorem execJFmax_keeps {s₀ : State} (jet : Fin 64) (team : Fin 16) (bad : Bool) (s : State) (hk : Keeps s₀ s) : KeepsOut s₀ (execJFmax jet team bad s) := by
  unfold execJFmax
  repeat' first | with_reducible assumption | with_reducible apply State.issueAlu_keeps | with_reducible apply KeepsOut.next | with_reducible apply KeepsOut.ite | with_reducible apply Keeps.ite | dsimp only | (intro _ _ _ _ _) | (intro _ _ _) | (intro _ _) | split

theorem execJFround_keeps {s₀ : State} (jet : Fin 64) (team : Fin 16) (bad : Bool) (s : State) (hk : Keeps s₀ s) : KeepsOut s₀ (execJFround jet team bad s) := by
  unfold execJFround
  repeat' first | with_reducible assumption | with_reducible apply State.issueAlu_keeps | with_reducible apply KeepsOut.next | with_reducible apply KeepsOut.ite | with_reducible apply Keeps.ite | dsimp only | (intro _ _ _ _ _) | (intro _ _ _) | (intro _ _) | split

theorem execJFfrac_keeps {s₀ : State} (jet : Fin 64) (team : Fin 16) (bad : Bool) (s : State) (hk : Keeps s₀ s) : KeepsOut s₀ (execJFfrac jet team bad s) := by
  unfold execJFfrac
  repeat' first | with_reducible assumption | with_reducible apply State.issueAlu_keeps | with_reducible apply KeepsOut.next | with_reducible apply KeepsOut.ite | with_reducible apply Keeps.ite | dsimp only | (intro _ _ _ _ _) | (intro _ _ _) | (intro _ _) | split

theorem execJHpadd_keeps {s₀ : State} (jet : Fin 64) (team : Fin 16) (bad : Bool) (s : State) (hk : Keeps s₀ s) : KeepsOut s₀ (execJHpadd jet team bad s) := by
  unfold execJHpadd
  repeat' first | with_reducible assumption | with_reducible apply State.issueAlu_keeps | with_reducible apply KeepsOut.next | with_reducible apply KeepsOut.ite | with_reducible apply Keeps.ite | dsimp only | (intro _ _ _ _ _) | (intro _ _ _) | (intro _ _) | split

theorem execJHpmul_keeps {s₀ : State} (jet : Fin 64) (team : Fin 16) (bad : Bool) (s : State) (hk : Keeps s₀ s) : KeepsOut s₀ (execJHpmul jet team bad s) := by
  unfold execJHpmul
  repeat' first | with_reducible assumption | with_reducible apply State.issueAlu_keeps | with_reducible apply KeepsOut.next | with_reducible apply KeepsOut.ite | with_reducible apply Keeps.ite | dsimp only | (intro _ _ _ _ _) | (intro _ _ _) | (intro _ _) | split

theorem execJHpfma_keeps {s₀ : State} (jet : Fin 64) (team : Fin 16) (bad : Bool) (s : State) (hk : Keeps s₀ s) : KeepsOut s₀ (execJHpfma jet team bad s) := by
  unfold execJHpfma
  repeat' first | with_reducible assumption | with_reducible apply State.issueAlu_keeps | with_reducible apply KeepsOut.next | with_reducible apply KeepsOut.ite | with_reducible apply Keeps.ite | dsimp only | (intro _ _ _ _ _) | (intro _ _ _) | (intro _ _) | split

theorem execJHpmin_keeps {s₀ : State} (jet : Fin 64) (team : Fin 16) (bad : Bool) (s : State) (hk : Keeps s₀ s) : KeepsOut s₀ (execJHpmin jet team bad s) := by
  unfold execJHpmin
  repeat' first | with_reducible assumption | with_reducible apply State.issueAlu_keeps | with_reducible apply KeepsOut.next | with_reducible apply KeepsOut.ite | with_reducible apply Keeps.ite | dsimp only | (intro _ _ _ _ _) | (intro _ _ _) | (intro _ _) | split

theorem execJHpmax_keeps {s₀ : State} (jet : Fin 64) (team : Fin 16) (bad : Bool) (s : State) (hk : Keeps s₀ s) : KeepsOut s₀ (execJHpmax jet team bad s) := by
  unfold execJHpmax
  repeat' first | with_reducible assumption | with_reducible apply State.issueAlu_keeps | with_reducible apply KeepsOut.next | with_reducible apply KeepsOut.ite | with_reducible apply Keeps.ite | dsimp only | (intro _ _ _ _ _) | (intro _ _ _) | (intro _ _) | split

theorem execJRcp_keeps {s₀ : State} (jet : Fin 64) (team : Fin 16) (bad : Bool) (s : State) (hk : Keeps s₀ s) : KeepsOut s₀ (execJRcp jet team bad s) := by
  unfold execJRcp
  repeat' first | with_reducible assumption | with_reducible apply State.issueAlu_keeps | with_reducible apply KeepsOut.next | with_reducible apply KeepsOut.ite | with_reducible apply Keeps.ite | dsimp only | (intro _ _ _ _ _) | (intro _ _ _) | (intro _ _) | split

theorem execJRsq_keeps {s₀ : State} (jet : Fin 64) (team : Fin 16) (bad : Bool) (s : State) (hk : Keeps s₀ s) : KeepsOut s₀ (execJRsq jet team bad s) := by
  unfold execJRsq
  repeat' first | with_reducible assumption | with_reducible apply State.issueAlu_keeps | with_reducible apply KeepsOut.next | with_reducible apply KeepsOut.ite | with_reducible apply Keeps.ite | dsimp only | (intro _ _ _ _ _) | (intro _ _ _) | (intro _ _) | split

theorem execJSqrt_keeps {s₀ : State} (jet : Fin 64) (team : Fin 16) (bad : Bool) (s : State) (hk : Keeps s₀ s) : KeepsOut s₀ (execJSqrt jet team bad s) := by
  unfold execJSqrt
  repeat' first | with_reducible assumption | with_reducible apply State.issueAlu_keeps | with_reducible apply KeepsOut.next | with_reducible apply KeepsOut.ite | with_reducible apply Keeps.ite | dsimp only | (intro _ _ _ _ _) | (intro _ _ _) | (intro _ _) | split

theorem execJExp2_keeps {s₀ : State} (jet : Fin 64) (team : Fin 16) (bad : Bool) (s : State) (hk : Keeps s₀ s) : KeepsOut s₀ (execJExp2 jet team bad s) := by
  unfold execJExp2
  repeat' first | with_reducible assumption | with_reducible apply State.issueAlu_keeps | with_reducible apply KeepsOut.next | with_reducible apply KeepsOut.ite | with_reducible apply Keeps.ite | dsimp only | (intro _ _ _ _ _) | (intro _ _ _) | (intro _ _) | split

theorem execJLog2_keeps {s₀ : State} (jet : Fin 64) (team : Fin 16) (bad : Bool) (s : State) (hk : Keeps s₀ s) : KeepsOut s₀ (execJLog2 jet team bad s) := by
  unfold execJLog2
  repeat' first | with_reducible assumption | with_reducible apply State.issueAlu_keeps | with_reducible apply KeepsOut.next | with_reducible apply KeepsOut.ite | with_reducible apply Keeps.ite | dsimp only | (intro _ _ _ _ _) | (intro _ _ _) | (intro _ _) | split

theorem execJSinpi_keeps {s₀ : State} (jet : Fin 64) (team : Fin 16) (bad : Bool) (s : State) (hk : Keeps s₀ s) : KeepsOut s₀ (execJSinpi jet team bad s) := by
  unfold execJSinpi
  repeat' first | with_reducible assumption | with_reducible apply State.issueAlu_keeps | with_reducible apply KeepsOut.next | with_reducible apply KeepsOut.ite | with_reducible apply Keeps.ite | dsimp only | (intro _ _ _ _ _) | (intro _ _ _) | (intro _ _) | split

theorem execJCospi_keeps {s₀ : State} (jet : Fin 64) (team : Fin 16) (bad : Bool) (s : State) (hk : Keeps s₀ s) : KeepsOut s₀ (execJCospi jet team bad s) := by
  unfold execJCospi
  repeat' first | with_reducible assumption | with_reducible apply State.issueAlu_keeps | with_reducible apply KeepsOut.next | with_reducible apply KeepsOut.ite | with_reducible apply Keeps.ite | dsimp only | (intro _ _ _ _ _) | (intro _ _ _) | (intro _ _) | split

theorem execJF2i_keeps {s₀ : State} (jet : Fin 64) (team : Fin 16) (bad : Bool) (s : State) (hk : Keeps s₀ s) : KeepsOut s₀ (execJF2i jet team bad s) := by
  unfold execJF2i
  repeat' first | with_reducible assumption | with_reducible apply State.issueAlu_keeps | with_reducible apply KeepsOut.next | with_reducible apply KeepsOut.ite | with_reducible apply Keeps.ite | dsimp only | (intro _ _ _ _ _) | (intro _ _ _) | (intro _ _) | split

theorem execJF2u_keeps {s₀ : State} (jet : Fin 64) (team : Fin 16) (bad : Bool) (s : State) (hk : Keeps s₀ s) : KeepsOut s₀ (execJF2u jet team bad s) := by
  unfold execJF2u
  repeat' first | with_reducible assumption | with_reducible apply State.issueAlu_keeps | with_reducible apply KeepsOut.next | with_reducible apply KeepsOut.ite | with_reducible apply Keeps.ite | dsimp only | (intro _ _ _ _ _) | (intro _ _ _) | (intro _ _) | split

theorem execJI2f_keeps {s₀ : State} (jet : Fin 64) (team : Fin 16) (bad : Bool) (s : State) (hk : Keeps s₀ s) : KeepsOut s₀ (execJI2f jet team bad s) := by
  unfold execJI2f
  repeat' first | with_reducible assumption | with_reducible apply State.issueAlu_keeps | with_reducible apply KeepsOut.next | with_reducible apply KeepsOut.ite | with_reducible apply Keeps.ite | dsimp only | (intro _ _ _ _ _) | (intro _ _ _) | (intro _ _) | split

theorem execJU2f_keeps {s₀ : State} (jet : Fin 64) (team : Fin 16) (bad : Bool) (s : State) (hk : Keeps s₀ s) : KeepsOut s₀ (execJU2f jet team bad s) := by
  unfold execJU2f
  repeat' first | with_reducible assumption | with_reducible apply State.issueAlu_keeps | with_reducible apply KeepsOut.next | with_reducible apply KeepsOut.ite | with_reducible apply Keeps.ite | dsimp only | (intro _ _ _ _ _) | (intro _ _ _) | (intro _ _) | split

theorem execJFpackh_keeps {s₀ : State} (jet : Fin 64) (team : Fin 16) (bad : Bool) (s : State) (hk : Keeps s₀ s) : KeepsOut s₀ (execJFpackh jet team bad s) := by
  unfold execJFpackh
  repeat' first | with_reducible assumption | with_reducible apply State.issueAlu_keeps | with_reducible apply KeepsOut.next | with_reducible apply KeepsOut.ite | with_reducible apply Keeps.ite | dsimp only | (intro _ _ _ _ _) | (intro _ _ _) | (intro _ _) | split

theorem execJHunpl_keeps {s₀ : State} (jet : Fin 64) (team : Fin 16) (bad : Bool) (s : State) (hk : Keeps s₀ s) : KeepsOut s₀ (execJHunpl jet team bad s) := by
  unfold execJHunpl
  repeat' first | with_reducible assumption | with_reducible apply State.issueAlu_keeps | with_reducible apply KeepsOut.next | with_reducible apply KeepsOut.ite | with_reducible apply Keeps.ite | dsimp only | (intro _ _ _ _ _) | (intro _ _ _) | (intro _ _) | split

theorem execJHunph_keeps {s₀ : State} (jet : Fin 64) (team : Fin 16) (bad : Bool) (s : State) (hk : Keeps s₀ s) : KeepsOut s₀ (execJHunph jet team bad s) := by
  unfold execJHunph
  repeat' first | with_reducible assumption | with_reducible apply State.issueAlu_keeps | with_reducible apply KeepsOut.next | with_reducible apply KeepsOut.ite | with_reducible apply Keeps.ite | dsimp only | (intro _ _ _ _ _) | (intro _ _ _) | (intro _ _) | split

theorem execJPick_keeps {s₀ : State} (jet : Fin 64) (team : Fin 16) (bad : Bool) (s : State) (hk : Keeps s₀ s) : KeepsOut s₀ (execJPick jet team bad s) := by
  unfold execJPick
  repeat' first | with_reducible assumption | with_reducible apply State.issueAlu_keeps | with_reducible apply KeepsOut.next | with_reducible apply KeepsOut.ite | with_reducible apply Keeps.ite | dsimp only | (intro _ _ _ _ _) | (intro _ _ _) | (intro _ _) | split

theorem execJFcmp_keeps {s₀ : State} (jet : Fin 64) (team : Fin 16) (bad : Bool) (s : State) (hk : Keeps s₀ s) : KeepsOut s₀ (execJFcmp jet team bad s) := by
  unfold execJFcmp
  repeat' first | with_reducible assumption | with_reducible apply State.issuePred_keeps | with_reducible apply KeepsOut.next | with_reducible apply KeepsOut.ite | with_reducible apply Keeps.ite | dsimp only | (intro _ _ _ _ _) | (intro _ _ _) | (intro _ _) | split

theorem execJIcmp_keeps {s₀ : State} (jet : Fin 64) (team : Fin 16) (bad : Bool) (s : State) (hk : Keeps s₀ s) : KeepsOut s₀ (execJIcmp jet team bad s) := by
  unfold execJIcmp
  repeat' first | with_reducible assumption | with_reducible apply State.issuePred_keeps | with_reducible apply KeepsOut.next | with_reducible apply KeepsOut.ite | with_reducible apply Keeps.ite | dsimp only | (intro _ _ _ _ _) | (intro _ _ _) | (intro _ _) | split

theorem execJUcmp_keeps {s₀ : State} (jet : Fin 64) (team : Fin 16) (bad : Bool) (s : State) (hk : Keeps s₀ s) : KeepsOut s₀ (execJUcmp jet team bad s) := by
  unfold execJUcmp
  repeat' first | with_reducible assumption | with_reducible apply State.issuePred_keeps | with_reducible apply KeepsOut.next | with_reducible apply KeepsOut.ite | with_reducible apply Keeps.ite | dsimp only | (intro _ _ _ _ _) | (intro _ _ _) | (intro _ _) | split

theorem execJPand_keeps {s₀ : State} (jet : Fin 64) (team : Fin 16) (bad : Bool) (s : State) (hk : Keeps s₀ s) : KeepsOut s₀ (execJPand jet team bad s) := by
  unfold execJPand
  repeat' first | with_reducible assumption | with_reducible apply State.issuePred_keeps | with_reducible apply KeepsOut.next | with_reducible apply KeepsOut.ite | with_reducible apply Keeps.ite | dsimp only | (intro _ _ _ _ _) | (intro _ _ _) | (intro _ _) | split

theorem execJPor_keeps {s₀ : State} (jet : Fin 64) (team : Fin 16) (bad : Bool) (s : State) (hk : Keeps s₀ s) : KeepsOut s₀ (execJPor jet team bad s) := by
  unfold execJPor
  repeat' first | with_reducible assumption | with_reducible apply State.issuePred_keeps | with_reducible apply KeepsOut.next | with_reducible apply KeepsOut.ite | with_reducible apply Keeps.ite | dsimp only | (intro _ _ _ _ _) | (intro _ _ _) | (intro _ _) | split

theorem execJPxor_keeps {s₀ : State} (jet : Fin 64) (team : Fin 16) (bad : Bool) (s : State) (hk : Keeps s₀ s) : KeepsOut s₀ (execJPxor jet team bad s) := by
  unfold execJPxor
  repeat' first | with_reducible assumption | with_reducible apply State.issuePred_keeps | with_reducible apply KeepsOut.next | with_reducible apply KeepsOut.ite | with_reducible apply Keeps.ite | dsimp only | (intro _ _ _ _ _) | (intro _ _ _) | (intro _ _) | split

theorem execJPnot_keeps {s₀ : State} (jet : Fin 64) (team : Fin 16) (bad : Bool) (s : State) (hk : Keeps s₀ s) : KeepsOut s₀ (execJPnot jet team bad s) := by
  unfold execJPnot
  repeat' first | with_reducible assumption | with_reducible apply State.issuePred_keeps | with_reducible apply KeepsOut.next | with_reducible apply KeepsOut.ite | with_reducible apply Keeps.ite | dsimp only | (intro _ _ _ _ _) | (intro _ _ _) | (intro _ _) | split

theorem execJPput_keeps {s₀ : State} (jet : Fin 64) (team : Fin 16) (bad : Bool) (s : State) (hk : Keeps s₀ s) : KeepsOut s₀ (execJPput jet team bad s) := by
  unfold execJPput
  repeat' first | with_reducible assumption | with_reducible apply State.issuePred_keeps | with_reducible apply KeepsOut.next | with_reducible apply KeepsOut.ite | with_reducible apply Keeps.ite | dsimp only | (intro _ _ _ _ _) | (intro _ _ _) | (intro _ _) | split

theorem execJPget_keeps {s₀ : State} (jet : Fin 64) (team : Fin 16) (bad : Bool) (s : State) (hk : Keeps s₀ s) : KeepsOut s₀ (execJPget jet team bad s) := by
  unfold execJPget
  repeat' first | with_reducible assumption | with_reducible apply State.setTeam_keeps | with_reducible apply State.issue_keeps | with_reducible apply KeepsOut.next | with_reducible apply KeepsOut.ite | with_reducible apply Keeps.ite | dsimp only | (intro _ _ _ _ _) | (intro _ _ _) | (intro _ _) | split

theorem State.issueLanes_keeps {s₀ : State} (s : State) (k n op : Nat) (bad : Bool) (f : Team → Ins → Nat → Nat) (hk : Keeps s₀ s) : Keeps s₀ (State.issueLanes s k n op bad f) := by
  unfold State.issueLanes
  dsimp only [Keeps]
  repeat' first | with_reducible assumption | with_reducible apply State.setTeam_keeps | with_reducible apply State.issue_keeps | with_reducible apply Keeps.ite | dsimp only | (intro _ _ _ _ _) | (intro _ _ _) | (intro _ _) | split

theorem execJLxch_keeps {s₀ : State} (jet : Fin 64) (team : Fin 16) (bad : Bool) (s : State) (hk : Keeps s₀ s) : KeepsOut s₀ (execJLxch jet team bad s) := by
  unfold execJLxch
  repeat' first | with_reducible assumption | with_reducible apply State.issueLanes_keeps | with_reducible apply KeepsOut.next | with_reducible apply KeepsOut.ite | with_reducible apply Keeps.ite | dsimp only | (intro _ _ _ _ _) | (intro _ _ _) | (intro _ _) | split

theorem execJQdx_keeps {s₀ : State} (jet : Fin 64) (team : Fin 16) (bad : Bool) (s : State) (hk : Keeps s₀ s) : KeepsOut s₀ (execJQdx jet team bad s) := by
  unfold execJQdx
  repeat' first | with_reducible assumption | with_reducible apply State.issueLanes_keeps | with_reducible apply KeepsOut.next | with_reducible apply KeepsOut.ite | with_reducible apply Keeps.ite | dsimp only | (intro _ _ _ _ _) | (intro _ _ _) | (intro _ _) | split

theorem execJQdy_keeps {s₀ : State} (jet : Fin 64) (team : Fin 16) (bad : Bool) (s : State) (hk : Keeps s₀ s) : KeepsOut s₀ (execJQdy jet team bad s) := by
  unfold execJQdy
  repeat' first | with_reducible assumption | with_reducible apply State.issueLanes_keeps | with_reducible apply KeepsOut.next | with_reducible apply KeepsOut.ite | with_reducible apply Keeps.ite | dsimp only | (intro _ _ _ _ _) | (intro _ _ _) | (intro _ _) | split

theorem execJLred_keeps {s₀ : State} (jet : Fin 64) (team : Fin 16) (bad : Bool) (s : State) (hk : Keeps s₀ s) : KeepsOut s₀ (execJLred jet team bad s) := by
  unfold execJLred
  repeat' first | with_reducible assumption | with_reducible apply State.issueLanes_keeps | with_reducible apply KeepsOut.next | with_reducible apply KeepsOut.ite | with_reducible apply Keeps.ite | dsimp only | (intro _ _ _ _ _) | (intro _ _ _) | (intro _ _) | split

theorem execJLread_keeps {s₀ : State} (jet : Fin 64) (team : Fin 16) (bad : Bool) (s : State) (hk : Keeps s₀ s) : KeepsOut s₀ (execJLread jet team bad s) := by
  unfold execJLread
  repeat' first | with_reducible assumption | with_reducible apply State.issueLanes_keeps | with_reducible apply KeepsOut.next | with_reducible apply KeepsOut.ite | with_reducible apply Keeps.ite | dsimp only | (intro _ _ _ _ _) | (intro _ _ _) | (intro _ _) | split

theorem execJSrg_keeps {s₀ : State} (jet : Fin 64) (team : Fin 16) (bad : Bool) (s : State) (hk : Keeps s₀ s) : KeepsOut s₀ (execJSrg jet team bad s) := by
  unfold execJSrg
  repeat' first | with_reducible assumption | with_reducible apply State.setTeam_keeps | with_reducible apply State.issue_keeps | with_reducible apply KeepsOut.next | with_reducible apply KeepsOut.ite | with_reducible apply Keeps.ite | dsimp only | (intro _ _ _ _ _) | (intro _ _ _) | (intro _ _) | split

theorem State.rangeNote_keeps {s₀ : State} (s : State) (j : JetJob) (slot entry : Nat) (out : Bool) (hk : Keeps s₀ s) : Keeps s₀ (State.rangeNote s j slot entry out) := by
  unfold State.rangeNote
  dsimp only [Keeps]
  repeat' first | with_reducible assumption | with_reducible apply State.offer_keeps | with_reducible apply State.modJjob_keeps | with_reducible apply Keeps.ite | dsimp only | (intro _ _ _ _ _) | (intro _ _ _) | (intro _ _) | split

theorem State.loadFrom_keeps {s₀ : State} (s : State) (k n : Nat) (host : List (Nat × Byte)) (j : JetJob) (t : Team) (i : Ins) (base size slot : Nat) (hk : Keeps s₀ s) : Keeps s₀ (State.loadFrom s k n host j t i base size slot) := by
  unfold State.loadFrom
  dsimp only [Keeps]
  repeat' first | with_reducible assumption | with_reducible apply State.pass_keeps | with_reducible apply State.touchRanges_keeps | with_reducible apply State.jetFault_keeps | with_reducible apply State.setTeam_keeps | with_reducible apply State.rangeNote_keeps | with_reducible apply Keeps.ite | dsimp only | (intro _ _ _ _ _) | (intro _ _ _) | (intro _ _) | split | simp only [Keeps, List.length_set, List.length_map, List.length_modify]

theorem execJGld_keeps {s₀ : State} (jet : Fin 64) (team : Fin 16) (bad : Bool) (host : List (Nat × Byte)) (s : State) (hk : Keeps s₀ s) : KeepsOut s₀ (execJGld jet team bad host s) := by
  unfold execJGld
  repeat' first | with_reducible assumption | with_reducible apply State.issue_keeps | with_reducible apply State.loadFrom_keeps | (with_reducible refine fst_keeps ‹_› ?_) | (with_reducible refine snd_keeps ‹_› ?_) | with_reducible apply KeepsOut.next | with_reducible apply KeepsOut.ite | with_reducible apply Keeps.ite | dsimp only | (intro _ _ _ _ _) | (intro _ _ _) | (intro _ _) | split

theorem execJCld_keeps {s₀ : State} (jet : Fin 64) (team : Fin 16) (bad : Bool) (host : List (Nat × Byte)) (s : State) (hk : Keeps s₀ s) : KeepsOut s₀ (execJCld jet team bad host s) := by
  unfold execJCld
  repeat' first | with_reducible assumption | with_reducible apply State.issue_keeps | with_reducible apply State.loadFrom_keeps | with_reducible apply KeepsOut.next | with_reducible apply KeepsOut.ite | with_reducible apply Keeps.ite | dsimp only | (intro _ _ _ _ _) | (intro _ _ _) | (intro _ _) | split

theorem State.modWg_keeps {s₀ : State} (s : State) (k idx : Nat) (f : Wg → Wg) (hk : Keeps s₀ s) : Keeps s₀ (State.modWg s k idx f) := by
  unfold State.modWg
  dsimp only [Keeps]
  repeat' first | with_reducible assumption | with_reducible apply State.setJet_keeps | with_reducible apply Keeps.ite | dsimp only | (intro _ _ _ _ _) | (intro _ _ _) | (intro _ _) | split | simp only [Keeps, List.length_set, List.length_map, List.length_modify]

theorem execJGst_keeps {s₀ : State} (jet : Fin 64) (team : Fin 16) (bad : Bool) (s : State) (hk : Keeps s₀ s) : KeepsOut s₀ (execJGst jet team bad s) := by
  unfold execJGst
  repeat' first | with_reducible assumption | with_reducible apply State.faultJob_keeps | with_reducible apply State.runs_keeps | with_reducible apply State.jobRuns_keeps | with_reducible apply State.jetFault_keeps | with_reducible apply State.setTeam_keeps | with_reducible apply State.issue_keeps | with_reducible apply State.rangeNote_keeps | with_reducible apply State.modWg_keeps | (with_reducible refine fst_keeps ‹_› ?_) | (with_reducible refine snd_keeps ‹_› ?_) | with_reducible apply KeepsOut.next | with_reducible apply KeepsOut.ite | with_reducible apply Keeps.ite | dsimp only | (intro _ _ _ _ _) | (intro _ _ _) | (intro _ _) | split | simp only [Keeps, List.length_set, List.length_map, List.length_modify]

theorem execJGatom_keeps {s₀ : State} (jet : Fin 64) (team : Fin 16) (bad : Bool) (host : List (Nat × Byte)) (s : State) (hk : Keeps s₀ s) : KeepsOut s₀ (execJGatom jet team bad host s) := by
  unfold execJGatom
  repeat' first | with_reducible assumption | with_reducible apply State.runs_keeps | with_reducible apply State.jetFault_keeps | with_reducible apply State.setTeam_keeps | with_reducible apply State.issue_keeps | with_reducible apply State.rangeNote_keeps | with_reducible apply State.modWg_keeps | (with_reducible refine fst_keeps ‹_› ?_) | (with_reducible refine snd_keeps ‹_› ?_) | with_reducible apply KeepsOut.next | with_reducible apply KeepsOut.ite | with_reducible apply Keeps.ite | dsimp only | (intro _ _ _ _ _) | (intro _ _ _) | (intro _ _) | split | simp only [Keeps, List.length_set, List.length_map, List.length_modify]

theorem execJShld_keeps {s₀ : State} (jet : Fin 64) (team : Fin 16) (bad : Bool) (s : State) (tileBad : Bool) (hk : Keeps s₀ s) : KeepsOut s₀ (execJShld jet team bad s tileBad) := by
  unfold execJShld
  repeat' first | with_reducible assumption | with_reducible apply State.pass_keeps | with_reducible apply State.retireJet_keeps | with_reducible apply State.setTeam_keeps | with_reducible apply State.issue_keeps | with_reducible apply State.rangeNote_keeps | with_reducible apply KeepsOut.next | with_reducible apply KeepsOut.ite | with_reducible apply Keeps.ite | dsimp only | (intro _ _ _ _ _) | (intro _ _ _) | (intro _ _) | split

theorem execJShst_keeps {s₀ : State} (jet : Fin 64) (team : Fin 16) (bad : Bool) (s : State) (hk : Keeps s₀ s) : KeepsOut s₀ (execJShst jet team bad s) := by
  unfold execJShst
  repeat' first | with_reducible assumption | with_reducible apply State.setTeam_keeps | with_reducible apply State.issue_keeps | with_reducible apply State.rangeNote_keeps | with_reducible apply State.modWg_keeps | with_reducible apply foldl_keeps | with_reducible apply KeepsOut.next | with_reducible apply KeepsOut.ite | with_reducible apply Keeps.ite | dsimp only | (intro _ _ _ _ _) | (intro _ _ _) | (intro _ _) | split

theorem execJShatom_keeps {s₀ : State} (jet : Fin 64) (team : Fin 16) (bad : Bool) (s : State) (tileBad : Bool) (hk : Keeps s₀ s) : KeepsOut s₀ (execJShatom jet team bad s tileBad) := by
  unfold execJShatom
  repeat' first | with_reducible assumption | with_reducible apply State.retireJet_keeps | with_reducible apply State.setTeam_keeps | with_reducible apply State.issue_keeps | with_reducible apply State.rangeNote_keeps | with_reducible apply State.modWg_keeps | (with_reducible refine fst_keeps ‹_› ?_) | (with_reducible refine snd_keeps ‹_› ?_) | with_reducible apply foldl_keeps | with_reducible apply KeepsOut.next | with_reducible apply KeepsOut.ite | with_reducible apply Keeps.ite | dsimp only | (intro _ _ _ _ _) | (intro _ _ _) | (intro _ _) | split

theorem State.wgRetire_keeps {s₀ : State} (s : State) (k idx : Nat) (hk : Keeps s₀ s) : Keeps s₀ (State.wgRetire s k idx) := by
  unfold State.wgRetire
  dsimp only [Keeps]
  repeat' first | with_reducible assumption | with_reducible apply State.setJet_keeps | with_reducible apply State.modJjob_keeps | with_reducible apply State.jaSync_keeps | with_reducible apply State.freePreempts_keeps | with_reducible apply State.computeCheck_keeps | with_reducible apply Keeps.ite | dsimp only | (intro _ _ _ _ _) | (intro _ _ _) | (intro _ _) | split

theorem execWorkgroupRetire_keeps {s₀ : State} (jet : Fin 64) (group : Nat) (s : State) (hk : Keeps s₀ s) : KeepsOut s₀ (execWorkgroupRetire jet group s) := by
  unfold execWorkgroupRetire
  repeat' first | with_reducible assumption | with_reducible apply State.wgRetire_keeps | with_reducible apply KeepsOut.next | with_reducible apply KeepsOut.ite | with_reducible apply Keeps.ite | dsimp only | (intro _ _ _ _ _) | (intro _ _ _) | (intro _ _) | split

theorem execJTbld_keeps {s₀ : State} (jet : Fin 64) (team : Fin 16) (bad tileBad : Bool) (s : State) (hk : Keeps s₀ s) : KeepsOut s₀ (execJTbld jet team bad tileBad s) := by
  unfold execJTbld
  repeat' first | with_reducible assumption | with_reducible apply State.pass_keeps | with_reducible apply State.retireJet_keeps | with_reducible apply State.setTeam_keeps | with_reducible apply State.issue_keeps | with_reducible apply KeepsOut.next | with_reducible apply KeepsOut.ite | with_reducible apply Keeps.ite | dsimp only | (intro _ _ _ _ _) | (intro _ _ _) | (intro _ _) | split

theorem execJTbst_keeps {s₀ : State} (jet : Fin 64) (team : Fin 16) (bad : Bool) (s : State) (tileBad : Bool) (hk : Keeps s₀ s) : KeepsOut s₀ (execJTbst jet team bad s tileBad) := by
  unfold execJTbst
  repeat' first | with_reducible assumption | with_reducible apply State.pass_keeps | with_reducible apply State.setJet_keeps | with_reducible apply State.retireJet_keeps | with_reducible apply State.setTeam_keeps | with_reducible apply State.issue_keeps | with_reducible apply foldl_keeps | with_reducible apply KeepsOut.next | with_reducible apply KeepsOut.ite | with_reducible apply Keeps.ite | dsimp only | (intro _ _ _ _ _) | (intro _ _ _) | (intro _ _) | split | simp only [Keeps, List.length_set, List.length_map, List.length_modify]

theorem execJVint_keeps {s₀ : State} (jet : Fin 64) (team : Fin 16) (bad : Bool) (s : State) (hk : Keeps s₀ s) : KeepsOut s₀ (execJVint jet team bad s) := by
  unfold execJVint
  repeat' first | with_reducible assumption | with_reducible apply State.pass_keeps | with_reducible apply State.setTeam_keeps | with_reducible apply State.issue_keeps | with_reducible apply KeepsOut.next | with_reducible apply KeepsOut.ite | with_reducible apply Keeps.ite | dsimp only | (intro _ _ _ _ _) | (intro _ _ _) | (intro _ _) | split

theorem execJOut_keeps {s₀ : State} (jet : Fin 64) (team : Fin 16) (bad : Bool) (s : State) (hk : Keeps s₀ s) : KeepsOut s₀ (execJOut jet team bad s) := by
  unfold execJOut
  repeat' first | with_reducible assumption | with_reducible apply State.setTeam_keeps | with_reducible apply State.issue_keeps | with_reducible apply foldl_keeps | with_reducible apply KeepsOut.next | with_reducible apply KeepsOut.ite | with_reducible apply Keeps.ite | dsimp only | (intro _ _ _ _ _) | (intro _ _ _) | (intro _ _) | split

theorem execJZout_keeps {s₀ : State} (jet : Fin 64) (team : Fin 16) (bad : Bool) (s : State) (hk : Keeps s₀ s) : KeepsOut s₀ (execJZout jet team bad s) := by
  unfold execJZout
  repeat' first | with_reducible assumption | with_reducible apply State.setTeam_keeps | with_reducible apply State.issue_keeps | with_reducible apply foldl_keeps | with_reducible apply KeepsOut.next | with_reducible apply KeepsOut.ite | with_reducible apply Keeps.ite | dsimp only | (intro _ _ _ _ _) | (intro _ _ _) | (intro _ _) | split

theorem State.sample_keeps {s₀ : State} (s : State) (k n op : Nat) (bad : Bool) (host : List (Nat × Byte)) (how : Lod) (compare : Bool) (hk : Keeps s₀ s) : Keeps s₀ (State.sample s k n op bad host how compare) := by
  unfold State.sample
  dsimp only [Keeps]
  repeat' first | with_reducible assumption | with_reducible apply State.touchRanges_keeps | with_reducible apply State.jetFault_keeps | with_reducible apply State.noteMalformed_keeps | with_reducible apply State.setTeam_keeps | with_reducible apply State.issue_keeps | with_reducible apply Keeps.ite | dsimp only | (intro _ _ _ _ _) | (intro _ _ _) | (intro _ _) | split

theorem execJSmp_keeps {s₀ : State} (jet : Fin 64) (team : Fin 16) (bad : Bool) (host : List (Nat × Byte)) (s : State) (hk : Keeps s₀ s) : KeepsOut s₀ (execJSmp jet team bad host s) := by
  unfold execJSmp
  repeat' first | with_reducible assumption | with_reducible apply State.sample_keeps | with_reducible apply KeepsOut.next | with_reducible apply KeepsOut.ite | with_reducible apply Keeps.ite | dsimp only | (intro _ _ _ _ _) | (intro _ _ _) | (intro _ _) | split

theorem execJSmpl_keeps {s₀ : State} (jet : Fin 64) (team : Fin 16) (bad : Bool) (host : List (Nat × Byte)) (s : State) (hk : Keeps s₀ s) : KeepsOut s₀ (execJSmpl jet team bad host s) := by
  unfold execJSmpl
  repeat' first | with_reducible assumption | with_reducible apply State.sample_keeps | with_reducible apply KeepsOut.next | with_reducible apply KeepsOut.ite | with_reducible apply Keeps.ite | dsimp only | (intro _ _ _ _ _) | (intro _ _ _) | (intro _ _) | split

theorem execJSmpb_keeps {s₀ : State} (jet : Fin 64) (team : Fin 16) (bad : Bool) (host : List (Nat × Byte)) (s : State) (hk : Keeps s₀ s) : KeepsOut s₀ (execJSmpb jet team bad host s) := by
  unfold execJSmpb
  repeat' first | with_reducible assumption | with_reducible apply State.sample_keeps | with_reducible apply KeepsOut.next | with_reducible apply KeepsOut.ite | with_reducible apply Keeps.ite | dsimp only | (intro _ _ _ _ _) | (intro _ _ _) | (intro _ _) | split

theorem execJSmpg_keeps {s₀ : State} (jet : Fin 64) (team : Fin 16) (bad : Bool) (host : List (Nat × Byte)) (s : State) (hk : Keeps s₀ s) : KeepsOut s₀ (execJSmpg jet team bad host s) := by
  unfold execJSmpg
  repeat' first | with_reducible assumption | with_reducible apply State.sample_keeps | with_reducible apply KeepsOut.next | with_reducible apply KeepsOut.ite | with_reducible apply Keeps.ite | dsimp only | (intro _ _ _ _ _) | (intro _ _ _) | (intro _ _) | split

theorem execJSmpc_keeps {s₀ : State} (jet : Fin 64) (team : Fin 16) (bad : Bool) (host : List (Nat × Byte)) (s : State) (hk : Keeps s₀ s) : KeepsOut s₀ (execJSmpc jet team bad host s) := by
  unfold execJSmpc
  repeat' first | with_reducible assumption | with_reducible apply State.sample_keeps | with_reducible apply KeepsOut.next | with_reducible apply KeepsOut.ite | with_reducible apply Keeps.ite | dsimp only | (intro _ _ _ _ _) | (intro _ _ _) | (intro _ _) | split

theorem execJTfetch_keeps {s₀ : State} (jet : Fin 64) (team : Fin 16) (bad : Bool) (host : List (Nat × Byte)) (s : State) (hk : Keeps s₀ s) : KeepsOut s₀ (execJTfetch jet team bad host s) := by
  unfold execJTfetch
  repeat' first | with_reducible assumption | with_reducible apply State.touchRanges_keeps | with_reducible apply State.jetFault_keeps | with_reducible apply State.noteMalformed_keeps | with_reducible apply State.setTeam_keeps | with_reducible apply State.issue_keeps | with_reducible apply KeepsOut.next | with_reducible apply KeepsOut.ite | with_reducible apply Keeps.ite | dsimp only | (intro _ _ _ _ _) | (intro _ _ _) | (intro _ _) | split

theorem execJTdim_keeps {s₀ : State} (jet : Fin 64) (team : Fin 16) (bad : Bool) (s : State) (hk : Keeps s₀ s) : KeepsOut s₀ (execJTdim jet team bad s) := by
  unfold execJTdim
  repeat' first | with_reducible assumption | with_reducible apply State.setTeam_keeps | with_reducible apply State.issue_keeps | with_reducible apply KeepsOut.next | with_reducible apply KeepsOut.ite | with_reducible apply Keeps.ite | dsimp only | (intro _ _ _ _ _) | (intro _ _ _) | (intro _ _) | split

theorem State.evalJob_keeps {s₀ : State} (s : State) (c sq : Nat) (hk : Keeps s₀ s) : Keeps s₀ (State.evalJob s c sq) := by
  unfold State.evalJob
  dsimp only [Keeps]
  repeat' first | with_reducible assumption | with_reducible apply State.offer_keeps | with_reducible apply State.modJjob_keeps | with_reducible apply State.dlEvent_keeps | with_reducible apply State.missCheck_keeps | with_reducible apply Keeps.ite | dsimp only | (intro _ _ _ _ _) | (intro _ _ _) | (intro _ _) | split

theorem State.suspendFor_keeps {s₀ : State} (s : State) (c sq : Nat) (hk : Keeps s₀ s) : Keeps s₀ (State.suspendFor s c sq) := by
  unfold State.suspendFor
  dsimp only [Keeps]
  repeat' first | with_reducible assumption | with_reducible apply State.offer_keeps | with_reducible apply State.modJjob_keeps | with_reducible apply State.dlEvent_keeps | with_reducible apply State.takeHome_keeps | with_reducible apply State.feed_keeps | with_reducible apply Keeps.ite | dsimp only | (intro _ _ _ _ _) | (intro _ _ _) | (intro _ _) | split

theorem State.lendOne_keeps {s₀ : State} (s : State) (t : Nat × Nat) (k : Nat) (hk : Keeps s₀ s) : Keeps s₀ (State.lendOne s t k) := by
  unfold State.lendOne
  dsimp only [Keeps]
  repeat' first | with_reducible assumption | with_reducible apply State.setJet_keeps | with_reducible apply Keeps.ite | dsimp only | (intro _ _ _ _ _) | (intro _ _ _) | (intro _ _) | split

theorem State.relend_keeps {s₀ : State} (s : State) (hk : Keeps s₀ s) : Keeps s₀ (State.relend s) := by
  unfold State.relend
  dsimp only [Keeps]
  repeat' first | with_reducible assumption | with_reducible apply State.mapJets_keeps | with_reducible apply Keeps.ite | dsimp only | (intro _ _ _ _ _) | (intro _ _ _) | (intro _ _) | split

theorem State.arbiterTick_keeps {s₀ : State} (s : State) (hk : Keeps s₀ s) : Keeps s₀ (State.arbiterTick s) := by
  unfold State.arbiterTick
  dsimp only [Keeps]
  repeat' first | with_reducible assumption | with_reducible apply State.jaSync_keeps | with_reducible apply State.evalJob_keeps | with_reducible apply State.suspendFor_keeps | with_reducible apply State.lendOne_keeps | with_reducible apply State.relend_keeps | with_reducible apply State.each_keeps | with_reducible apply Keeps.ite | dsimp only | (intro _ _ _ _ _) | (intro _ _ _) | (intro _ _) | split

theorem execDeadlineArbiterTick_keeps {s₀ : State} (s : State) (hk : Keeps s₀ s) : KeepsOut s₀ (execDeadlineArbiterTick s) := by
  unfold execDeadlineArbiterTick
  repeat' first | with_reducible assumption | with_reducible apply State.arbiterTick_keeps | with_reducible apply KeepsOut.next | with_reducible apply KeepsOut.ite | with_reducible apply Keeps.ite | dsimp only | (intro _ _ _ _ _) | (intro _ _ _) | (intro _ _) | split

theorem State.preemptArrive_keeps {s₀ : State} (s : State) (k : Nat) (hk : Keeps s₀ s) : Keeps s₀ (State.preemptArrive s k) := by
  unfold State.preemptArrive
  dsimp only [Keeps]
  repeat' first | with_reducible assumption | with_reducible apply State.setJet_keeps | with_reducible apply ran_keeps | with_reducible apply Keeps.ite | dsimp only | (intro _ _ _ _ _) | (intro _ _ _) | (intro _ _) | split | simp only [Keeps, List.length_set, List.length_map, List.length_modify]

theorem execPreemptRequestArrive_keeps {s₀ : State} (jet : Fin 64) (s : State) (hk : Keeps s₀ s) : KeepsOut s₀ (execPreemptRequestArrive jet s) := by
  unfold execPreemptRequestArrive
  repeat' first | with_reducible assumption | with_reducible apply State.preemptArrive_keeps | with_reducible apply KeepsOut.next | with_reducible apply KeepsOut.ite | with_reducible apply Keeps.ite | dsimp only | (intro _ _ _ _ _) | (intro _ _ _) | (intro _ _) | split

theorem State.graceLimit_keeps {s₀ : State} (s : State) (k : Nat) (hk : Keeps s₀ s) : Keeps s₀ (State.graceLimit s k) := by
  unfold State.graceLimit
  dsimp only [Keeps]
  repeat' first | with_reducible assumption | with_reducible apply State.setJet_keeps | with_reducible apply Keeps.ite | dsimp only | (intro _ _ _ _ _) | (intro _ _ _) | (intro _ _) | split | simp only [Keeps, List.length_set, List.length_map, List.length_modify]

theorem execGraceLimit_keeps {s₀ : State} (jet : Fin 64) (s : State) (hk : Keeps s₀ s) : KeepsOut s₀ (execGraceLimit jet s) := by
  unfold execGraceLimit
  repeat' first | with_reducible assumption | with_reducible apply State.graceLimit_keeps | with_reducible apply KeepsOut.next | with_reducible apply KeepsOut.ite | with_reducible apply Keeps.ite | dsimp only | (intro _ _ _ _ _) | (intro _ _ _) | (intro _ _) | split

theorem State.fillSaveSlot_keeps {s₀ : State} (s : State) (j : JetJob) (n w : Nat) (hk : Keeps s₀ s) : Keeps s₀ (State.fillSaveSlot s j n w) := by
  unfold State.fillSaveSlot
  dsimp only [Keeps]
  repeat' first | with_reducible assumption | with_reducible apply State.took_keeps | with_reducible apply State.mergeWrite_keeps | with_reducible apply Keeps.ite | dsimp only | (intro _ _ _ _ _) | (intro _ _ _) | (intro _ _) | split

theorem State.preemptSave_keeps {s₀ : State} (s : State) (k : Nat) (hk : Keeps s₀ s) : Keeps s₀ (State.preemptSave s k) := by
  unfold State.preemptSave
  dsimp only [Keeps]
  repeat' first | with_reducible assumption | with_reducible apply State.setReg_keeps | with_reducible apply State.setFld_keeps | with_reducible apply State.offer_keeps | with_reducible apply State.setJet_keeps | with_reducible apply State.setStr_keeps | with_reducible apply State.jaSync_keeps | with_reducible apply State.dlEvent_keeps | with_reducible apply State.fillSaveSlot_keeps | with_reducible apply ran_keeps | with_reducible apply Keeps.ite | dsimp only | (intro _ _ _ _ _) | (intro _ _ _) | (intro _ _) | split | simp only [Keeps, List.length_set, List.length_map, List.length_modify]

theorem execPreemptSave_keeps {s₀ : State} (jet : Fin 64) (s : State) (hk : Keeps s₀ s) : KeepsOut s₀ (execPreemptSave jet s) := by
  unfold execPreemptSave
  repeat' first | with_reducible assumption | with_reducible apply State.preemptSave_keeps | with_reducible apply KeepsOut.next | with_reducible apply KeepsOut.ite | with_reducible apply Keeps.ite | dsimp only | (intro _ _ _ _ _) | (intro _ _ _) | (intro _ _) | split

theorem State.lentReturn_keeps {s₀ : State} (s : State) (k : Nat) (hk : Keeps s₀ s) : Keeps s₀ (State.lentReturn s k) := by
  unfold State.lentReturn
  dsimp only [Keeps]
  repeat' first | with_reducible assumption | with_reducible apply State.setJet_keeps | with_reducible apply State.jaSync_keeps | with_reducible apply Keeps.ite | dsimp only | (intro _ _ _ _ _) | (intro _ _ _) | (intro _ _) | split

theorem execLentJetReturn_keeps {s₀ : State} (jet : Fin 64) (s : State) (hk : Keeps s₀ s) : KeepsOut s₀ (execLentJetReturn jet s) := by
  unfold execLentJetReturn
  repeat' first | with_reducible assumption | with_reducible apply State.lentReturn_keeps | with_reducible apply KeepsOut.next | with_reducible apply KeepsOut.ite | with_reducible apply Keeps.ite | dsimp only | (intro _ _ _ _ _) | (intro _ _ _) | (intro _ _) | split

theorem State.restore_keeps {s₀ : State} (s : State) (k : Nat) (hk : Keeps s₀ s) : Keeps s₀ (State.restore s k) := by
  unfold State.restore
  dsimp only [Keeps]
  repeat' first | with_reducible assumption | with_reducible apply State.setJet_keeps | with_reducible apply State.setStr_keeps | with_reducible apply State.jaSync_keeps | with_reducible apply State.jetFault_keeps | with_reducible apply Keeps.ite | dsimp only | (intro _ _ _ _ _) | (intro _ _ _) | (intro _ _) | split | simp only [Keeps, List.length_set, List.length_map, List.length_modify]

theorem execResumeRestore_keeps {s₀ : State} (jet : Fin 64) (s : State) (hk : Keeps s₀ s) : KeepsOut s₀ (execResumeRestore jet s) := by
  unfold execResumeRestore
  repeat' first | with_reducible assumption | with_reducible apply State.restore_keeps | with_reducible apply KeepsOut.next | with_reducible apply KeepsOut.ite | with_reducible apply Keeps.ite | dsimp only | (intro _ _ _ _ _) | (intro _ _ _) | (intro _ _) | split

theorem execJetStallTimeout_keeps {s₀ : State} (jet : Fin 64) (s : State) (hk : Keeps s₀ s) : KeepsOut s₀ (execJetStallTimeout jet s) := by
  unfold execJetStallTimeout
  repeat' first | with_reducible assumption | with_reducible apply State.retireJet_keeps | with_reducible apply KeepsOut.next | with_reducible apply KeepsOut.ite | with_reducible apply Keeps.ite | dsimp only | (intro _ _ _ _ _) | (intro _ _ _) | (intro _ _) | split

theorem execJetClockGate_keeps {s₀ : State} (jet : Fin 64) (s : State) (hk : Keeps s₀ s) : KeepsOut s₀ (execJetClockGate jet s) := by
  unfold execJetClockGate
  repeat' first | with_reducible assumption | with_reducible apply State.setJet_keeps | with_reducible apply KeepsOut.next | with_reducible apply KeepsOut.ite | with_reducible apply Keeps.ite | dsimp only | (intro _ _ _ _ _) | (intro _ _ _) | (intro _ _) | split

end Sys2Proof.Machine
end

