-- ==== Sys2Proof/Laws/KeepsDisplay.lean ====
section
/-! SUPPORT. The relation `Keeps` through composers, heads, integrity and check values. -/

set_option linter.unreachableTactic false
set_option linter.unusedTactic false
set_option linter.unusedSimpArgs false

namespace Sys2Proof.Machine

theorem State.setComp_keeps {s₀ : State} (s : State) (c : Nat) (x : Composer) (hk : Keeps s₀ s) : Keeps s₀ (State.setComp s c x) := by
  unfold State.setComp
  dsimp only [Keeps]
  repeat' first | with_reducible assumption | with_reducible apply Keeps.ite | dsimp only | (intro _ _ _ _ _) | (intro _ _ _) | (intro _ _) | split | simp only [Keeps, List.length_set, List.length_map, List.length_modify]

theorem State.setHead_keeps {s₀ : State} (s : State) (n : Nat) (x : Head) (hk : Keeps s₀ s) : Keeps s₀ (State.setHead s n x) := by
  unfold State.setHead
  dsimp only [Keeps]
  repeat' first | with_reducible assumption | with_reducible apply Keeps.ite | dsimp only | (intro _ _ _ _ _) | (intro _ _ _) | (intro _ _) | split | simp only [Keeps, List.length_set, List.length_map, List.length_modify]

theorem State.show_keeps {s₀ : State} (s : State) (c x y w h : Nat) (hk : Keeps s₀ s) : Keeps s₀ (State.show s c x y w h) := by
  unfold State.show
  dsimp only [Keeps]
  repeat' first | with_reducible assumption | with_reducible apply State.setComp_keeps | with_reducible apply Keeps.ite | dsimp only | (intro _ _ _ _ _) | (intro _ _ _) | (intro _ _) | split | simp only [Keeps, List.length_set, List.length_map, List.length_modify]

theorem State.wbWrite_keeps {s₀ : State} (s : State) (a : Nat) (bs : List Byte) (hk : Keeps s₀ s) : Keeps s₀ (State.wbWrite s a bs) := by
  unfold State.wbWrite
  dsimp only [Keeps]
  repeat' first | with_reducible assumption | with_reducible apply State.noteRefusal_keeps | with_reducible apply State.mergeWrite_keeps | with_reducible apply Keeps.ite | dsimp only | (intro _ _ _ _ _) | (intro _ _ _) | (intro _ _) | split

theorem State.wbBlock_keeps {s₀ : State} (s : State) (c f : Nat) (u : Surf) (bx byy : Nat) (hk : Keeps s₀ s) : Keeps s₀ (State.wbBlock s c f u bx byy) := by
  unfold State.wbBlock
  dsimp only [Keeps]
  repeat' first | with_reducible assumption | with_reducible apply State.wbWrite_keeps | (with_reducible refine fst_keeps ‹_› ?_) | (with_reducible refine snd_keeps ‹_› ?_) | with_reducible apply Keeps.ite | dsimp only | (intro _ _ _ _ _) | (intro _ _ _) | (intro _ _) | split | simp only [Keeps, List.length_set, List.length_map, List.length_modify]

theorem State.wbFrame_keeps {s₀ : State} (s0 : State) (c : Nat) (hk : Keeps s₀ s0) : Keeps s₀ (State.wbFrame s0 c) := by
  unfold State.wbFrame
  dsimp only [Keeps]
  repeat' first | with_reducible assumption | with_reducible apply State.show_keeps | with_reducible apply State.wbWrite_keeps | with_reducible apply State.wbBlock_keeps | (with_reducible refine fst_keeps ‹_› ?_) | (with_reducible refine snd_keeps ‹_› ?_) | with_reducible apply State.each_keeps | with_reducible apply Keeps.ite | dsimp only | (intro _ _ _ _ _) | (intro _ _ _) | (intro _ _) | split

theorem State.mirrorEvent_keeps {s₀ : State} (s : State) (n b : Nat) (hk : Keeps s₀ s) : Keeps s₀ (State.mirrorEvent s n b) := by
  unfold State.mirrorEvent
  dsimp only [Keeps]
  repeat' first | with_reducible assumption | with_reducible apply State.setBit_keeps | with_reducible apply State.raiseVec_keeps | with_reducible apply State.each_keeps | with_reducible apply Keeps.ite | dsimp only | (intro _ _ _ _ _) | (intro _ _ _) | (intro _ _) | split

theorem State.headEvent_keeps {s₀ : State} (s : State) (n b : Nat) (hk : Keeps s₀ s) : Keeps s₀ (State.headEvent s n b) := by
  unfold State.headEvent
  dsimp only [Keeps]
  repeat' first | with_reducible assumption | with_reducible apply State.setEvent_keeps | with_reducible apply State.mirrorEvent_keeps | with_reducible apply Keeps.ite | dsimp only | (intro _ _ _ _ _) | (intro _ _ _) | (intro _ _) | split

theorem State.pruneMirrors_keeps {s₀ : State} (s : State) (n : Nat) (hk : Keeps s₀ s) : Keeps s₀ (State.pruneMirrors s n) := by
  unfold State.pruneMirrors
  dsimp only [Keeps]
  repeat' first | with_reducible assumption | with_reducible apply State.setReg_keeps | with_reducible apply State.each_keeps | with_reducible apply Keeps.ite | dsimp only | (intro _ _ _ _ _) | (intro _ _ _) | (intro _ _) | split

theorem State.cmpEvent_keeps {s₀ : State} (s : State) (c b : Nat) (hk : Keeps s₀ s) : Keeps s₀ (State.cmpEvent s c b) := by
  unfold State.cmpEvent
  dsimp only [Keeps]
  repeat' first | with_reducible assumption | with_reducible apply State.setEvent_keeps | with_reducible apply Keeps.ite | dsimp only | (intro _ _ _ _ _) | (intro _ _ _) | (intro _ _) | split

theorem State.sendLatch_keeps {s₀ : State} (s : State) (n t : Nat) (hk : Keeps s₀ s) : Keeps s₀ (State.sendLatch s n t) := by
  unfold State.sendLatch
  dsimp only [Keeps]
  repeat' first | with_reducible assumption | with_reducible apply State.setReg64_keeps | with_reducible apply Keeps.ite | dsimp only | (intro _ _ _ _ _) | (intro _ _ _) | (intro _ _) | split

theorem State.arrive_keeps {s₀ : State} (s : State) (x : Commit) (hk : Keeps s₀ s) : Keeps s₀ (State.arrive s x) := by
  unfold State.arrive
  dsimp only [Keeps]
  repeat' first | with_reducible assumption | with_reducible apply Keeps.ite | dsimp only | (intro _ _ _ _ _) | (intro _ _ _) | (intro _ _) | split

theorem State.reportReject_keeps {s₀ : State} (s : State) (x : Commit) (hk : Keeps s₀ s) : Keeps s₀ (State.reportReject s x) := by
  unfold State.reportReject
  dsimp only [Keeps]
  repeat' first | with_reducible assumption | with_reducible apply State.setReg_keeps | with_reducible apply State.setFld_keeps | with_reducible apply State.setBit_keeps | with_reducible apply State.recordNow_keeps | with_reducible apply State.cmpEvent_keeps | with_reducible apply State.each_keeps | with_reducible apply Keeps.ite | dsimp only | (intro _ _ _ _ _) | (intro _ _ _) | (intro _ _) | split

theorem State.jobArrives_keeps {s₀ : State} (s : State) (c p ctx sq : Nat) (hk : Keeps s₀ s) : Keeps s₀ (State.jobArrives s c p ctx sq) := by
  unfold State.jobArrives
  dsimp only [Keeps]
  repeat' first | with_reducible assumption | with_reducible apply State.endJob_keeps | with_reducible apply State.arrive_keeps | with_reducible apply State.reportReject_keeps | with_reducible apply Keeps.ite | dsimp only | (intro _ _ _ _ _) | (intro _ _ _) | (intro _ _) | split

theorem State.portDrain_keeps {s₀ : State} (s : State) (n : Nat) (hk : Keeps s₀ s) : Keeps s₀ (s.portDrain n) := by
  induction n generalizing s with
  | zero => exact hk
  | succ n ih =>
    unfold State.portDrain
    dsimp only [Keeps]
    repeat' first | with_reducible assumption | with_reducible apply ih | with_reducible apply State.jobArrives_keeps | with_reducible apply Keeps.ite | dsimp only | (intro _ _ _ _ _) | (intro _ _ _) | (intro _ _) | split

theorem State.drainPorts_keeps {s₀ : State} (s : State) (hk : Keeps s₀ s) : Keeps s₀ (State.drainPorts s) := by
  unfold State.drainPorts
  dsimp only [Keeps]
  repeat' first | with_reducible assumption | with_reducible apply State.portDrain_keeps | with_reducible apply Keeps.ite | dsimp only | (intro _ _ _ _ _) | (intro _ _ _) | (intro _ _) | split

theorem execLayerCommit_keeps {s₀ : State} (ctx : Fin 1024) (s : State) (hk : Keeps s₀ s) : KeepsOut s₀ (execLayerCommit ctx s) := by
  unfold execLayerCommit
  repeat' first | with_reducible assumption | with_reducible apply State.markStarted_keeps | with_reducible apply State.drainPorts_keeps | with_reducible apply KeepsOut.next | with_reducible apply KeepsOut.ite | with_reducible apply Keeps.ite | dsimp only | (intro _ _ _ _ _) | (intro _ _ _) | (intro _ _) | split

theorem State.headCommit_keeps {s₀ : State} (s : State) (c : Nat) (group atTime : Bool) (hk : Keeps s₀ s) : Keeps s₀ (State.headCommit s c group atTime) := by
  unfold State.headCommit
  dsimp only [Keeps]
  repeat' first | with_reducible assumption | with_reducible apply State.setBit_keeps | with_reducible apply State.arrive_keeps | with_reducible apply State.reportReject_keeps | with_reducible apply State.each_keeps | with_reducible apply Keeps.ite | dsimp only | (intro _ _ _ _ _) | (intro _ _ _) | (intro _ _) | split

theorem execHeadCommit_keeps {s₀ : State} (composer : Fin 10) (atTime : Bool) (s : State) (hk : Keeps s₀ s) : KeepsOut s₀ (execHeadCommit composer atTime s) := by
  unfold execHeadCommit
  repeat' first | with_reducible assumption | with_reducible apply State.headCommit_keeps | with_reducible apply KeepsOut.next | with_reducible apply KeepsOut.ite | with_reducible apply Keeps.ite | dsimp only | (intro _ _ _ _ _) | (intro _ _ _) | (intro _ _) | split

theorem execGroupCommit_keeps {s₀ : State} (composer : Fin 10) (atTime : Bool) (s : State) (hk : Keeps s₀ s) : KeepsOut s₀ (execGroupCommit composer atTime s) := by
  unfold execGroupCommit
  repeat' first | with_reducible assumption | with_reducible apply State.headCommit_keeps | with_reducible apply KeepsOut.next | with_reducible apply KeepsOut.ite | with_reducible apply Keeps.ite | dsimp only | (intro _ _ _ _ _) | (intro _ _ _) | (intro _ _) | split

theorem State.release_keeps {s₀ : State} (s : State) (t : Nat) (hk : Keeps s₀ s) : Keeps s₀ (State.release s t).1 := by
  unfold State.release
  dsimp only [Keeps]
  repeat' first | with_reducible assumption | with_reducible apply Keeps.ite | dsimp only | (intro _ _ _ _ _) | (intro _ _ _) | (intro _ _) | split | simp only [Keeps, List.length_set, List.length_map, List.length_modify]

theorem State.holdWrite_keeps {s₀ : State} (s : State) (c value : Nat) (hk : Keeps s₀ s) : Keeps s₀ (State.holdWrite s c value) := by
  unfold State.holdWrite
  dsimp only [Keeps]
  repeat' first | with_reducible assumption | with_reducible apply State.setReg_keeps | with_reducible apply State.setBit_keeps | with_reducible apply State.setComp_keeps | with_reducible apply State.release_keeps | with_reducible apply Keeps.ite | dsimp only | (intro _ _ _ _ _) | (intro _ _ _) | (intro _ _) | split

theorem execCmpHoldWrite_keeps {s₀ : State} (composer : Fin 10) (value : Nat) (s : State) (hk : Keeps s₀ s) : KeepsOut s₀ (execCmpHoldWrite composer value s) := by
  unfold execCmpHoldWrite
  repeat' first | with_reducible assumption | with_reducible apply State.holdWrite_keeps | with_reducible apply KeepsOut.next | with_reducible apply KeepsOut.ite | with_reducible apply Keeps.ite | dsimp only | (intro _ _ _ _ _) | (intro _ _ _) | (intro _ _) | split

theorem State.holdLatch_keeps {s₀ : State} (s : State) (c : Nat) (hk : Keeps s₀ s) : Keeps s₀ (State.holdLatch s c) := by
  unfold State.holdLatch
  dsimp only [Keeps]
  repeat' first | with_reducible assumption | with_reducible apply State.setBit_keeps | with_reducible apply State.offer_keeps | with_reducible apply State.setComp_keeps | with_reducible apply State.cmpEvent_keeps | with_reducible apply State.release_keeps | (with_reducible refine fst_keeps ‹_› ?_) | (with_reducible refine snd_keeps ‹_› ?_) | with_reducible apply Keeps.ite | dsimp only | (intro _ _ _ _ _) | (intro _ _ _) | (intro _ _) | split

theorem State.latchOne_keeps {s₀ : State} (s : State) (n : Nat) (x : Commit) (hk : Keeps s₀ s) : Keeps s₀ (State.latchOne s n x) := by
  unfold State.latchOne
  dsimp only [Keeps]
  repeat' first | with_reducible assumption | with_reducible apply State.reportReject_keeps | (with_reducible refine fst_keeps ‹_› ?_) | (with_reducible refine snd_keeps ‹_› ?_) | with_reducible apply Keeps.ite | dsimp only | (intro _ _ _ _ _) | (intro _ _ _) | (intro _ _) | split | simp only [Keeps, List.length_set, List.length_map, List.length_modify]

theorem State.latchKind_keeps {s₀ : State} (s : State) (n c kind : Nat) (hk : Keeps s₀ s) : Keeps s₀ (State.latchKind s n c kind) := by
  unfold State.latchKind
  dsimp only [Keeps]
  repeat' first | with_reducible assumption | with_reducible apply State.latchOne_keeps | with_reducible apply State.each_keeps | with_reducible apply Keeps.ite | dsimp only | (intro _ _ _ _ _) | (intro _ _ _) | (intro _ _) | split

theorem State.latchComp_keeps {s₀ : State} (s0 : State) (n c : Nat) (hk : Keeps s₀ s0) : Keeps s₀ (State.latchComp s0 n c) := by
  unfold State.latchComp
  dsimp only [Keeps]
  repeat' first | with_reducible assumption | with_reducible apply State.holdLatch_keeps | with_reducible apply State.latchKind_keeps | with_reducible apply Keeps.ite | dsimp only | (intro _ _ _ _ _) | (intro _ _ _) | (intro _ _) | split | simp only [Keeps, List.length_set, List.length_map, List.length_modify]

theorem State.latchLine_keeps {s₀ : State} (s : State) (n : Nat) (hk : Keeps s₀ s) : Keeps s₀ (State.latchLine s n) := by
  unfold State.latchLine
  dsimp only [Keeps]
  repeat' first | with_reducible assumption | with_reducible apply State.setHead_keeps | with_reducible apply State.sendLatch_keeps | with_reducible apply State.drainPorts_keeps | with_reducible apply State.holdLatch_keeps | with_reducible apply State.latchComp_keeps | with_reducible apply State.each_keeps | with_reducible apply Keeps.ite | dsimp only | (intro _ _ _ _ _) | (intro _ _ _) | (intro _ _) | split

theorem execLatchLine_keeps {s₀ : State} (head : Fin 8) (s : State) (hk : Keeps s₀ s) : KeepsOut s₀ (execLatchLine head s) := by
  unfold execLatchLine
  repeat' first | with_reducible assumption | with_reducible apply State.latchLine_keeps | with_reducible apply KeepsOut.next | with_reducible apply KeepsOut.ite | with_reducible apply Keeps.ite | dsimp only | (intro _ _ _ _ _) | (intro _ _ _) | (intro _ _) | split

theorem State.applyWords_keeps {s₀ : State} (s : State) (ws : List (Nat × Nat)) (hk : Keeps s₀ s) : Keeps s₀ (State.applyWords s ws) := by
  unfold State.applyWords
  dsimp only [Keeps]
  repeat' first | with_reducible assumption | with_reducible apply State.setReg_keeps | with_reducible apply State.each_keeps | with_reducible apply Keeps.ite | dsimp only | (intro _ _ _ _ _) | (intro _ _ _) | (intro _ _) | split

theorem State.noteLate_keeps {s₀ : State} (s : State) (n c pad frames : Nat) (hk : Keeps s₀ s) : Keeps s₀ (State.noteLate s n c pad frames) := by
  unfold State.noteLate
  dsimp only [Keeps]
  repeat' first | with_reducible assumption | with_reducible apply State.setBit_keeps | with_reducible apply State.count_keeps | with_reducible apply State.recordNow_keeps | with_reducible apply State.headEvent_keeps | with_reducible apply Keeps.ite | dsimp only | (intro _ _ _ _ _) | (intro _ _ _) | (intro _ _) | split

theorem State.discardLayer_keeps {s₀ : State} (s : State) (c l : Nat) (hk : Keeps s₀ s) : Keeps s₀ (State.discardLayer s c l) := by
  unfold State.discardLayer
  dsimp only [Keeps]
  repeat' first | with_reducible assumption | with_reducible apply State.setReg_keeps | with_reducible apply State.each_keeps | with_reducible apply Keeps.ite | dsimp only | (intro _ _ _ _ _) | (intro _ _ _) | (intro _ _) | split | simp only [Keeps, List.length_set, List.length_map, List.length_modify]

theorem State.applyGrant_keeps {s₀ : State} (s : State) (g : LayerChange) (hk : Keeps s₀ s) : Keeps s₀ (State.applyGrant s g) := by
  unfold State.applyGrant
  dsimp only [Keeps]
  repeat' first | with_reducible assumption | with_reducible apply State.setBit_keeps | with_reducible apply State.discardLayer_keeps | with_reducible apply Keeps.ite | dsimp only | (intro _ _ _ _ _) | (intro _ _ _) | (intro _ _) | split

theorem State.applyGrants_keeps {s₀ : State} (s : State) (c : Nat) (hk : Keeps s₀ s) : Keeps s₀ (State.applyGrants s c) := by
  unfold State.applyGrants
  dsimp only [Keeps]
  repeat' first | with_reducible assumption | with_reducible apply State.applyGrant_keeps | with_reducible apply State.each_keeps | with_reducible apply Keeps.ite | dsimp only | (intro _ _ _ _ _) | (intro _ _ _) | (intro _ _) | split | simp only [Keeps, List.length_set, List.length_map, List.length_modify]

theorem imHead_checks {s₀ s : State} (h : Keeps s₀ s) (n : Nat) (w : s₀.sized) : (s.imHead n).checks.length = 19 := by
  have hh := (h.ims w).2
  unfold State.imHead
  by_cases hn : n < s.im.heads.length
  · rw [List.getD_eq_getElem _ _ hn]
    exact hh _ (List.getElem_mem hn)
  · rw [List.getD_eq_default _ _ (by omega)]
    rfl

theorem State.setImHead_keeps {s₀ : State} (s : State) (n : Nat) (x : ImHead) (hx : s₀.sized → x.checks.length = 19)
    (hk : Keeps s₀ s) : Keeps s₀ (State.setImHead s n x) := by
  refine ⟨hk.queue, hk.fuses, hk.mem, hk.sizes, fun w => ?_⟩
  obtain ⟨a, b⟩ := hk.ims w
  refine ⟨by simpa [State.setImHead] using a, fun h hm => ?_⟩
  rcases List.mem_or_eq_of_mem_set hm with hm | rfl
  · exact b h hm
  · exact hx w

theorem State.aliveChange_keeps {s₀ : State} (s : State) (n old : Nat) (hk : Keeps s₀ s) : Keeps s₀ (State.aliveChange s n old) := by
  unfold State.aliveChange
  split
  · exact hk
  · exact State.setImHead_keeps s n { s.imHead n with stale := 0, staleTripped := false, fresh := true } (imHead_checks hk n) hk

theorem State.markApplied_keeps {s₀ : State} (s : State) (c : Nat) (hk : Keeps s₀ s) : Keeps s₀ (State.markApplied s c) := by
  unfold State.markApplied
  dsimp only [Keeps]
  repeat' first | with_reducible assumption | with_reducible apply State.setHead_keeps | with_reducible apply Keeps.ite | dsimp only | (intro _ _ _ _ _) | (intro _ _ _) | (intro _ _) | split

theorem State.applyCommit_keeps {s₀ : State} (s : State) (c : Nat) (x : Commit) (hk : Keeps s₀ s) : Keeps s₀ (State.applyCommit s c x) := by
  unfold State.applyCommit
  dsimp only [Keeps]
  repeat' first | with_reducible assumption | with_reducible apply State.setFld_keeps | with_reducible apply State.setBit_keeps | with_reducible apply State.count_keeps | with_reducible apply State.modJob_keeps | with_reducible apply State.endJob_keeps | with_reducible apply State.applyWords_keeps | with_reducible apply State.noteLate_keeps | with_reducible apply State.aliveChange_keeps | with_reducible apply State.markApplied_keeps | with_reducible apply Keeps.ite | dsimp only | (intro _ _ _ _ _) | (intro _ _ _) | (intro _ _) | split

theorem State.applyCommits_keeps {s₀ : State} (s : State) (c : Nat) (hk : Keeps s₀ s) : Keeps s₀ (State.applyCommits s c) := by
  unfold State.applyCommits
  dsimp only [Keeps]
  repeat' first | with_reducible assumption | with_reducible apply State.applyCommit_keeps | with_reducible apply State.each_keeps | with_reducible apply Keeps.ite | dsimp only | (intro _ _ _ _ _) | (intro _ _ _) | (intro _ _) | split

theorem State.reqAt_keeps {s₀ : State} (s : State) (n k t : Nat) (hk : Keeps s₀ s) : Keeps s₀ (State.reqAt s n k t) := by
  unfold State.reqAt
  dsimp only [Keeps]
  repeat' first | with_reducible assumption | with_reducible apply Keeps.ite | dsimp only | (intro _ _ _ _ _) | (intro _ _ _) | (intro _ _) | split | simp only [Keeps, List.length_set, List.length_map, List.length_modify]

theorem State.repeatCheck_keeps {s₀ : State} (s : State) (n k : Nat) (hk : Keeps s₀ s) : Keeps s₀ (State.repeatCheck s n k) := by
  unfold State.repeatCheck
  dsimp only [Keeps]
  repeat' first | with_reducible assumption | with_reducible apply State.setBit_keeps | with_reducible apply State.count_keeps | with_reducible apply State.offerRate_keeps | with_reducible apply State.headEvent_keeps | with_reducible apply Keeps.ite | dsimp only | (intro _ _ _ _ _) | (intro _ _ _) | (intro _ _) | split

theorem State.lutWrite_keeps {s₀ : State} (s : State) (c value : Nat) (hk : Keeps s₀ s) : Keeps s₀ (State.lutWrite s c value) := by
  unfold State.lutWrite
  dsimp only [Keeps]
  repeat' first | with_reducible assumption | with_reducible apply State.lutStore_keeps | with_reducible apply State.offer_keeps | with_reducible apply State.cmpEvent_keeps | with_reducible apply Keeps.ite | dsimp only | (intro _ _ _ _ _) | (intro _ _ _) | (intro _ _) | split

theorem execCmpLutDataWrite_keeps {s₀ : State} (composer : Fin 10) (value : Nat) (s : State) (hk : Keeps s₀ s) : KeepsOut s₀ (execCmpLutDataWrite composer value s) := by
  unfold execCmpLutDataWrite
  repeat' first | with_reducible assumption | with_reducible apply State.lutWrite_keeps | with_reducible apply KeepsOut.next | with_reducible apply KeepsOut.ite | with_reducible apply Keeps.ite | dsimp only | (intro _ _ _ _ _) | (intro _ _ _) | (intro _ _) | split

theorem State.cmpCtrl_keeps {s₀ : State} (s : State) (c value : Nat) (hk : Keeps s₀ s) : Keeps s₀ (State.cmpCtrl s c value) := by
  unfold State.cmpCtrl
  dsimp only [Keeps]
  repeat' first | with_reducible assumption | with_reducible apply State.setReg_keeps | with_reducible apply State.setBit_keeps | with_reducible apply State.ungate_keeps | with_reducible apply Keeps.ite | dsimp only | (intro _ _ _ _ _) | (intro _ _ _) | (intro _ _) | split

theorem execCmpCtrlWrite_keeps {s₀ : State} (composer : Fin 10) (value : Nat) (s : State) (hk : Keeps s₀ s) : KeepsOut s₀ (execCmpCtrlWrite composer value s) := by
  unfold execCmpCtrlWrite
  repeat' first | with_reducible assumption | with_reducible apply State.cmpCtrl_keeps | with_reducible apply KeepsOut.next | with_reducible apply KeepsOut.ite | with_reducible apply Keeps.ite | dsimp only | (intro _ _ _ _ _) | (intro _ _ _) | (intro _ _) | split



theorem State.setChk_keeps {s₀ : State} (s : State) (n i : Nat) (x : Check) (hk : Keeps s₀ s) : Keeps s₀ (State.setChk s n i x) := by
  unfold State.setChk
  exact State.setImHead_keeps _ _ _ (fun w => by simpa using imHead_checks hk n w) hk

theorem State.imEvent0_keeps {s₀ : State} (s : State) (b : Nat) (hk : Keeps s₀ s) : Keeps s₀ (State.imEvent0 s b) := by
  unfold State.imEvent0
  dsimp only [Keeps]
  repeat' first | with_reducible assumption | with_reducible apply State.setEvent_keeps | with_reducible apply Keeps.ite | dsimp only | (intro _ _ _ _ _) | (intro _ _ _) | (intro _ _) | split

theorem State.imEvent_keeps {s₀ : State} (s : State) (n b : Nat) (hk : Keeps s₀ s) : Keeps s₀ (State.imEvent s n b) := by
  unfold State.imEvent
  dsimp only [Keeps]
  repeat' first | with_reducible assumption | with_reducible apply State.setBit_keeps | with_reducible apply State.raiseVec_keeps | with_reducible apply State.imEvent0_keeps | with_reducible apply Keeps.ite | dsimp only | (intro _ _ _ _ _) | (intro _ _ _) | (intro _ _) | split

theorem State.imSync_keeps {s₀ : State} (s : State) (n : Nat) (hk : Keeps s₀ s) : Keeps s₀ (State.imSync s n) := by
  unfold State.imSync
  dsimp only [Keeps]
  repeat' first | with_reducible assumption | with_reducible apply State.setReg_keeps | with_reducible apply State.setBit_keeps | with_reducible apply Keeps.ite | dsimp only | (intro _ _ _ _ _) | (intro _ _ _) | (intro _ _) | split | simp only [Keeps, List.length_set, List.length_map, List.length_modify]

theorem State.trip_keeps {s₀ : State} (s : State) (n i r : Nat) (now : Bool) (hk : Keeps s₀ s) : Keeps s₀ (State.trip s n i r now) := by
  unfold State.trip
  dsimp only [Keeps]
  repeat' first | with_reducible assumption | with_reducible apply State.setBit_keeps | with_reducible apply State.offer_keeps | with_reducible apply State.mgrIrqSticky_keeps | with_reducible apply State.setChk_keeps | with_reducible apply Keeps.ite | dsimp only | (intro _ _ _ _ _) | (intro _ _ _) | (intro _ _) | split

theorem State.endReaction_keeps {s₀ : State} (s : State) (n i how : Nat) (hk : Keeps s₀ s) : Keeps s₀ (State.endReaction s n i how) := by
  unfold State.endReaction
  dsimp only [Keeps]
  repeat' first | with_reducible assumption | with_reducible apply State.setBit_keeps | with_reducible apply State.offer_keeps | with_reducible apply State.mgrIrqSticky_keeps | with_reducible apply State.setChk_keeps | with_reducible apply Keeps.ite | dsimp only | (intro _ _ _ _ _) | (intro _ _ _) | (intro _ _) | split

theorem State.failFrame_keeps {s₀ : State} (s : State) (n i threshold reaction : Nat) (hk : Keeps s₀ s) : Keeps s₀ (State.failFrame s n i threshold reaction) := by
  unfold State.failFrame
  dsimp only [Keeps]
  repeat' first | with_reducible assumption | with_reducible apply State.count_keeps | with_reducible apply State.setChk_keeps | with_reducible apply State.trip_keeps | with_reducible apply Keeps.ite | dsimp only | (intro _ _ _ _ _) | (intro _ _ _) | (intro _ _) | split

theorem State.passFrame_keeps {s₀ : State} (s : State) (n i : Nat) (hk : Keeps s₀ s) : Keeps s₀ (State.passFrame s n i) := by
  unfold State.passFrame
  dsimp only [Keeps]
  repeat' first | with_reducible assumption | with_reducible apply State.setChk_keeps | with_reducible apply Keeps.ite | dsimp only | (intro _ _ _ _ _) | (intro _ _ _) | (intro _ _) | split

theorem State.regionFinal_keeps {s₀ : State} (s : State) (n k : Nat) (hk : Keeps s₀ s) : Keeps s₀ (State.regionFinal s n k) := by
  unfold State.regionFinal
  dsimp only [Keeps]
  repeat' first | with_reducible assumption | with_reducible apply State.setReg_keeps | with_reducible apply State.offerRate_keeps | with_reducible apply State.show_keeps | with_reducible apply State.imEvent_keeps | with_reducible apply State.failFrame_keeps | with_reducible apply State.passFrame_keeps | (with_reducible refine fst_keeps ‹_› ?_) | (with_reducible refine snd_keeps ‹_› ?_) | with_reducible apply Keeps.ite | dsimp only | (intro _ _ _ _ _) | (intro _ _ _) | (intro _ _) | split

theorem execRegionSignatureFinal_keeps {s₀ : State} (head : Fin 8) (region : Fin 16) (s : State) (hk : Keeps s₀ s) : KeepsOut s₀ (execRegionSignatureFinal head region s) := by
  unfold execRegionSignatureFinal
  repeat' first | with_reducible assumption | with_reducible apply State.regionFinal_keeps | with_reducible apply KeepsOut.next | with_reducible apply KeepsOut.ite | with_reducible apply Keeps.ite | dsimp only | (intro _ _ _ _ _) | (intro _ _ _) | (intro _ _) | split

theorem State.judge_keeps {s₀ : State} (s : State) (n bits : Nat) (hk : Keeps s₀ s) : Keeps s₀ (State.judge s n bits) := by
  unfold State.judge
  dsimp only [Keeps]
  repeat' first | with_reducible assumption | with_reducible apply State.offerRate_keeps | with_reducible apply State.imEvent_keeps | with_reducible apply State.failFrame_keeps | with_reducible apply State.passFrame_keeps | with_reducible apply Keeps.ite | dsimp only | (intro _ _ _ _ _) | (intro _ _ _) | (intro _ _) | split

theorem State.safetyFinal_keeps {s₀ : State} (s : State) (n : Nat) (faults : List (Nat × Byte)) (hk : Keeps s₀ s) : Keeps s₀ (State.safetyFinal s n faults) := by
  unfold State.safetyFinal
  dsimp only [Keeps]
  repeat' first | with_reducible assumption | with_reducible apply State.setReg_keeps | with_reducible apply State.judge_keeps | with_reducible apply Keeps.ite | dsimp only | (intro _ _ _ _ _) | (intro _ _ _) | (intro _ _) | split

theorem execSafetySignatureFinal_keeps {s₀ : State} (head : Fin 8) (faults : List (Nat × Byte)) (s : State) (hk : Keeps s₀ s) : KeepsOut s₀ (execSafetySignatureFinal head faults s) := by
  unfold execSafetySignatureFinal
  repeat' first | with_reducible assumption | with_reducible apply State.safetyFinal_keeps | with_reducible apply KeepsOut.next | with_reducible apply KeepsOut.ite | with_reducible apply Keeps.ite | dsimp only | (intro _ _ _ _ _) | (intro _ _ _) | (intro _ _) | split

theorem State.fbCheck_keeps {s₀ : State} (s : State) (n i : Nat) (hk : Keeps s₀ s) : Keeps s₀ (State.fbCheck s n i) := by
  unfold State.fbCheck
  dsimp only [Keeps]
  repeat' first | with_reducible assumption | with_reducible apply State.setBit_keeps | with_reducible apply State.offer_keeps | with_reducible apply State.imEvent_keeps | with_reducible apply State.trip_keeps | with_reducible apply Keeps.ite | dsimp only | (intro _ _ _ _ _) | (intro _ _ _) | (intro _ _) | split

theorem execFallbackCheck_keeps {s₀ : State} (head : Fin 8) (s : State) (hk : Keeps s₀ s) : KeepsOut s₀ (execFallbackCheck head s) := by
  unfold execFallbackCheck
  repeat' first | with_reducible assumption | with_reducible apply State.fbCheck_keeps | with_reducible apply State.each_keeps | with_reducible apply KeepsOut.next | with_reducible apply KeepsOut.ite | with_reducible apply Keeps.ite | dsimp only | (intro _ _ _ _ _) | (intro _ _ _) | (intro _ _) | split

theorem State.staleStep_keeps {s₀ : State} (s : State) (n : Nat) (hk : Keeps s₀ s) : Keeps s₀ (State.staleStep s n) := by
  unfold State.staleStep
  dsimp only [Keeps]
  repeat' first | with_reducible assumption | with_reducible apply State.count_keeps | with_reducible apply State.offer_keeps | (intro w; try dsimp only; with_reducible refine imHead_checks ?_ _ w) | with_reducible apply State.setImHead_keeps | with_reducible apply State.setChk_keeps | with_reducible apply State.imEvent_keeps | with_reducible apply State.trip_keeps | with_reducible apply State.passFrame_keeps | with_reducible apply Keeps.ite | dsimp only | (intro _ _ _ _ _) | (intro _ _ _) | (intro _ _) | split

theorem State.reactStep_keeps {s₀ : State} (s : State) (n : Nat) (staleNow : Bool) (hk : Keeps s₀ s) : Keeps s₀ (State.reactStep s n staleNow) := by
  unfold State.reactStep
  dsimp only [Keeps]
  repeat' first | with_reducible assumption | with_reducible apply State.offer_keeps | (intro w; try dsimp only; with_reducible refine imHead_checks ?_ _ w) | with_reducible apply State.setImHead_keeps | with_reducible apply State.setChk_keeps | with_reducible apply State.imEvent_keeps | with_reducible apply State.trip_keeps | with_reducible apply State.endReaction_keeps | with_reducible apply State.each_keeps | with_reducible apply Keeps.ite | dsimp only | (intro _ _ _ _ _) | (intro _ _ _) | (intro _ _) | split

theorem State.imFrame_keeps {s₀ : State} (s : State) (n : Nat) (hk : Keeps s₀ s) : Keeps s₀ (State.imFrame s n) := by
  unfold State.imFrame
  dsimp only [Keeps]
  repeat' first | with_reducible assumption | (intro w; try dsimp only; with_reducible refine imHead_checks ?_ _ w) | with_reducible apply State.setImHead_keeps | with_reducible apply State.imSync_keeps | with_reducible apply State.judge_keeps | with_reducible apply State.fbCheck_keeps | with_reducible apply State.staleStep_keeps | with_reducible apply State.reactStep_keeps | with_reducible apply State.each_keeps | with_reducible apply Keeps.ite | dsimp only | (intro _ _ _ _ _) | (intro _ _ _) | (intro _ _) | split

theorem execImClear_keeps {s₀ : State} (head : Fin 8) (value : Nat) (s : State) (hk : Keeps s₀ s) : KeepsOut s₀ (execImClear head value s) := by
  unfold execImClear
  repeat' first | with_reducible assumption | (intro w; try dsimp only; with_reducible refine imHead_checks ?_ _ w) | with_reducible apply State.setImHead_keeps | with_reducible apply KeepsOut.next | with_reducible apply KeepsOut.ite | with_reducible apply Keeps.ite | dsimp only | (intro _ _ _ _ _) | (intro _ _ _) | (intro _ _) | split

theorem State.setPanel_keeps {s₀ : State} (s : State) (n st : Nat) (hk : Keeps s₀ s) : Keeps s₀ (State.setPanel s n st) := by
  unfold State.setPanel
  dsimp only [Keeps]
  repeat' first | with_reducible assumption | with_reducible apply State.setFld_keeps | with_reducible apply Keeps.ite | dsimp only | (intro _ _ _ _ _) | (intro _ _ _) | (intro _ _) | split

theorem State.setLink_keeps {s₀ : State} (s : State) (n st : Nat) (hk : Keeps s₀ s) : Keeps s₀ (State.setLink s n st) := by
  unfold State.setLink
  dsimp only [Keeps]
  repeat' first | with_reducible assumption | with_reducible apply State.setFld_keeps | with_reducible apply Keeps.ite | dsimp only | (intro _ _ _ _ _) | (intro _ _ _) | (intro _ _) | split

theorem State.driveVdd_keeps {s₀ : State} (s : State) (n : Nat) (on : Bool) (hk : Keeps s₀ s) : Keeps s₀ (State.driveVdd s n on) := by
  unfold State.driveVdd
  dsimp only [Keeps]
  repeat' first | with_reducible assumption | with_reducible apply State.emitOn_keeps | with_reducible apply State.setHead_keeps | with_reducible apply Keeps.ite | dsimp only | (intro _ _ _ _ _) | (intro _ _ _) | (intro _ _) | split

theorem State.drivePwm_keeps {s₀ : State} (s : State) (n : Nat) (hk : Keeps s₀ s) : Keeps s₀ (State.drivePwm s n) := by
  unfold State.drivePwm
  dsimp only [Keeps]
  repeat' first | with_reducible assumption | with_reducible apply State.emitOn_keeps | with_reducible apply Keeps.ite | dsimp only | (intro _ _ _ _ _) | (intro _ _ _) | (intro _ _) | split

theorem State.driveBl_keeps {s₀ : State} (s : State) (n : Nat) (on : Bool) (hk : Keeps s₀ s) : Keeps s₀ (State.driveBl s n on) := by
  unfold State.driveBl
  dsimp only [Keeps]
  repeat' first | with_reducible assumption | with_reducible apply State.emitOn_keeps | with_reducible apply State.setHead_keeps | with_reducible apply State.drivePwm_keeps | with_reducible apply Keeps.ite | dsimp only | (intro _ _ _ _ _) | (intro _ _ _) | (intro _ _) | split

theorem State.train_keeps {s₀ : State} (s : State) (n : Nat) (hk : Keeps s₀ s) : Keeps s₀ (State.train s n) := by
  unfold State.train
  dsimp only [Keeps]
  repeat' first | with_reducible assumption | with_reducible apply State.setBit_keeps | with_reducible apply State.setPanel_keeps | with_reducible apply State.setLink_keeps | with_reducible apply Keeps.ite | dsimp only | (intro _ _ _ _ _) | (intro _ _ _) | (intro _ _) | split

theorem State.linkOff_keeps {s₀ : State} (s : State) (n : Nat) (hk : Keeps s₀ s) : Keeps s₀ (State.linkOff s n) := by
  unfold State.linkOff
  dsimp only [Keeps]
  repeat' first | with_reducible assumption | with_reducible apply State.setReg_keeps | with_reducible apply State.setBit_keeps | with_reducible apply Keeps.ite | dsimp only | (intro _ _ _ _ _) | (intro _ _ _) | (intro _ _) | split

theorem State.panelOn_keeps {s₀ : State} (s : State) (n : Nat) (hk : Keeps s₀ s) : Keeps s₀ (State.panelOn s n) := by
  unfold State.panelOn
  dsimp only [Keeps]
  repeat' first | with_reducible assumption | with_reducible apply State.setHead_keeps | with_reducible apply State.setPanel_keeps | with_reducible apply State.driveVdd_keeps | with_reducible apply State.train_keeps | with_reducible apply Keeps.ite | dsimp only | (intro _ _ _ _ _) | (intro _ _ _) | (intro _ _) | split

theorem State.panelCool_keeps {s₀ : State} (s : State) (n : Nat) (hk : Keeps s₀ s) : Keeps s₀ (State.panelCool s n) := by
  unfold State.panelCool
  dsimp only [Keeps]
  repeat' first | with_reducible assumption | with_reducible apply State.setPanel_keeps | with_reducible apply State.driveVdd_keeps | with_reducible apply State.driveBl_keeps | with_reducible apply Keeps.ite | dsimp only | (intro _ _ _ _ _) | (intro _ _ _) | (intro _ _) | split

theorem State.panelOff_keeps {s₀ : State} (s : State) (n : Nat) (hk : Keeps s₀ s) : Keeps s₀ (State.panelOff s n) := by
  unfold State.panelOff
  dsimp only [Keeps]
  repeat' first | with_reducible assumption | with_reducible apply State.setHead_keeps | with_reducible apply State.setPanel_keeps | with_reducible apply State.driveVdd_keeps | with_reducible apply State.driveBl_keeps | with_reducible apply Keeps.ite | dsimp only | (intro _ _ _ _ _) | (intro _ _ _) | (intro _ _) | split

theorem State.waitCommits_keeps {s₀ : State} (s : State) (n : Nat) (hk : Keeps s₀ s) : Keeps s₀ (State.waitCommits s n) := by
  unfold State.waitCommits
  dsimp only [Keeps]
  repeat' first | with_reducible assumption | with_reducible apply Keeps.ite | dsimp only | (intro _ _ _ _ _) | (intro _ _ _) | (intro _ _) | split | simp only [Keeps, List.length_set, List.length_map, List.length_modify]

theorem State.startHead_keeps {s₀ : State} (s : State) (n : Nat) (hk : Keeps s₀ s) : Keeps s₀ (State.startHead s n) := by
  unfold State.startHead
  dsimp only [Keeps]
  repeat' first | with_reducible assumption | with_reducible apply State.setBit_keeps | with_reducible apply State.setHead_keeps | with_reducible apply State.train_keeps | with_reducible apply State.panelOn_keeps | with_reducible apply Keeps.ite | dsimp only | (intro _ _ _ _ _) | (intro _ _ _) | (intro _ _) | split

theorem State.genChange_keeps {s₀ : State} (s : State) (n st : Nat) (e : Int) (hk : Keeps s₀ s) : Keeps s₀ (State.genChange s n st e) := by
  unfold State.genChange
  dsimp only [Keeps]
  repeat' first | with_reducible assumption | with_reducible apply State.setFld_keeps | with_reducible apply State.offer_keeps | with_reducible apply State.headEvent_keeps | with_reducible apply Keeps.ite | dsimp only | (intro _ _ _ _ _) | (intro _ _ _) | (intro _ _) | split

theorem State.stopGen_keeps {s₀ : State} (s : State) (n : Nat) (hk : Keeps s₀ s) : Keeps s₀ (State.stopGen s n) := by
  unfold State.stopGen
  dsimp only [Keeps]
  repeat' first | with_reducible assumption | with_reducible apply State.setReg_keeps | with_reducible apply State.setFld_keeps | with_reducible apply State.setBit_keeps | with_reducible apply State.setHead_keeps | with_reducible apply State.sendLatch_keeps | with_reducible apply State.linkOff_keeps | with_reducible apply State.waitCommits_keeps | with_reducible apply State.genChange_keeps | with_reducible apply Keeps.ite | dsimp only | (intro _ _ _ _ _) | (intro _ _ _) | (intro _ _) | split

theorem State.hdCtrl_keeps {s₀ : State} (s : State) (n value : Nat) (hk : Keeps s₀ s) : Keeps s₀ (State.hdCtrl s n value) := by
  unfold State.hdCtrl
  dsimp only [Keeps]
  repeat' first | with_reducible assumption | with_reducible apply State.setReg_keeps | with_reducible apply State.ungate_keeps | with_reducible apply State.setHead_keeps | with_reducible apply State.panelOff_keeps | with_reducible apply State.startHead_keeps | with_reducible apply Keeps.ite | dsimp only | (intro _ _ _ _ _) | (intro _ _ _) | (intro _ _) | split

theorem execHdCtrlWrite_keeps {s₀ : State} (head : Fin 8) (value : Nat) (s : State) (hk : Keeps s₀ s) : KeepsOut s₀ (execHdCtrlWrite head value s) := by
  unfold execHdCtrlWrite
  repeat' first | with_reducible assumption | with_reducible apply State.hdCtrl_keeps | with_reducible apply KeepsOut.next | with_reducible apply KeepsOut.ite | with_reducible apply Keeps.ite | dsimp only | (intro _ _ _ _ _) | (intro _ _ _) | (intro _ _) | split

theorem State.panelCtrl_keeps {s₀ : State} (s : State) (n value : Nat) (hk : Keeps s₀ s) : Keeps s₀ (State.panelCtrl s n value) := by
  unfold State.panelCtrl
  dsimp only [Keeps]
  repeat' first | with_reducible assumption | with_reducible apply State.setReg_keeps | with_reducible apply State.setPanel_keeps | with_reducible apply State.driveBl_keeps | with_reducible apply State.panelOn_keeps | with_reducible apply State.panelOff_keeps | with_reducible apply Keeps.ite | dsimp only | (intro _ _ _ _ _) | (intro _ _ _) | (intro _ _) | split

theorem execPanelPowerOn_keeps {s₀ : State} (head : Fin 8) (s : State) (hk : Keeps s₀ s) : KeepsOut s₀ (execPanelPowerOn head s) := by
  unfold execPanelPowerOn
  repeat' first | with_reducible assumption | with_reducible apply State.panelCtrl_keeps | with_reducible apply KeepsOut.next | with_reducible apply KeepsOut.ite | with_reducible apply Keeps.ite | dsimp only | (intro _ _ _ _ _) | (intro _ _ _) | (intro _ _) | split

theorem execPanelPowerOff_keeps {s₀ : State} (head : Fin 8) (s : State) (hk : Keeps s₀ s) : KeepsOut s₀ (execPanelPowerOff head s) := by
  unfold execPanelPowerOff
  repeat' first | with_reducible assumption | with_reducible apply State.panelCtrl_keeps | with_reducible apply KeepsOut.next | with_reducible apply KeepsOut.ite | with_reducible apply Keeps.ite | dsimp only | (intro _ _ _ _ _) | (intro _ _ _) | (intro _ _) | split

theorem execPanelHpdTimeout_keeps {s₀ : State} (head : Fin 8) (s : State) (hk : Keeps s₀ s) : KeepsOut s₀ (execPanelHpdTimeout head s) := by
  unfold execPanelHpdTimeout
  repeat' first | with_reducible assumption | with_reducible apply State.offer_keeps | with_reducible apply State.headEvent_keeps | with_reducible apply State.setPanel_keeps | with_reducible apply State.driveVdd_keeps | with_reducible apply KeepsOut.next | with_reducible apply KeepsOut.ite | with_reducible apply Keeps.ite | dsimp only | (intro _ _ _ _ _) | (intro _ _ _) | (intro _ _) | split

theorem execPanelBacklightOn_keeps {s₀ : State} (head : Fin 8) (s : State) (hk : Keeps s₀ s) : KeepsOut s₀ (execPanelBacklightOn head s) := by
  unfold execPanelBacklightOn
  repeat' first | with_reducible assumption | with_reducible apply State.setPanel_keeps | with_reducible apply State.driveBl_keeps | with_reducible apply KeepsOut.next | with_reducible apply KeepsOut.ite | with_reducible apply Keeps.ite | dsimp only | (intro _ _ _ _ _) | (intro _ _ _) | (intro _ _) | split

theorem execPanelBlOffElapsed_keeps {s₀ : State} (head : Fin 8) (s : State) (hk : Keeps s₀ s) : KeepsOut s₀ (execPanelBlOffElapsed head s) := by
  unfold execPanelBlOffElapsed
  repeat' first | with_reducible assumption | with_reducible apply State.setHead_keeps | with_reducible apply State.panelCool_keeps | with_reducible apply KeepsOut.next | with_reducible apply KeepsOut.ite | with_reducible apply Keeps.ite | dsimp only | (intro _ _ _ _ _) | (intro _ _ _) | (intro _ _) | split

theorem execPanelCycleElapsed_keeps {s₀ : State} (head : Fin 8) (s : State) (hk : Keeps s₀ s) : KeepsOut s₀ (execPanelCycleElapsed head s) := by
  unfold execPanelCycleElapsed
  repeat' first | with_reducible assumption | with_reducible apply State.setHead_keeps | with_reducible apply State.setPanel_keeps | with_reducible apply State.panelOn_keeps | with_reducible apply KeepsOut.next | with_reducible apply KeepsOut.ite | with_reducible apply Keeps.ite | dsimp only | (intro _ _ _ _ _) | (intro _ _ _) | (intro _ _) | split

theorem State.setPps_keeps {s₀ : State} (s : State) (n g : Nat) (hk : Keeps s₀ s) : Keeps s₀ (State.setPps s n g) := by
  unfold State.setPps
  dsimp only [Keeps]
  repeat' first | with_reducible assumption | with_reducible apply State.setReg_keeps | (with_reducible refine fst_keeps ‹_› ?_) | (with_reducible refine snd_keeps ‹_› ?_) | with_reducible apply State.each_keeps | with_reducible apply Keeps.ite | dsimp only | (intro _ _ _ _ _) | (intro _ _ _) | (intro _ _) | split | simp only [Keeps, List.length_set, List.length_map, List.length_modify]

theorem State.linkTrained_keeps {s₀ : State} (s : State) (n rate lanes : Nat) (hk : Keeps s₀ s) : Keeps s₀ (State.linkTrained s n rate lanes) := by
  unfold State.linkTrained
  dsimp only [Keeps]
  repeat' first | with_reducible assumption | with_reducible apply State.setReg_keeps | with_reducible apply State.setBit_keeps | with_reducible apply State.took_keeps | with_reducible apply State.offer_keeps | with_reducible apply State.headEvent_keeps | with_reducible apply State.setPps_keeps | with_reducible apply Keeps.ite | dsimp only | (intro _ _ _ _ _) | (intro _ _ _) | (intro _ _) | split

theorem State.linkFail_keeps {s₀ : State} (s : State) (n rate lanes : Nat) (hk : Keeps s₀ s) : Keeps s₀ (State.linkFail s n rate lanes) := by
  unfold State.linkFail
  dsimp only [Keeps]
  repeat' first | with_reducible assumption | with_reducible apply State.setReg_keeps | with_reducible apply State.setBit_keeps | with_reducible apply State.offer_keeps | with_reducible apply State.headEvent_keeps | with_reducible apply Keeps.ite | dsimp only | (intro _ _ _ _ _) | (intro _ _ _) | (intro _ _) | split

theorem State.trainingDone_keeps {s₀ : State} (s : State) (n : Nat) (locked : Bool) (rate lanes : Nat) (hk : Keeps s₀ s) : Keeps s₀ (State.trainingDone s n locked rate lanes) := by
  unfold State.trainingDone
  dsimp only [Keeps]
  repeat' first | with_reducible assumption | with_reducible apply State.setFld_keeps | with_reducible apply State.setHead_keeps | with_reducible apply State.linkTrained_keeps | with_reducible apply State.linkFail_keeps | with_reducible apply Keeps.ite | dsimp only | (intro _ _ _ _ _) | (intro _ _ _) | (intro _ _) | split

theorem execLinkTrainingDone_keeps {s₀ : State} (head : Fin 8) (locked : Bool) (rate lanes : Nat) (s : State) (hk : Keeps s₀ s) : KeepsOut s₀ (execLinkTrainingDone head locked rate lanes s) := by
  unfold execLinkTrainingDone
  repeat' first | with_reducible assumption | with_reducible apply State.trainingDone_keeps | with_reducible apply KeepsOut.next | with_reducible apply KeepsOut.ite | with_reducible apply Keeps.ite | dsimp only | (intro _ _ _ _ _) | (intro _ _ _) | (intro _ _) | split

theorem execLinkRetry_keeps {s₀ : State} (head : Fin 8) (s : State) (hk : Keeps s₀ s) : KeepsOut s₀ (execLinkRetry head s) := by
  unfold execLinkRetry
  repeat' first | with_reducible assumption | with_reducible apply State.train_keeps | with_reducible apply KeepsOut.next | with_reducible apply KeepsOut.ite | with_reducible apply Keeps.ite | dsimp only | (intro _ _ _ _ _) | (intro _ _ _) | (intro _ _) | split

theorem State.lockLost_keeps {s₀ : State} (s : State) (n lanes : Nat) (hk : Keeps s₀ s) : Keeps s₀ (State.lockLost s n lanes) := by
  unfold State.lockLost
  dsimp only [Keeps]
  repeat' first | with_reducible assumption | with_reducible apply State.count_keeps | with_reducible apply State.offer_keeps | with_reducible apply State.headEvent_keeps | with_reducible apply State.train_keeps | with_reducible apply Keeps.ite | dsimp only | (intro _ _ _ _ _) | (intro _ _ _) | (intro _ _) | split

theorem execLinkLockLost_keeps {s₀ : State} (head : Fin 8) (lanes : Nat) (s : State) (hk : Keeps s₀ s) : KeepsOut s₀ (execLinkLockLost head lanes s) := by
  unfold execLinkLockLost
  repeat' first | with_reducible assumption | with_reducible apply State.lockLost_keeps | with_reducible apply KeepsOut.next | with_reducible apply KeepsOut.ite | with_reducible apply Keeps.ite | dsimp only | (intro _ _ _ _ _) | (intro _ _ _) | (intro _ _) | split

theorem execHpdLow_keeps {s₀ : State} (head : Fin 8) (ns irq lanes : Nat) (lost : Bool) (s : State) (hk : Keeps s₀ s) : KeepsOut s₀ (execHpdLow head ns irq lanes lost s) := by
  unfold execHpdLow
  repeat' first | with_reducible assumption | with_reducible apply State.setBit_keeps | with_reducible apply State.offer_keeps | with_reducible apply State.headEvent_keeps | with_reducible apply State.linkOff_keeps | with_reducible apply State.lockLost_keeps | with_reducible apply KeepsOut.next | with_reducible apply KeepsOut.ite | with_reducible apply Keeps.ite | dsimp only | (intro _ _ _ _ _) | (intro _ _ _) | (intro _ _) | split

theorem execHpdRise_keeps {s₀ : State} (head : Fin 8) (s : State) (hk : Keeps s₀ s) : KeepsOut s₀ (execHpdRise head s) := by
  unfold execHpdRise
  repeat' first | with_reducible assumption | with_reducible apply State.setBit_keeps | with_reducible apply State.train_keeps | with_reducible apply KeepsOut.next | with_reducible apply KeepsOut.ite | with_reducible apply Keeps.ite | dsimp only | (intro _ _ _ _ _) | (intro _ _ _) | (intro _ _) | split

theorem State.wbEnd_keeps {s₀ : State} (s : State) (c : Nat) (hk : Keeps s₀ s) : Keeps s₀ (State.wbEnd s c) := by
  unfold State.wbEnd
  dsimp only [Keeps]
  repeat' first | with_reducible assumption | with_reducible apply State.setReg_keeps | with_reducible apply State.setFld_keeps | with_reducible apply State.setComp_keeps | with_reducible apply State.wbFrame_keeps | with_reducible apply State.cmpEvent_keeps | with_reducible apply Keeps.ite | dsimp only | (intro _ _ _ _ _) | (intro _ _ _) | (intro _ _) | split

theorem execWritebackFrameDone_keeps {s₀ : State} (composer : Fin 10) (s : State) (hk : Keeps s₀ s) : KeepsOut s₀ (execWritebackFrameDone composer s) := by
  unfold execWritebackFrameDone
  repeat' first | with_reducible assumption | with_reducible apply State.wbEnd_keeps | with_reducible apply KeepsOut.next | with_reducible apply KeepsOut.ite | with_reducible apply Keeps.ite | dsimp only | (intro _ _ _ _ _) | (intro _ _ _) | (intro _ _) | split

theorem State.frameEnds_keeps {s₀ : State} (s : State) (c : Nat) (hk : Keeps s₀ s) : Keeps s₀ (State.frameEnds s c).1 := by
  unfold State.frameEnds
  dsimp only [Keeps]
  repeat' first | with_reducible assumption | with_reducible apply State.setBit_keeps | with_reducible apply State.offer_keeps | with_reducible apply State.setComp_keeps | with_reducible apply State.cmpEvent_keeps | with_reducible apply State.wbEnd_keeps | with_reducible apply Keeps.ite | dsimp only | (intro _ _ _ _ _) | (intro _ _ _) | (intro _ _) | split

theorem State.layerStatus_keeps {s₀ : State} (s : State) (c : Nat) (hk : Keeps s₀ s) : Keeps s₀ (State.layerStatus s c) := by
  unfold State.layerStatus
  dsimp only [Keeps]
  repeat' first | with_reducible assumption | with_reducible apply State.setReg_keeps | with_reducible apply State.each_keeps | with_reducible apply Keeps.ite | dsimp only | (intro _ _ _ _ _) | (intro _ _ _) | (intro _ _) | split

theorem State.frameBegins_keeps {s₀ : State} (s : State) (c : Nat) (hk : Keeps s₀ s) : Keeps s₀ (State.frameBegins s c) := by
  unfold State.frameBegins
  dsimp only [Keeps]
  repeat' first | with_reducible assumption | with_reducible apply State.setBit_keeps | with_reducible apply State.setComp_keeps | with_reducible apply State.layerStatus_keeps | with_reducible apply Keeps.ite | dsimp only | (intro _ _ _ _ _) | (intro _ _ _) | (intro _ _) | split | simp only [Keeps, List.length_set, List.length_map, List.length_modify]

theorem State.headApplied_keeps {s₀ : State} (s : State) (c : Nat) (hk : Keeps s₀ s) : Keeps s₀ (State.headApplied s c) := by
  unfold State.headApplied
  dsimp only [Keeps]
  repeat' first | with_reducible assumption | with_reducible apply State.setComp_keeps | with_reducible apply State.drivePwm_keeps | with_reducible apply Keeps.ite | dsimp only | (intro _ _ _ _ _) | (intro _ _ _) | (intro _ _) | split

theorem State.compStart_keeps {s₀ : State} (s : State) (c f : Nat) (hk : Keeps s₀ s) : Keeps s₀ (State.compStart s c f) := by
  unfold State.compStart
  dsimp only [Keeps]
  repeat' first | with_reducible assumption | with_reducible apply State.setFld_keeps | with_reducible apply State.setBit_keeps | with_reducible apply State.setComp_keeps | with_reducible apply State.show_keeps | with_reducible apply State.applyGrants_keeps | with_reducible apply State.applyCommits_keeps | with_reducible apply State.frameEnds_keeps | with_reducible apply State.frameBegins_keeps | with_reducible apply State.headApplied_keeps | (with_reducible refine fst_keeps ‹_› ?_) | (with_reducible refine snd_keeps ‹_› ?_) | with_reducible apply Keeps.ite | dsimp only | (intro _ _ _ _ _) | (intro _ _ _) | (intro _ _) | split

theorem State.slew_keeps {s₀ : State} (s : State) (n : Nat) (hk : Keeps s₀ s) : Keeps s₀ (State.slew s n) := by
  unfold State.slew
  dsimp only [Keeps]
  repeat' first | with_reducible assumption | with_reducible apply State.setFld_keeps | with_reducible apply State.took_keeps | with_reducible apply Keeps.ite | dsimp only | (intro _ _ _ _ _) | (intro _ _ _) | (intro _ _) | split

theorem State.genlockStep_keeps {s₀ : State} (s : State) (n t : Nat) (hk : Keeps s₀ s) : Keeps s₀ (State.genlockStep s n t) := by
  unfold State.genlockStep
  dsimp only [Keeps]
  repeat' first | with_reducible assumption | with_reducible apply State.setFld_keeps | with_reducible apply State.setBit_keeps | with_reducible apply State.setHead_keeps | with_reducible apply State.genChange_keeps | with_reducible apply State.slew_keeps | (with_reducible refine fst_keeps ‹_› ?_) | (with_reducible refine snd_keeps ‹_› ?_) | with_reducible apply Keeps.ite | dsimp only | (intro _ _ _ _ _) | (intro _ _ _) | (intro _ _) | split

theorem execSyncInEdge_keeps {s₀ : State} (s : State) (hk : Keeps s₀ s) : KeepsOut s₀ (execSyncInEdge s) := by
  unfold execSyncInEdge
  repeat' first | with_reducible assumption | with_reducible apply State.setHead_keeps | with_reducible apply State.each_keeps | with_reducible apply KeepsOut.next | with_reducible apply KeepsOut.ite | with_reducible apply Keeps.ite | dsimp only | (intro _ _ _ _ _) | (intro _ _ _) | (intro _ _) | split

theorem State.gaitRequest_keeps {s₀ : State} (s : State) (n g : Nat) (hk : Keeps s₀ s) : Keeps s₀ (State.gaitRequest s n g) := by
  unfold State.gaitRequest
  dsimp only [Keeps]
  repeat' first | with_reducible assumption | with_reducible apply State.setReg_keeps | with_reducible apply State.setFld_keeps | with_reducible apply State.setBit_keeps | with_reducible apply State.offer_keeps | with_reducible apply State.setHead_keeps | with_reducible apply State.mirrorEvent_keeps | with_reducible apply State.sendLatch_keeps | with_reducible apply State.waitCommits_keeps | (with_reducible refine fst_keeps ‹_› ?_) | (with_reducible refine snd_keeps ‹_› ?_) | with_reducible apply Keeps.ite | dsimp only | (intro _ _ _ _ _) | (intro _ _ _) | (intro _ _) | split

theorem execGaitRequest_keeps {s₀ : State} (head : Fin 8) (gait : Nat) (s : State) (hk : Keeps s₀ s) : KeepsOut s₀ (execGaitRequest head gait s) := by
  unfold execGaitRequest
  repeat' first | with_reducible assumption | with_reducible apply State.gaitRequest_keeps | with_reducible apply KeepsOut.next | with_reducible apply KeepsOut.ite | with_reducible apply Keeps.ite | dsimp only | (intro _ _ _ _ _) | (intro _ _ _) | (intro _ _) | split

theorem execHeadPllLocked_keeps {s₀ : State} (head : Fin 8) (s : State) (hk : Keeps s₀ s) : KeepsOut s₀ (execHeadPllLocked head s) := by
  unfold execHeadPllLocked
  repeat' first | with_reducible assumption | with_reducible apply State.setFld_keeps | with_reducible apply State.train_keeps | with_reducible apply KeepsOut.next | with_reducible apply KeepsOut.ite | with_reducible apply Keeps.ite | dsimp only | (intro _ _ _ _ _) | (intro _ _ _) | (intro _ _) | split

theorem State.gaitEnd_keeps {s₀ : State} (s : State) (n : Nat) (hk : Keeps s₀ s) : Keeps s₀ (State.gaitEnd s n) := by
  unfold State.gaitEnd
  dsimp only [Keeps]
  repeat' first | with_reducible assumption | with_reducible apply State.setFld_keeps | with_reducible apply State.setBit_keeps | with_reducible apply State.offer_keeps | with_reducible apply State.setHead_keeps | with_reducible apply State.mirrorEvent_keeps | with_reducible apply State.headEvent_keeps | with_reducible apply Keeps.ite | dsimp only | (intro _ _ _ _ _) | (intro _ _ _) | (intro _ _) | split

theorem State.videoStep_keeps {s₀ : State} (s : State) (n : Nat) (hk : Keeps s₀ s) : Keeps s₀ (State.videoStep s n) := by
  unfold State.videoStep
  dsimp only [Keeps]
  repeat' first | with_reducible assumption | with_reducible apply State.setBit_keeps | with_reducible apply State.setHead_keeps | with_reducible apply State.setPanel_keeps | with_reducible apply State.linkOff_keeps | with_reducible apply Keeps.ite | dsimp only | (intro _ _ _ _ _) | (intro _ _ _) | (intro _ _) | split

theorem State.offEnds_keeps {s₀ : State} (s : State) (n : Nat) (hk : Keeps s₀ s) : Keeps s₀ (State.offEnds s n) := by
  unfold State.offEnds
  dsimp only [Keeps]
  repeat' first | with_reducible assumption | with_reducible apply State.setHead_keeps | with_reducible apply State.train_keeps | with_reducible apply State.panelCool_keeps | with_reducible apply State.stopGen_keeps | with_reducible apply Keeps.ite | dsimp only | (intro _ _ _ _ _) | (intro _ _ _) | (intro _ _) | split

theorem State.frameBegin_keeps {s₀ : State} (s : State) (n : Nat) (hk : Keeps s₀ s) : Keeps s₀ (State.frameBegin s n) := by
  unfold State.frameBegin
  dsimp only [Keeps]
  repeat' first | with_reducible assumption | with_reducible apply State.setReg_keeps | with_reducible apply State.setFld_keeps | with_reducible apply State.setReg64_keeps | with_reducible apply State.setHead_keeps | with_reducible apply State.pruneMirrors_keeps | with_reducible apply State.sendLatch_keeps | with_reducible apply State.drainPorts_keeps | with_reducible apply State.reqAt_keeps | with_reducible apply State.repeatCheck_keeps | with_reducible apply State.imFrame_keeps | with_reducible apply State.compStart_keeps | with_reducible apply State.genlockStep_keeps | with_reducible apply State.gaitEnd_keeps | with_reducible apply State.videoStep_keeps | with_reducible apply State.each_keeps | with_reducible apply Keeps.ite | dsimp only | (intro _ _ _ _ _) | (intro _ _ _) | (intro _ _) | split

theorem State.frameStart_keeps {s₀ : State} (s : State) (n : Nat) (hk : Keeps s₀ s) : Keeps s₀ (State.frameStart s n) := by
  unfold State.frameStart
  dsimp only [Keeps]
  repeat' first | with_reducible assumption | with_reducible apply State.setFld_keeps | with_reducible apply State.setBit_keeps | with_reducible apply State.setHead_keeps | with_reducible apply State.linkOff_keeps | with_reducible apply State.genChange_keeps | with_reducible apply State.offEnds_keeps | with_reducible apply State.frameBegin_keeps | with_reducible apply Keeps.ite | dsimp only | (intro _ _ _ _ _) | (intro _ _ _) | (intro _ _) | split

theorem execFrameStart_keeps {s₀ : State} (head : Fin 8) (s : State) (hk : Keeps s₀ s) : KeepsOut s₀ (execFrameStart head s) := by
  unfold execFrameStart
  repeat' first | with_reducible assumption | with_reducible apply State.frameStart_keeps | with_reducible apply KeepsOut.next | with_reducible apply KeepsOut.ite | with_reducible apply Keeps.ite | dsimp only | (intro _ _ _ _ _) | (intro _ _ _) | (intro _ _) | split

theorem execLineMatch_keeps {s₀ : State} (head : Fin 8) (s : State) (hk : Keeps s₀ s) : KeepsOut s₀ (execLineMatch head s) := by
  unfold execLineMatch
  repeat' first | with_reducible assumption | with_reducible apply State.headEvent_keeps | with_reducible apply KeepsOut.next | with_reducible apply KeepsOut.ite | with_reducible apply Keeps.ite | dsimp only | (intro _ _ _ _ _) | (intro _ _ _) | (intro _ _) | split

theorem execFrameDone_keeps {s₀ : State} (head : Fin 8) (s : State) (hk : Keeps s₀ s) : KeepsOut s₀ (execFrameDone head s) := by
  unfold execFrameDone
  repeat' first | with_reducible assumption | with_reducible apply State.headEvent_keeps | with_reducible apply KeepsOut.next | with_reducible apply KeepsOut.ite | with_reducible apply Keeps.ite | dsimp only | (intro _ _ _ _ _) | (intro _ _ _) | (intro _ _) | split

theorem execVblankStart_keeps {s₀ : State} (head : Fin 8) (s : State) (hk : Keeps s₀ s) : KeepsOut s₀ (execVblankStart head s) := by
  unfold execVblankStart
  repeat' first | with_reducible assumption | with_reducible apply State.setReg64_keeps | with_reducible apply State.offerRateN_keeps | with_reducible apply State.headEvent_keeps | with_reducible apply KeepsOut.next | with_reducible apply KeepsOut.ite | with_reducible apply Keeps.ite | dsimp only | (intro _ _ _ _ _) | (intro _ _ _) | (intro _ _) | split

theorem execUnderrun_keeps {s₀ : State} (head : Fin 8) (line pixel : Nat) (s : State) (hk : Keeps s₀ s) : KeepsOut s₀ (execUnderrun head line pixel s) := by
  unfold execUnderrun
  repeat' first | with_reducible assumption | with_reducible apply State.setReg_keeps | with_reducible apply State.setBit_keeps | with_reducible apply State.count_keeps | with_reducible apply State.setHead_keeps | with_reducible apply State.headEvent_keeps | with_reducible apply KeepsOut.next | with_reducible apply KeepsOut.ite | with_reducible apply Keeps.ite | dsimp only | (intro _ _ _ _ _) | (intro _ _ _) | (intro _ _) | split

theorem State.fetchReturn_keeps {s₀ : State} (s0 : State) (c l addr len : Nat) (hk : Keeps s₀ s0) : Keeps s₀ (State.fetchReturn s0 c l addr len) := by
  unfold State.fetchReturn
  dsimp only [Keeps]
  repeat' first | with_reducible assumption | with_reducible apply State.setBit_keeps | with_reducible apply State.offer_keeps | with_reducible apply State.offerRate_keeps | with_reducible apply State.eccSeen_keeps | with_reducible apply State.touchMem_keeps | with_reducible apply State.setComp_keeps | with_reducible apply State.cmpEvent_keeps | with_reducible apply Keeps.ite | dsimp only | (intro _ _ _ _ _) | (intro _ _ _) | (intro _ _) | split

theorem execLayerFetchReturn_keeps {s₀ : State} (composer : Fin 10) (layer : Fin 17) (addr len : Nat) (s : State) (hk : Keeps s₀ s) : KeepsOut s₀ (execLayerFetchReturn composer layer addr len s) := by
  unfold execLayerFetchReturn
  repeat' first | with_reducible assumption | with_reducible apply State.fetchReturn_keeps | with_reducible apply KeepsOut.next | with_reducible apply KeepsOut.ite | with_reducible apply Keeps.ite | dsimp only | (intro _ _ _ _ _) | (intro _ _ _) | (intro _ _) | split

theorem State.auxCmd_keeps {s₀ : State} (s : State) (n cmd len : Nat) (hk : Keeps s₀ s) : Keeps s₀ (State.auxCmd s n cmd len) := by
  unfold State.auxCmd
  dsimp only [Keeps]
  repeat' first | with_reducible assumption | with_reducible apply State.setReg_keeps | with_reducible apply State.setBit_keeps | with_reducible apply State.emitOn_keeps | with_reducible apply State.setHead_keeps | with_reducible apply Keeps.ite | dsimp only | (intro _ _ _ _ _) | (intro _ _ _) | (intro _ _) | split

theorem execAuxNativeWrite_keeps {s₀ : State} (head : Fin 8) (len : Fin 16) (s : State) (hk : Keeps s₀ s) : KeepsOut s₀ (execAuxNativeWrite head len s) := by
  unfold execAuxNativeWrite
  repeat' first | with_reducible assumption | with_reducible apply State.auxCmd_keeps | with_reducible apply KeepsOut.next | with_reducible apply KeepsOut.ite | with_reducible apply Keeps.ite | dsimp only | (intro _ _ _ _ _) | (intro _ _ _) | (intro _ _) | split

theorem execAuxNativeRead_keeps {s₀ : State} (head : Fin 8) (len : Fin 16) (s : State) (hk : Keeps s₀ s) : KeepsOut s₀ (execAuxNativeRead head len s) := by
  unfold execAuxNativeRead
  repeat' first | with_reducible assumption | with_reducible apply State.auxCmd_keeps | with_reducible apply KeepsOut.next | with_reducible apply KeepsOut.ite | with_reducible apply Keeps.ite | dsimp only | (intro _ _ _ _ _) | (intro _ _ _) | (intro _ _) | split

theorem execAuxI2cWrite_keeps {s₀ : State} (head : Fin 8) (len : Fin 16) (s : State) (hk : Keeps s₀ s) : KeepsOut s₀ (execAuxI2cWrite head len s) := by
  unfold execAuxI2cWrite
  repeat' first | with_reducible assumption | with_reducible apply State.auxCmd_keeps | with_reducible apply KeepsOut.next | with_reducible apply KeepsOut.ite | with_reducible apply Keeps.ite | dsimp only | (intro _ _ _ _ _) | (intro _ _ _) | (intro _ _) | split

theorem execAuxI2cRead_keeps {s₀ : State} (head : Fin 8) (len : Fin 16) (s : State) (hk : Keeps s₀ s) : KeepsOut s₀ (execAuxI2cRead head len s) := by
  unfold execAuxI2cRead
  repeat' first | with_reducible assumption | with_reducible apply State.auxCmd_keeps | with_reducible apply KeepsOut.next | with_reducible apply KeepsOut.ite | with_reducible apply Keeps.ite | dsimp only | (intro _ _ _ _ _) | (intro _ _ _) | (intro _ _) | split

theorem execAuxI2cWriteMot_keeps {s₀ : State} (head : Fin 8) (len : Fin 16) (s : State) (hk : Keeps s₀ s) : KeepsOut s₀ (execAuxI2cWriteMot head len s) := by
  unfold execAuxI2cWriteMot
  repeat' first | with_reducible assumption | with_reducible apply State.auxCmd_keeps | with_reducible apply KeepsOut.next | with_reducible apply KeepsOut.ite | with_reducible apply Keeps.ite | dsimp only | (intro _ _ _ _ _) | (intro _ _ _) | (intro _ _) | split

theorem execAuxI2cReadMot_keeps {s₀ : State} (head : Fin 8) (len : Fin 16) (s : State) (hk : Keeps s₀ s) : KeepsOut s₀ (execAuxI2cReadMot head len s) := by
  unfold execAuxI2cReadMot
  repeat' first | with_reducible assumption | with_reducible apply State.auxCmd_keeps | with_reducible apply KeepsOut.next | with_reducible apply KeepsOut.ite | with_reducible apply Keeps.ite | dsimp only | (intro _ _ _ _ _) | (intro _ _ _) | (intro _ _) | split

theorem State.auxStore_keeps {s₀ : State} (s : State) (n : Nat) (bs : List Byte) (hk : Keeps s₀ s) : Keeps s₀ (State.auxStore s n bs) := by
  unfold State.auxStore
  dsimp only [Keeps]
  repeat' first | with_reducible assumption | with_reducible apply State.setReg_keeps | with_reducible apply State.each_keeps | with_reducible apply Keeps.ite | dsimp only | (intro _ _ _ _ _) | (intro _ _ _) | (intro _ _) | split

theorem State.auxEnd_keeps {s₀ : State} (s : State) (n reply : Nat) (ok : Bool) (hk : Keeps s₀ s) : Keeps s₀ (State.auxEnd s n reply ok) := by
  unfold State.auxEnd
  dsimp only [Keeps]
  repeat' first | with_reducible assumption | with_reducible apply State.setFld_keeps | with_reducible apply State.setBit_keeps | with_reducible apply State.offer_keeps | with_reducible apply State.headEvent_keeps | with_reducible apply Keeps.ite | dsimp only | (intro _ _ _ _ _) | (intro _ _ _) | (intro _ _) | split

theorem State.auxReply_keeps {s₀ : State} (s : State) (n reply : Nat) (bs : List Byte) (hk : Keeps s₀ s) : Keeps s₀ (State.auxReply s n reply bs) := by
  unfold State.auxReply
  dsimp only [Keeps]
  repeat' first | with_reducible assumption | with_reducible apply State.emitOn_keeps | with_reducible apply State.setHead_keeps | with_reducible apply State.auxStore_keeps | with_reducible apply State.auxEnd_keeps | with_reducible apply Keeps.ite | dsimp only | (intro _ _ _ _ _) | (intro _ _ _) | (intro _ _) | split

theorem execAuxReply_keeps {s₀ : State} (head : Fin 8) (reply : Fin 4) (data : List Byte) (s : State) (hk : Keeps s₀ s) : KeepsOut s₀ (execAuxReply head reply data s) := by
  unfold execAuxReply
  repeat' first | with_reducible assumption | with_reducible apply State.auxReply_keeps | with_reducible apply KeepsOut.next | with_reducible apply KeepsOut.ite | with_reducible apply Keeps.ite | dsimp only | (intro _ _ _ _ _) | (intro _ _ _) | (intro _ _) | split

theorem State.setCvu_keeps {s₀ : State} (s : State) (m : Nat) (x : Cvu) (hk : Keeps s₀ s) : Keeps s₀ (State.setCvu s m x) := by
  unfold State.setCvu
  dsimp only [Keeps]
  repeat' first | with_reducible assumption | with_reducible apply Keeps.ite | dsimp only | (intro _ _ _ _ _) | (intro _ _ _) | (intro _ _) | split | simp only [Keeps, List.length_set, List.length_map, List.length_modify]

theorem State.cvuSync_keeps {s₀ : State} (s : State) (m : Nat) (hk : Keeps s₀ s) : Keeps s₀ (State.cvuSync s m) := by
  unfold State.cvuSync
  dsimp only [Keeps]
  repeat' first | with_reducible assumption | with_reducible apply State.count_keeps | with_reducible apply State.setReg64_keeps | with_reducible apply Keeps.ite | dsimp only | (intro _ _ _ _ _) | (intro _ _ _) | (intro _ _) | split

theorem State.cvuFeed_keeps {s₀ : State} (s : State) (m : Nat) (bs : List Byte) (hk : Keeps s₀ s) : Keeps s₀ (State.cvuFeed s m bs) := by
  unfold State.cvuFeed
  dsimp only [Keeps]
  repeat' first | with_reducible assumption | with_reducible apply State.count_keeps | with_reducible apply State.setCvu_keeps | with_reducible apply State.cvuSync_keeps | with_reducible apply Keeps.ite | dsimp only | (intro _ _ _ _ _) | (intro _ _ _) | (intro _ _) | split

theorem State.cvuInit_keeps {s₀ : State} (s : State) (m : Nat) (hk : Keeps s₀ s) : Keeps s₀ (State.cvuInit s m) := by
  unfold State.cvuInit
  dsimp only [Keeps]
  repeat' first | with_reducible assumption | with_reducible apply State.setFld_keeps | with_reducible apply State.setBit_keeps | with_reducible apply State.count_keeps | with_reducible apply State.setCvu_keeps | with_reducible apply State.cvuSync_keeps | with_reducible apply State.cvuFeed_keeps | with_reducible apply Keeps.ite | dsimp only | (intro _ _ _ _ _) | (intro _ _ _) | (intro _ _) | split

theorem State.cvuReaches_keeps {s₀ : State} (s : State) (m : Nat) (view : View) (off : Nat) (hk : Keeps s₀ s) : Keeps s₀ (State.cvuReaches s m view off).2 := by
  unfold State.cvuReaches
  dsimp only [Keeps]
  repeat' first | with_reducible assumption | with_reducible apply State.notGranted_keeps | with_reducible apply Keeps.ite | dsimp only | (intro _ _ _ _ _) | (intro _ _ _) | (intro _ _) | split

theorem State.cvuBusy_keeps {s₀ : State} (s : State) (m bit off : Nat) (hk : Keeps s₀ s) : Keeps s₀ (State.cvuBusy s m bit off) := by
  unfold State.cvuBusy
  dsimp only [Keeps]
  repeat' first | with_reducible assumption | with_reducible apply State.setBit_keeps | with_reducible apply State.offer_keeps | with_reducible apply State.imEvent0_keeps | with_reducible apply Keeps.ite | dsimp only | (intro _ _ _ _ _) | (intro _ _ _) | (intro _ _) | split

theorem State.cvuData_keeps {s₀ : State} (s : State) (m : Nat) (view : View) (off : Nat) (f : State → State)
    (hf : ∀ u, Keeps s₀ u → Keeps s₀ (f u)) (hk : Keeps s₀ s) : Keeps s₀ (s.cvuData m view off f) := by
  unfold State.cvuData
  have h2 := State.cvuReaches_keeps s m view off hk
  split
  · rename_i t e; rw [e] at h2; exact h2
  · rename_i t e
    rw [e] at h2
    split
    · exact State.cvuBusy_keeps _ _ _ _ h2
    · exact hf _ h2

theorem execCvuInit_keeps {s₀ : State} (cvu : Fin 16) (view : View) (value : Nat) (s : State) (hk : Keeps s₀ s) : KeepsOut s₀ (execCvuInit cvu view value s) := by
  unfold execCvuInit
  repeat' first | with_reducible assumption | with_reducible apply State.cvuInit_keeps | with_reducible apply State.cvuData_keeps | with_reducible apply KeepsOut.next | with_reducible apply KeepsOut.ite | with_reducible apply Keeps.ite | dsimp only | (intro _ _ _ _ _) | (intro _ _ _) | (intro _ _) | split

theorem execCvuData_keeps {s₀ : State} (cvu : Fin 16) (view : View) (value : Nat) (s : State) (hk : Keeps s₀ s) : KeepsOut s₀ (execCvuData cvu view value s) := by
  unfold execCvuData
  repeat' first | with_reducible assumption | with_reducible apply State.cvuFeed_keeps | with_reducible apply State.cvuData_keeps | with_reducible apply KeepsOut.next | with_reducible apply KeepsOut.ite | with_reducible apply Keeps.ite | dsimp only | (intro _ _ _ _ _) | (intro _ _ _) | (intro _ _) | split

theorem execCvuDataB_keeps {s₀ : State} (cvu : Fin 16) (view : View) (value : Nat) (s : State) (hk : Keeps s₀ s) : KeepsOut s₀ (execCvuDataB cvu view value s) := by
  unfold execCvuDataB
  repeat' first | with_reducible assumption | with_reducible apply State.cvuFeed_keeps | with_reducible apply State.cvuData_keeps | with_reducible apply KeepsOut.next | with_reducible apply KeepsOut.ite | with_reducible apply Keeps.ite | dsimp only | (intro _ _ _ _ _) | (intro _ _ _) | (intro _ _) | split

theorem State.cvuCfg_keeps {s₀ : State} (s : State) (m : Nat) (view : View) (off value : Nat) (hk : Keeps s₀ s) : Keeps s₀ (State.cvuCfg s m view off value) := by
  unfold State.cvuCfg
  dsimp only [Keeps]
  repeat' first | with_reducible assumption | with_reducible apply State.setReg_keeps | with_reducible apply State.setBit_keeps | with_reducible apply State.cvuReaches_keeps | with_reducible apply State.cvuBusy_keeps | (with_reducible refine fst_keeps ‹_› ?_) | (with_reducible refine snd_keeps ‹_› ?_) | with_reducible apply State.each_keeps | with_reducible apply Keeps.ite | dsimp only | (intro _ _ _ _ _) | (intro _ _ _) | (intro _ _) | split

theorem execCvuCfgWrite_keeps {s₀ : State} (cvu : Fin 16) (view : View) (reg : CvuReg) (value : Nat) (s : State) (hk : Keeps s₀ s) : KeepsOut s₀ (execCvuCfgWrite cvu view reg value s) := by
  unfold execCvuCfgWrite
  repeat' first | with_reducible assumption | with_reducible apply State.cvuCfg_keeps | with_reducible apply KeepsOut.next | with_reducible apply KeepsOut.ite | with_reducible apply Keeps.ite | dsimp only | (intro _ _ _ _ _) | (intro _ _ _) | (intro _ _) | split

theorem execCvuStale_keeps {s₀ : State} (cvu : Fin 16) (s : State) (hk : Keeps s₀ s) : KeepsOut s₀ (execCvuStale cvu s) := by
  unfold execCvuStale
  repeat' first | with_reducible assumption | with_reducible apply State.setBit_keeps | with_reducible apply State.offer_keeps | with_reducible apply State.secHardware_keeps | with_reducible apply State.imEvent0_keeps | with_reducible apply KeepsOut.next | with_reducible apply KeepsOut.ite | with_reducible apply Keeps.ite | dsimp only | (intro _ _ _ _ _) | (intro _ _ _) | (intro _ _) | split

theorem State.cvuStart_keeps {s₀ : State} (s : State) (c m : Nat) (j : Job) (host : List (Nat × Byte)) (hk : Keeps s₀ s) : Keeps s₀ (State.cvuStart s c m j host) := by
  unfold State.cvuStart
  dsimp only [Keeps]
  repeat' first | with_reducible assumption | with_reducible apply State.setBit_keeps | with_reducible apply State.count_keeps | with_reducible apply State.modJob_keeps | with_reducible apply State.markStarted_keeps | with_reducible apply State.faultJob_keeps | with_reducible apply State.faultAt_keeps | with_reducible apply State.readHost_keeps | with_reducible apply State.setCvu_keeps | with_reducible apply State.cvuSync_keeps | with_reducible apply State.cvuInit_keeps | (with_reducible refine fst_keeps ‹_› ?_) | (with_reducible refine snd_keeps ‹_› ?_) | with_reducible apply State.each_keeps | with_reducible apply Keeps.ite | dsimp only | (intro _ _ _ _ _) | (intro _ _ _) | (intro _ _) | split

theorem execCvuRun_keeps {s₀ : State} (ctx : Fin 1024) (host : List (Nat × Byte)) (s : State) (hk : Keeps s₀ s) : KeepsOut s₀ (execCvuRun ctx host s) := by
  unfold execCvuRun
  repeat' first | with_reducible assumption | with_reducible apply State.cvuStart_keeps | with_reducible apply KeepsOut.next | with_reducible apply KeepsOut.ite | with_reducible apply Keeps.ite | dsimp only | (intro _ _ _ _ _) | (intro _ _ _) | (intro _ _) | split

theorem State.cvuJobFeed_keeps {s₀ : State} (s : State) (c m : Nat) (j : Job) (host : List (Nat × Byte)) (n : Nat) (hk : Keeps s₀ s) : Keeps s₀ (State.cvuJobFeed s c m j host n) := by
  unfold State.cvuJobFeed
  dsimp only [Keeps]
  repeat' first | with_reducible assumption | with_reducible apply State.count_keeps | with_reducible apply State.modJob_keeps | with_reducible apply State.cvuFeed_keeps | with_reducible apply Keeps.ite | dsimp only | (intro _ _ _ _ _) | (intro _ _ _) | (intro _ _) | split

theorem execCvuRunDone_keeps {s₀ : State} (ctx : Fin 1024) (host : List (Nat × Byte)) (s : State) (hk : Keeps s₀ s) : KeepsOut s₀ (execCvuRunDone ctx host s) := by
  unfold execCvuRunDone
  repeat' first | with_reducible assumption | with_reducible apply State.count_keeps | with_reducible apply State.bufWrite_keeps | with_reducible apply State.endJob_keeps | with_reducible apply State.faultJob_keeps | with_reducible apply State.faultAt_keeps | with_reducible apply State.eccSeen_keeps | with_reducible apply State.cvuJobFeed_keeps | (with_reducible refine fst_keeps ‹_› ?_) | (with_reducible refine snd_keeps ‹_› ?_) | with_reducible apply State.each_keeps | with_reducible apply KeepsOut.next | with_reducible apply KeepsOut.ite | with_reducible apply Keeps.ite | dsimp only | (intro _ _ _ _ _) | (intro _ _ _) | (intro _ _) | split

theorem State.cvuRein_keeps {s₀ : State} (s : State) (c sq : Nat) (hk : Keeps s₀ s) : Keeps s₀ (State.cvuRein s c sq) := by
  unfold State.cvuRein
  dsimp only [Keeps]
  repeat' first | with_reducible assumption | with_reducible apply State.took_keeps | with_reducible apply State.cvuJobFeed_keeps | (with_reducible refine fst_keeps ‹_› ?_) | (with_reducible refine snd_keeps ‹_› ?_) | with_reducible apply State.each_keeps | with_reducible apply Keeps.ite | dsimp only | (intro _ _ _ _ _) | (intro _ _ _) | (intro _ _) | split

end Sys2Proof.Machine
end

