-- ==== Sys2Proof/Laws/KeepsLight.lean ====
section
/-! SUPPORT. The relation `Keeps` through light output and the network ports. -/

set_option linter.unreachableTactic false
set_option linter.unusedTactic false
set_option linter.unusedSimpArgs false

namespace Sys2Proof.Machine

theorem State.uniSync_keeps {s₀ : State} (s : State) (hk : Keeps s₀ s) : Keeps s₀ (State.uniSync s) := by
  unfold State.uniSync
  dsimp only [Keeps]
  repeat' first | with_reducible assumption | with_reducible apply State.setFld_keeps | with_reducible apply Keeps.ite | dsimp only | (intro _ _ _ _ _) | (intro _ _ _) | (intro _ _) | split

theorem State.setSrc_keeps {s₀ : State} (s : State) (i : Nat) (x : LoSrc) (hk : Keeps s₀ s) : Keeps s₀ (State.setSrc s i x) := by
  unfold State.setSrc
  dsimp only [Keeps]
  repeat' first | with_reducible assumption | with_reducible apply Keeps.ite | dsimp only | (intro _ _ _ _ _) | (intro _ _ _) | (intro _ _) | split | simp only [Keeps, List.length_set, List.length_map, List.length_modify]

theorem State.setUni_keeps {s₀ : State} (s : State) (u : Nat) (x : LoUni) (hk : Keeps s₀ s) : Keeps s₀ (State.setUni s u x) := by
  unfold State.setUni
  dsimp only [Keeps]
  repeat' first | with_reducible assumption | with_reducible apply Keeps.ite | dsimp only | (intro _ _ _ _ _) | (intro _ _ _) | (intro _ _) | split

theorem State.loEvent_keeps {s₀ : State} (s : State) (b : Nat) (hk : Keeps s₀ s) : Keeps s₀ (State.loEvent s b) := by
  unfold State.loEvent
  dsimp only [Keeps]
  repeat' first | with_reducible assumption | with_reducible apply State.setEvent_keeps | with_reducible apply Keeps.ite | dsimp only | (intro _ _ _ _ _) | (intro _ _ _) | (intro _ _) | split

theorem State.sampleCell_keeps {s₀ : State} (s : State) (k i : Nat) (c : Cell) (hk : Keeps s₀ s) : Keeps s₀ (State.sampleCell s k i c) := by
  unfold State.sampleCell
  dsimp only [Keeps]
  repeat' first | with_reducible assumption | with_reducible apply State.sample_keeps | (with_reducible refine fst_keeps ‹_› ?_) | (with_reducible refine snd_keeps ‹_› ?_) | with_reducible apply foldl_keeps | with_reducible apply Keeps.ite | dsimp only | (intro _ _ _ _ _) | (intro _ _ _) | (intro _ _) | split | simp only [Keeps, List.length_set, List.length_map, List.length_modify]

theorem State.takeLine_keeps {s₀ : State} (s : State) (k y : Nat) (px : List (List Nat)) (hk : Keeps s₀ s) : Keeps s₀ (State.takeLine s k y px) := by
  unfold State.takeLine
  dsimp only [Keeps]
  repeat' first | with_reducible assumption | with_reducible apply State.sampleCell_keeps | (with_reducible refine fst_keeps ‹_› ?_) | (with_reducible refine snd_keeps ‹_› ?_) | with_reducible apply State.each_keeps | with_reducible apply Keeps.ite | dsimp only | (intro _ _ _ _ _) | (intro _ _ _) | (intro _ _) | split | simp only [Keeps, List.length_set, List.length_map, List.length_modify]

theorem execCanvasLine_keeps {s₀ : State} (composer : Fin 10) (line : Nat) (s : State) (hk : Keeps s₀ s) : KeepsOut s₀ (execCanvasLine composer line s) := by
  unfold execCanvasLine
  repeat' first | with_reducible assumption | with_reducible apply State.emit_keeps | with_reducible apply State.setComp_keeps | with_reducible apply State.show_keeps | with_reducible apply State.takeLine_keeps | (with_reducible refine fst_keeps ‹_› ?_) | (with_reducible refine snd_keeps ‹_› ?_) | with_reducible apply KeepsOut.next | with_reducible apply KeepsOut.ite | with_reducible apply Keeps.ite | dsimp only | (intro _ _ _ _ _) | (intro _ _ _) | (intro _ _) | split | simp only [Keeps, List.length_set, List.length_map, List.length_modify]

theorem State.expire_keeps {s₀ : State} (s : State) (i : Nat) (hk : Keeps s₀ s) : Keeps s₀ (State.expire s i) := by
  unfold State.expire
  dsimp only [Keeps]
  repeat' first | with_reducible assumption | with_reducible apply State.setSrc_keeps | with_reducible apply Keeps.ite | dsimp only | (intro _ _ _ _ _) | (intro _ _ _) | (intro _ _) | split

theorem State.tellLive_keeps {s₀ : State} (s : State) (i : Nat) (hk : Keeps s₀ s) : Keeps s₀ (State.tellLive s i) := by
  unfold State.tellLive
  dsimp only [Keeps]
  repeat' first | with_reducible assumption | with_reducible apply State.setFld_keeps | with_reducible apply State.offer_keeps | with_reducible apply State.setSrc_keeps | with_reducible apply State.loEvent_keeps | with_reducible apply Keeps.ite | dsimp only | (intro _ _ _ _ _) | (intro _ _ _) | (intro _ _) | split

theorem execSourceTimeout_keeps {s₀ : State} (source : Fin 8) (s : State) (hk : Keeps s₀ s) : KeepsOut s₀ (execSourceTimeout source s) := by
  unfold execSourceTimeout
  repeat' first | with_reducible assumption | with_reducible apply State.expire_keeps | with_reducible apply KeepsOut.next | with_reducible apply KeepsOut.ite | with_reducible apply Keeps.ite | dsimp only | (intro _ _ _ _ _) | (intro _ _ _) | (intro _ _) | split

theorem State.modLoJob_keeps {s₀ : State} (s : State) (c sq : Nat) (f : LoJob → LoJob) (hk : Keeps s₀ s) : Keeps s₀ (State.modLoJob s c sq f) := by
  unfold State.modLoJob
  dsimp only [Keeps]
  repeat' first | with_reducible assumption | with_reducible apply Keeps.ite | dsimp only | (intro _ _ _ _ _) | (intro _ _ _) | (intro _ _) | split | simp only [Keeps, List.length_set, List.length_map, List.length_modify]

theorem State.loRead_keeps {s₀ : State} (s : State) (c : Nat) (j : Job) (k : Nat) (hk : Keeps s₀ s) : Keeps s₀ (State.loRead s c j k) := by
  unfold State.loRead
  dsimp only [Keeps]
  repeat' first | with_reducible assumption | with_reducible apply State.readHost_keeps | with_reducible apply Keeps.ite | dsimp only | (intro _ _ _ _ _) | (intro _ _ _) | (intro _ _) | split

theorem execLightWrite_keeps {s₀ : State} (ctx : Fin 1024) (s : State) (hk : Keeps s₀ s) : KeepsOut s₀ (execLightWrite ctx s) := by
  unfold execLightWrite
  repeat' first | with_reducible assumption | with_reducible apply State.modJob_keeps | with_reducible apply State.markStarted_keeps | with_reducible apply State.modLoJob_keeps | with_reducible apply State.loRead_keeps | with_reducible apply KeepsOut.next | with_reducible apply KeepsOut.ite | with_reducible apply Keeps.ite | dsimp only | (intro _ _ _ _ _) | (intro _ _ _) | (intro _ _) | split

theorem State.applyJobFrame_keeps {s₀ : State} (s : State) (k : LoJob) (j : Job) (data : List Byte) (hk : Keeps s₀ s) : Keeps s₀ (State.applyJobFrame s k j data) := by
  unfold State.applyJobFrame
  dsimp only [Keeps]
  repeat' first | with_reducible assumption | with_reducible apply State.count_keeps | with_reducible apply State.modJob_keeps | with_reducible apply State.endJob_keeps | with_reducible apply State.setSrc_keeps | with_reducible apply State.modLoJob_keeps | with_reducible apply State.loRead_keeps | with_reducible apply foldl_keeps | with_reducible apply Keeps.ite | dsimp only | (intro _ _ _ _ _) | (intro _ _ _) | (intro _ _) | split | simp only [Keeps, List.length_set, List.length_map, List.length_modify]

theorem execLightDataArrive_keeps {s₀ : State} (ctx : Fin 1024) (host : List (Nat × Byte)) (s : State) (hk : Keeps s₀ s) : KeepsOut s₀ (execLightDataArrive ctx host s) := by
  unfold execLightDataArrive
  repeat' first | with_reducible assumption | with_reducible apply State.faultJob_keeps | with_reducible apply State.faultAt_keeps | with_reducible apply State.eccSeen_keeps | with_reducible apply State.modLoJob_keeps | with_reducible apply State.applyJobFrame_keeps | (with_reducible refine fst_keeps ‹_› ?_) | (with_reducible refine snd_keeps ‹_› ?_) | with_reducible apply State.each_keeps | with_reducible apply KeepsOut.next | with_reducible apply KeepsOut.ite | with_reducible apply Keeps.ite | dsimp only | (intro _ _ _ _ _) | (intro _ _ _) | (intro _ _) | split

theorem State.jobsAtStart_keeps {s₀ : State} (s : State) (hk : Keeps s₀ s) : Keeps s₀ (State.jobsAtStart s) := by
  unfold State.jobsAtStart
  dsimp only [Keeps]
  repeat' first | with_reducible assumption | with_reducible apply State.modLoJob_keeps | with_reducible apply State.applyJobFrame_keeps | with_reducible apply State.each_keeps | with_reducible apply Keeps.ite | dsimp only | (intro _ _ _ _ _) | (intro _ _ _) | (intro _ _) | split

theorem State.jobsLate_keeps {s₀ : State} (s : State) (hk : Keeps s₀ s) : Keeps s₀ (State.jobsLate s) := by
  unfold State.jobsLate
  dsimp only [Keeps]
  repeat' first | with_reducible assumption | with_reducible apply State.count_keeps | with_reducible apply State.offerRate_keeps | with_reducible apply State.loEvent_keeps | with_reducible apply State.modLoJob_keeps | with_reducible apply State.each_keeps | with_reducible apply Keeps.ite | dsimp only | (intro _ _ _ _ _) | (intro _ _ _) | (intro _ _) | split

theorem State.merge_keeps {s₀ : State} (s : State) (fresh : Bool) (hk : Keeps s₀ s) : Keeps s₀ (State.merge s fresh) := by
  unfold State.merge
  dsimp only [Keeps]
  repeat' first | with_reducible assumption | with_reducible apply State.setSrc_keeps | with_reducible apply State.setUni_keeps | with_reducible apply State.expire_keeps | with_reducible apply State.tellLive_keeps | with_reducible apply State.jobsLate_keeps | with_reducible apply State.each_keeps | with_reducible apply foldl_keeps | with_reducible apply Keeps.ite | dsimp only | (intro _ _ _ _ _) | (intro _ _ _) | (intro _ _) | split | simp only [Keeps, List.length_set, List.length_map, List.length_modify]

theorem execMergeStart_keeps {s₀ : State} (s : State) (hk : Keeps s₀ s) : KeepsOut s₀ (execMergeStart s) := by
  unfold execMergeStart
  repeat' first | with_reducible assumption | with_reducible apply State.merge_keeps | with_reducible apply KeepsOut.next | with_reducible apply KeepsOut.ite | with_reducible apply Keeps.ite | dsimp only | (intro _ _ _ _ _) | (intro _ _ _) | (intro _ _) | split

theorem State.mergeLate_keeps {s₀ : State} (s : State) (hk : Keeps s₀ s) : Keeps s₀ (State.mergeLate s) := by
  unfold State.mergeLate
  dsimp only [Keeps]
  repeat' first | with_reducible assumption | with_reducible apply State.offerRate_keeps | with_reducible apply State.loEvent_keeps | with_reducible apply State.merge_keeps | with_reducible apply State.each_keeps | with_reducible apply Keeps.ite | dsimp only | (intro _ _ _ _ _) | (intro _ _ _) | (intro _ _) | split

theorem State.report_keeps {s₀ : State} (s : State) (p : Nat) (gs : List Nat) (hk : Keeps s₀ s) : Keeps s₀ (State.report s p gs) := by
  unfold State.report
  dsimp only [Keeps]
  repeat' first | with_reducible assumption | with_reducible apply State.netSend_keeps | with_reducible apply State.each_keeps | with_reducible apply Keeps.ite | dsimp only | (intro _ _ _ _ _) | (intro _ _ _) | (intro _ _) | split

theorem State.joins_keeps {s₀ : State} (s old : State) (hk : Keeps s₀ s) : Keeps s₀ (s.joins old) := by
  unfold State.joins
  dsimp only [Keeps]
  repeat' first | with_reducible assumption | with_reducible apply State.report_keeps | with_reducible apply State.each_keeps | with_reducible apply Keeps.ite | dsimp only | (intro _ _ _ _ _) | (intro _ _ _) | (intro _ _) | split

theorem State.clearUni_keeps {s₀ : State} (s : State) (u : Nat) (hk : Keeps s₀ s) : Keeps s₀ (State.clearUni s u) := by
  unfold State.clearUni
  dsimp only [Keeps]
  repeat' first | with_reducible assumption | with_reducible apply Keeps.ite | dsimp only | (intro _ _ _ _ _) | (intro _ _ _) | (intro _ _) | split

theorem State.applyLight_keeps {s₀ : State} (s : State) (m : LoCommit) (hk : Keeps s₀ s) : Keeps s₀ (State.applyLight s m) := by
  unfold State.applyLight
  dsimp only [Keeps]
  repeat' first | with_reducible assumption | with_reducible apply State.setFld_keeps | with_reducible apply State.setBit_keeps | with_reducible apply State.offer_keeps | with_reducible apply State.applyWords_keeps | with_reducible apply State.uniSync_keeps | with_reducible apply State.setSrc_keeps | with_reducible apply State.setUni_keeps | with_reducible apply State.loEvent_keeps | with_reducible apply State.joins_keeps | with_reducible apply State.clearUni_keeps | (with_reducible refine fst_keeps ‹_› ?_) | (with_reducible refine snd_keeps ‹_› ?_) | with_reducible apply State.each_keeps | with_reducible apply Keeps.ite | dsimp only | (intro _ _ _ _ _) | (intro _ _ _) | (intro _ _) | split | simp only [Keeps, List.length_set, List.length_map, List.length_modify]

theorem State.lightStart_keeps {s₀ : State} (s : State) (t f : Nat) (hk : Keeps s₀ s) : Keeps s₀ (State.lightStart s t f) := by
  have hm := State.mergeLate_keeps s hk
  unfold State.lightStart
  generalize s.mergeLate = m at hm
  dsimp only
  with_reducible apply Keeps.ite
  · have h2 := State.setBit_keeps (m.setBit Reg.LO_STATUS 31 false) Reg.LO_STATUS 30 false (State.setBit_keeps m Reg.LO_STATUS 31 false hm)
    exact ⟨h2.queue, h2.fuses, h2.mem, h2.sizes, h2.ims⟩
  · dsimp only [Keeps]
    repeat' first | with_reducible assumption | with_reducible apply State.setSrc_keeps | with_reducible apply State.expire_keeps | with_reducible apply State.tellLive_keeps | with_reducible apply State.jobsAtStart_keeps | with_reducible apply State.applyLight_keeps | with_reducible apply State.setReg_keeps | with_reducible apply State.setReg64_keeps | with_reducible apply State.each_keeps | with_reducible apply Keeps.ite | dsimp only | (intro _ _ _ _ _) | (intro _ _ _) | (intro _ _) | split

theorem execLightFrameStart_keeps {s₀ : State} (s : State) (hk : Keeps s₀ s) : KeepsOut s₀ (execLightFrameStart s) := by
  unfold execLightFrameStart
  repeat' first | with_reducible assumption | with_reducible apply State.setBit_keeps | with_reducible apply State.offer_keeps | with_reducible apply State.lightStart_keeps | with_reducible apply KeepsOut.next | with_reducible apply KeepsOut.ite | with_reducible apply Keeps.ite | dsimp only | (intro _ _ _ _ _) | (intro _ _ _) | (intro _ _) | split

theorem execLightHoldover_keeps {s₀ : State} (s : State) (hk : Keeps s₀ s) : KeepsOut s₀ (execLightHoldover s) := by
  unfold execLightHoldover
  repeat' first | with_reducible assumption | with_reducible apply State.setBit_keeps | with_reducible apply State.offer_keeps | with_reducible apply KeepsOut.next | with_reducible apply KeepsOut.ite | with_reducible apply Keeps.ite | dsimp only | (intro _ _ _ _ _) | (intro _ _ _) | (intro _ _) | split

theorem State.setDmx_keeps {s₀ : State} (s : State) (p : Nat) (x : DmxPort) (hk : Keeps s₀ s) : Keeps s₀ (State.setDmx s p x) := by
  unfold State.setDmx
  dsimp only [Keeps]
  repeat' first | with_reducible assumption | with_reducible apply Keeps.ite | dsimp only | (intro _ _ _ _ _) | (intro _ _ _) | (intro _ _) | split | simp only [Keeps, List.length_set, List.length_map, List.length_modify]

theorem State.dmxDrive_keeps {s₀ : State} (s : State) (p de ren : Nat) (hk : Keeps s₀ s) : Keeps s₀ (State.dmxDrive s p de ren) := by
  unfold State.dmxDrive
  dsimp only [Keeps]
  repeat' first | with_reducible assumption | with_reducible apply State.emitOn_keeps | with_reducible apply Keeps.ite | dsimp only | (intro _ _ _ _ _) | (intro _ _ _) | (intro _ _) | split

theorem State.dmxStart_keeps {s₀ : State} (s : State) (p : Nat) (hk : Keeps s₀ s) : Keeps s₀ (State.dmxStart s p) := by
  unfold State.dmxStart
  dsimp only [Keeps]
  repeat' first | with_reducible assumption | with_reducible apply State.setBit_keeps | with_reducible apply State.emitOn_keeps | with_reducible apply State.setDmx_keeps | with_reducible apply Keeps.ite | dsimp only | (intro _ _ _ _ _) | (intro _ _ _) | (intro _ _) | split

theorem State.setRdm_keeps {s₀ : State} (s : State) (p : Nat) (r : Rdm) (hk : Keeps s₀ s) : Keeps s₀ (State.setRdm s p r) := by
  unfold State.setRdm
  dsimp only [Keeps]
  repeat' first | with_reducible assumption | with_reducible apply State.count_keeps | with_reducible apply State.modJob_keeps | with_reducible apply State.setDmx_keeps | with_reducible apply Keeps.ite | dsimp only | (intro _ _ _ _ _) | (intro _ _ _) | (intro _ _) | split

theorem State.rdmStart_keeps {s₀ : State} (s : State) (p : Nat) (hk : Keeps s₀ s) : Keeps s₀ (State.rdmStart s p) := by
  unfold State.rdmStart
  dsimp only [Keeps]
  repeat' first | with_reducible assumption | with_reducible apply State.setBit_keeps | with_reducible apply State.emitOn_keeps | with_reducible apply State.setDmx_keeps | with_reducible apply State.dmxDrive_keeps | with_reducible apply State.setRdm_keeps | with_reducible apply Keeps.ite | dsimp only | (intro _ _ _ _ _) | (intro _ _ _) | (intro _ _) | split

theorem State.dmxNext_keeps {s₀ : State} (s : State) (p : Nat) (hk : Keeps s₀ s) : Keeps s₀ (State.dmxNext s p) := by
  unfold State.dmxNext
  dsimp only [Keeps]
  repeat' first | with_reducible assumption | with_reducible apply State.dmxStart_keeps | with_reducible apply State.rdmStart_keeps | with_reducible apply Keeps.ite | dsimp only | (intro _ _ _ _ _) | (intro _ _ _) | (intro _ _) | split

theorem execDmxPacketEnd_keeps {s₀ : State} (port : Fin 8) (s : State) (hk : Keeps s₀ s) : KeepsOut s₀ (execDmxPacketEnd port s) := by
  unfold execDmxPacketEnd
  repeat' first | with_reducible assumption | with_reducible apply State.setFld_keeps | with_reducible apply State.setBit_keeps | with_reducible apply State.setDmx_keeps | with_reducible apply State.dmxNext_keeps | with_reducible apply KeepsOut.next | with_reducible apply KeepsOut.ite | with_reducible apply Keeps.ite | dsimp only | (intro _ _ _ _ _) | (intro _ _ _) | (intro _ _) | split

theorem execEmissionStart_keeps {s₀ : State} (s : State) (hk : Keeps s₀ s) : KeepsOut s₀ (execEmissionStart s) := by
  unfold execEmissionStart
  repeat' first | with_reducible assumption | with_reducible apply State.setReg_keeps | with_reducible apply State.offerRateN_keeps | with_reducible apply State.loEvent_keeps | with_reducible apply State.setDmx_keeps | with_reducible apply State.dmxNext_keeps | with_reducible apply State.each_keeps | with_reducible apply KeepsOut.next | with_reducible apply KeepsOut.ite | with_reducible apply Keeps.ite | dsimp only | (intro _ _ _ _ _) | (intro _ _ _) | (intro _ _) | split

theorem execSacnPacketSent_keeps {s₀ : State} (port : Fin 2) (s : State) (hk : Keeps s₀ s) : KeepsOut s₀ (execSacnPacketSent port s) := by
  unfold execSacnPacketSent
  repeat' first | with_reducible assumption | with_reducible apply State.setReg_keeps | with_reducible apply State.netDropped_keeps | with_reducible apply State.netSendLight_keeps | with_reducible apply State.setUni_keeps | with_reducible apply KeepsOut.next | with_reducible apply KeepsOut.ite | with_reducible apply Keeps.ite | dsimp only | (intro _ _ _ _ _) | (intro _ _ _) | (intro _ _) | split

theorem execSacnDiscoverySend_keeps {s₀ : State} (s : State) (hk : Keeps s₀ s) : KeepsOut s₀ (execSacnDiscoverySend s) := by
  unfold execSacnDiscoverySend
  repeat' first | with_reducible assumption | with_reducible apply State.netSend_keeps | with_reducible apply State.each_keeps | with_reducible apply KeepsOut.next | with_reducible apply KeepsOut.ite | with_reducible apply Keeps.ite | dsimp only | (intro _ _ _ _ _) | (intro _ _ _) | (intro _ _) | split | simp only [Keeps, List.length_set, List.length_map, List.length_modify]

theorem State.rxSync_keeps {s₀ : State} (s : State) (i : Nat) (hk : Keeps s₀ s) : Keeps s₀ (State.rxSync s i) := by
  unfold State.rxSync
  dsimp only [Keeps]
  repeat' first | with_reducible assumption | with_reducible apply State.setFld_keeps | with_reducible apply foldl_keeps | with_reducible apply Keeps.ite | dsimp only | (intro _ _ _ _ _) | (intro _ _ _) | (intro _ _) | split | simp only [Keeps, List.length_set, List.length_map, List.length_modify]

theorem State.setSenders_keeps {s₀ : State} (s : State) (i : Nat) (l : List Sender) (hk : Keeps s₀ s) : Keeps s₀ (State.setSenders s i l) := by
  unfold State.setSenders
  dsimp only [Keeps]
  repeat' first | with_reducible assumption | with_reducible apply State.rxSync_keeps | with_reducible apply Keeps.ite | dsimp only | (intro _ _ _ _ _) | (intro _ _ _) | (intro _ _) | split

theorem State.rxDiscard_keeps {s₀ : State} (s : State) (i : Nat) (hk : Keeps s₀ s) : Keeps s₀ (State.rxDiscard s i) := by
  unfold State.rxDiscard
  dsimp only [Keeps]
  repeat' first | with_reducible assumption | with_reducible apply State.setFld_keeps | with_reducible apply Keeps.ite | dsimp only | (intro _ _ _ _ _) | (intro _ _ _) | (intro _ _) | split

theorem State.rxPacket_keeps {s₀ : State} (s : State) (i port : Nat) (k : SacnPacket) (hk : Keeps s₀ s) : Keeps s₀ (State.rxPacket s i port k) := by
  unfold State.rxPacket
  dsimp only [Keeps]
  repeat' first | with_reducible assumption | with_reducible apply State.offerRate_keeps | with_reducible apply State.setSenders_keeps | with_reducible apply State.rxDiscard_keeps | with_reducible apply Keeps.ite | dsimp only | (intro _ _ _ _ _) | (intro _ _ _) | (intro _ _) | split | simp only [Keeps, List.length_set, List.length_map, List.length_modify]

theorem execSacnPacketReceived_keeps {s₀ : State} (port : Fin 2) (packet : SacnPacket) (s : State) (hk : Keeps s₀ s) : KeepsOut s₀ (execSacnPacketReceived port packet s) := by
  unfold execSacnPacketReceived
  repeat' first | with_reducible assumption | with_reducible apply State.rxDiscard_keeps | with_reducible apply State.rxPacket_keeps | with_reducible apply State.each_keeps | with_reducible apply KeepsOut.next | with_reducible apply KeepsOut.ite | with_reducible apply Keeps.ite | dsimp only | (intro _ _ _ _ _) | (intro _ _ _) | (intro _ _) | split

theorem execSacnSenderTimeout_keeps {s₀ : State} (input : Fin 256) (cid : Nat) (s : State) (hk : Keeps s₀ s) : KeepsOut s₀ (execSacnSenderTimeout input cid s) := by
  unfold execSacnSenderTimeout
  repeat' first | with_reducible assumption | with_reducible apply State.setSenders_keeps | with_reducible apply KeepsOut.next | with_reducible apply KeepsOut.ite | with_reducible apply Keeps.ite | dsimp only | (intro _ _ _ _ _) | (intro _ _ _) | (intro _ _) | split

theorem execRdmTransaction_keeps {s₀ : State} (ctx : Fin 1024) (host : List (Nat × Byte)) (s : State) (hk : Keeps s₀ s) : KeepsOut s₀ (execRdmTransaction ctx host s) := by
  unfold execRdmTransaction
  repeat' first | with_reducible assumption | with_reducible apply State.markStarted_keeps | with_reducible apply State.faultJob_keeps | with_reducible apply State.faultAt_keeps | with_reducible apply State.eccSeen_keeps | with_reducible apply State.setDmx_keeps | with_reducible apply State.dmxNext_keeps | (with_reducible refine fst_keeps ‹_› ?_) | (with_reducible refine snd_keeps ‹_› ?_) | with_reducible apply State.each_keeps | with_reducible apply KeepsOut.next | with_reducible apply KeepsOut.ite | with_reducible apply Keeps.ite | dsimp only | (intro _ _ _ _ _) | (intro _ _ _) | (intro _ _) | split

theorem State.rdmByte_keeps {s₀ : State} (s : State) (p : Nat) (what : RdmRx) (hk : Keeps s₀ s) : Keeps s₀ (State.rdmByte s p what) := by
  unfold State.rdmByte
  dsimp only [Keeps]
  repeat' first | with_reducible assumption | with_reducible apply State.bufWrite_keeps | with_reducible apply State.faultAt_keeps | (with_reducible refine State.edgeFault_keeps _ _ _ _ _ _ _ ?_ ‹_›) | with_reducible apply State.setRdm_keeps | (with_reducible refine fst_keeps ‹_› ?_) | (with_reducible refine snd_keeps ‹_› ?_) | with_reducible apply State.each_keeps | with_reducible apply Keeps.ite | dsimp only | (intro _ _ _ _ _) | (intro _ _ _) | (intro _ _) | split

theorem execRdmResponseByte_keeps {s₀ : State} (port : Fin 8) (what : RdmRx) (s : State) (hk : Keeps s₀ s) : KeepsOut s₀ (execRdmResponseByte port what s) := by
  unfold execRdmResponseByte
  repeat' first | with_reducible assumption | with_reducible apply State.rdmByte_keeps | with_reducible apply KeepsOut.next | with_reducible apply KeepsOut.ite | with_reducible apply Keeps.ite | dsimp only | (intro _ _ _ _ _) | (intro _ _ _) | (intro _ _) | split

theorem execRdmResponseTimeout_keeps {s₀ : State} (port : Fin 8) (s : State) (hk : Keeps s₀ s) : KeepsOut s₀ (execRdmResponseTimeout port s) := by
  unfold execRdmResponseTimeout
  repeat' first | with_reducible assumption | with_reducible apply State.setRdm_keeps | with_reducible apply KeepsOut.next | with_reducible apply KeepsOut.ite | with_reducible apply Keeps.ite | dsimp only | (intro _ _ _ _ _) | (intro _ _ _) | (intro _ _) | split

theorem execRdmTransactionEnd_keeps {s₀ : State} (port : Fin 8) (s : State) (hk : Keeps s₀ s) : KeepsOut s₀ (execRdmTransactionEnd port s) := by
  unfold execRdmTransactionEnd
  repeat' first | with_reducible assumption | with_reducible apply State.endJob_keeps | with_reducible apply State.dmxStart_keeps | with_reducible apply KeepsOut.next | with_reducible apply KeepsOut.ite | with_reducible apply Keeps.ite | dsimp only | (intro _ _ _ _ _) | (intro _ _ _) | (intro _ _) | split

theorem State.dmxCfg_keeps {s₀ : State} (s : State) (p value : Nat) (hk : Keeps s₀ s) : Keeps s₀ (State.dmxCfg s p value) := by
  unfold State.dmxCfg
  dsimp only [Keeps]
  repeat' first | with_reducible assumption | with_reducible apply State.setReg_keeps | with_reducible apply State.setBit_keeps | with_reducible apply State.ungate_keeps | with_reducible apply State.setDmx_keeps | with_reducible apply State.dmxDrive_keeps | with_reducible apply Keeps.ite | dsimp only | (intro _ _ _ _ _) | (intro _ _ _) | (intro _ _) | split

theorem State.loadEnds_keeps {s₀ : State} (s : State) (how reason : Nat) (hk : Keeps s₀ s) : Keeps s₀ (State.loadEnds s how reason) := by
  unfold State.loadEnds
  dsimp only [Keeps]
  repeat' first | with_reducible assumption | with_reducible apply State.setFld_keeps | with_reducible apply State.setBit_keeps | with_reducible apply State.offer_keeps | with_reducible apply State.mgrIrq_keeps | with_reducible apply Keeps.ite | dsimp only | (intro _ _ _ _ _) | (intro _ _ _) | (intro _ _) | split

theorem State.loadCmd_keeps {s₀ : State} (s : State) (op kind : Nat) (hk : Keeps s₀ s) : Keeps s₀ (State.loadCmd s op kind) := by
  unfold State.loadCmd
  dsimp only [Keeps]
  repeat' first | with_reducible assumption | with_reducible apply State.setReg_keeps | with_reducible apply State.setFld_keeps | with_reducible apply State.setBit_keeps | with_reducible apply State.count_keeps | with_reducible apply State.offer_keeps | with_reducible apply State.mgrIrq_keeps | with_reducible apply Keeps.ite | dsimp only | (intro _ _ _ _ _) | (intro _ _ _) | (intro _ _) | split

theorem execLoLoad_keeps {s₀ : State} (kind : Fin 8) (s : State) (hk : Keeps s₀ s) : KeepsOut s₀ (execLoLoad kind s) := by
  unfold execLoLoad
  repeat' first | with_reducible assumption | with_reducible apply State.loadCmd_keeps | with_reducible apply KeepsOut.next | with_reducible apply KeepsOut.ite | with_reducible apply Keeps.ite | dsimp only | (intro _ _ _ _ _) | (intro _ _ _) | (intro _ _) | split

theorem execLoSync_keeps {s₀ : State} (kind : Fin 8) (s : State) (hk : Keeps s₀ s) : KeepsOut s₀ (execLoSync kind s) := by
  unfold execLoSync
  repeat' first | with_reducible assumption | with_reducible apply State.loadCmd_keeps | with_reducible apply KeepsOut.next | with_reducible apply KeepsOut.ite | with_reducible apply Keeps.ite | dsimp only | (intro _ _ _ _ _) | (intro _ _ _) | (intro _ _) | split

theorem State.syncRegion_keeps {s₀ : State} (s : State) (kind : Nat) (hk : Keeps s₀ s) : Keeps s₀ (State.syncRegion s kind) := by
  unfold State.syncRegion
  dsimp only [Keeps]
  repeat' first | with_reducible assumption | with_reducible apply State.write_keeps | with_reducible apply Keeps.ite | dsimp only | (intro _ _ _ _ _) | (intro _ _ _) | (intro _ _) | split

theorem execLoadEnd_keeps {s₀ : State} (host : List (Nat × Byte)) (hostError : Bool) (s : State) (hk : Keeps s₀ s) : KeepsOut s₀ (execLoadEnd host hostError s) := by
  unfold execLoadEnd
  repeat' first | with_reducible assumption | with_reducible apply State.count_keeps | with_reducible apply State.took_keeps | with_reducible apply State.write_keeps | with_reducible apply State.eccSeen_keeps | with_reducible apply State.touchMem_keeps | with_reducible apply State.loadEnds_keeps | with_reducible apply State.syncRegion_keeps | with_reducible apply State.each_keeps | with_reducible apply KeepsOut.next | with_reducible apply KeepsOut.ite | with_reducible apply Keeps.ite | dsimp only | (intro _ _ _ _ _) | (intro _ _ _) | (intro _ _) | split

theorem execLightCommit_keeps {s₀ : State} (switch atTime : Bool) (s : State) (hk : Keeps s₀ s) : KeepsOut s₀ (execLightCommit switch atTime s) := by
  unfold execLightCommit
  repeat' first | with_reducible assumption | with_reducible apply State.setFld_keeps | with_reducible apply State.setBit_keeps | with_reducible apply KeepsOut.next | with_reducible apply KeepsOut.ite | with_reducible apply Keeps.ite | dsimp only | (intro _ _ _ _ _) | (intro _ _ _) | (intro _ _) | split

theorem State.lightCode_keeps {s₀ : State} (s : State) (code index : Nat) (hk : Keeps s₀ s) : Keeps s₀ (State.lightCode s code index) := by
  unfold State.lightCode
  dsimp only [Keeps]
  repeat' first | with_reducible assumption | with_reducible apply State.setFld_keeps | with_reducible apply Keeps.ite | dsimp only | (intro _ _ _ _ _) | (intro _ _ _) | (intro _ _) | split

theorem execLightCommitChecked_keeps {s₀ : State} (s : State) (hk : Keeps s₀ s) : KeepsOut s₀ (execLightCommitChecked s) := by
  unfold execLightCommitChecked
  repeat' first | with_reducible assumption | with_reducible apply State.setBit_keeps | with_reducible apply State.offer_keeps | with_reducible apply State.loEvent_keeps | with_reducible apply State.lightCode_keeps | (with_reducible refine fst_keeps ‹_› ?_) | (with_reducible refine snd_keeps ‹_› ?_) | with_reducible apply KeepsOut.next | with_reducible apply KeepsOut.ite | with_reducible apply Keeps.ite | dsimp only | (intro _ _ _ _ _) | (intro _ _ _) | (intro _ _) | split

theorem State.loCtrl_keeps {s₀ : State} (s : State) (value : Nat) (hk : Keeps s₀ s) : Keeps s₀ (State.loCtrl s value) := by
  unfold State.loCtrl
  dsimp only [Keeps]
  repeat' first | with_reducible assumption | with_reducible apply State.setReg_keeps | with_reducible apply State.setFld_keeps | with_reducible apply State.setBit_keeps | with_reducible apply State.ungate_keeps | with_reducible apply State.uniSync_keeps | with_reducible apply State.joins_keeps | with_reducible apply State.lightCode_keeps | (with_reducible refine fst_keeps ‹_› ?_) | (with_reducible refine snd_keeps ‹_› ?_) | with_reducible apply Keeps.ite | dsimp only | (intro _ _ _ _ _) | (intro _ _ _) | (intro _ _) | split

theorem execLoCtrlWrite_keeps {s₀ : State} (value : Nat) (s : State) (hk : Keeps s₀ s) : KeepsOut s₀ (execLoCtrlWrite value s) := by
  unfold execLoCtrlWrite
  repeat' first | with_reducible assumption | with_reducible apply State.loCtrl_keeps | with_reducible apply KeepsOut.next | with_reducible apply KeepsOut.ite | with_reducible apply Keeps.ite | dsimp only | (intro _ _ _ _ _) | (intro _ _ _) | (intro _ _) | split

theorem State.hapEvent_keeps {s₀ : State} (s : State) (b : Nat) (hk : Keeps s₀ s) : Keeps s₀ (State.hapEvent s b) := by
  unfold State.hapEvent
  dsimp only [Keeps]
  repeat' first | with_reducible assumption | with_reducible apply State.setEvent_keeps | with_reducible apply Keeps.ite | dsimp only | (intro _ _ _ _ _) | (intro _ _ _) | (intro _ _) | split

theorem State.hapDropped_keeps {s₀ : State} (s : State) (n : Nat) (hk : Keeps s₀ s) : Keeps s₀ (State.hapDropped s n) := by
  unfold State.hapDropped
  dsimp only [Keeps]
  repeat' first | with_reducible assumption | with_reducible apply State.count_keeps | with_reducible apply State.offerRate_keeps | with_reducible apply State.hapEvent_keeps | with_reducible apply Keeps.ite | dsimp only | (intro _ _ _ _ _) | (intro _ _ _) | (intro _ _) | split

theorem State.hapArrive_keeps {s₀ : State} (s : State) (source rank channel : Nat) (t : Trig) (hk : Keeps s₀ s) : Keeps s₀ (State.hapArrive s source rank channel t) := by
  unfold State.hapArrive
  dsimp only [Keeps]
  repeat' first | with_reducible assumption | with_reducible apply State.hapDropped_keeps | with_reducible apply Keeps.ite | dsimp only | (intro _ _ _ _ _) | (intro _ _ _) | (intro _ _) | split

theorem State.audEvent_keeps {s₀ : State} (s : State) (b : Nat) (hk : Keeps s₀ s) : Keeps s₀ (State.audEvent s b) := by
  unfold State.audEvent
  dsimp only [Keeps]
  repeat' first | with_reducible assumption | with_reducible apply State.setEvent_keeps | with_reducible apply Keeps.ite | dsimp only | (intro _ _ _ _ _) | (intro _ _ _) | (intro _ _) | split

theorem State.inputDry_keeps {s₀ : State} (s : State) (i : Nat) (hk : Keeps s₀ s) : Keeps s₀ (State.inputDry s i) := by
  unfold State.inputDry
  dsimp only [Keeps]
  repeat' first | with_reducible assumption | with_reducible apply State.setReg_keeps | with_reducible apply State.setBit_keeps | with_reducible apply State.offerRate_keeps | with_reducible apply State.audEvent_keeps | with_reducible apply Keeps.ite | dsimp only | (intro _ _ _ _ _) | (intro _ _ _) | (intro _ _) | split

theorem State.alarm_keeps {s₀ : State} (s : State) (k : Nat) (on : Bool) (hk : Keeps s₀ s) : Keeps s₀ (State.alarm s k on) := by
  unfold State.alarm
  dsimp only [Keeps]
  repeat' first | with_reducible assumption | with_reducible apply State.setBit_keeps | with_reducible apply State.offer_keeps | with_reducible apply State.audEvent_keeps | with_reducible apply Keeps.ite | dsimp only | (intro _ _ _ _ _) | (intro _ _ _) | (intro _ _) | split

theorem State.ptpState_keeps {s₀ : State} (s : State) (new : Nat) (hk : Keeps s₀ s) : Keeps s₀ (State.ptpState s new) := by
  unfold State.ptpState
  dsimp only [Keeps]
  repeat' first | with_reducible assumption | with_reducible apply State.setFld_keeps | with_reducible apply State.offer_keeps | with_reducible apply State.netEvent_keeps | with_reducible apply Keeps.ite | dsimp only | (intro _ _ _ _ _) | (intro _ _ _) | (intro _ _) | split | simp only [Keeps, List.length_set, List.length_map, List.length_modify]

theorem State.setRate_keeps {s₀ : State} (s : State) (ppb : Int) (hk : Keeps s₀ s) : Keeps s₀ (State.setRate s ppb) := by
  unfold State.setRate
  dsimp only [Keeps]
  repeat' first | with_reducible assumption | with_reducible apply State.setFld_keeps | with_reducible apply Keeps.ite | dsimp only | (intro _ _ _ _ _) | (intro _ _ _) | (intro _ _) | split

theorem State.toHoldover_keeps {s₀ : State} (s : State) (hk : Keeps s₀ s) : Keeps s₀ (State.toHoldover s) := by
  unfold State.toHoldover
  dsimp only [Keeps]
  repeat' first | with_reducible assumption | with_reducible apply State.ptpState_keeps | with_reducible apply Keeps.ite | dsimp only | (intro _ _ _ _ _) | (intro _ _ _) | (intro _ _) | split

theorem State.toLeader_keeps {s₀ : State} (s : State) (hk : Keeps s₀ s) : Keeps s₀ (State.toLeader s) := by
  unfold State.toLeader
  dsimp only [Keeps]
  repeat' first | with_reducible assumption | with_reducible apply State.setFld_keeps | with_reducible apply State.ptpState_keeps | with_reducible apply State.setRate_keeps | with_reducible apply Keeps.ite | dsimp only | (intro _ _ _ _ _) | (intro _ _ _) | (intro _ _) | split

theorem State.flushPort_keeps {s₀ : State} (s : State) (p : Nat) (hk : Keeps s₀ s) : Keeps s₀ (State.flushPort s p) := by
  unfold State.flushPort
  exact State.netDropped_keeps s p _ hk

theorem State.ptpMoves_keeps {s₀ : State} (s : State) (p : Nat) (hk : Keeps s₀ s) : Keeps s₀ (State.ptpMoves s p) := by
  unfold State.ptpMoves
  dsimp only [Keeps]
  repeat' first | with_reducible assumption | with_reducible apply State.setFld_keeps | with_reducible apply State.joins_keeps | with_reducible apply State.toHoldover_keeps | with_reducible apply Keeps.ite | dsimp only | (intro _ _ _ _ _) | (intro _ _ _) | (intro _ _) | split

theorem State.moduleFault_keeps {s₀ : State} (s : State) (p : Nat) (hk : Keeps s₀ s) : Keeps s₀ (s.moduleFault p) :=
  State.netEvent_keeps _ _ (State.offer_keeps _ _ _ (State.emitOn_keeps _ _ _ (State.setBit_keeps _ _ _ _ hk)))

theorem execNetLinkDown_keeps {s₀ : State} (port : Fin 2) (cause : NetFault) (s : State) (hk : Keeps s₀ s) : KeepsOut s₀ (execNetLinkDown port cause s) := by
  unfold execNetLinkDown
  repeat' first | with_reducible assumption | with_reducible apply State.setBit_keeps | with_reducible apply State.count_keeps | with_reducible apply State.offer_keeps | with_reducible apply State.netEvent_keeps | with_reducible apply State.flushPort_keeps | with_reducible apply State.ptpMoves_keeps | with_reducible apply State.moduleFault_keeps | with_reducible apply KeepsOut.next | with_reducible apply KeepsOut.ite | with_reducible apply Keeps.ite | dsimp only | (intro _ _ _ _ _) | (intro _ _ _) | (intro _ _) | split

theorem execNetLinkUp_keeps {s₀ : State} (port : Fin 2) (s : State) (hk : Keeps s₀ s) : KeepsOut s₀ (execNetLinkUp port s) := by
  unfold execNetLinkUp
  repeat' first | with_reducible assumption | with_reducible apply State.setReg_keeps | with_reducible apply State.setFld_keeps | with_reducible apply State.offer_keeps | with_reducible apply State.netEvent_keeps | with_reducible apply State.report_keeps | with_reducible apply State.toLeader_keeps | with_reducible apply KeepsOut.next | with_reducible apply KeepsOut.ite | with_reducible apply Keeps.ite | dsimp only | (intro _ _ _ _ _) | (intro _ _ _) | (intro _ _) | split

theorem execTxdisPulseEnd_keeps {s₀ : State} (port : Fin 2) (s : State) (hk : Keeps s₀ s) : KeepsOut s₀ (execTxdisPulseEnd port s) := by
  unfold execTxdisPulseEnd
  repeat' first | with_reducible assumption | with_reducible apply State.setBit_keeps | with_reducible apply State.emitOn_keeps | with_reducible apply KeepsOut.next | with_reducible apply KeepsOut.ite | with_reducible apply Keeps.ite | dsimp only | (intro _ _ _ _ _) | (intro _ _ _) | (intro _ _) | split

theorem execModuleFaultRetry_keeps {s₀ : State} (port : Fin 2) (s : State) (hk : Keeps s₀ s) : KeepsOut s₀ (execModuleFaultRetry port s) := by
  unfold execModuleFaultRetry
  repeat' first | with_reducible assumption | with_reducible apply State.moduleFault_keeps | with_reducible apply KeepsOut.next | with_reducible apply KeepsOut.ite | with_reducible apply Keeps.ite | dsimp only | (intro _ _ _ _ _) | (intro _ _ _) | (intro _ _) | split

theorem State.netCtrl_keeps {s₀ : State} (s : State) (value : Nat) (hk : Keeps s₀ s) : Keeps s₀ (State.netCtrl s value) := by
  unfold State.netCtrl
  dsimp only [Keeps]
  repeat' first | with_reducible assumption | with_reducible apply State.setReg_keeps | with_reducible apply State.setBit_keeps | with_reducible apply State.ungate_keeps | with_reducible apply State.flushPort_keeps | with_reducible apply State.ptpMoves_keeps | with_reducible apply State.each_keeps | with_reducible apply Keeps.ite | dsimp only | (intro _ _ _ _ _) | (intro _ _ _) | (intro _ _) | split

theorem State.netCount_keeps {s₀ : State} (s : State) (k : Nat) (hk : Keeps s₀ s) : Keeps s₀ (State.netCount s k) := by
  unfold State.netCount
  dsimp only [Keeps]
  repeat' first | with_reducible assumption | with_reducible apply State.setReg_keeps | with_reducible apply Keeps.ite | dsimp only | (intro _ _ _ _ _) | (intro _ _ _) | (intro _ _) | split

theorem execEthernetFrameReceived_keeps {s₀ : State} (port : Fin 2) (frame : EthFrame) (s : State) (hk : Keeps s₀ s) : KeepsOut s₀ (execEthernetFrameReceived port frame s) := by
  unfold execEthernetFrameReceived
  repeat' first | with_reducible assumption | with_reducible apply State.netCount_keeps | with_reducible apply KeepsOut.next | with_reducible apply KeepsOut.ite | with_reducible apply Keeps.ite | dsimp only | (intro _ _ _ _ _) | (intro _ _ _) | (intro _ _) | split

theorem execArpRequest_keeps {s₀ : State} (port : Fin 2) (mac ipv4 target : Nat) (s : State) (hk : Keeps s₀ s) : KeepsOut s₀ (execArpRequest port mac ipv4 target s) := by
  unfold execArpRequest
  repeat' first | with_reducible assumption | with_reducible apply State.netSend_keeps | with_reducible apply KeepsOut.next | with_reducible apply KeepsOut.ite | with_reducible apply Keeps.ite | dsimp only | (intro _ _ _ _ _) | (intro _ _ _) | (intro _ _) | split

theorem execIcmpEchoRequest_keeps {s₀ : State} (port : Fin 2) (source target : Nat) (data : List Byte) (s : State) (hk : Keeps s₀ s) : KeepsOut s₀ (execIcmpEchoRequest port source target data s) := by
  unfold execIcmpEchoRequest
  repeat' first | with_reducible assumption | with_reducible apply State.netSend_keeps | with_reducible apply KeepsOut.next | with_reducible apply KeepsOut.ite | with_reducible apply Keeps.ite | dsimp only | (intro _ _ _ _ _) | (intro _ _ _) | (intro _ _) | split

theorem execIgmpQuery_keeps {s₀ : State} (port : Fin 2) (v2 : Bool) (group : Nat) (s : State) (hk : Keeps s₀ s) : KeepsOut s₀ (execIgmpQuery port v2 group s) := by
  unfold execIgmpQuery
  repeat' first | with_reducible assumption | with_reducible apply State.report_keeps | with_reducible apply KeepsOut.next | with_reducible apply KeepsOut.ite | with_reducible apply Keeps.ite | dsimp only | (intro _ _ _ _ _) | (intro _ _ _) | (intro _ _) | split | simp only [Keeps, List.length_set, List.length_map, List.length_modify]

theorem State.i2cGo_keeps {s₀ : State} (s : State) (p value : Nat) (hk : Keeps s₀ s) : Keeps s₀ (State.i2cGo s p value) := by
  unfold State.i2cGo
  dsimp only [Keeps]
  repeat' first | with_reducible assumption | with_reducible apply State.setReg_keeps | with_reducible apply State.setBit_keeps | with_reducible apply State.emitOn_keeps | with_reducible apply Keeps.ite | dsimp only | (intro _ _ _ _ _) | (intro _ _ _) | (intro _ _) | split

theorem execSfpI2cTransaction_keeps {s₀ : State} (port : Fin 2) (value : Nat) (ack : Bool) (data : Byte) (s : State) (hk : Keeps s₀ s) : KeepsOut s₀ (execSfpI2cTransaction port value ack data s) := by
  unfold execSfpI2cTransaction
  repeat' first | with_reducible assumption | with_reducible apply State.setFld_keeps | with_reducible apply State.setBit_keeps | with_reducible apply State.i2cGo_keeps | with_reducible apply KeepsOut.next | with_reducible apply KeepsOut.ite | with_reducible apply Keeps.ite | dsimp only | (intro _ _ _ _ _) | (intro _ _ _) | (intro _ _) | split

theorem State.follow_keeps {s₀ : State} (s : State) (f : Foreign) (hk : Keeps s₀ s) :
    Keeps s₀ (State.chooseLeader.follow s f) := by
  unfold State.chooseLeader.follow
  dsimp only [Keeps]
  repeat' first | with_reducible assumption | with_reducible apply State.setFld_keeps | with_reducible apply State.setReg64_keeps | with_reducible apply Keeps.ite | dsimp only | (intro _ _ _ _ _) | (intro _ _ _) | (intro _ _) | split

theorem State.chooseLeader_keeps {s₀ : State} (s : State) (hk : Keeps s₀ s) : Keeps s₀ (State.chooseLeader s) := by
  unfold State.chooseLeader
  dsimp only [Keeps]
  repeat' first | with_reducible assumption | with_reducible apply State.follow_keeps | with_reducible apply State.setFld_keeps | with_reducible apply State.toLeader_keeps | with_reducible apply Keeps.ite | dsimp only | (intro _ _ _ _ _) | (intro _ _ _) | (intro _ _) | split

theorem State.servo_keeps {s₀ : State} (s : State) (e : Int) (hk : Keeps s₀ s) : Keeps s₀ (State.servo s e) := by
  unfold State.servo
  dsimp only [Keeps]
  repeat' first | with_reducible assumption | with_reducible apply State.setReg_keeps | with_reducible apply State.setBit_keeps | with_reducible apply State.setReg64_keeps | with_reducible apply State.took_keeps | with_reducible apply State.offer_keeps | with_reducible apply State.netEvent_keeps | with_reducible apply State.setRate_keeps | with_reducible apply Keeps.ite | dsimp only | (intro _ _ _ _ _) | (intro _ _ _) | (intro _ _) | split

theorem State.measure_keeps {s₀ : State} (s : State) (t1 : Int) (t2 : Nat) (hk : Keeps s₀ s) : Keeps s₀ (State.measure s t1 t2) := by
  unfold State.measure
  dsimp only [Keeps]
  repeat' first | with_reducible assumption | with_reducible apply State.setFld_keeps | with_reducible apply State.ptpState_keeps | with_reducible apply State.servo_keeps | with_reducible apply Keeps.ite | dsimp only | (intro _ _ _ _ _) | (intro _ _ _) | (intro _ _) | split

theorem State.setDelay_keeps {s₀ : State} (s : State) (sum : Int) (hk : Keeps s₀ s) : Keeps s₀ (State.setDelay s sum) := by
  unfold State.setDelay
  dsimp only [Keeps]
  repeat' first | with_reducible assumption | with_reducible apply State.setReg_keeps | with_reducible apply State.took_keeps | with_reducible apply Keeps.ite | dsimp only | (intro _ _ _ _ _) | (intro _ _ _) | (intro _ _) | split

theorem State.ptpReceive_keeps {s₀ : State} (s : State) (p : Nat) (msg : PtpMsg) (hk : Keeps s₀ s) : Keeps s₀ (State.ptpReceive s p msg) := by
  unfold State.ptpReceive
  dsimp only [Keeps]
  repeat' first | with_reducible assumption | with_reducible apply State.netSend_keeps | with_reducible apply State.netCount_keeps | with_reducible apply State.chooseLeader_keeps | with_reducible apply State.measure_keeps | with_reducible apply State.setDelay_keeps | with_reducible apply Keeps.ite | dsimp only | (intro _ _ _ _ _) | (intro _ _ _) | (intro _ _) | split | simp only [Keeps, List.length_set, List.length_map, List.length_modify]

theorem execPtpMessageReceived_keeps {s₀ : State} (port : Fin 2) (domain : Nat) (msg : PtpMsg) (s : State) (hk : Keeps s₀ s) : KeepsOut s₀ (execPtpMessageReceived port domain msg s) := by
  unfold execPtpMessageReceived
  repeat' first | with_reducible assumption | with_reducible apply State.ptpReceive_keeps | with_reducible apply KeepsOut.next | with_reducible apply KeepsOut.ite | with_reducible apply Keeps.ite | dsimp only | (intro _ _ _ _ _) | (intro _ _ _) | (intro _ _) | split

theorem State.nextSeq_keeps {s₀ : State} (s : State) (i : Nat) (hk : Keeps s₀ s) : Keeps s₀ (State.nextSeq s i).2 := by
  unfold State.nextSeq
  dsimp only [Keeps]
  repeat' first | with_reducible assumption | with_reducible apply Keeps.ite | dsimp only | (intro _ _ _ _ _) | (intro _ _ _) | (intro _ _) | split | simp only [Keeps, List.length_set, List.length_map, List.length_modify]

theorem execPtpMessageSend_keeps {s₀ : State} (what : PtpSend) (s : State) (hk : Keeps s₀ s) : KeepsOut s₀ (execPtpMessageSend what s) := by
  unfold execPtpMessageSend
  repeat' first | with_reducible assumption | with_reducible apply State.netSend_keeps | with_reducible apply State.nextSeq_keeps | (with_reducible refine fst_keeps ‹_› ?_) | (with_reducible refine snd_keeps ‹_› ?_) | with_reducible apply KeepsOut.next | with_reducible apply KeepsOut.ite | with_reducible apply Keeps.ite | dsimp only | (intro _ _ _ _ _) | (intro _ _ _) | (intro _ _) | split

theorem execPtpReceiptTimeout_keeps {s₀ : State} (announce : Bool) (s : State) (hk : Keeps s₀ s) : KeepsOut s₀ (execPtpReceiptTimeout announce s) := by
  unfold execPtpReceiptTimeout
  repeat' first | with_reducible assumption | with_reducible apply State.setFld_keeps | with_reducible apply State.toHoldover_keeps | with_reducible apply State.toLeader_keeps | with_reducible apply KeepsOut.next | with_reducible apply KeepsOut.ite | with_reducible apply Keeps.ite | dsimp only | (intro _ _ _ _ _) | (intro _ _ _) | (intro _ _) | split

theorem execPpsPulse_keeps {s₀ : State} (s : State) (hk : Keeps s₀ s) : KeepsOut s₀ (execPpsPulse s) := by
  unfold execPpsPulse
  repeat' first | with_reducible assumption | with_reducible apply State.emitOn_keeps | with_reducible apply KeepsOut.next | with_reducible apply KeepsOut.ite | with_reducible apply Keeps.ite | dsimp only | (intro _ _ _ _ _) | (intro _ _ _) | (intro _ _) | split

theorem State.setAesRx_keeps {s₀ : State} (s : State) (k : Nat) (x : AesRx) (hk : Keeps s₀ s) : Keeps s₀ (State.setAesRx s k x) := by
  unfold State.setAesRx
  dsimp only [Keeps]
  repeat' first | with_reducible assumption | with_reducible apply Keeps.ite | dsimp only | (intro _ _ _ _ _) | (intro _ _ _) | (intro _ _) | split | simp only [Keeps, List.length_set, List.length_map, List.length_modify]

theorem execAes67TxPacket_keeps {s₀ : State} (stream : Fin 8) (s : State) (hk : Keeps s₀ s) : KeepsOut s₀ (execAes67TxPacket stream s) := by
  unfold execAes67TxPacket
  repeat' first | with_reducible assumption | with_reducible apply State.setReg_keeps | with_reducible apply State.netSend_keeps | with_reducible apply State.each_keeps | with_reducible apply KeepsOut.next | with_reducible apply KeepsOut.ite | with_reducible apply Keeps.ite | dsimp only | (intro _ _ _ _ _) | (intro _ _ _) | (intro _ _) | split | simp only [Keeps, List.length_set, List.length_map, List.length_modify]

theorem State.aesLost_keeps {s₀ : State} (s : State) (k n : Nat) (hk : Keeps s₀ s) : Keeps s₀ (State.aesLost s k n) := by
  unfold State.aesLost
  dsimp only [Keeps]
  repeat' first | with_reducible assumption | with_reducible apply State.setFld_keeps | with_reducible apply Keeps.ite | dsimp only | (intro _ _ _ _ _) | (intro _ _ _) | (intro _ _) | split

theorem State.aesMissed_keeps {s₀ : State} (s : State) (k : Nat) (hk : Keeps s₀ s) : Keeps s₀ (State.aesMissed s k) := by
  unfold State.aesMissed
  dsimp only [Keeps]
  repeat' first | with_reducible assumption | with_reducible apply State.setAesRx_keeps | with_reducible apply State.aesLost_keeps | with_reducible apply Keeps.ite | dsimp only | (intro _ _ _ _ _) | (intro _ _ _) | (intro _ _) | split | simp only [Keeps, List.length_set, List.length_map, List.length_modify]

theorem State.aesReceive_keeps {s₀ : State} (s0 : State) (k p seq stamp : Nat) (samples : List (List Int)) (hk : Keeps s₀ s0) : Keeps s₀ (State.aesReceive s0 k p seq stamp samples) := by
  unfold State.aesReceive
  dsimp only [Keeps]
  repeat' first | with_reducible assumption | with_reducible apply State.setBit_keeps | with_reducible apply State.setAesRx_keeps | with_reducible apply State.aesLost_keeps | with_reducible apply State.aesMissed_keeps | with_reducible apply Keeps.ite | dsimp only | (intro _ _ _ _ _) | (intro _ _ _) | (intro _ _) | split | simp only [Keeps, List.length_set, List.length_map, List.length_modify]

theorem execAes67RxPacket_keeps {s₀ : State} (stream : Fin 8) (port : Fin 2) (seq stamp : Nat) (samples : List (List Int)) (s : State) (hk : Keeps s₀ s) : KeepsOut s₀ (execAes67RxPacket stream port seq stamp samples s) := by
  unfold execAes67RxPacket
  repeat' first | with_reducible assumption | with_reducible apply State.aesReceive_keeps | with_reducible apply KeepsOut.next | with_reducible apply KeepsOut.ite | with_reducible apply Keeps.ite | dsimp only | (intro _ _ _ _ _) | (intro _ _ _) | (intro _ _) | split

theorem State.aesEnable_keeps {s₀ : State} (s old : State) (tx : Bool) (k : Nat) (hk : Keeps s₀ s) : Keeps s₀ (s.aesEnable old tx k) := by
  unfold State.aesEnable
  dsimp only [Keeps]
  repeat' first | with_reducible assumption | with_reducible apply State.joins_keeps | with_reducible apply State.setBit_keeps | with_reducible apply State.setAesRx_keeps | with_reducible apply Keeps.ite | dsimp only | (intro _ _ _ _ _) | (intro _ _ _) | (intro _ _) | split | simp only [Keeps, List.length_set, List.length_map, List.length_modify]

theorem execAesRxLoss_keeps {s₀ : State} (stream : Fin 8) (s : State) (hk : Keeps s₀ s) : KeepsOut s₀ (execAesRxLoss stream s) := by
  unfold execAesRxLoss
  repeat' first | with_reducible assumption | with_reducible apply State.setBit_keeps | with_reducible apply State.offer_keeps | with_reducible apply State.netEvent_keeps | with_reducible apply State.inputDry_keeps | with_reducible apply State.each_keeps | with_reducible apply KeepsOut.next | with_reducible apply KeepsOut.ite | with_reducible apply Keeps.ite | dsimp only | (intro _ _ _ _ _) | (intro _ _ _) | (intro _ _) | split

end Sys2Proof.Machine
end

