-- ==== Sys2Proof/Laws/KeepsTouch.lean ====
section
/-! SUPPORT. The relation `Keeps` through touch, haptics and audio. -/

set_option linter.unreachableTactic false
set_option linter.unusedTactic false
set_option linter.unusedSimpArgs false

namespace Sys2Proof.Machine

theorem State.tchEvent_keeps {s₀ : State} (s : State) (b : Nat) (hk : Keeps s₀ s) : Keeps s₀ (State.tchEvent s b) := by
  unfold State.tchEvent
  dsimp only [Keeps]
  repeat' first | with_reducible assumption | with_reducible apply State.setEvent_keeps | with_reducible apply Keeps.ite | dsimp only | (intro _ _ _ _ _) | (intro _ _ _) | (intro _ _) | split

theorem State.setBaselines_keeps {s₀ : State} (s : State) (u p : Nat) (l : List Nat) (hk : Keeps s₀ s) : Keeps s₀ (State.setBaselines s u p l) := by
  unfold State.setBaselines
  dsimp only [Keeps]
  repeat' first | with_reducible assumption | with_reducible apply State.write_keeps | with_reducible apply Keeps.ite | dsimp only | (intro _ _ _ _ _) | (intro _ _ _) | (intro _ _) | split

theorem State.beginUnit_keeps {s₀ : State} (s : State) (u : Nat) (hk : Keeps s₀ s) : Keeps s₀ (State.beginUnit s u) := by
  unfold State.beginUnit
  dsimp only [Keeps]
  repeat' first | with_reducible assumption | with_reducible apply State.setFld_keeps | with_reducible apply State.setBit_keeps | with_reducible apply State.setTchUnit_keeps | with_reducible apply Keeps.ite | dsimp only | (intro _ _ _ _ _) | (intro _ _ _) | (intro _ _) | split | simp only [Keeps, List.length_set, List.length_map, List.length_modify]

theorem State.pkUp_keeps {s₀ : State} (s : State) (k m : Nat) (hk : Keeps s₀ s) : Keeps s₀ (State.pkUp s k m) := by
  unfold State.pkUp
  dsimp only [Keeps]
  repeat' first | with_reducible assumption | with_reducible apply State.setBit_keeps | with_reducible apply State.setCtl_keeps | with_reducible apply State.alarm_keeps | with_reducible apply Keeps.ite | dsimp only | (intro _ _ _ _ _) | (intro _ _ _) | (intro _ _) | split

theorem State.pkDown_keeps {s₀ : State} (s : State) (k m : Nat) (hk : Keeps s₀ s) : Keeps s₀ (State.pkDown s k m) := by
  unfold State.pkDown
  dsimp only [Keeps]
  repeat' first | with_reducible assumption | with_reducible apply State.setBit_keeps | with_reducible apply State.setCtl_keeps | with_reducible apply State.alarm_keeps | with_reducible apply Keeps.ite | dsimp only | (intro _ _ _ _ _) | (intro _ _ _) | (intro _ _) | split

theorem State.endControl_keeps {s₀ : State} (s : State) (m reason : Nat) (hk : Keeps s₀ s) : Keeps s₀ (State.endControl s m reason) := by
  unfold State.endControl
  dsimp only [Keeps]
  repeat' first | with_reducible assumption | with_reducible apply State.setCtl_keeps | with_reducible apply State.tell_keeps | with_reducible apply State.pkTell_keeps | with_reducible apply State.pkUp_keeps | with_reducible apply Keeps.ite | dsimp only | (intro _ _ _ _ _) | (intro _ _ _) | (intro _ _) | split

theorem State.endContact_keeps {s₀ : State} (s : State) (n : Nat) (x : Contact) (reason : Nat) (hk : Keeps s₀ s) : Keeps s₀ (State.endContact s n x reason) := by
  unfold State.endContact
  dsimp only [Keeps]
  repeat' first | with_reducible assumption | with_reducible apply State.setFld_keeps | with_reducible apply State.setTchUnit_keeps | with_reducible apply State.tell_keeps | with_reducible apply Keeps.ite | dsimp only | (intro _ _ _ _ _) | (intro _ _ _) | (intro _ _) | split

theorem State.reportMsgs_keeps {s₀ : State} (s old : State) (hk : Keeps s₀ s) : Keeps s₀ (s.reportMsgs old) := by
  unfold State.reportMsgs
  dsimp only [Keeps]
  repeat' first | with_reducible assumption | with_reducible apply State.ctxMsg_keeps | with_reducible apply State.each_keeps | with_reducible apply Keeps.ite | dsimp only | (intro _ _ _ _ _) | (intro _ _ _) | (intro _ _) | split

theorem State.stopUnit_keeps {s₀ : State} (s : State) (u : Nat) (hk : Keeps s₀ s) : Keeps s₀ (State.stopUnit s u) := by
  unfold State.stopUnit
  dsimp only [Keeps]
  repeat' first | with_reducible assumption | with_reducible apply State.setFld_keeps | with_reducible apply State.setBit_keeps | with_reducible apply State.setTchUnit_keeps | with_reducible apply State.endControl_keeps | with_reducible apply State.endContact_keeps | with_reducible apply State.reportMsgs_keeps | with_reducible apply State.each_keeps | with_reducible apply Keeps.ite | dsimp only | (intro _ _ _ _ _) | (intro _ _ _) | (intro _ _) | split

theorem State.latchReports_keeps {s₀ : State} (s : State) (hk : Keeps s₀ s) : Keeps s₀ (State.latchReports s) := by
  unfold State.latchReports
  dsimp only [Keeps]
  repeat' first | with_reducible assumption | with_reducible apply State.report_keeps | with_reducible apply Keeps.ite | dsimp only | (intro _ _ _ _ _) | (intro _ _ _) | (intro _ _) | split

theorem State.touchApply_keeps {s₀ : State} (s : State) (hk : Keeps s₀ s) : Keeps s₀ (State.touchApply s) := by
  unfold State.touchApply
  dsimp only [Keeps]
  repeat' first | with_reducible assumption | with_reducible apply State.setFld_keeps | with_reducible apply State.setBit_keeps | with_reducible apply State.offer_keeps | with_reducible apply State.applyWords_keeps | with_reducible apply State.tchEvent_keeps | with_reducible apply Keeps.ite | dsimp only | (intro _ _ _ _ _) | (intro _ _ _) | (intro _ _) | split

theorem State.tchFrameBegin_keeps {s₀ : State} (s : State) (hk : Keeps s₀ s) : Keeps s₀ (State.tchFrameBegin s) := by
  unfold State.tchFrameBegin
  dsimp only [Keeps]
  repeat' first | with_reducible assumption | with_reducible apply State.beginUnit_keeps | with_reducible apply State.latchReports_keeps | with_reducible apply State.touchApply_keeps | with_reducible apply State.each_keeps | with_reducible apply Keeps.ite | dsimp only | (intro _ _ _ _ _) | (intro _ _ _) | (intro _ _) | split

theorem State.tchCtrl_keeps {s₀ : State} (s : State) (value : Nat) (hk : Keeps s₀ s) : Keeps s₀ (State.tchCtrl s value) := by
  unfold State.tchCtrl
  dsimp only [Keeps]
  repeat' first | with_reducible assumption | with_reducible apply State.setReg_keeps | with_reducible apply State.setBit_keeps | with_reducible apply State.ungate_keeps | with_reducible apply State.offer_keeps | with_reducible apply State.tchEvent_keeps | with_reducible apply State.stopUnit_keeps | with_reducible apply State.tchFrameBegin_keeps | with_reducible apply State.each_keeps | with_reducible apply Keeps.ite | dsimp only | (intro _ _ _ _ _) | (intro _ _ _) | (intro _ _) | split

theorem execTchCtrlWrite_keeps {s₀ : State} (value : Nat) (s : State) (hk : Keeps s₀ s) : KeepsOut s₀ (execTchCtrlWrite value s) := by
  unfold execTchCtrlWrite
  repeat' first | with_reducible assumption | with_reducible apply State.tchCtrl_keeps | with_reducible apply KeepsOut.next | with_reducible apply KeepsOut.ite | with_reducible apply Keeps.ite | dsimp only | (intro _ _ _ _ _) | (intro _ _ _) | (intro _ _) | split

theorem State.captureFrame_keeps {s₀ : State} (s : State) (u p : Nat) (raw : List Nat) (hk : Keeps s₀ s) : Keeps s₀ (State.captureFrame s u p raw) := by
  unfold State.captureFrame
  dsimp only [Keeps]
  repeat' first | with_reducible assumption | with_reducible apply State.setFld_keeps | with_reducible apply State.setBit_keeps | with_reducible apply State.offer_keeps | with_reducible apply State.setTchUnit_keeps | with_reducible apply State.tchEvent_keeps | with_reducible apply State.setBaselines_keeps | with_reducible apply State.each_keeps | with_reducible apply Keeps.ite | dsimp only | (intro _ _ _ _ _) | (intro _ _ _) | (intro _ _) | split | simp only [Keeps, List.length_set, List.length_map, List.length_modify]

theorem State.recapture_keeps {s₀ : State} (s : State) (u : Nat) (nodes : List Nat) (hk : Keeps s₀ s) : Keeps s₀ (State.recapture s u nodes) := by
  unfold State.recapture
  dsimp only [Keeps]
  repeat' first | with_reducible assumption | with_reducible apply State.setTchUnit_keeps | with_reducible apply Keeps.ite | dsimp only | (intro _ _ _ _ _) | (intro _ _ _) | (intro _ _) | split | simp only [Keeps, List.length_set, List.length_map, List.length_modify]

theorem State.negFrame_keeps {s₀ : State} (s : State) (u : Nat) (d : List Int) (skip : List Nat) (hk : Keeps s₀ s) : Keeps s₀ (State.negFrame s u d skip) := by
  unfold State.negFrame
  dsimp only [Keeps]
  repeat' first | with_reducible assumption | with_reducible apply State.offer_keeps | with_reducible apply State.setTchUnit_keeps | with_reducible apply State.tchEvent_keeps | with_reducible apply State.recapture_keeps | with_reducible apply Keeps.ite | dsimp only | (intro _ _ _ _ _) | (intro _ _ _) | (intro _ _) | split | simp only [Keeps, List.length_set, List.length_map, List.length_modify]

theorem State.contactFrame_keeps {s₀ : State} (s : State) (n : Nat) (v : List Int) (hk : Keeps s₀ s) : Keeps s₀ (State.contactFrame s n v).1 := by
  unfold State.contactFrame
  dsimp only [Keeps]
  repeat' first | with_reducible assumption | with_reducible apply State.setFld_keeps | with_reducible apply State.count_keeps | with_reducible apply State.offer_keeps | with_reducible apply State.setTchUnit_keeps | with_reducible apply State.tchEvent_keeps | (with_reducible refine fst_keeps ‹_› ?_) | (with_reducible refine snd_keeps ‹_› ?_) | with_reducible apply Keeps.ite | dsimp only | (intro _ _ _ _ _) | (intro _ _ _) | (intro _ _) | split | simp only [Keeps, List.length_set, List.length_map, List.length_modify]

theorem State.detents_keeps {s₀ : State} (s : State) (m count : Nat) (hk : Keeps s₀ s) : Keeps s₀ (State.detents s m count) := by
  unfold State.detents
  dsimp only [Keeps]
  repeat' first | with_reducible assumption | with_reducible apply State.count_keeps | with_reducible apply State.hapArrive_keeps | with_reducible apply foldl_keeps | with_reducible apply Keeps.ite | dsimp only | (intro _ _ _ _ _) | (intro _ _ _) | (intro _ _) | split

theorem State.controlFrame_keeps {s₀ : State} (s : State) (m : Nat) (v : List Int) (hk : Keeps s₀ s) : Keeps s₀ (State.controlFrame s m v).1 := by
  unfold State.controlFrame
  dsimp only [Keeps]
  repeat' first | with_reducible assumption | with_reducible apply State.setCtl_keeps | with_reducible apply State.report_keeps | with_reducible apply State.pkUp_keeps | with_reducible apply State.pkDown_keeps | with_reducible apply State.detents_keeps | with_reducible apply foldl_keeps | with_reducible apply Keeps.ite | dsimp only | (intro _ _ _ _ _) | (intro _ _ _) | (intro _ _) | split | simp only [Keeps, List.length_set, List.length_map, List.length_modify]

theorem State.refreshFrame_keeps {s₀ : State} (s : State) (u : Nat) (raw : List Nat) (hk : Keeps s₀ s) : Keeps s₀ (State.refreshFrame s u raw) := by
  unfold State.refreshFrame
  dsimp only [Keeps]
  repeat' first | with_reducible assumption | with_reducible apply State.setTchUnit_keeps | with_reducible apply State.setBaselines_keeps | with_reducible apply State.captureFrame_keeps | with_reducible apply Keeps.ite | dsimp only | (intro _ _ _ _ _) | (intro _ _ _) | (intro _ _) | split | simp only [Keeps, List.length_set, List.length_map, List.length_modify]

theorem State.quietFrame_keeps {s₀ : State} (s : State) (u : Nat) (noise : List (Nat × Nat × Nat)) (hk : Keeps s₀ s) : Keeps s₀ (State.quietFrame s u noise) := by
  unfold State.quietFrame
  dsimp only [Keeps]
  repeat' first | with_reducible assumption | with_reducible apply State.setReg_keeps | with_reducible apply State.setFld_keeps | with_reducible apply State.offer_keeps | with_reducible apply State.offerRate_keeps | with_reducible apply State.setTchUnit_keeps | with_reducible apply State.tchEvent_keeps | with_reducible apply foldl_keeps | with_reducible apply Keeps.ite | dsimp only | (intro _ _ _ _ _) | (intro _ _ _) | (intro _ _) | split | simp only [Keeps, List.length_set, List.length_map, List.length_modify]

theorem FrameOut.ordinary_keeps {s₀ : State} (o : FrameOut) (u : Nat) (raw : List Nat) (hk : Keeps s₀ o.st) :
    Keeps s₀ (o.ordinary u raw).st := by
  unfold FrameOut.ordinary
  dsimp only
  rw [apply_ite FrameOut.st]
  with_reducible apply Keeps.ite
  · with_reducible exact State.captureFrame_keeps _ _ _ _ (State.setTchUnit_keeps _ _ _ hk)
  · have h4 : ∀ (t : State) p b d k f, Keeps s₀ t → Keeps s₀ (((let s2 := t.setBaselines u p b
        s2.setTchUnit u { s2.tchUnit u with frozen := f }).captureFrame u p raw).negFrame u d k) :=
      fun t p b d k f h => State.negFrame_keeps _ _ _ _ (State.captureFrame_keeps _ _ _ _
        (State.setTchUnit_keeps _ _ _ (State.setBaselines_keeps _ _ _ _ h)))
    rw [apply_ite FrameOut.st]
    with_reducible apply Keeps.ite
    · with_reducible exact State.contactFrame_keeps _ _ _ (h4 _ _ _ _ _ _ (State.setTchUnit_keeps _ _ _ hk))
    · with_reducible refine foldl_keeps_of FrameOut.st (fun c m h => ?_) (h4 _ _ _ _ _ _ (State.setTchUnit_keeps _ _ _ hk))
      exact State.controlFrame_keeps _ _ _ h

theorem FrameOut.unit_keeps {s₀ : State} (o : FrameOut) (n : Nat) (noise : List (Nat × Nat × Nat)) (u : Nat)
    (raw : List Nat) (hk : Keeps s₀ o.st) : Keeps s₀ (o.unit n noise u raw).st := by
  unfold FrameOut.unit
  split
  · exact hk
  · split
    · exact FrameOut.ordinary_keeps _ _ _ hk
    · split
      · exact State.quietFrame_keeps _ _ _ hk
      · exact State.refreshFrame_keeps _ _ _ hk

theorem State.touchFrame_keeps {s₀ : State} (s : State) (raw : List (Nat × List Nat)) (noise : List (Nat × Nat × Nat))
    (hk : Keeps s₀ s) : Keeps s₀ (State.touchFrame s raw noise) := by
  unfold State.touchFrame
  dsimp only
  have h0 : Keeps s₀ { s with tch := { s.tch with tF := s.clk.stm, nF := s.reg Reg.TCH_FRAME } } := hk
  generalize ({ s with tch := { s.tch with tF := s.clk.stm, nF := s.reg Reg.TCH_FRAME } } : State) = s1 at h0 ⊢
  have h1 := foldl_keeps_of (l := List.range 9) (b := ({ st := s1 } : FrameOut)) FrameOut.st
    (fun (a : FrameOut) u h => FrameOut.unit_keeps a (s.reg Reg.TCH_FRAME) noise u
      (((raw.find? fun r => r.1 == u).map (·.2)).getD []) h) h0
  dsimp only [Keeps] at h1 ⊢
  repeat' first | with_reducible assumption | with_reducible apply State.tchFrameBegin_keeps | with_reducible apply State.setReg_keeps | with_reducible apply State.reportMsgs_keeps | with_reducible apply State.touchRoom_keeps | with_reducible apply State.sendSet_keeps | with_reducible apply State.tell_keeps | with_reducible apply State.pkTell_keeps | with_reducible apply State.each_keeps | with_reducible apply Keeps.ite | dsimp only | (intro _ _ _ _ _) | (intro _ _ _) | (intro _ _) | split

theorem execTouchFrameEnd_keeps {s₀ : State} (raw : List (Nat × List Nat)) (noise : List (Nat × Nat × Nat)) (s : State) (hk : Keeps s₀ s) : KeepsOut s₀ (execTouchFrameEnd raw noise s) := by
  unfold execTouchFrameEnd
  repeat' first | with_reducible assumption | with_reducible apply State.touchFrame_keeps | with_reducible apply KeepsOut.next | with_reducible apply KeepsOut.ite | with_reducible apply Keeps.ite | dsimp only | (intro _ _ _ _ _) | (intro _ _ _) | (intro _ _) | split

theorem execStuckRelease_keeps {s₀ : State} (touch : TouchId) (s : State) (hk : Keeps s₀ s) : KeepsOut s₀ (execStuckRelease touch s) := by
  unfold execStuckRelease
  repeat' first | with_reducible assumption | with_reducible apply State.offer_keeps | with_reducible apply State.tchEvent_keeps | with_reducible apply State.endControl_keeps | with_reducible apply State.endContact_keeps | with_reducible apply State.reportMsgs_keeps | with_reducible apply State.recapture_keeps | with_reducible apply KeepsOut.next | with_reducible apply KeepsOut.ite | with_reducible apply Keeps.ite | dsimp only | (intro _ _ _ _ _) | (intro _ _ _) | (intro _ _) | split | simp only [Keeps, List.length_set, List.length_map, List.length_modify]

theorem execKeyHeldLong_keeps {s₀ : State} (key : Fin 32) (s : State) (hk : Keeps s₀ s) : KeepsOut s₀ (execKeyHeldLong key s) := by
  unfold execKeyHeldLong
  repeat' first | with_reducible assumption | with_reducible apply State.setBit_keeps | with_reducible apply State.offer_keeps | with_reducible apply State.pkTell_keeps | with_reducible apply State.tchEvent_keeps | with_reducible apply KeepsOut.next | with_reducible apply KeepsOut.ite | with_reducible apply Keeps.ite | dsimp only | (intro _ _ _ _ _) | (intro _ _ _) | (intro _ _) | split

theorem State.resyncAsk_keeps {s₀ : State} (s : State) (p : Nat) (hk : Keeps s₀ s) : Keeps s₀ (State.resyncAsk s p) := by
  unfold State.resyncAsk
  dsimp only [Keeps]
  repeat' first | with_reducible assumption | with_reducible apply Keeps.ite | dsimp only | (intro _ _ _ _ _) | (intro _ _ _) | (intro _ _) | split

theorem execTouchResync_keeps {s₀ : State} (paddock : Fin 64) (s : State) (hk : Keeps s₀ s) : KeepsOut s₀ (execTouchResync paddock s) := by
  unfold execTouchResync
  repeat' first | with_reducible assumption | with_reducible apply State.resyncAsk_keeps | with_reducible apply State.each_keeps | with_reducible apply KeepsOut.next | with_reducible apply KeepsOut.ite | with_reducible apply Keeps.ite | dsimp only | (intro _ _ _ _ _) | (intro _ _ _) | (intro _ _) | split

theorem State.touchCommit_keeps {s₀ : State} (s : State) (scope : Nat) (hk : Keeps s₀ s) : Keeps s₀ (State.touchCommit s scope) := by
  unfold State.touchCommit
  dsimp only [Keeps]
  repeat' first | with_reducible assumption | with_reducible apply State.setFld_keeps | with_reducible apply State.setBit_keeps | with_reducible apply State.offer_keeps | with_reducible apply State.tchEvent_keeps | with_reducible apply Keeps.ite | dsimp only | (intro _ _ _ _ _) | (intro _ _ _) | (intro _ _) | split

theorem execTouchCommit_keeps {s₀ : State} (scope : Nat) (s : State) (hk : Keeps s₀ s) : KeepsOut s₀ (execTouchCommit scope s) := by
  unfold execTouchCommit
  repeat' first | with_reducible assumption | with_reducible apply State.touchCommit_keeps | with_reducible apply KeepsOut.next | with_reducible apply KeepsOut.ite | with_reducible apply Keeps.ite | dsimp only | (intro _ _ _ _ _) | (intro _ _ _) | (intro _ _) | split

theorem State.grazeWake_keeps {s₀ : State} (s : State) (node : Nat) (hk : Keeps s₀ s) : Keeps s₀ (State.grazeWake s node) := by
  unfold State.grazeWake
  dsimp only [Keeps]
  repeat' first | with_reducible assumption | with_reducible apply State.wakeBy_keeps | with_reducible apply Keeps.ite | dsimp only | (intro _ _ _ _ _) | (intro _ _ _) | (intro _ _) | split

theorem State.grazeScan_keeps {s₀ : State} (s : State) (raw : List Nat) (hk : Keeps s₀ s) : Keeps s₀ (State.grazeScan s raw) := by
  unfold State.grazeScan
  dsimp only [Keeps]
  repeat' first | with_reducible assumption | with_reducible apply State.grazeWake_keeps | (with_reducible refine fst_keeps ‹_› ?_) | (with_reducible refine snd_keeps ‹_› ?_) | with_reducible apply Keeps.ite | dsimp only | (intro _ _ _ _ _) | (intro _ _ _) | (intro _ _) | split | simp only [Keeps, List.length_set, List.length_map, List.length_modify]

theorem execGrazeScan_keeps {s₀ : State} (raw : List Nat) (s : State) (hk : Keeps s₀ s) : KeepsOut s₀ (execGrazeScan raw s) := by
  unfold execGrazeScan
  repeat' first | with_reducible assumption | with_reducible apply State.grazeScan_keeps | with_reducible apply KeepsOut.next | with_reducible apply KeepsOut.ite | with_reducible apply Keeps.ite | dsimp only | (intro _ _ _ _ _) | (intro _ _ _) | (intro _ _) | split

theorem execGrazeSlideTimeout_keeps {s₀ : State} (s : State) (hk : Keeps s₀ s) : KeepsOut s₀ (execGrazeSlideTimeout s) := by
  unfold execGrazeSlideTimeout
  repeat' first | with_reducible assumption | with_reducible apply KeepsOut.next | with_reducible apply KeepsOut.ite | with_reducible apply Keeps.ite | dsimp only | (intro _ _ _ _ _) | (intro _ _ _) | (intro _ _) | split

theorem execHapLibraryCheckDone_keeps {s₀ : State} (s : State) (hk : Keeps s₀ s) : KeepsOut s₀ (execHapLibraryCheckDone s) := by
  unfold execHapLibraryCheckDone
  repeat' first | with_reducible assumption | with_reducible apply State.setReg_keeps | with_reducible apply State.setBit_keeps | with_reducible apply State.offer_keeps | with_reducible apply State.hapEvent_keeps | with_reducible apply State.each_keeps | with_reducible apply KeepsOut.next | with_reducible apply KeepsOut.ite | with_reducible apply Keeps.ite | dsimp only | (intro _ _ _ _ _) | (intro _ _ _) | (intro _ _) | split | simp only [Keeps, List.length_set, List.length_map, List.length_modify]

theorem State.playEnds_keeps {s₀ : State} (s : State) (t : Trig) (progress : Nat) (hk : Keeps s₀ s) : Keeps s₀ (State.playEnds s t progress) := by
  unfold State.playEnds
  dsimp only [Keeps]
  repeat' first | with_reducible assumption | with_reducible apply State.count_keeps | with_reducible apply State.modJob_keeps | with_reducible apply State.endJob_keeps | with_reducible apply Keeps.ite | dsimp only | (intro _ _ _ _ _) | (intro _ _ _) | (intro _ _) | split

theorem State.setDrive_keeps {s₀ : State} (s : State) (n : Nat) (u : Int) (hk : Keeps s₀ s) : Keeps s₀ (State.setDrive s n u) := by
  unfold State.setDrive
  dsimp only [Keeps]
  repeat' first | with_reducible assumption | with_reducible apply State.emitOn_keeps | with_reducible apply State.setHapCh_keeps | with_reducible apply Keeps.ite | dsimp only | (intro _ _ _ _ _) | (intro _ _ _) | (intro _ _) | split

theorem State.hapFault_keeps {s₀ : State} (s : State) (n : Nat) (hk : Keeps s₀ s) : Keeps s₀ (State.hapFault s n) := by
  unfold State.hapFault
  dsimp only [Keeps]
  repeat' first | with_reducible assumption | with_reducible apply State.setHapState_keeps | with_reducible apply State.setHapCh_keeps | with_reducible apply State.playEnds_keeps | with_reducible apply State.setDrive_keeps | with_reducible apply State.each_keeps | with_reducible apply Keeps.ite | dsimp only | (intro _ _ _ _ _) | (intro _ _ _) | (intro _ _) | split

theorem State.unwait_keeps {s₀ : State} (s : State) (a : Arrival) (hk : Keeps s₀ s) : Keeps s₀ (State.unwait s a) := by
  unfold State.unwait
  dsimp only [Keeps]
  repeat' first | with_reducible assumption | with_reducible apply Keeps.ite | dsimp only | (intro _ _ _ _ _) | (intro _ _ _) | (intro _ _) | split

theorem State.dropTrigger_keeps {s₀ : State} (s : State) (a : Arrival) (hk : Keeps s₀ s) : Keeps s₀ (State.dropTrigger s a) := by
  unfold State.dropTrigger
  dsimp only [Keeps]
  repeat' first | with_reducible assumption | with_reducible apply State.hapDropped_keeps | with_reducible apply State.playEnds_keeps | with_reducible apply State.unwait_keeps | with_reducible apply Keeps.ite | dsimp only | (intro _ _ _ _ _) | (intro _ _ _) | (intro _ _) | split

theorem State.startEffect_keeps {s₀ : State} (s : State) (n : Nat) (t : Trig) (hk : Keeps s₀ s) : Keeps s₀ (State.startEffect s n t) := by
  unfold State.startEffect
  dsimp only [Keeps]
  repeat' first | with_reducible assumption | with_reducible apply State.setFld_keeps | with_reducible apply State.count_keeps | with_reducible apply State.setHapState_keeps | with_reducible apply State.setHapCh_keeps | with_reducible apply State.modJob_keeps | with_reducible apply Keeps.ite | dsimp only | (intro _ _ _ _ _) | (intro _ _ _) | (intro _ _) | split

theorem State.takeTrigger_keeps {s₀ : State} (s : State) (cut : Option Arrival) (a : Arrival) (hk : Keeps s₀ s) : Keeps s₀ (State.takeTrigger s cut a).1 := by
  unfold State.takeTrigger
  dsimp only [Keeps]
  repeat' first | with_reducible assumption | with_reducible apply State.setHapCh_keeps | with_reducible apply State.faultJob_keeps | with_reducible apply State.unwait_keeps | with_reducible apply State.dropTrigger_keeps | with_reducible apply Keeps.ite | dsimp only | (intro _ _ _ _ _) | (intro _ _ _) | (intro _ _) | split

theorem State.hapTriggers_keeps {s₀ : State} (s : State) (n : Nat) (hk : Keeps s₀ s) : Keeps s₀ (State.hapTriggers s n) := by
  have h1 := foldl_keeps_of (l := s.arrivalsAt n) (b := (s, (none : Option Arrival))) Prod.fst
    (fun (p : State × Option Arrival) a h => State.takeTrigger_keeps p.1 p.2 a h) hk
  unfold State.hapTriggers
  dsimp only [Keeps] at h1 ⊢
  repeat' first | with_reducible assumption | with_reducible apply State.playEnds_keeps | with_reducible apply State.unwait_keeps | with_reducible apply State.startEffect_keeps | with_reducible apply State.setHapCh_keeps | with_reducible apply Keeps.ite | dsimp only | (intro _ _ _ _ _) | (intro _ _ _) | (intro _ _) | split

theorem State.hapTrip_keeps {s₀ : State} (s : State) (n kind : Nat) (hk : Keeps s₀ s) : Keeps s₀ (State.hapTrip s n kind) := by
  unfold State.hapTrip
  dsimp only [Keeps]
  repeat' first | with_reducible assumption | with_reducible apply State.count_keeps | with_reducible apply State.offer_keeps | with_reducible apply State.setHapState_keeps | with_reducible apply State.setHapCh_keeps | with_reducible apply State.hapEvent_keeps | with_reducible apply Keeps.ite | dsimp only | (intro _ _ _ _ _) | (intro _ _ _) | (intro _ _) | split

theorem State.endPlay_keeps {s₀ : State} (s : State) (n : Nat) (p : Play) (hk : Keeps s₀ s) : Keeps s₀ (State.endPlay s n p) := by
  unfold State.endPlay
  dsimp only [Keeps]
  repeat' first | with_reducible assumption | with_reducible apply State.setHapState_keeps | with_reducible apply State.setHapCh_keeps | with_reducible apply State.playEnds_keeps | with_reducible apply Keeps.ite | dsimp only | (intro _ _ _ _ _) | (intro _ _ _) | (intro _ _) | split

theorem State.playTick_keeps {s₀ : State} (s : State) (n : Nat) (p : Play) (a : Int) (hk : Keeps s₀ s) : Keeps s₀ (State.playTick s n p a) := by
  unfold State.playTick
  dsimp only [Keeps]
  repeat' first | with_reducible assumption | with_reducible apply State.setBit_keeps | with_reducible apply State.tick_keeps | with_reducible apply State.setHapState_keeps | with_reducible apply State.setHapCh_keeps | with_reducible apply State.setDrive_keeps | with_reducible apply State.hapTrip_keeps | with_reducible apply State.endPlay_keeps | (with_reducible refine fst_keeps ‹_› ?_) | (with_reducible refine snd_keeps ‹_› ?_) | with_reducible apply Keeps.ite | dsimp only | (intro _ _ _ _ _) | (intro _ _ _) | (intro _ _) | split

theorem State.restTick_keeps {s₀ : State} (s : State) (n : Nat) (hk : Keeps s₀ s) : Keeps s₀ (State.restTick s n) := by
  unfold State.restTick
  dsimp only [Keeps]
  repeat' first | with_reducible assumption | with_reducible apply State.tick_keeps | with_reducible apply State.setHapState_keeps | with_reducible apply State.setHapCh_keeps | with_reducible apply State.setDrive_keeps | with_reducible apply Keeps.ite | dsimp only | (intro _ _ _ _ _) | (intro _ _ _) | (intro _ _) | split

theorem State.sensorTick_keeps {s₀ : State} (s : State) (n : Nat) (acc : List Nat) (hk : Keeps s₀ s) : Keeps s₀ (State.sensorTick s n acc) := by
  unfold State.sensorTick
  dsimp only [Keeps]
  repeat' first | with_reducible assumption | with_reducible apply State.setBit_keeps | with_reducible apply State.offer_keeps | with_reducible apply State.setHapCh_keeps | with_reducible apply State.hapEvent_keeps | with_reducible apply State.hapFault_keeps | with_reducible apply Keeps.ite | dsimp only | (intro _ _ _ _ _) | (intro _ _ _) | (intro _ _) | split

theorem State.hapApply_keeps {s₀ : State} (s : State) (n : Nat) (hk : Keeps s₀ s) : Keeps s₀ (State.hapApply s n) := by
  unfold State.hapApply
  dsimp only [Keeps]
  repeat' first | with_reducible assumption | with_reducible apply State.setHapCh_keeps | with_reducible apply State.applyWords_keeps | with_reducible apply Keeps.ite | dsimp only | (intro _ _ _ _ _) | (intro _ _ _) | (intro _ _) | split

theorem State.zeroTick_keeps {s₀ : State} (s : State) (n sum4 : Nat) (hk : Keeps s₀ s) : Keeps s₀ (State.zeroTick s n sum4) := by
  unfold State.zeroTick
  dsimp only [Keeps]
  repeat' first | with_reducible assumption | with_reducible apply State.setHapCh_keeps | with_reducible apply Keeps.ite | dsimp only | (intro _ _ _ _ _) | (intro _ _ _) | (intro _ _) | split

theorem State.hapTick_keeps {s₀ : State} (s : State) (n : Nat) (acc : List Nat) (hk : Keeps s₀ s) : Keeps s₀ (State.hapTick s n acc) := by
  unfold State.hapTick
  dsimp only [Keeps]
  repeat' first | with_reducible assumption | with_reducible apply State.setReg_keeps | with_reducible apply State.hapTriggers_keeps | with_reducible apply State.playTick_keeps | with_reducible apply State.restTick_keeps | with_reducible apply State.sensorTick_keeps | with_reducible apply State.hapApply_keeps | with_reducible apply State.zeroTick_keeps | with_reducible apply Keeps.ite | dsimp only | (intro _ _ _ _ _) | (intro _ _ _) | (intro _ _) | split

theorem State.hapCommitEnd_keeps {s₀ : State} (s : State) (hk : Keeps s₀ s) : Keeps s₀ (State.hapCommitEnd s) := by
  unfold State.hapCommitEnd
  dsimp only [Keeps]
  repeat' first | with_reducible assumption | with_reducible apply State.setFld_keeps | with_reducible apply State.setBit_keeps | with_reducible apply State.offer_keeps | with_reducible apply State.hapEvent_keeps | with_reducible apply Keeps.ite | dsimp only | (intro _ _ _ _ _) | (intro _ _ _) | (intro _ _) | split

theorem execHapticControlTick_keeps {s₀ : State} (acc : List (List Nat)) (s : State) (hk : Keeps s₀ s) : KeepsOut s₀ (execHapticControlTick acc s) := by
  unfold execHapticControlTick
  repeat' first | with_reducible assumption | with_reducible apply State.tick_keeps | with_reducible apply State.hapTick_keeps | with_reducible apply State.hapCommitEnd_keeps | with_reducible apply State.each_keeps | with_reducible apply KeepsOut.next | with_reducible apply KeepsOut.ite | with_reducible apply Keeps.ite | dsimp only | (intro _ _ _ _ _) | (intro _ _ _) | (intro _ _) | split

theorem execHapticPlay_keeps {s₀ : State} (ctx : Fin 1024) (s : State) (hk : Keeps s₀ s) : KeepsOut s₀ (execHapticPlay ctx s) := by
  unfold execHapticPlay
  repeat' first | with_reducible assumption | with_reducible apply State.markStarted_keeps | with_reducible apply KeepsOut.next | with_reducible apply KeepsOut.ite | with_reducible apply Keeps.ite | dsimp only | (intro _ _ _ _ _) | (intro _ _ _) | (intro _ _) | split

theorem execSpurTrigger_keeps {s₀ : State} (pin : Fin 4) (level : Bool) (s : State) (hk : Keeps s₀ s) : KeepsOut s₀ (execSpurTrigger pin level s) := by
  unfold execSpurTrigger
  repeat' first | with_reducible assumption | with_reducible apply State.setFld_keeps | with_reducible apply State.hapArrive_keeps | with_reducible apply KeepsOut.next | with_reducible apply KeepsOut.ite | with_reducible apply Keeps.ite | dsimp only | (intro _ _ _ _ _) | (intro _ _ _) | (intro _ _) | split

theorem execHapFaultPin_keeps {s₀ : State} (channel : Fin 16) (low : Bool) (s : State) (hk : Keeps s₀ s) : KeepsOut s₀ (execHapFaultPin channel low s) := by
  unfold execHapFaultPin
  repeat' first | with_reducible assumption | with_reducible apply State.offer_keeps | with_reducible apply State.setHapCh_keeps | with_reducible apply State.hapEvent_keeps | with_reducible apply State.hapFault_keeps | with_reducible apply KeepsOut.next | with_reducible apply KeepsOut.ite | with_reducible apply Keeps.ite | dsimp only | (intro _ _ _ _ _) | (intro _ _ _) | (intro _ _) | split

theorem State.clearFault_keeps {s₀ : State} (s : State) (n : Nat) (hk : Keeps s₀ s) : Keeps s₀ (State.clearFault s n) := by
  unfold State.clearFault
  dsimp only [Keeps]
  repeat' first | with_reducible assumption | with_reducible apply State.setBit_keeps | with_reducible apply State.setHapState_keeps | with_reducible apply State.setHapCh_keeps | with_reducible apply Keeps.ite | dsimp only | (intro _ _ _ _ _) | (intro _ _ _) | (intro _ _) | split

theorem execHapClearFault_keeps {s₀ : State} (channel : Fin 16) (s : State) (hk : Keeps s₀ s) : KeepsOut s₀ (execHapClearFault channel s) := by
  unfold execHapClearFault
  repeat' first | with_reducible assumption | with_reducible apply State.clearFault_keeps | with_reducible apply KeepsOut.next | with_reducible apply KeepsOut.ite | with_reducible apply Keeps.ite | dsimp only | (intro _ _ _ _ _) | (intro _ _ _) | (intro _ _) | split

theorem State.hapStop_keeps {s₀ : State} (s : State) (n : Nat) (hk : Keeps s₀ s) : Keeps s₀ (State.hapStop s n) := by
  unfold State.hapStop
  dsimp only [Keeps]
  repeat' first | with_reducible assumption | with_reducible apply State.setHapState_keeps | with_reducible apply State.setHapCh_keeps | with_reducible apply State.playEnds_keeps | with_reducible apply State.each_keeps | with_reducible apply Keeps.ite | dsimp only | (intro _ _ _ _ _) | (intro _ _ _) | (intro _ _) | split | simp only [Keeps, List.length_set, List.length_map, List.length_modify]

theorem execHapStop_keeps {s₀ : State} (channel : Fin 16) (s : State) (hk : Keeps s₀ s) : KeepsOut s₀ (execHapStop channel s) := by
  unfold execHapStop
  repeat' first | with_reducible assumption | with_reducible apply State.hapStop_keeps | with_reducible apply KeepsOut.next | with_reducible apply KeepsOut.ite | with_reducible apply Keeps.ite | dsimp only | (intro _ _ _ _ _) | (intro _ _ _) | (intro _ _) | split

theorem State.hapCommit_keeps {s₀ : State} (s : State) (scope : Nat) (hk : Keeps s₀ s) : Keeps s₀ (State.hapCommit s scope) := by
  unfold State.hapCommit
  dsimp only [Keeps]
  repeat' first | with_reducible assumption | with_reducible apply State.setFld_keeps | with_reducible apply State.setBit_keeps | with_reducible apply State.offer_keeps | with_reducible apply State.setHapCh_keeps | with_reducible apply State.hapEvent_keeps | with_reducible apply State.each_keeps | with_reducible apply Keeps.ite | dsimp only | (intro _ _ _ _ _) | (intro _ _ _) | (intro _ _) | split

theorem execHapCommit_keeps {s₀ : State} (scope : Nat) (s : State) (hk : Keeps s₀ s) : KeepsOut s₀ (execHapCommit scope s) := by
  unfold execHapCommit
  repeat' first | with_reducible assumption | with_reducible apply State.hapCommit_keeps | with_reducible apply KeepsOut.next | with_reducible apply KeepsOut.ite | with_reducible apply Keeps.ite | dsimp only | (intro _ _ _ _ _) | (intro _ _ _) | (intro _ _) | split

theorem State.hapCtrl_keeps {s₀ : State} (s : State) (value : Nat) (hk : Keeps s₀ s) : Keeps s₀ (State.hapCtrl s value) := by
  unfold State.hapCtrl
  dsimp only [Keeps]
  repeat' first | with_reducible assumption | with_reducible apply State.setReg_keeps | with_reducible apply State.setBit_keeps | with_reducible apply State.ungate_keeps | with_reducible apply State.setHapCh_keeps | with_reducible apply State.setDrive_keeps | with_reducible apply State.each_keeps | with_reducible apply Keeps.ite | dsimp only | (intro _ _ _ _ _) | (intro _ _ _) | (intro _ _) | split

theorem execHapCtrlWrite_keeps {s₀ : State} (value : Nat) (s : State) (hk : Keeps s₀ s) : KeepsOut s₀ (execHapCtrlWrite value s) := by
  unfold execHapCtrlWrite
  repeat' first | with_reducible assumption | with_reducible apply State.hapCtrl_keeps | with_reducible apply KeepsOut.next | with_reducible apply KeepsOut.ite | with_reducible apply Keeps.ite | dsimp only | (intro _ _ _ _ _) | (intro _ _ _) | (intro _ _) | split

theorem State.tdmSync_keeps {s₀ : State} (s : State) (hk : Keeps s₀ s) : Keeps s₀ (State.tdmSync s) := by
  unfold State.tdmSync
  dsimp only [Keeps]
  repeat' first | with_reducible assumption | with_reducible apply State.setBit_keeps | with_reducible apply State.each_keeps | with_reducible apply Keeps.ite | dsimp only | (intro _ _ _ _ _) | (intro _ _ _) | (intro _ _) | split

theorem State.setGuestBuf_keeps {s₀ : State} (s : State) (i : Nat) (b : GuestBuf) (hk : Keeps s₀ s) : Keeps s₀ (State.setGuestBuf s i b) := by
  unfold State.setGuestBuf
  dsimp only [Keeps]
  repeat' first | with_reducible assumption | with_reducible apply Keeps.ite | dsimp only | (intro _ _ _ _ _) | (intro _ _ _) | (intro _ _) | split

theorem State.modPlay_keeps {s₀ : State} (s : State) (c sq : Nat) (f : PlayJob → PlayJob) (hk : Keeps s₀ s) : Keeps s₀ (State.modPlay s c sq f) := by
  unfold State.modPlay
  dsimp only [Keeps]
  repeat' first | with_reducible assumption | with_reducible apply Keeps.ite | dsimp only | (intro _ _ _ _ _) | (intro _ _ _) | (intro _ _) | split | simp only [Keeps, List.length_set, List.length_map, List.length_modify]

theorem State.fillPlay_keeps {s₀ : State} (s : State) (p : PlayJob) (hk : Keeps s₀ s) : Keeps s₀ (State.fillPlay s p) := by
  unfold State.fillPlay
  dsimp only [Keeps]
  repeat' first | with_reducible assumption | with_reducible apply State.count_keeps | with_reducible apply State.modJob_keeps | with_reducible apply State.faultJob_keeps | with_reducible apply State.faultAt_keeps | with_reducible apply State.eccSeen_keeps | with_reducible apply State.setGuestBuf_keeps | with_reducible apply State.modPlay_keeps | (with_reducible refine fst_keeps ‹_› ?_) | (with_reducible refine snd_keeps ‹_› ?_) | with_reducible apply State.each_keeps | with_reducible apply Keeps.ite | dsimp only | (intro _ _ _ _ _) | (intro _ _ _) | (intro _ _) | split | simp only [Keeps, List.length_set, List.length_map, List.length_modify]

theorem execAudioBufferPlay_keeps {s₀ : State} (ctx : Fin 1024) (host : List (Nat × Byte)) (s : State) (hk : Keeps s₀ s) : KeepsOut s₀ (execAudioBufferPlay ctx host s) := by
  unfold execAudioBufferPlay
  repeat' first | with_reducible assumption | with_reducible apply State.modJob_keeps | with_reducible apply State.markStarted_keeps | with_reducible apply State.hostRead_keeps | with_reducible apply State.setGuestBuf_keeps | with_reducible apply State.modPlay_keeps | with_reducible apply State.fillPlay_keeps | with_reducible apply KeepsOut.next | with_reducible apply KeepsOut.ite | with_reducible apply Keeps.ite | dsimp only | (intro _ _ _ _ _) | (intro _ _ _) | (intro _ _) | split

theorem execAudioBufferPlayDone_keeps {s₀ : State} (ctx : Fin 1024) (s : State) (hk : Keeps s₀ s) : KeepsOut s₀ (execAudioBufferPlayDone ctx s) := by
  unfold execAudioBufferPlayDone
  repeat' first | with_reducible assumption | with_reducible apply State.endJob_keeps | with_reducible apply KeepsOut.next | with_reducible apply KeepsOut.ite | with_reducible apply Keeps.ite | dsimp only | (intro _ _ _ _ _) | (intro _ _ _) | (intro _ _) | split

theorem State.pullGuest_keeps {s₀ : State} (s : State) (i : Nat) (hk : Keeps s₀ s) : Keeps s₀ (State.pullGuest s i) := by
  unfold State.pullGuest
  dsimp only [Keeps]
  repeat' first | with_reducible assumption | with_reducible apply State.inputDry_keeps | with_reducible apply State.setGuestBuf_keeps | with_reducible apply Keeps.ite | dsimp only | (intro _ _ _ _ _) | (intro _ _ _) | (intro _ _) | split

theorem execClipCheckDone_keeps {s₀ : State} (s : State) (hk : Keeps s₀ s) : KeepsOut s₀ (execClipCheckDone s) := by
  unfold execClipCheckDone
  repeat' first | with_reducible assumption | with_reducible apply State.offer_keeps | with_reducible apply State.each_keeps | with_reducible apply KeepsOut.next | with_reducible apply KeepsOut.ite | with_reducible apply Keeps.ite | dsimp only | (intro _ _ _ _ _) | (intro _ _ _) | (intro _ _) | split | simp only [Keeps, List.length_set, List.length_map, List.length_modify]

theorem State.setVoice_keeps {s₀ : State} (s : State) (v : Nat) (x : Voice) (hk : Keeps s₀ s) : Keeps s₀ (State.setVoice s v x) := by
  unfold State.setVoice
  dsimp only [Keeps]
  repeat' first | with_reducible assumption | with_reducible apply State.setBit_keeps | with_reducible apply Keeps.ite | dsimp only | (intro _ _ _ _ _) | (intro _ _ _) | (intro _ _) | split

theorem State.voiceAct_keeps {s₀ : State} (s : State) (v : Nat) (start : Bool) (hk : Keeps s₀ s) : Keeps s₀ (State.voiceAct s v start) := by
  unfold State.voiceAct
  dsimp only [Keeps]
  repeat' first | with_reducible assumption | with_reducible apply State.took_keeps | with_reducible apply State.offer_keeps | with_reducible apply State.setVoice_keeps | with_reducible apply Keeps.ite | dsimp only | (intro _ _ _ _ _) | (intro _ _ _) | (intro _ _) | split

theorem State.pullVoice_keeps {s₀ : State} (s : State) (v : Nat) (hk : Keeps s₀ s) : Keeps s₀ (State.pullVoice s v) := by
  unfold State.pullVoice
  dsimp only [Keeps]
  repeat' first | with_reducible assumption | with_reducible apply State.setVoice_keeps | with_reducible apply Keeps.ite | dsimp only | (intro _ _ _ _ _) | (intro _ _ _) | (intro _ _) | split

theorem execVoiceStart_keeps {s₀ : State} (voice : Fin 64) (s : State) (hk : Keeps s₀ s) : KeepsOut s₀ (execVoiceStart voice s) := by
  unfold execVoiceStart
  repeat' first | with_reducible assumption | with_reducible apply KeepsOut.next | with_reducible apply KeepsOut.ite | with_reducible apply Keeps.ite | dsimp only | (intro _ _ _ _ _) | (intro _ _ _) | (intro _ _) | split

theorem execVoiceStop_keeps {s₀ : State} (voice : Fin 64) (s : State) (hk : Keeps s₀ s) : KeepsOut s₀ (execVoiceStop voice s) := by
  unfold execVoiceStop
  repeat' first | with_reducible assumption | with_reducible apply KeepsOut.next | with_reducible apply KeepsOut.ite | with_reducible apply Keeps.ite | dsimp only | (intro _ _ _ _ _) | (intro _ _ _) | (intro _ _) | split

theorem State.xpData_keeps {s₀ : State} (s : State) (value : Nat) (hk : Keeps s₀ s) : Keeps s₀ (State.xpData s value) := by
  unfold State.xpData
  dsimp only [Keeps]
  repeat' first | with_reducible assumption | with_reducible apply State.setFld_keeps | with_reducible apply State.offer_keeps | with_reducible apply State.write_keeps | with_reducible apply State.audEvent_keeps | with_reducible apply Keeps.ite | dsimp only | (intro _ _ _ _ _) | (intro _ _ _) | (intro _ _) | split

theorem execAudXpDataWrite_keeps {s₀ : State} (value : Nat) (s : State) (hk : Keeps s₀ s) : KeepsOut s₀ (execAudXpDataWrite value s) := by
  unfold execAudXpDataWrite
  repeat' first | with_reducible assumption | with_reducible apply State.xpData_keeps | with_reducible apply KeepsOut.next | with_reducible apply KeepsOut.ite | with_reducible apply Keeps.ite | dsimp only | (intro _ _ _ _ _) | (intro _ _ _) | (intro _ _) | split

theorem State.xpAddr_keeps {s₀ : State} (s : State) (value : Nat) (hk : Keeps s₀ s) : Keeps s₀ (State.xpAddr s value) := by
  unfold State.xpAddr
  dsimp only [Keeps]
  repeat' first | with_reducible assumption | with_reducible apply State.setFld_keeps | with_reducible apply Keeps.ite | dsimp only | (intro _ _ _ _ _) | (intro _ _ _) | (intro _ _) | split

theorem execAudXpSync_keeps {s₀ : State} (value : Nat) (s : State) (hk : Keeps s₀ s) : KeepsOut s₀ (execAudXpSync value s) := by
  unfold execAudXpSync
  repeat' first | with_reducible assumption | with_reducible apply State.xpAddr_keeps | with_reducible apply KeepsOut.next | with_reducible apply KeepsOut.ite | with_reducible apply Keeps.ite | dsimp only | (intro _ _ _ _ _) | (intro _ _ _) | (intro _ _) | split

theorem Keeps.withAud {s₀ : State} (s : State) (x : Aud) (hk : Keeps s₀ s) : Keeps s₀ { s with aud := x } := hk

theorem execAudXpSyncDone_keeps {s₀ : State} (s : State) (hk : Keeps s₀ s) : KeepsOut s₀ (execAudXpSyncDone s) := by
  unfold execAudXpSyncDone
  split
  · exact KeepsOut.next hk
  · exact KeepsOut.next (Keeps.withAud _ _ (State.write_keeps _ _ _ _ hk))

theorem State.meter_keeps {s₀ : State} (s : State) (k : Nat) (xs : List ℚ) (hk : Keeps s₀ s) : Keeps s₀ (State.meter s k xs) := by
  unfold State.meter
  dsimp only [Keeps]
  repeat' first | with_reducible assumption | with_reducible apply State.setFld_keeps | with_reducible apply foldl_keeps | with_reducible apply Keeps.ite | dsimp only | (intro _ _ _ _ _) | (intro _ _ _) | (intro _ _) | split | simp only [Keeps, List.length_set, List.length_map, List.length_modify]

theorem State.clipped_keeps {s₀ : State} (s : State) (k : Nat) (xs : List ℚ) (hk : Keeps s₀ s) : Keeps s₀ (State.clipped s k xs) := by
  unfold State.clipped
  dsimp only [Keeps]
  repeat' first | with_reducible assumption | with_reducible apply State.setBit_keeps | with_reducible apply Keeps.ite | dsimp only | (intro _ _ _ _ _) | (intro _ _ _) | (intro _ _) | split

theorem State.setCaptBuf_keeps {s₀ : State} (s : State) (b : Nat) (x : CaptBuf) (hk : Keeps s₀ s) : Keeps s₀ (State.setCaptBuf s b x) := by
  unfold State.setCaptBuf
  dsimp only [Keeps]
  repeat' first | with_reducible assumption | with_reducible apply Keeps.ite | dsimp only | (intro _ _ _ _ _) | (intro _ _ _) | (intro _ _) | split

theorem State.modCapt_keeps {s₀ : State} (s : State) (c sq : Nat) (f : CaptJob → CaptJob) (hk : Keeps s₀ s) : Keeps s₀ (State.modCapt s c sq f) := by
  unfold State.modCapt
  dsimp only [Keeps]
  repeat' first | with_reducible assumption | with_reducible apply Keeps.ite | dsimp only | (intro _ _ _ _ _) | (intro _ _ _) | (intro _ _) | split | simp only [Keeps, List.length_set, List.length_map, List.length_modify]

theorem State.captWrite_keeps {s₀ : State} (s : State) (q : CaptJob) (xs : List Nat) (hk : Keeps s₀ s) : Keeps s₀ (State.captWrite s q xs) := by
  unfold State.captWrite
  dsimp only [Keeps]
  repeat' first | with_reducible assumption | with_reducible apply State.count_keeps | with_reducible apply State.modJob_keeps | with_reducible apply State.bufWrite_keeps | with_reducible apply State.faultJob_keeps | with_reducible apply State.faultAt_keeps | with_reducible apply State.eccSeen_keeps | with_reducible apply State.setCaptBuf_keeps | with_reducible apply State.modCapt_keeps | (with_reducible refine fst_keeps ‹_› ?_) | (with_reducible refine snd_keeps ‹_› ?_) | with_reducible apply State.each_keeps | with_reducible apply Keeps.ite | dsimp only | (intro _ _ _ _ _) | (intro _ _ _) | (intro _ _) | split

theorem State.captBlock_keeps {s₀ : State} (s : State) (b : Nat) (xs : List Nat) (hk : Keeps s₀ s) : Keeps s₀ (State.captBlock s b xs) := by
  unfold State.captBlock
  dsimp only [Keeps]
  repeat' first | with_reducible assumption | with_reducible apply State.setCaptBuf_keeps | with_reducible apply State.captWrite_keeps | with_reducible apply State.each_keeps | with_reducible apply Keeps.ite | dsimp only | (intro _ _ _ _ _) | (intro _ _ _) | (intro _ _) | split

theorem execAudioBufferCapture_keeps {s₀ : State} (ctx : Fin 1024) (s : State) (hk : Keeps s₀ s) : KeepsOut s₀ (execAudioBufferCapture ctx s) := by
  unfold execAudioBufferCapture
  repeat' first | with_reducible assumption | with_reducible apply State.count_keeps | with_reducible apply State.offerRateN_keeps | with_reducible apply State.modJob_keeps | with_reducible apply State.markStarted_keeps | with_reducible apply State.audEvent_keeps | with_reducible apply State.setCaptBuf_keeps | with_reducible apply State.captWrite_keeps | with_reducible apply KeepsOut.next | with_reducible apply KeepsOut.ite | with_reducible apply Keeps.ite | dsimp only | (intro _ _ _ _ _) | (intro _ _ _) | (intro _ _) | split

theorem execAudioCaptureDone_keeps {s₀ : State} (ctx : Fin 1024) (s : State) (hk : Keeps s₀ s) : KeepsOut s₀ (execAudioCaptureDone ctx s) := by
  unfold execAudioCaptureDone
  repeat' first | with_reducible assumption | with_reducible apply State.endJob_keeps | with_reducible apply KeepsOut.next | with_reducible apply KeepsOut.ite | with_reducible apply Keeps.ite | dsimp only | (intro _ _ _ _ _) | (intro _ _ _) | (intro _ _) | split

theorem State.audCommit_keeps {s₀ : State} (s : State) (switch atTime : Bool) (hk : Keeps s₀ s) : Keeps s₀ (State.audCommit s switch atTime) := by
  unfold State.audCommit
  dsimp only [Keeps]
  repeat' first | with_reducible assumption | with_reducible apply State.setFld_keeps | with_reducible apply State.setBit_keeps | with_reducible apply State.offer_keeps | with_reducible apply State.audEvent_keeps | with_reducible apply Keeps.ite | dsimp only | (intro _ _ _ _ _) | (intro _ _ _) | (intro _ _) | split

theorem execAudCommit_keeps {s₀ : State} (switch atTime : Bool) (s : State) (hk : Keeps s₀ s) : KeepsOut s₀ (execAudCommit switch atTime s) := by
  unfold execAudCommit
  repeat' first | with_reducible assumption | with_reducible apply State.audCommit_keeps | with_reducible apply KeepsOut.next | with_reducible apply KeepsOut.ite | with_reducible apply Keeps.ite | dsimp only | (intro _ _ _ _ _) | (intro _ _ _) | (intro _ _) | split

theorem State.audApply_keeps {s₀ : State} (s : State) (hk : Keeps s₀ s) : Keeps s₀ (State.audApply s) := by
  unfold State.audApply
  dsimp only [Keeps]
  repeat' first | with_reducible assumption | with_reducible apply State.setFld_keeps | with_reducible apply State.setBit_keeps | with_reducible apply State.offer_keeps | with_reducible apply State.applyWords_keeps | with_reducible apply State.audEvent_keeps | with_reducible apply Keeps.ite | dsimp only | (intro _ _ _ _ _) | (intro _ _ _) | (intro _ _) | split

theorem State.aesTrim_keeps {s₀ : State} (s : State) (hk : Keeps s₀ s) : Keeps s₀ (State.aesTrim s) := by
  unfold State.aesTrim
  dsimp only [Keeps]
  repeat' first | with_reducible assumption | with_reducible apply State.setAesRx_keeps | with_reducible apply State.aesMissed_keeps | with_reducible apply State.each_keeps | with_reducible apply Keeps.ite | dsimp only | (intro _ _ _ _ _) | (intro _ _ _) | (intro _ _) | split

theorem State.endBlock_keeps {s₀ : State} (s : State) (tdm : List (Nat × List Int)) (hk : Keeps s₀ s) : Keeps s₀ (State.endBlock s tdm) := by
  unfold State.endBlock
  dsimp only [Keeps]
  repeat' first | with_reducible assumption | with_reducible apply State.setFld_keeps | with_reducible apply State.meter_keeps | with_reducible apply State.clipped_keeps | with_reducible apply State.captBlock_keeps | with_reducible apply State.aesTrim_keeps | with_reducible apply State.each_keeps | with_reducible apply Keeps.ite | dsimp only | (intro _ _ _ _ _) | (intro _ _ _) | (intro _ _) | split | simp only [Keeps, List.length_set, List.length_map, List.length_modify]

theorem State.sendSinks_keeps {s₀ : State} (s : State) (ready : List (Nat × List Int)) (hk : Keeps s₀ s) : Keeps s₀ (State.sendSinks s ready) := by
  unfold State.sendSinks
  dsimp only [Keeps]
  repeat' first | with_reducible assumption | with_reducible apply State.emitOn_keeps | with_reducible apply State.each_keeps | with_reducible apply Keeps.ite | dsimp only | (intro _ _ _ _ _) | (intro _ _ _) | (intro _ _) | split | simp only [Keeps, List.length_set, List.length_map, List.length_modify]

theorem State.startBlock_keeps {s₀ : State} (s : State) (hk : Keeps s₀ s) : Keeps s₀ (State.startBlock s) := by
  unfold State.startBlock
  dsimp only [Keeps]
  repeat' first | with_reducible assumption | with_reducible apply State.setReg_keeps | with_reducible apply State.setReg64_keeps | with_reducible apply State.tdmSync_keeps | with_reducible apply State.fillPlay_keeps | with_reducible apply State.pullGuest_keeps | with_reducible apply State.voiceAct_keeps | with_reducible apply State.pullVoice_keeps | with_reducible apply State.audApply_keeps | with_reducible apply State.each_keeps | with_reducible apply Keeps.ite | dsimp only | (intro _ _ _ _ _) | (intro _ _ _) | (intro _ _) | split | simp only [Keeps, List.length_set, List.length_map, List.length_modify]

theorem State.tdmSlip_keeps {s₀ : State} (s : State) (p : Nat) (dropped : Bool) (hk : Keeps s₀ s) : Keeps s₀ (State.tdmSlip s p dropped) := by
  unfold State.tdmSlip
  dsimp only [Keeps]
  repeat' first | with_reducible assumption | with_reducible apply State.count_keeps | with_reducible apply State.offer_keeps | with_reducible apply State.audEvent_keeps | with_reducible apply Keeps.ite | dsimp only | (intro _ _ _ _ _) | (intro _ _ _) | (intro _ _) | split

theorem execAudioBlockStart_keeps {s₀ : State} (tdm : List (Nat × List Int)) (slips : List (Fin 8 × Bool)) (s : State) (hk : Keeps s₀ s) : KeepsOut s₀ (execAudioBlockStart tdm slips s) := by
  unfold execAudioBlockStart
  repeat' first | with_reducible assumption | with_reducible apply State.endBlock_keeps | with_reducible apply State.sendSinks_keeps | with_reducible apply State.startBlock_keeps | with_reducible apply State.tdmSlip_keeps | with_reducible apply State.each_keeps | with_reducible apply KeepsOut.next | with_reducible apply KeepsOut.ite | with_reducible apply Keeps.ite | dsimp only | (intro _ _ _ _ _) | (intro _ _ _) | (intro _ _) | split

theorem execRealign_keeps {s₀ : State} (shift : Int) (s : State) (hk : Keeps s₀ s) : KeepsOut s₀ (execRealign shift s) := by
  unfold execRealign
  repeat' first | with_reducible assumption | with_reducible apply State.offer_keeps | with_reducible apply State.audEvent_keeps | with_reducible apply KeepsOut.next | with_reducible apply KeepsOut.ite | with_reducible apply Keeps.ite | dsimp only | (intro _ _ _ _ _) | (intro _ _ _) | (intro _ _) | split

theorem execTdmLost_keeps {s₀ : State} (port : Fin 8) (s : State) (hk : Keeps s₀ s) : KeepsOut s₀ (execTdmLost port s) := by
  unfold execTdmLost
  repeat' first | with_reducible assumption | with_reducible apply State.setBit_keeps | with_reducible apply State.offer_keeps | with_reducible apply State.audEvent_keeps | with_reducible apply KeepsOut.next | with_reducible apply KeepsOut.ite | with_reducible apply Keeps.ite | dsimp only | (intro _ _ _ _ _) | (intro _ _ _) | (intro _ _) | split

theorem execTdmLocked_keeps {s₀ : State} (port : Fin 8) (s : State) (hk : Keeps s₀ s) : KeepsOut s₀ (execTdmLocked port s) := by
  unfold execTdmLocked
  repeat' first | with_reducible assumption | with_reducible apply State.setBit_keeps | with_reducible apply KeepsOut.next | with_reducible apply KeepsOut.ite | with_reducible apply Keeps.ite | dsimp only | (intro _ _ _ _ _) | (intro _ _ _) | (intro _ _) | split

theorem State.audCtrl_keeps {s₀ : State} (s : State) (value : Nat) (hk : Keeps s₀ s) : Keeps s₀ (State.audCtrl s value) := by
  unfold State.audCtrl
  dsimp only [Keeps]
  repeat' first | with_reducible assumption | with_reducible apply State.setReg_keeps | with_reducible apply State.setBit_keeps | with_reducible apply State.emitOn_keeps | with_reducible apply State.ungate_keeps | with_reducible apply State.write_keeps | with_reducible apply State.tdmSync_keeps | with_reducible apply Keeps.ite | dsimp only | (intro _ _ _ _ _) | (intro _ _ _) | (intro _ _) | split

theorem execAudCtrlWrite_keeps {s₀ : State} (value : Nat) (s : State) (hk : Keeps s₀ s) : KeepsOut s₀ (execAudCtrlWrite value s) := by
  unfold execAudCtrlWrite
  repeat' first | with_reducible assumption | with_reducible apply State.audCtrl_keeps | with_reducible apply KeepsOut.next | with_reducible apply KeepsOut.ite | with_reducible apply Keeps.ite | dsimp only | (intro _ _ _ _ _) | (intro _ _ _) | (intro _ _) | split

end Sys2Proof.Machine
end

