-- ==== Sys2Proof/Laws/KeepsCtx.lean ====
section
/-! SUPPORT. The relation `Keeps` through descriptors, reins, RUN entry and the register windows. -/

set_option linter.unreachableTactic false
set_option linter.unusedTactic false
set_option linter.unusedSimpArgs false

namespace Sys2Proof.Machine

theorem State.admitJob_keeps {s₀ : State} (s : State) (c : Nat) (raw : List Byte) (sq : Nat) (host : List (Nat × Byte)) (hk : Keeps s₀ s) : Keeps s₀ (State.admitJob s c raw sq host) := by
  unfold State.admitJob
  dsimp only [Keeps]
  repeat' first | with_reducible assumption | with_reducible apply State.setCtx_keeps | with_reducible apply State.settle_keeps | with_reducible apply State.faultJob_keeps | with_reducible apply State.faultAt_keeps | with_reducible apply State.eccSeen_keeps | with_reducible apply Keeps.ite | dsimp only | (intro _ _ _ _ _) | (intro _ _ _) | (intro _ _) | split

theorem State.fetchFails_keeps {s₀ : State} (s : State) (c status detail : Nat) (hk : Keeps s₀ s) : Keeps s₀ (State.fetchFails s c status detail) := by
  unfold State.fetchFails
  dsimp only [Keeps]
  repeat' first | with_reducible assumption | with_reducible apply State.setCtx_keeps | with_reducible apply State.faultJob_keeps | with_reducible apply State.faultAt_keeps | with_reducible apply State.eccSeen_keeps | with_reducible apply Keeps.ite | dsimp only | (intro _ _ _ _ _) | (intro _ _ _) | (intro _ _) | split

theorem execDescriptorFetched_keeps {s₀ : State} (ctx : Fin 1024) (reply : HostReply) (host : List (Nat × Byte)) (s : State) (hk : Keeps s₀ s) : KeepsOut s₀ (execDescriptorFetched ctx reply host s) := by
  unfold execDescriptorFetched
  repeat' first | with_reducible assumption | with_reducible apply State.eccSeen_keeps | with_reducible apply State.poisonedTlp_keeps | with_reducible apply State.urTlp_keeps | with_reducible apply State.admitJob_keeps | with_reducible apply State.fetchFails_keeps | with_reducible apply KeepsOut.next | with_reducible apply KeepsOut.ite | with_reducible apply Keeps.ite | dsimp only | (intro _ _ _ _ _) | (intro _ _ _) | (intro _ _) | split

theorem State.copyStop_keeps {s₀ : State} (s : State) (c : Nat) (j : Job) (hk : Keeps s₀ s) : Keeps s₀ (State.copyStop s c j) := by
  unfold State.copyStop
  dsimp only [Keeps]
  repeat' first | with_reducible assumption | with_reducible apply State.count_keeps | with_reducible apply State.took_keeps | with_reducible apply State.modJob_keeps | with_reducible apply State.copyRun_keeps | with_reducible apply State.each_keeps | with_reducible apply Keeps.ite | dsimp only | (intro _ _ _ _ _) | (intro _ _ _) | (intro _ _) | split

theorem State.stopJob_keeps {s₀ : State} (s : State) (c : Nat) (j : Job) (hk : Keeps s₀ s) : Keeps s₀ (State.stopJob s c j) := by
  unfold State.stopJob
  dsimp only [Keeps]
  repeat' first | with_reducible assumption | with_reducible apply State.syncProgress_keeps | with_reducible apply State.cvuRein_keeps | with_reducible apply State.copyStop_keeps | with_reducible apply Keeps.ite | dsimp only | (intro _ _ _ _ _) | (intro _ _ _) | (intro _ _) | split

theorem State.reinRecord_keeps {s₀ : State} (s : State) (c t : Nat) (j : Job) (hk : Keeps s₀ s) : Keeps s₀ (State.reinRecord s c t j) := by
  unfold State.reinRecord
  dsimp only [Keeps]
  repeat' first | with_reducible assumption | with_reducible apply State.bufWrite_keeps | with_reducible apply Keeps.ite | dsimp only | (intro _ _ _ _ _) | (intro _ _ _) | (intro _ _) | split

theorem State.reinEntry_keeps {s₀ : State} (s : State) (c t seq : Nat) (j : Job) (hk : Keeps s₀ s) : Keeps s₀ (State.reinEntry s c t seq j) := by
  unfold State.reinEntry
  dsimp only [Keeps]
  repeat' first | with_reducible assumption | with_reducible apply State.count_keeps | with_reducible apply State.pushEntry_keeps | with_reducible apply Keeps.ite | dsimp only | (intro _ _ _ _ _) | (intro _ _ _) | (intro _ _) | split

theorem State.endRein_keeps {s₀ : State} (s0 : State) (c : Nat) (hk : Keeps s₀ s0) : Keeps s₀ (State.endRein s0 c) := by
  unfold State.endRein
  dsimp only [Keeps]
  repeat' first | with_reducible assumption | with_reducible apply State.setBit_keeps | with_reducible apply State.recordNow_keeps | with_reducible apply State.dropRefs_keeps | with_reducible apply State.setCtx_keeps | with_reducible apply State.orphan_keeps | with_reducible apply State.ctxMsg_keeps | with_reducible apply State.drainPorts_keeps | with_reducible apply State.stopJob_keeps | with_reducible apply State.reinRecord_keeps | with_reducible apply State.reinEntry_keeps | with_reducible apply State.each_keeps | with_reducible apply Keeps.ite | dsimp only | (intro _ _ _ _ _) | (intro _ _ _) | (intro _ _) | split

theorem State.afterRein_keeps {s₀ : State} (s : State) (c : Nat) (hk : Keeps s₀ s) : Keeps s₀ (State.afterRein s c) := by
  unfold State.afterRein
  dsimp only [Keeps]
  repeat' first | with_reducible assumption | with_reducible apply State.setFld_keeps | with_reducible apply State.setCtx_keeps | with_reducible apply State.setCtxState_keeps | with_reducible apply State.resetCtx_keeps | with_reducible apply State.clearCtx_keeps | with_reducible apply State.endReset_keeps | with_reducible apply Keeps.ite | dsimp only | (intro _ _ _ _ _) | (intro _ _ _) | (intro _ _) | split

theorem execReinComplete_keeps {s₀ : State} (ctx : Fin 1024) (s : State) (hk : Keeps s₀ s) : KeepsOut s₀ (execReinComplete ctx s) := by
  unfold execReinComplete
  repeat' first | with_reducible assumption | with_reducible apply State.endRein_keeps | with_reducible apply State.afterRein_keeps | with_reducible apply KeepsOut.next | with_reducible apply KeepsOut.ite | with_reducible apply Keeps.ite | dsimp only | (intro _ _ _ _ _) | (intro _ _ _) | (intro _ _) | split

theorem execRunLimitExpiry_keeps {s₀ : State} (ctx : Fin 1024) (s : State) (hk : Keeps s₀ s) : KeepsOut s₀ (execRunLimitExpiry ctx s) := by
  unfold execRunLimitExpiry
  repeat' first | with_reducible assumption | with_reducible apply State.faultJob_keeps | with_reducible apply State.faultAt_keeps | with_reducible apply State.eccSeen_keeps | with_reducible apply State.stopJob_keeps | with_reducible apply KeepsOut.next | with_reducible apply KeepsOut.ite | with_reducible apply Keeps.ite | dsimp only | (intro _ _ _ _ _) | (intro _ _ _) | (intro _ _) | split

theorem State.runGates_keeps {s₀ : State} (s : State) (hk : Keeps s₀ s) : Keeps s₀ (State.runGates s) := by
  unfold State.runGates
  dsimp only [Keeps]
  repeat' first | with_reducible assumption | with_reducible apply State.setBit_keeps | with_reducible apply State.each_keeps | with_reducible apply Keeps.ite | dsimp only | (intro _ _ _ _ _) | (intro _ _ _) | (intro _ _) | split

theorem State.runPaddocks_keeps {s₀ : State} (s : State) (hk : Keeps s₀ s) : Keeps s₀ (State.runPaddocks s) := by
  unfold State.runPaddocks
  dsimp only [Keeps]
  repeat' first | with_reducible assumption | with_reducible apply State.setFld_keeps | with_reducible apply State.setBit_keeps | with_reducible apply State.movePdk_keeps | with_reducible apply State.syncContexts_keeps | with_reducible apply State.each_keeps | with_reducible apply Keeps.ite | dsimp only | (intro _ _ _ _ _) | (intro _ _ _) | (intro _ _) | split

theorem State.runPowerState_keeps {s₀ : State} (s : State) (hk : Keeps s₀ s) : Keeps s₀ (State.runPowerState s) := by
  unfold State.runPowerState
  dsimp only [Keeps]
  repeat' first | with_reducible assumption | with_reducible apply State.setFld_keeps | with_reducible apply State.emitOn_keeps | with_reducible apply State.setPoint_keeps | with_reducible apply State.setMv_keeps | with_reducible apply Keeps.ite | dsimp only | (intro _ _ _ _ _) | (intro _ _ _) | (intro _ _) | split

theorem State.runJets_keeps {s₀ : State} (s : State) (hk : Keeps s₀ s) : Keeps s₀ (State.runJets s) := by
  unfold State.runJets
  dsimp only [Keeps]
  repeat' first | with_reducible assumption | with_reducible apply State.jaSync_keeps | with_reducible apply State.jaForce_keeps | with_reducible apply State.preretire_keeps | with_reducible apply State.jaCtrl_keeps | with_reducible apply Keeps.ite | dsimp only | (intro _ _ _ _ _) | (intro _ _ _) | (intro _ _) | split

theorem State.runComposers_keeps {s₀ : State} (s : State) (hk : Keeps s₀ s) : Keeps s₀ (State.runComposers s) := by
  unfold State.runComposers
  dsimp only [Keeps]
  repeat' first | with_reducible assumption | with_reducible apply State.setBit_keeps | with_reducible apply State.each_keeps | with_reducible apply Keeps.ite | dsimp only | (intro _ _ _ _ _) | (intro _ _ _) | (intro _ _) | split

theorem State.runHeads_keeps {s₀ : State} (s : State) (hk : Keeps s₀ s) : Keeps s₀ (State.runHeads s) := by
  unfold State.runHeads
  dsimp only [Keeps]
  repeat' first | with_reducible assumption | with_reducible apply State.setFld_keeps | with_reducible apply State.driveVdd_keeps | with_reducible apply State.startHead_keeps | with_reducible apply State.each_keeps | with_reducible apply Keeps.ite | dsimp only | (intro _ _ _ _ _) | (intro _ _ _) | (intro _ _) | split

theorem State.runLight_keeps {s₀ : State} (s : State) (hk : Keeps s₀ s) : Keeps s₀ (State.runLight s) := by
  unfold State.runLight
  dsimp only [Keeps]
  repeat' first | with_reducible assumption | with_reducible apply State.dmxDrive_keeps | with_reducible apply State.loCtrl_keeps | with_reducible apply State.each_keeps | with_reducible apply Keeps.ite | dsimp only | (intro _ _ _ _ _) | (intro _ _ _) | (intro _ _) | split

theorem State.runNet_keeps {s₀ : State} (s : State) (hk : Keeps s₀ s) : Keeps s₀ (State.runNet s) := by
  unfold State.runNet
  dsimp only [Keeps]
  repeat' first | with_reducible assumption | with_reducible apply State.setBit_keeps | with_reducible apply State.netCtrl_keeps | with_reducible apply Keeps.ite | dsimp only | (intro _ _ _ _ _) | (intro _ _ _) | (intro _ _) | split

theorem State.runTouch_keeps {s₀ : State} (s : State) (hk : Keeps s₀ s) : Keeps s₀ (State.runTouch s) := by
  unfold State.runTouch
  dsimp only [Keeps]
  repeat' first | with_reducible assumption | with_reducible apply State.setReg_keeps | with_reducible apply State.setBit_keeps | with_reducible apply State.tchCtrl_keeps | with_reducible apply Keeps.ite | dsimp only | (intro _ _ _ _ _) | (intro _ _ _) | (intro _ _) | split

theorem State.runHaptics_keeps {s₀ : State} (s : State) (hk : Keeps s₀ s) : Keeps s₀ (State.runHaptics s) := by
  unfold State.runHaptics
  dsimp only [Keeps]
  repeat' first | with_reducible assumption | with_reducible apply State.hapCtrl_keeps | with_reducible apply Keeps.ite | dsimp only | (intro _ _ _ _ _) | (intro _ _ _) | (intro _ _) | split

theorem State.runAudio_keeps {s₀ : State} (s : State) (hk : Keeps s₀ s) : Keeps s₀ (State.runAudio s) := by
  unfold State.runAudio
  dsimp only [Keeps]
  repeat' first | with_reducible assumption | with_reducible apply State.audCtrl_keeps | with_reducible apply Keeps.ite | dsimp only | (intro _ _ _ _ _) | (intro _ _ _) | (intro _ _) | split

theorem State.runKoroft_keeps {s₀ : State} (s : State) (hk : Keeps s₀ s) : Keeps s₀ (State.runKoroft s) := by
  unfold State.runKoroft
  dsimp only [Keeps]
  repeat' first | with_reducible assumption | with_reducible apply State.setBit_keeps | with_reducible apply Keeps.ite | dsimp only | (intro _ _ _ _ _) | (intro _ _ _) | (intro _ _) | split

theorem execRunEntry_keeps {s₀ : State} (s : State) (hk : Keeps s₀ s) : KeepsOut s₀ (execRunEntry s) := by
  unfold execRunEntry
  repeat' first | with_reducible assumption | with_reducible apply State.setFld_keeps | with_reducible apply State.setBit_keeps | with_reducible apply State.enter_keeps | with_reducible apply State.runGates_keeps | with_reducible apply State.runPaddocks_keeps | with_reducible apply State.runPowerState_keeps | with_reducible apply State.runJets_keeps | with_reducible apply State.runComposers_keeps | with_reducible apply State.runHeads_keeps | with_reducible apply State.runLight_keeps | with_reducible apply State.runNet_keeps | with_reducible apply State.runTouch_keeps | with_reducible apply State.runHaptics_keeps | with_reducible apply State.runAudio_keeps | with_reducible apply State.runKoroft_keeps | with_reducible apply KeepsOut.next | with_reducible apply KeepsOut.ite | with_reducible apply Keeps.ite | dsimp only | (intro _ _ _ _ _) | (intro _ _ _) | (intro _ _) | split

theorem ran_keeps {s₀ : State} (o : Out) (s : State) (h : KeepsOut s₀ o) : Keeps s₀ (ran o s) := by
  obtain ⟨t, rfl, ht⟩ := h
  exact ht

theorem State.slotSeen_keeps {s₀ : State} (s : State) (win o : Nat) (hk : Keeps s₀ s) : Keeps s₀ (State.slotSeen s win o) := by
  unfold State.slotSeen
  dsimp only [Keeps]
  repeat' first | with_reducible assumption | with_reducible apply State.eccUncorr_keeps | with_reducible apply State.each_keeps | with_reducible apply Keeps.ite | dsimp only | (intro _ _ _ _ _) | (intro _ _ _) | (intro _ _) | split

theorem State.dropCapture_keeps {s₀ : State} (s : State) (tag k : Nat) (hk : Keeps s₀ s) : Keeps s₀ (State.dropCapture s tag k) := by
  unfold State.dropCapture
  dsimp only [Keeps]
  repeat' first | with_reducible assumption | with_reducible apply Keeps.ite | dsimp only | (intro _ _ _ _ _) | (intro _ _ _) | (intro _ _) | split

theorem State.cfgBusy_keeps {s₀ : State} (s : State) (k : Nat) (hk : Keeps s₀ s) : Keeps s₀ (State.cfgBusy s k) := by
  unfold State.cfgBusy
  dsimp only [Keeps]
  repeat' first | with_reducible assumption | with_reducible apply State.offer_keeps | with_reducible apply State.setEvent_keeps | with_reducible apply State.jaEvent_keeps | with_reducible apply State.headEvent_keeps | with_reducible apply State.cmpEvent_keeps | with_reducible apply State.imEvent0_keeps | with_reducible apply State.netEvent_keeps | with_reducible apply State.loEvent_keeps | with_reducible apply State.hapEvent_keeps | with_reducible apply State.audEvent_keeps | with_reducible apply State.tchEvent_keeps | with_reducible apply Keeps.ite | dsimp only | (intro _ _ _ _ _) | (intro _ _ _) | (intro _ _) | split

theorem State.managerDenied_keeps {s₀ : State} (s : State) (w : RegRow) (k v : Nat) (hk : Keeps s₀ s) : Keeps s₀ (State.managerDenied s w k v) := by
  unfold State.managerDenied
  dsimp only [Keeps]
  repeat' first | with_reducible assumption | with_reducible apply State.offer_keeps | with_reducible apply Keeps.ite | dsimp only | (intro _ _ _ _ _) | (intro _ _ _) | (intro _ _) | split

theorem State.plainWrite_keeps {s₀ : State} (s : State) (w : RegRow) (k v hwSet : Nat) (hk : Keeps s₀ s) : Keeps s₀ (State.plainWrite s w k v hwSet) := by
  unfold State.plainWrite
  dsimp only [Keeps]
  repeat' first | with_reducible assumption | with_reducible apply State.setReg_keeps | with_reducible apply Keeps.ite | dsimp only | (intro _ _ _ _ _) | (intro _ _ _) | (intro _ _) | split

theorem State.writeSys_keeps {s₀ : State} (s : State) (k v : Nat) (hk : Keeps s₀ s) (t : State) (e : State.writeSys s k v = some t) : Keeps s₀ t := by
  unfold State.writeSys at e
  try dsimp only at e
  repeat' split at e
  all_goals first | cases e | (with_reducible refine map_keeps e fun _ => ?_)
  all_goals
    repeat' first | with_reducible assumption | with_reducible apply State.setFld_keeps | with_reducible apply execSlotConfirm_keeps | with_reducible apply execRebootKey_keeps | with_reducible apply State.flashEnd_keeps | with_reducible apply execFlashRead_keeps | with_reducible apply execFlashErase_keeps | with_reducible apply execFlashProgram_keeps | with_reducible apply execSetTrial_keeps | with_reducible apply State.secRequest_keeps | with_reducible apply ran_keeps | with_reducible apply Keeps.ite | dsimp only | (intro _ _ _ _ _) | (intro _ _ _) | (intro _ _) | split | simp only [Keeps, List.length_set, List.length_map, List.length_modify]

theorem State.writePcr_keeps {s₀ : State} (s : State) (k v : Nat) (hk : Keeps s₀ s) (t : State) (e : State.writePcr s k v = some t) : Keeps s₀ t := by
  unfold State.writePcr at e
  try dsimp only at e
  repeat' split at e
  all_goals first | cases e | (with_reducible refine map_keeps e fun _ => ?_)
  all_goals
    repeat' first | with_reducible assumption | with_reducible apply State.setReg_keeps | with_reducible apply execPcrReset_keeps | with_reducible apply State.jetPointWrite_keeps | with_reducible apply State.powerRequest_keeps | with_reducible apply State.gateWrite_keeps | with_reducible apply ran_keeps | with_reducible apply Keeps.ite | dsimp only | (intro _ _ _ _ _) | (intro _ _ _) | (intro _ _) | split

theorem State.writeEvr_keeps {s₀ : State} (s : State) (k v : Nat) (hk : Keeps s₀ s) (t : State) (e : State.writeEvr s k v = some t) : Keeps s₀ t := by
  unfold State.writeEvr at e
  try dsimp only at e
  repeat' split at e
  all_goals first | cases e | (with_reducible refine map_keeps e fun _ => ?_)
  all_goals
    repeat' first | with_reducible assumption | with_reducible apply State.evrCtrl_keeps | with_reducible apply State.evrAck_keeps | with_reducible apply State.cfgBusy_keeps | with_reducible apply Keeps.ite | dsimp only | (intro _ _ _ _ _) | (intro _ _ _) | (intro _ _) | split

theorem State.writeCtx_keeps {s₀ : State} (s : State) (k v : Nat) (hk : Keeps s₀ s) (t : State) (e : State.writeCtx s k v = some t) : Keeps s₀ t := by
  unfold State.writeCtx at e
  try dsimp only at e
  repeat' split at e
  all_goals first | cases e | (with_reducible exact State.opReaches_keeps _ _ _ hk _ e) | (with_reducible refine map_keeps e fun _ => ?_)
  all_goals
    repeat' first | with_reducible assumption | with_reducible apply State.setReg_keeps | with_reducible apply State.pdkCommand_keeps | (with_reducible refine State.opReaches_keeps _ _ _ ?_ _ ‹_›) | with_reducible apply State.opRein_keeps | with_reducible apply State.opRestart_keeps | with_reducible apply State.opDiscard_keeps | with_reducible apply State.opReset_keeps | with_reducible apply State.fenceSel_keeps | with_reducible apply State.ctxRegWrite_keeps | with_reducible apply State.each_keeps | with_reducible apply Keeps.ite | dsimp only | (intro _ _ _ _ _) | (intro _ _ _) | (intro _ _) | split

theorem State.writeMem_keeps {s₀ : State} (s : State) (k v : Nat) (hk : Keeps s₀ s) (t : State) (e : State.writeMem s k v = some t) : Keeps s₀ t := by
  unfold State.writeMem at e
  try dsimp only at e
  repeat' split at e
  all_goals first | cases e | (with_reducible refine map_keeps e fun _ => ?_)
  all_goals
    repeat' first | with_reducible assumption | with_reducible apply State.aptBaseWrite_keeps | with_reducible apply State.eccClear_keeps | with_reducible apply Keeps.ite | dsimp only | (intro _ _ _ _ _) | (intro _ _ _) | (intro _ _) | split

theorem State.writeJa_keeps {s₀ : State} (s : State) (k v : Nat) (hk : Keeps s₀ s) (t : State) (e : State.writeJa s k v = some t) : Keeps s₀ t := by
  unfold State.writeJa at e
  try dsimp only at e
  repeat' split at e
  all_goals first | cases e | (with_reducible refine map_keeps e fun _ => ?_)
  all_goals
    repeat' first | with_reducible assumption | with_reducible apply State.setReg_keeps | with_reducible apply State.took_keeps | with_reducible apply State.offer_keeps | with_reducible apply State.jaEvent_keeps | with_reducible apply State.jaCtrl_keeps | with_reducible apply Keeps.ite | dsimp only | (intro _ _ _ _ _) | (intro _ _ _) | (intro _ _) | split

theorem State.writeCmp_keeps {s₀ : State} (s : State) (c o v : Nat) (hk : Keeps s₀ s) (t : State) (e : State.writeCmp s c o v = some t) : Keeps s₀ t := by
  unfold State.writeCmp at e
  try dsimp only at e
  repeat' split at e
  all_goals first | cases e | (with_reducible refine map_keeps e fun _ => ?_)
  all_goals
    repeat' first | with_reducible assumption | with_reducible apply State.headCommit_keeps | with_reducible apply State.holdWrite_keeps | with_reducible apply State.lutWrite_keeps | with_reducible apply State.cmpCtrl_keeps | with_reducible apply Keeps.ite | dsimp only | (intro _ _ _ _ _) | (intro _ _ _) | (intro _ _) | split

theorem State.writeHd_keeps {s₀ : State} (s : State) (n o v : Nat) (hk : Keeps s₀ s) (t : State) (e : State.writeHd s n o v = some t) : Keeps s₀ t := by
  unfold State.writeHd at e
  try dsimp only at e
  repeat' split at e
  all_goals first | cases e | (with_reducible refine map_keeps e fun _ => ?_)
  all_goals
    repeat' first | with_reducible assumption | with_reducible apply State.hdCtrl_keeps | with_reducible apply State.panelCtrl_keeps | with_reducible apply State.gaitRequest_keeps | with_reducible apply State.auxCmd_keeps | with_reducible apply Keeps.ite | dsimp only | (intro _ _ _ _ _) | (intro _ _ _) | (intro _ _) | split

theorem State.writeLo_keeps {s₀ : State} (s : State) (k v : Nat) (hk : Keeps s₀ s) (t : State) (e : State.writeLo s k v = some t) : Keeps s₀ t := by
  unfold State.writeLo at e
  try dsimp only at e
  repeat' split at e
  all_goals first | cases e | (with_reducible refine map_keeps e fun _ => ?_)
  all_goals
    repeat' first | with_reducible assumption | with_reducible apply State.dmxCfg_keeps | with_reducible apply State.loadCmd_keeps | with_reducible apply execLightCommit_keeps | with_reducible apply State.loCtrl_keeps | with_reducible apply ran_keeps | with_reducible apply Keeps.ite | dsimp only | (intro _ _ _ _ _) | (intro _ _ _) | (intro _ _) | split

theorem State.writeNet_keeps {s₀ : State} (s : State) (k v : Nat) (hk : Keeps s₀ s) (t : State) (e : State.writeNet s k v = some t) : Keeps s₀ t := by
  unfold State.writeNet at e
  try dsimp only at e
  repeat' split at e
  all_goals first | cases e | (with_reducible refine map_keeps e fun _ => ?_)
  all_goals
    repeat' first | with_reducible assumption | with_reducible apply State.netCtrl_keeps | with_reducible apply State.i2cGo_keeps | with_reducible apply Keeps.ite | dsimp only | (intro _ _ _ _ _) | (intro _ _ _) | (intro _ _) | split

theorem State.writeTch_keeps {s₀ : State} (s : State) (k v : Nat) (hk : Keeps s₀ s) (t : State) (e : State.writeTch s k v = some t) : Keeps s₀ t := by
  unfold State.writeTch at e
  try dsimp only at e
  repeat' split at e
  all_goals first | cases e | (with_reducible refine map_keeps e fun _ => ?_)
  all_goals
    repeat' first | with_reducible assumption | with_reducible apply State.tchCtrl_keeps | with_reducible apply State.touchCommit_keeps | with_reducible apply State.cfgBusy_keeps | with_reducible apply Keeps.ite | dsimp only | (intro _ _ _ _ _) | (intro _ _ _) | (intro _ _) | split

theorem State.writeHap_keeps {s₀ : State} (s : State) (k v : Nat) (hk : Keeps s₀ s) (t : State) (e : State.writeHap s k v = some t) : Keeps s₀ t := by
  unfold State.writeHap at e
  try dsimp only at e
  repeat' split at e
  all_goals first | cases e | (with_reducible refine map_keeps e fun _ => ?_)
  all_goals
    repeat' first | with_reducible assumption | with_reducible apply State.clearFault_keeps | with_reducible apply State.hapStop_keeps | with_reducible apply State.hapCommit_keeps | with_reducible apply State.hapCtrl_keeps | with_reducible apply Keeps.ite | dsimp only | (intro _ _ _ _ _) | (intro _ _ _) | (intro _ _) | split

theorem State.writeAud_keeps {s₀ : State} (s : State) (k v : Nat) (hk : Keeps s₀ s) (t : State) (e : State.writeAud s k v = some t) : Keeps s₀ t := by
  unfold State.writeAud at e
  try dsimp only at e
  repeat' split at e
  all_goals first | cases e | (with_reducible refine map_keeps e fun _ => ?_)
  all_goals
    repeat' first | with_reducible assumption | with_reducible apply State.xpData_keeps | with_reducible apply State.xpAddr_keeps | with_reducible apply State.audCommit_keeps | with_reducible apply State.audCtrl_keeps | with_reducible apply Keeps.ite | dsimp only | (intro _ _ _ _ _) | (intro _ _ _) | (intro _ _) | split

theorem State.writeActs_keeps {s₀ : State} (s : State) (k v : Nat) (hk : Keeps s₀ s) (t : State)
    (e : s.writeActs k v = some t) : Keeps s₀ t := by
  rw [State.writeActs] at e
  split at e
  · exact State.writeSys_keeps _ _ _ hk _ e
  · exact State.writeSys_keeps _ _ _ hk _ e
  · exact State.writePcr_keeps _ _ _ hk _ e
  · exact State.writeEvr_keeps _ _ _ hk _ e
  · exact map_keeps e fun _ => Keeps.ite (State.setImHead_keeps _ _ _ (imHead_checks hk _) hk) hk
  · exact State.writeCtx_keeps _ _ _ hk _ e
  · exact State.writeCtx_keeps _ _ _ hk _ e
  · exact State.writeMem_keeps _ _ _ hk _ e
  · exact State.writeJa_keeps _ _ _ hk _ e
  · exact State.writeCmp_keeps _ _ _ _ hk _ e
  · exact State.writeCmp_keeps _ _ _ _ hk _ e
  · exact State.writeHd_keeps _ _ _ _ hk _ e
  · exact State.writeLo_keeps _ _ _ hk _ e
  · exact State.writeNet_keeps _ _ _ hk _ e
  · exact State.writeTch_keeps _ _ _ hk _ e
  · exact State.writeHap_keeps _ _ _ hk _ e
  · exact State.writeAud_keeps _ _ _ hk _ e
  · cases e

theorem State.afterWrite_keeps {s₀ : State} (s old : State) (k : Nat) (hk : Keeps s₀ s) : Keeps s₀ (s.afterWrite old k) := by
  unfold State.afterWrite
  dsimp only [Keeps]
  repeat' first | with_reducible assumption | with_reducible apply State.aesEnable_keeps | with_reducible apply State.tdmSync_keeps | with_reducible apply State.pruneMirrors_keeps | with_reducible apply State.each_keeps | with_reducible apply Keeps.ite | dsimp only | (intro _ _ _ _ _) | (intro _ _ _) | (intro _ _) | split

theorem State.writeP_keeps {s₀ : State} (s : State) (w : RegRow) (k v hwSet : Nat) (hk : Keeps s₀ s) : Keeps s₀ (State.writeP s w k v hwSet) := by
  unfold State.writeP
  dsimp only [Keeps]
  repeat' first | with_reducible assumption | with_reducible apply State.cfgBusy_keeps | with_reducible apply State.managerDenied_keeps | with_reducible apply State.plainWrite_keeps | (with_reducible refine State.writeActs_keeps _ _ _ ?_ _ ‹_›) | with_reducible apply State.afterWrite_keeps | with_reducible apply Keeps.ite | dsimp only | (intro _ _ _ _ _) | (intro _ _ _) | (intro _ _) | split

theorem State.writeCvu_keeps {s₀ : State} (s : State) (view : View) (w : RegRow) (m o v hwSet : Nat) (hk : Keeps s₀ s) : Keeps s₀ (State.writeCvu s view w m o v hwSet) := by
  unfold State.writeCvu
  dsimp only [Keeps]
  repeat' first | with_reducible assumption | with_reducible apply State.setReg_keeps | with_reducible apply State.cvuFeed_keeps | with_reducible apply State.cvuInit_keeps | with_reducible apply State.cvuReaches_keeps | with_reducible apply State.cvuData_keeps | with_reducible apply State.cvuCfg_keeps | (with_reducible refine fst_keeps ‹_› ?_) | (with_reducible refine snd_keeps ‹_› ?_) | with_reducible apply State.each_keeps | with_reducible apply Keeps.ite | dsimp only | (intro _ _ _ _ _) | (intro _ _ _) | (intro _ _) | split

theorem State.dbCommand_keeps {s₀ : State} (s : State) (c v : Nat) (hk : Keeps s₀ s) : Keeps s₀ (State.dbCommand s c v) := by
  unfold State.dbCommand
  dsimp only [Keeps]
  repeat' first | with_reducible assumption | (with_reducible refine State.opReaches_keeps _ _ _ ?_ _ ‹_›) | with_reducible apply State.opRein_keeps | with_reducible apply State.opRestart_keeps | with_reducible apply State.opDiscard_keeps | with_reducible apply State.opReset_keeps | with_reducible apply State.each_keeps | with_reducible apply Keeps.ite | dsimp only | (intro _ _ _ _ _) | (intro _ _ _) | (intro _ _) | split

theorem State.writeSlot_keeps {s₀ : State} (s : State) (w : RegRow) (p n o v hwSet : Nat) (hk : Keeps s₀ s) : Keeps s₀ (State.writeSlot s w p n o v hwSet) := by
  unfold State.writeSlot
  dsimp only [Keeps]
  repeat' first | with_reducible assumption | with_reducible apply State.setReg_keeps | with_reducible apply State.cqHeadWrite_keeps | with_reducible apply State.ctxRegWrite_keeps | with_reducible apply Keeps.ite | dsimp only | (intro _ _ _ _ _) | (intro _ _ _) | (intro _ _) | split

theorem State.writeMsix_keeps {s₀ : State} (s : State) (p i v : Nat) (hk : Keeps s₀ s) : Keeps s₀ (State.writeMsix s p i v) := by
  unfold State.writeMsix
  dsimp only [Keeps]
  repeat' first | with_reducible assumption | with_reducible apply State.setReg_keeps | with_reducible apply State.msixUnmask_keeps | with_reducible apply Keeps.ite | dsimp only | (intro _ _ _ _ _) | (intro _ _ _) | (intro _ _) | split

theorem State.writeU_keeps {s₀ : State} (s : State) (w : RegRow) (p : Fin 64) (o v hwSet : Nat) (hk : Keeps s₀ s) : Keeps s₀ (State.writeU s w p o v hwSet) := by
  unfold State.writeU
  dsimp only [Keeps]
  repeat' first | with_reducible assumption | with_reducible apply State.setReg_keeps | with_reducible apply State.selfQuiesce_keeps | with_reducible apply State.doorbell_keeps | with_reducible apply State.resyncAsk_keeps | with_reducible apply State.writeCvu_keeps | with_reducible apply State.dbCommand_keeps | with_reducible apply State.writeSlot_keeps | with_reducible apply State.writeMsix_keeps | with_reducible apply Keeps.ite | dsimp only | (intro _ _ _ _ _) | (intro _ _ _) | (intro _ _) | split

theorem State.writeS_keeps {s₀ : State} (s : State) (w : RegRow) (o v hwSet : Nat) (hk : Keeps s₀ s) : Keeps s₀ (State.writeS s w o v hwSet) := by
  unfold State.writeS
  dsimp only [Keeps]
  repeat' first | with_reducible assumption | with_reducible apply State.setBit_keeps | with_reducible apply State.kick_keeps | with_reducible apply State.claimSet_keeps | with_reducible apply State.writeCvu_keeps | with_reducible apply State.each_keeps | with_reducible apply Keeps.ite | dsimp only | (intro _ _ _ _ _) | (intro _ _ _) | (intro _ _) | split

theorem State.badAccess_keeps {s₀ : State} (s : State) (view : View) (o : Nat) (hk : Keeps s₀ s) : Keeps s₀ (State.badAccess s view o) := by
  unfold State.badAccess
  dsimp only [Keeps]
  repeat' first | with_reducible assumption | with_reducible apply State.offer_keeps | with_reducible apply State.aerLog_keeps | with_reducible apply Keeps.ite | dsimp only | (intro _ _ _ _ _) | (intro _ _ _) | (intro _ _) | split

theorem State.stray_keeps {s₀ : State} (s : State) (view : View) (o : Nat) (hk : Keeps s₀ s) : Keeps s₀ (State.stray s view o) := by
  unfold State.stray
  dsimp only [Keeps]
  repeat' first | with_reducible assumption | with_reducible apply State.badAccess_keeps | with_reducible apply Keeps.ite | dsimp only | (intro _ _ _ _ _) | (intro _ _ _) | (intro _ _) | split

theorem State.registerWrite_keeps {s₀ : State} (s : State) (view : View) (o v size hwSet : Nat) (hk : Keeps s₀ s) : Keeps s₀ (State.registerWrite s view o v size hwSet) := by
  unfold State.registerWrite
  dsimp only [Keeps]
  repeat' first | with_reducible assumption | with_reducible apply State.aperture_keeps | with_reducible apply State.notGranted_keeps | with_reducible apply State.writeP_keeps | with_reducible apply State.writeU_keeps | with_reducible apply State.writeS_keeps | with_reducible apply State.badAccess_keeps | with_reducible apply State.stray_keeps | with_reducible apply State.each_keeps | with_reducible apply Keeps.ite | dsimp only | (intro _ _ _ _ _) | (intro _ _ _) | (intro _ _) | split

theorem execRegisterWrite_keeps {s₀ : State} (view : View) (offset value size hwSet _hwClear : Nat) (s : State) (hk : Keeps s₀ s) : KeepsOut s₀ (execRegisterWrite view offset value size hwSet _hwClear s) := by
  unfold execRegisterWrite
  repeat' first | with_reducible assumption | with_reducible apply State.registerWrite_keeps | with_reducible apply KeepsOut.next | with_reducible apply KeepsOut.ite | with_reducible apply Keeps.ite | dsimp only | (intro _ _ _ _ _) | (intro _ _ _) | (intro _ _) | split

theorem State.answer_keeps {s₀ : State} (s : State) (view : View) (o v : Nat) (hk : Keeps s₀ s) : Keeps s₀ (State.answer s view o v) := by
  unfold State.answer
  dsimp only [Keeps]
  repeat' first | with_reducible assumption | with_reducible apply State.emit_keeps | with_reducible apply Keeps.ite | dsimp only | (intro _ _ _ _ _) | (intro _ _ _) | (intro _ _) | split

theorem State.readReg_keeps {s₀ : State} (s : State) (view : View) (o : Nat) (hk : Keeps s₀ s) : Keeps s₀ (State.readReg s view o) := by
  unfold State.readReg
  dsimp only [Keeps]
  repeat' first | with_reducible assumption | with_reducible apply State.dropCapture_keeps | with_reducible apply State.stray_keeps | with_reducible apply State.answer_keeps | with_reducible apply Keeps.ite | dsimp only | (intro _ _ _ _ _) | (intro _ _ _) | (intro _ _) | split

theorem State.registerRead_keeps {s₀ : State} (s : State) (view : View) (o size : Nat) (hk : Keeps s₀ s) : Keeps s₀ (State.registerRead s view o size) := by
  unfold State.registerRead
  dsimp only [Keeps]
  repeat' first | with_reducible assumption | with_reducible apply State.aperture_keeps | with_reducible apply State.notGranted_keeps | with_reducible apply State.slotSeen_keeps | with_reducible apply State.badAccess_keeps | with_reducible apply State.stray_keeps | with_reducible apply State.answer_keeps | with_reducible apply State.readReg_keeps | with_reducible apply State.each_keeps | with_reducible apply Keeps.ite | dsimp only | (intro _ _ _ _ _) | (intro _ _ _) | (intro _ _) | split

theorem execRegisterRead_keeps {s₀ : State} (view : View) (offset size : Nat) (s : State) (hk : Keeps s₀ s) : KeepsOut s₀ (execRegisterRead view offset size s) := by
  unfold execRegisterRead
  repeat' first | with_reducible assumption | with_reducible apply State.registerRead_keeps | with_reducible apply KeepsOut.next | with_reducible apply KeepsOut.ite | with_reducible apply Keeps.ite | dsimp only | (intro _ _ _ _ _) | (intro _ _ _) | (intro _ _) | split

end Sys2Proof.Machine
end

