-- ==== Sys2Proof/Laws/State.lean ====
section
/-! SUPPORT. What each small update of the state leaves alone: one lemma per field, true by computation. -/

namespace Sys2Proof.Machine

section
variable (s : State) (k v : Nat)
@[simp] theorem State.setReg_hic : (s.setReg k v).hic = s.hic := (rfl)
@[simp] theorem State.setReg_clk : (s.setReg k v).clk = s.clk := (rfl)
@[simp] theorem State.setReg_pins : (s.setReg k v).pins = s.pins := (rfl)
@[simp] theorem State.setReg_tap : (s.setReg k v).tap = s.tap := (rfl)
@[simp] theorem State.setReg_fuses : (s.setReg k v).fuses = s.fuses := (rfl)
@[simp] theorem State.setReg_boot : (s.setReg k v).boot = s.boot := (rfl)
@[simp] theorem State.setReg_mem : (s.setReg k v).mem = s.mem := (rfl)
@[simp] theorem State.setReg_sec : (s.setReg k v).sec = s.sec := (rfl)
@[simp] theorem State.setReg_hp : (s.setReg k v).hp = s.hp := (rfl)
@[simp] theorem State.setReg_ctxs : (s.setReg k v).ctxs = s.ctxs := (rfl)
@[simp] theorem State.setReg_fences : (s.setReg k v).fences = s.fences := (rfl)
@[simp] theorem State.setReg_ja : (s.setReg k v).ja = s.ja := (rfl)
@[simp] theorem State.setReg_cmp : (s.setReg k v).cmp = s.cmp := (rfl)
@[simp] theorem State.setReg_hd : (s.setReg k v).hd = s.hd := (rfl)
@[simp] theorem State.setReg_im : (s.setReg k v).im = s.im := (rfl)
@[simp] theorem State.setReg_lo : (s.setReg k v).lo = s.lo := (rfl)
@[simp] theorem State.setReg_net : (s.setReg k v).net = s.net := (rfl)
@[simp] theorem State.setReg_tch : (s.setReg k v).tch = s.tch := (rfl)
@[simp] theorem State.setReg_hap : (s.setReg k v).hap = s.hap := (rfl)
@[simp] theorem State.setReg_aud : (s.setReg k v).aud = s.aud := (rfl)
@[simp] theorem State.setReg_evr : (s.setReg k v).evr = s.evr := (rfl)
@[simp] theorem State.setReg_pwr : (s.setReg k v).pwr = s.pwr := (rfl)
@[simp] theorem State.setReg_out : (s.setReg k v).out = s.out := (rfl)
@[simp] theorem State.setReg_pending : (s.setReg k v).pending = s.pending := (rfl)
end

section
variable (s : State) (k hi lo v : Nat)
@[simp] theorem State.setFld_hic : (s.setFld k hi lo v).hic = s.hic := (rfl)
@[simp] theorem State.setFld_clk : (s.setFld k hi lo v).clk = s.clk := (rfl)
@[simp] theorem State.setFld_pins : (s.setFld k hi lo v).pins = s.pins := (rfl)
@[simp] theorem State.setFld_tap : (s.setFld k hi lo v).tap = s.tap := (rfl)
@[simp] theorem State.setFld_fuses : (s.setFld k hi lo v).fuses = s.fuses := (rfl)
@[simp] theorem State.setFld_boot : (s.setFld k hi lo v).boot = s.boot := (rfl)
@[simp] theorem State.setFld_mem : (s.setFld k hi lo v).mem = s.mem := (rfl)
@[simp] theorem State.setFld_sec : (s.setFld k hi lo v).sec = s.sec := (rfl)
@[simp] theorem State.setFld_hp : (s.setFld k hi lo v).hp = s.hp := (rfl)
@[simp] theorem State.setFld_ctxs : (s.setFld k hi lo v).ctxs = s.ctxs := (rfl)
@[simp] theorem State.setFld_fences : (s.setFld k hi lo v).fences = s.fences := (rfl)
@[simp] theorem State.setFld_ja : (s.setFld k hi lo v).ja = s.ja := (rfl)
@[simp] theorem State.setFld_cmp : (s.setFld k hi lo v).cmp = s.cmp := (rfl)
@[simp] theorem State.setFld_hd : (s.setFld k hi lo v).hd = s.hd := (rfl)
@[simp] theorem State.setFld_im : (s.setFld k hi lo v).im = s.im := (rfl)
@[simp] theorem State.setFld_lo : (s.setFld k hi lo v).lo = s.lo := (rfl)
@[simp] theorem State.setFld_net : (s.setFld k hi lo v).net = s.net := (rfl)
@[simp] theorem State.setFld_tch : (s.setFld k hi lo v).tch = s.tch := (rfl)
@[simp] theorem State.setFld_hap : (s.setFld k hi lo v).hap = s.hap := (rfl)
@[simp] theorem State.setFld_aud : (s.setFld k hi lo v).aud = s.aud := (rfl)
@[simp] theorem State.setFld_evr : (s.setFld k hi lo v).evr = s.evr := (rfl)
@[simp] theorem State.setFld_pwr : (s.setFld k hi lo v).pwr = s.pwr := (rfl)
@[simp] theorem State.setFld_out : (s.setFld k hi lo v).out = s.out := (rfl)
@[simp] theorem State.setFld_pending : (s.setFld k hi lo v).pending = s.pending := (rfl)
end

section
variable (s : State) (k i : Nat) (b : Bool)
@[simp] theorem State.setBit_hic : (s.setBit k i b).hic = s.hic := (rfl)
@[simp] theorem State.setBit_clk : (s.setBit k i b).clk = s.clk := (rfl)
@[simp] theorem State.setBit_pins : (s.setBit k i b).pins = s.pins := (rfl)
@[simp] theorem State.setBit_tap : (s.setBit k i b).tap = s.tap := (rfl)
@[simp] theorem State.setBit_fuses : (s.setBit k i b).fuses = s.fuses := (rfl)
@[simp] theorem State.setBit_boot : (s.setBit k i b).boot = s.boot := (rfl)
@[simp] theorem State.setBit_mem : (s.setBit k i b).mem = s.mem := (rfl)
@[simp] theorem State.setBit_sec : (s.setBit k i b).sec = s.sec := (rfl)
@[simp] theorem State.setBit_hp : (s.setBit k i b).hp = s.hp := (rfl)
@[simp] theorem State.setBit_ctxs : (s.setBit k i b).ctxs = s.ctxs := (rfl)
@[simp] theorem State.setBit_fences : (s.setBit k i b).fences = s.fences := (rfl)
@[simp] theorem State.setBit_ja : (s.setBit k i b).ja = s.ja := (rfl)
@[simp] theorem State.setBit_cmp : (s.setBit k i b).cmp = s.cmp := (rfl)
@[simp] theorem State.setBit_hd : (s.setBit k i b).hd = s.hd := (rfl)
@[simp] theorem State.setBit_im : (s.setBit k i b).im = s.im := (rfl)
@[simp] theorem State.setBit_lo : (s.setBit k i b).lo = s.lo := (rfl)
@[simp] theorem State.setBit_net : (s.setBit k i b).net = s.net := (rfl)
@[simp] theorem State.setBit_tch : (s.setBit k i b).tch = s.tch := (rfl)
@[simp] theorem State.setBit_hap : (s.setBit k i b).hap = s.hap := (rfl)
@[simp] theorem State.setBit_aud : (s.setBit k i b).aud = s.aud := (rfl)
@[simp] theorem State.setBit_evr : (s.setBit k i b).evr = s.evr := (rfl)
@[simp] theorem State.setBit_pwr : (s.setBit k i b).pwr = s.pwr := (rfl)
@[simp] theorem State.setBit_out : (s.setBit k i b).out = s.out := (rfl)
@[simp] theorem State.setBit_pending : (s.setBit k i b).pending = s.pending := (rfl)
end

section
variable (s : State) (k hi lo n : Nat)
@[simp] theorem State.count_hic : (s.count k hi lo n).hic = s.hic := (rfl)
@[simp] theorem State.count_clk : (s.count k hi lo n).clk = s.clk := (rfl)
@[simp] theorem State.count_pins : (s.count k hi lo n).pins = s.pins := (rfl)
@[simp] theorem State.count_tap : (s.count k hi lo n).tap = s.tap := (rfl)
@[simp] theorem State.count_fuses : (s.count k hi lo n).fuses = s.fuses := (rfl)
@[simp] theorem State.count_boot : (s.count k hi lo n).boot = s.boot := (rfl)
@[simp] theorem State.count_mem : (s.count k hi lo n).mem = s.mem := (rfl)
@[simp] theorem State.count_sec : (s.count k hi lo n).sec = s.sec := (rfl)
@[simp] theorem State.count_hp : (s.count k hi lo n).hp = s.hp := (rfl)
@[simp] theorem State.count_ctxs : (s.count k hi lo n).ctxs = s.ctxs := (rfl)
@[simp] theorem State.count_fences : (s.count k hi lo n).fences = s.fences := (rfl)
@[simp] theorem State.count_ja : (s.count k hi lo n).ja = s.ja := (rfl)
@[simp] theorem State.count_cmp : (s.count k hi lo n).cmp = s.cmp := (rfl)
@[simp] theorem State.count_hd : (s.count k hi lo n).hd = s.hd := (rfl)
@[simp] theorem State.count_im : (s.count k hi lo n).im = s.im := (rfl)
@[simp] theorem State.count_lo : (s.count k hi lo n).lo = s.lo := (rfl)
@[simp] theorem State.count_net : (s.count k hi lo n).net = s.net := (rfl)
@[simp] theorem State.count_tch : (s.count k hi lo n).tch = s.tch := (rfl)
@[simp] theorem State.count_hap : (s.count k hi lo n).hap = s.hap := (rfl)
@[simp] theorem State.count_aud : (s.count k hi lo n).aud = s.aud := (rfl)
@[simp] theorem State.count_evr : (s.count k hi lo n).evr = s.evr := (rfl)
@[simp] theorem State.count_pwr : (s.count k hi lo n).pwr = s.pwr := (rfl)
@[simp] theorem State.count_out : (s.count k hi lo n).out = s.out := (rfl)
@[simp] theorem State.count_pending : (s.count k hi lo n).pending = s.pending := (rfl)
end

section
variable (s : State) (klo khi v : Nat)
@[simp] theorem State.setReg64_hic : (s.setReg64 klo khi v).hic = s.hic := (rfl)
@[simp] theorem State.setReg64_clk : (s.setReg64 klo khi v).clk = s.clk := (rfl)
@[simp] theorem State.setReg64_pins : (s.setReg64 klo khi v).pins = s.pins := (rfl)
@[simp] theorem State.setReg64_tap : (s.setReg64 klo khi v).tap = s.tap := (rfl)
@[simp] theorem State.setReg64_fuses : (s.setReg64 klo khi v).fuses = s.fuses := (rfl)
@[simp] theorem State.setReg64_boot : (s.setReg64 klo khi v).boot = s.boot := (rfl)
@[simp] theorem State.setReg64_mem : (s.setReg64 klo khi v).mem = s.mem := (rfl)
@[simp] theorem State.setReg64_sec : (s.setReg64 klo khi v).sec = s.sec := (rfl)
@[simp] theorem State.setReg64_hp : (s.setReg64 klo khi v).hp = s.hp := (rfl)
@[simp] theorem State.setReg64_ctxs : (s.setReg64 klo khi v).ctxs = s.ctxs := (rfl)
@[simp] theorem State.setReg64_fences : (s.setReg64 klo khi v).fences = s.fences := (rfl)
@[simp] theorem State.setReg64_ja : (s.setReg64 klo khi v).ja = s.ja := (rfl)
@[simp] theorem State.setReg64_cmp : (s.setReg64 klo khi v).cmp = s.cmp := (rfl)
@[simp] theorem State.setReg64_hd : (s.setReg64 klo khi v).hd = s.hd := (rfl)
@[simp] theorem State.setReg64_im : (s.setReg64 klo khi v).im = s.im := (rfl)
@[simp] theorem State.setReg64_lo : (s.setReg64 klo khi v).lo = s.lo := (rfl)
@[simp] theorem State.setReg64_net : (s.setReg64 klo khi v).net = s.net := (rfl)
@[simp] theorem State.setReg64_tch : (s.setReg64 klo khi v).tch = s.tch := (rfl)
@[simp] theorem State.setReg64_hap : (s.setReg64 klo khi v).hap = s.hap := (rfl)
@[simp] theorem State.setReg64_aud : (s.setReg64 klo khi v).aud = s.aud := (rfl)
@[simp] theorem State.setReg64_evr : (s.setReg64 klo khi v).evr = s.evr := (rfl)
@[simp] theorem State.setReg64_pwr : (s.setReg64 klo khi v).pwr = s.pwr := (rfl)
@[simp] theorem State.setReg64_out : (s.setReg64 klo khi v).out = s.out := (rfl)
@[simp] theorem State.setReg64_pending : (s.setReg64 klo khi v).pending = s.pending := (rfl)
end

section
variable (s : State) (e : Emit)
@[simp] theorem State.emit_regs : (s.emit e).regs = s.regs := (rfl)
@[simp] theorem State.emit_hic : (s.emit e).hic = s.hic := (rfl)
@[simp] theorem State.emit_clk : (s.emit e).clk = s.clk := (rfl)
@[simp] theorem State.emit_pins : (s.emit e).pins = s.pins := (rfl)
@[simp] theorem State.emit_tap : (s.emit e).tap = s.tap := (rfl)
@[simp] theorem State.emit_fuses : (s.emit e).fuses = s.fuses := (rfl)
@[simp] theorem State.emit_boot : (s.emit e).boot = s.boot := (rfl)
@[simp] theorem State.emit_mem : (s.emit e).mem = s.mem := (rfl)
@[simp] theorem State.emit_sec : (s.emit e).sec = s.sec := (rfl)
@[simp] theorem State.emit_hp : (s.emit e).hp = s.hp := (rfl)
@[simp] theorem State.emit_ctxs : (s.emit e).ctxs = s.ctxs := (rfl)
@[simp] theorem State.emit_fences : (s.emit e).fences = s.fences := (rfl)
@[simp] theorem State.emit_ja : (s.emit e).ja = s.ja := (rfl)
@[simp] theorem State.emit_cmp : (s.emit e).cmp = s.cmp := (rfl)
@[simp] theorem State.emit_hd : (s.emit e).hd = s.hd := (rfl)
@[simp] theorem State.emit_im : (s.emit e).im = s.im := (rfl)
@[simp] theorem State.emit_lo : (s.emit e).lo = s.lo := (rfl)
@[simp] theorem State.emit_net : (s.emit e).net = s.net := (rfl)
@[simp] theorem State.emit_tch : (s.emit e).tch = s.tch := (rfl)
@[simp] theorem State.emit_hap : (s.emit e).hap = s.hap := (rfl)
@[simp] theorem State.emit_aud : (s.emit e).aud = s.aud := (rfl)
@[simp] theorem State.emit_evr : (s.emit e).evr = s.evr := (rfl)
@[simp] theorem State.emit_pwr : (s.emit e).pwr = s.pwr := (rfl)
@[simp] theorem State.emit_pending : (s.emit e).pending = s.pending := (rfl)
@[simp] theorem State.emit_reg (r : Nat) : (s.emit e).reg r = s.reg r := (rfl)
@[simp] theorem State.emit_fld (r hi lo : Nat) : (s.emit e).fld r hi lo = s.fld r hi lo := (rfl)
@[simp] theorem State.emit_bit (r z : Nat) : (s.emit e).bit r z = s.bit r z := (rfl)
end

section
variable (s : State)
@[simp] theorem State.took_regs : (s.took).regs = s.regs := (rfl)
@[simp] theorem State.took_hic : (s.took).hic = s.hic := (rfl)
@[simp] theorem State.took_pins : (s.took).pins = s.pins := (rfl)
@[simp] theorem State.took_tap : (s.took).tap = s.tap := (rfl)
@[simp] theorem State.took_fuses : (s.took).fuses = s.fuses := (rfl)
@[simp] theorem State.took_boot : (s.took).boot = s.boot := (rfl)
@[simp] theorem State.took_mem : (s.took).mem = s.mem := (rfl)
@[simp] theorem State.took_sec : (s.took).sec = s.sec := (rfl)
@[simp] theorem State.took_hp : (s.took).hp = s.hp := (rfl)
@[simp] theorem State.took_ctxs : (s.took).ctxs = s.ctxs := (rfl)
@[simp] theorem State.took_fences : (s.took).fences = s.fences := (rfl)
@[simp] theorem State.took_ja : (s.took).ja = s.ja := (rfl)
@[simp] theorem State.took_cmp : (s.took).cmp = s.cmp := (rfl)
@[simp] theorem State.took_hd : (s.took).hd = s.hd := (rfl)
@[simp] theorem State.took_im : (s.took).im = s.im := (rfl)
@[simp] theorem State.took_lo : (s.took).lo = s.lo := (rfl)
@[simp] theorem State.took_net : (s.took).net = s.net := (rfl)
@[simp] theorem State.took_tch : (s.took).tch = s.tch := (rfl)
@[simp] theorem State.took_hap : (s.took).hap = s.hap := (rfl)
@[simp] theorem State.took_aud : (s.took).aud = s.aud := (rfl)
@[simp] theorem State.took_evr : (s.took).evr = s.evr := (rfl)
@[simp] theorem State.took_pwr : (s.took).pwr = s.pwr := (rfl)
@[simp] theorem State.took_out : (s.took).out = s.out := (rfl)
@[simp] theorem State.took_pending : (s.took).pending = s.pending := (rfl)
@[simp] theorem State.took_reg (r : Nat) : (s.took).reg r = s.reg r := (rfl)
@[simp] theorem State.took_fld (r hi lo : Nat) : (s.took).fld r hi lo = s.fld r hi lo := (rfl)
@[simp] theorem State.took_bit (r z : Nat) : (s.took).bit r z = s.bit r z := (rfl)
end

section
variable (s : State) (code : Nat) (items : List (Nat × Nat))
@[simp] theorem State.offer_regs : (s.offer code items).regs = s.regs := (rfl)
@[simp] theorem State.offer_hic : (s.offer code items).hic = s.hic := (rfl)
@[simp] theorem State.offer_clk : (s.offer code items).clk = s.clk := (rfl)
@[simp] theorem State.offer_pins : (s.offer code items).pins = s.pins := (rfl)
@[simp] theorem State.offer_tap : (s.offer code items).tap = s.tap := (rfl)
@[simp] theorem State.offer_fuses : (s.offer code items).fuses = s.fuses := (rfl)
@[simp] theorem State.offer_boot : (s.offer code items).boot = s.boot := (rfl)
@[simp] theorem State.offer_mem : (s.offer code items).mem = s.mem := (rfl)
@[simp] theorem State.offer_sec : (s.offer code items).sec = s.sec := (rfl)
@[simp] theorem State.offer_hp : (s.offer code items).hp = s.hp := (rfl)
@[simp] theorem State.offer_ctxs : (s.offer code items).ctxs = s.ctxs := (rfl)
@[simp] theorem State.offer_fences : (s.offer code items).fences = s.fences := (rfl)
@[simp] theorem State.offer_ja : (s.offer code items).ja = s.ja := (rfl)
@[simp] theorem State.offer_cmp : (s.offer code items).cmp = s.cmp := (rfl)
@[simp] theorem State.offer_hd : (s.offer code items).hd = s.hd := (rfl)
@[simp] theorem State.offer_im : (s.offer code items).im = s.im := (rfl)
@[simp] theorem State.offer_lo : (s.offer code items).lo = s.lo := (rfl)
@[simp] theorem State.offer_net : (s.offer code items).net = s.net := (rfl)
@[simp] theorem State.offer_tch : (s.offer code items).tch = s.tch := (rfl)
@[simp] theorem State.offer_hap : (s.offer code items).hap = s.hap := (rfl)
@[simp] theorem State.offer_aud : (s.offer code items).aud = s.aud := (rfl)
@[simp] theorem State.offer_pwr : (s.offer code items).pwr = s.pwr := (rfl)
@[simp] theorem State.offer_out : (s.offer code items).out = s.out := (rfl)
@[simp] theorem State.offer_pending : (s.offer code items).pending = s.pending := (rfl)
@[simp] theorem State.offer_reg (r : Nat) : (s.offer code items).reg r = s.reg r := (rfl)
@[simp] theorem State.offer_fld (r hi lo : Nat) : (s.offer code items).fld r hi lo = s.fld r hi lo := (rfl)
@[simp] theorem State.offer_bit (r z : Nat) : (s.offer code items).bit r z = s.bit r z := (rfl)
end

section
variable (s : State)
@[simp] theorem State.endCycle_regs : s.endCycle.regs = s.regs := (rfl)
@[simp] theorem State.endCycle_hic : s.endCycle.hic = s.hic := (rfl)
@[simp] theorem State.endCycle_clk : s.endCycle.clk = s.clk := (rfl)
@[simp] theorem State.endCycle_pins : s.endCycle.pins = s.pins := (rfl)
@[simp] theorem State.endCycle_tap : s.endCycle.tap = s.tap := (rfl)
@[simp] theorem State.endCycle_fuses : s.endCycle.fuses = s.fuses := (rfl)
@[simp] theorem State.endCycle_boot : s.endCycle.boot = s.boot := (rfl)
@[simp] theorem State.endCycle_mem : s.endCycle.mem = s.mem := (rfl)
@[simp] theorem State.endCycle_sec : s.endCycle.sec = s.sec := (rfl)
@[simp] theorem State.endCycle_hp : s.endCycle.hp = s.hp := (rfl)
@[simp] theorem State.endCycle_ctxs : s.endCycle.ctxs = s.ctxs := (rfl)
@[simp] theorem State.endCycle_fences : s.endCycle.fences = s.fences := (rfl)
@[simp] theorem State.endCycle_ja : s.endCycle.ja = s.ja := (rfl)
@[simp] theorem State.endCycle_cmp : s.endCycle.cmp = s.cmp := (rfl)
@[simp] theorem State.endCycle_hd : s.endCycle.hd = s.hd := (rfl)
@[simp] theorem State.endCycle_im : s.endCycle.im = s.im := (rfl)
@[simp] theorem State.endCycle_lo : s.endCycle.lo = s.lo := (rfl)
@[simp] theorem State.endCycle_net : s.endCycle.net = s.net := (rfl)
@[simp] theorem State.endCycle_tch : s.endCycle.tch = s.tch := (rfl)
@[simp] theorem State.endCycle_hap : s.endCycle.hap = s.hap := (rfl)
@[simp] theorem State.endCycle_aud : s.endCycle.aud = s.aud := (rfl)
@[simp] theorem State.endCycle_pwr : s.endCycle.pwr = s.pwr := (rfl)
@[simp] theorem State.endCycle_out : s.endCycle.out = s.out := (rfl)
@[simp] theorem State.endCycle_pending : s.endCycle.pending = s.pending := (rfl)
@[simp] theorem State.endCycle_reg (r : Nat) : s.endCycle.reg r = s.reg r := (rfl)
@[simp] theorem State.endCycle_fld (r hi lo : Nat) : s.endCycle.fld r hi lo = s.fld r hi lo := (rfl)
@[simp] theorem State.endCycle_bit (r z : Nat) : s.endCycle.bit r z = s.bit r z := (rfl)
end

section
variable (s : State) (p : Nat) (f : Fn)
@[simp] theorem State.setFn_regs : (s.setFn p f).regs = s.regs := (rfl)
@[simp] theorem State.setFn_hic : (s.setFn p f).hic = s.hic := (rfl)
@[simp] theorem State.setFn_clk : (s.setFn p f).clk = s.clk := (rfl)
@[simp] theorem State.setFn_pins : (s.setFn p f).pins = s.pins := (rfl)
@[simp] theorem State.setFn_tap : (s.setFn p f).tap = s.tap := (rfl)
@[simp] theorem State.setFn_fuses : (s.setFn p f).fuses = s.fuses := (rfl)
@[simp] theorem State.setFn_boot : (s.setFn p f).boot = s.boot := (rfl)
@[simp] theorem State.setFn_mem : (s.setFn p f).mem = s.mem := (rfl)
@[simp] theorem State.setFn_sec : (s.setFn p f).sec = s.sec := (rfl)
@[simp] theorem State.setFn_ctxs : (s.setFn p f).ctxs = s.ctxs := (rfl)
@[simp] theorem State.setFn_fences : (s.setFn p f).fences = s.fences := (rfl)
@[simp] theorem State.setFn_ja : (s.setFn p f).ja = s.ja := (rfl)
@[simp] theorem State.setFn_cmp : (s.setFn p f).cmp = s.cmp := (rfl)
@[simp] theorem State.setFn_hd : (s.setFn p f).hd = s.hd := (rfl)
@[simp] theorem State.setFn_im : (s.setFn p f).im = s.im := (rfl)
@[simp] theorem State.setFn_lo : (s.setFn p f).lo = s.lo := (rfl)
@[simp] theorem State.setFn_net : (s.setFn p f).net = s.net := (rfl)
@[simp] theorem State.setFn_tch : (s.setFn p f).tch = s.tch := (rfl)
@[simp] theorem State.setFn_hap : (s.setFn p f).hap = s.hap := (rfl)
@[simp] theorem State.setFn_aud : (s.setFn p f).aud = s.aud := (rfl)
@[simp] theorem State.setFn_evr : (s.setFn p f).evr = s.evr := (rfl)
@[simp] theorem State.setFn_pwr : (s.setFn p f).pwr = s.pwr := (rfl)
@[simp] theorem State.setFn_out : (s.setFn p f).out = s.out := (rfl)
@[simp] theorem State.setFn_pending : (s.setFn p f).pending = s.pending := (rfl)
@[simp] theorem State.setFn_reg (r : Nat) : (s.setFn p f).reg r = s.reg r := (rfl)
@[simp] theorem State.setFn_fld (r hi lo : Nat) : (s.setFn p f).fld r hi lo = s.fld r hi lo := (rfl)
@[simp] theorem State.setFn_bit (r z : Nat) : (s.setFn p f).bit r z = s.bit r z := (rfl)
end

section
variable (s : State) (g e : Nat)
@[simp] theorem State.setOwner_regs : (s.setOwner g e).regs = s.regs := (rfl)
@[simp] theorem State.setOwner_hic : (s.setOwner g e).hic = s.hic := (rfl)
@[simp] theorem State.setOwner_clk : (s.setOwner g e).clk = s.clk := (rfl)
@[simp] theorem State.setOwner_pins : (s.setOwner g e).pins = s.pins := (rfl)
@[simp] theorem State.setOwner_tap : (s.setOwner g e).tap = s.tap := (rfl)
@[simp] theorem State.setOwner_fuses : (s.setOwner g e).fuses = s.fuses := (rfl)
@[simp] theorem State.setOwner_boot : (s.setOwner g e).boot = s.boot := (rfl)
@[simp] theorem State.setOwner_sec : (s.setOwner g e).sec = s.sec := (rfl)
@[simp] theorem State.setOwner_hp : (s.setOwner g e).hp = s.hp := (rfl)
@[simp] theorem State.setOwner_ctxs : (s.setOwner g e).ctxs = s.ctxs := (rfl)
@[simp] theorem State.setOwner_fences : (s.setOwner g e).fences = s.fences := (rfl)
@[simp] theorem State.setOwner_ja : (s.setOwner g e).ja = s.ja := (rfl)
@[simp] theorem State.setOwner_cmp : (s.setOwner g e).cmp = s.cmp := (rfl)
@[simp] theorem State.setOwner_hd : (s.setOwner g e).hd = s.hd := (rfl)
@[simp] theorem State.setOwner_im : (s.setOwner g e).im = s.im := (rfl)
@[simp] theorem State.setOwner_lo : (s.setOwner g e).lo = s.lo := (rfl)
@[simp] theorem State.setOwner_net : (s.setOwner g e).net = s.net := (rfl)
@[simp] theorem State.setOwner_tch : (s.setOwner g e).tch = s.tch := (rfl)
@[simp] theorem State.setOwner_hap : (s.setOwner g e).hap = s.hap := (rfl)
@[simp] theorem State.setOwner_aud : (s.setOwner g e).aud = s.aud := (rfl)
@[simp] theorem State.setOwner_evr : (s.setOwner g e).evr = s.evr := (rfl)
@[simp] theorem State.setOwner_pwr : (s.setOwner g e).pwr = s.pwr := (rfl)
@[simp] theorem State.setOwner_out : (s.setOwner g e).out = s.out := (rfl)
@[simp] theorem State.setOwner_pending : (s.setOwner g e).pending = s.pending := (rfl)
@[simp] theorem State.setOwner_reg (r : Nat) : (s.setOwner g e).reg r = s.reg r := (rfl)
@[simp] theorem State.setOwner_fld (r hi lo : Nat) : (s.setOwner g e).fld r hi lo = s.fld r hi lo := (rfl)
@[simp] theorem State.setOwner_bit (r z : Nat) : (s.setOwner g e).bit r z = s.bit r z := (rfl)
end

section
variable (s : State) (m : MemSel) (a : Nat) (b : Byte)
@[simp] theorem State.putByte_regs : (s.putByte m a b).regs = s.regs := by cases m <;> rfl
@[simp] theorem State.putByte_hic : (s.putByte m a b).hic = s.hic := by cases m <;> rfl
@[simp] theorem State.putByte_clk : (s.putByte m a b).clk = s.clk := by cases m <;> rfl
@[simp] theorem State.putByte_pins : (s.putByte m a b).pins = s.pins := by cases m <;> rfl
@[simp] theorem State.putByte_tap : (s.putByte m a b).tap = s.tap := by cases m <;> rfl
@[simp] theorem State.putByte_fuses : (s.putByte m a b).fuses = s.fuses := by cases m <;> rfl
@[simp] theorem State.putByte_boot : (s.putByte m a b).boot = s.boot := by cases m <;> rfl
@[simp] theorem State.putByte_sec : (s.putByte m a b).sec = s.sec := by cases m <;> rfl
@[simp] theorem State.putByte_hp : (s.putByte m a b).hp = s.hp := by cases m <;> rfl
@[simp] theorem State.putByte_ctxs : (s.putByte m a b).ctxs = s.ctxs := by cases m <;> rfl
@[simp] theorem State.putByte_fences : (s.putByte m a b).fences = s.fences := by cases m <;> rfl
@[simp] theorem State.putByte_ja : (s.putByte m a b).ja = s.ja := by cases m <;> rfl
@[simp] theorem State.putByte_cmp : (s.putByte m a b).cmp = s.cmp := by cases m <;> rfl
@[simp] theorem State.putByte_hd : (s.putByte m a b).hd = s.hd := by cases m <;> rfl
@[simp] theorem State.putByte_im : (s.putByte m a b).im = s.im := by cases m <;> rfl
@[simp] theorem State.putByte_lo : (s.putByte m a b).lo = s.lo := by cases m <;> rfl
@[simp] theorem State.putByte_net : (s.putByte m a b).net = s.net := by cases m <;> rfl
@[simp] theorem State.putByte_tch : (s.putByte m a b).tch = s.tch := by cases m <;> rfl
@[simp] theorem State.putByte_hap : (s.putByte m a b).hap = s.hap := by cases m <;> rfl
@[simp] theorem State.putByte_aud : (s.putByte m a b).aud = s.aud := by cases m <;> rfl
@[simp] theorem State.putByte_evr : (s.putByte m a b).evr = s.evr := by cases m <;> rfl
@[simp] theorem State.putByte_pwr : (s.putByte m a b).pwr = s.pwr := by cases m <;> rfl
@[simp] theorem State.putByte_out : (s.putByte m a b).out = s.out := by cases m <;> rfl
@[simp] theorem State.putByte_pending : (s.putByte m a b).pending = s.pending := by cases m <;> rfl
@[simp] theorem State.putByte_reg (r : Nat) : (s.putByte m a b).reg r = s.reg r := by cases m <;> rfl
@[simp] theorem State.putByte_fld (r hi lo : Nat) : (s.putByte m a b).fld r hi lo = s.fld r hi lo := by cases m <;> rfl
@[simp] theorem State.putByte_bit (r z : Nat) : (s.putByte m a b).bit r z = s.bit r z := by cases m <;> rfl
end

section
variable (s : State) (c : Nat) (x : Ctx)
@[simp] theorem State.setCtx_regs : (s.setCtx c x).regs = s.regs := (rfl)
@[simp] theorem State.setCtx_hic : (s.setCtx c x).hic = s.hic := (rfl)
@[simp] theorem State.setCtx_clk : (s.setCtx c x).clk = s.clk := (rfl)
@[simp] theorem State.setCtx_pins : (s.setCtx c x).pins = s.pins := (rfl)
@[simp] theorem State.setCtx_tap : (s.setCtx c x).tap = s.tap := (rfl)
@[simp] theorem State.setCtx_fuses : (s.setCtx c x).fuses = s.fuses := (rfl)
@[simp] theorem State.setCtx_boot : (s.setCtx c x).boot = s.boot := (rfl)
@[simp] theorem State.setCtx_mem : (s.setCtx c x).mem = s.mem := (rfl)
@[simp] theorem State.setCtx_sec : (s.setCtx c x).sec = s.sec := (rfl)
@[simp] theorem State.setCtx_hp : (s.setCtx c x).hp = s.hp := (rfl)
@[simp] theorem State.setCtx_fences : (s.setCtx c x).fences = s.fences := (rfl)
@[simp] theorem State.setCtx_ja : (s.setCtx c x).ja = s.ja := (rfl)
@[simp] theorem State.setCtx_cmp : (s.setCtx c x).cmp = s.cmp := (rfl)
@[simp] theorem State.setCtx_hd : (s.setCtx c x).hd = s.hd := (rfl)
@[simp] theorem State.setCtx_im : (s.setCtx c x).im = s.im := (rfl)
@[simp] theorem State.setCtx_lo : (s.setCtx c x).lo = s.lo := (rfl)
@[simp] theorem State.setCtx_net : (s.setCtx c x).net = s.net := (rfl)
@[simp] theorem State.setCtx_tch : (s.setCtx c x).tch = s.tch := (rfl)
@[simp] theorem State.setCtx_hap : (s.setCtx c x).hap = s.hap := (rfl)
@[simp] theorem State.setCtx_aud : (s.setCtx c x).aud = s.aud := (rfl)
@[simp] theorem State.setCtx_evr : (s.setCtx c x).evr = s.evr := (rfl)
@[simp] theorem State.setCtx_pwr : (s.setCtx c x).pwr = s.pwr := (rfl)
@[simp] theorem State.setCtx_out : (s.setCtx c x).out = s.out := (rfl)
@[simp] theorem State.setCtx_pending : (s.setCtx c x).pending = s.pending := (rfl)
@[simp] theorem State.setCtx_reg (r : Nat) : (s.setCtx c x).reg r = s.reg r := (rfl)
@[simp] theorem State.setCtx_fld (r hi lo : Nat) : (s.setCtx c x).fld r hi lo = s.fld r hi lo := (rfl)
@[simp] theorem State.setCtx_bit (r z : Nat) : (s.setCtx c x).bit r z = s.bit r z := (rfl)
end

section
variable (s : State) (f v : Nat)
@[simp] theorem State.setFence_regs : (s.setFence f v).regs = s.regs := (rfl)
@[simp] theorem State.setFence_hic : (s.setFence f v).hic = s.hic := (rfl)
@[simp] theorem State.setFence_clk : (s.setFence f v).clk = s.clk := (rfl)
@[simp] theorem State.setFence_pins : (s.setFence f v).pins = s.pins := (rfl)
@[simp] theorem State.setFence_tap : (s.setFence f v).tap = s.tap := (rfl)
@[simp] theorem State.setFence_fuses : (s.setFence f v).fuses = s.fuses := (rfl)
@[simp] theorem State.setFence_boot : (s.setFence f v).boot = s.boot := (rfl)
@[simp] theorem State.setFence_mem : (s.setFence f v).mem = s.mem := (rfl)
@[simp] theorem State.setFence_sec : (s.setFence f v).sec = s.sec := (rfl)
@[simp] theorem State.setFence_hp : (s.setFence f v).hp = s.hp := (rfl)
@[simp] theorem State.setFence_ctxs : (s.setFence f v).ctxs = s.ctxs := (rfl)
@[simp] theorem State.setFence_ja : (s.setFence f v).ja = s.ja := (rfl)
@[simp] theorem State.setFence_cmp : (s.setFence f v).cmp = s.cmp := (rfl)
@[simp] theorem State.setFence_hd : (s.setFence f v).hd = s.hd := (rfl)
@[simp] theorem State.setFence_im : (s.setFence f v).im = s.im := (rfl)
@[simp] theorem State.setFence_lo : (s.setFence f v).lo = s.lo := (rfl)
@[simp] theorem State.setFence_net : (s.setFence f v).net = s.net := (rfl)
@[simp] theorem State.setFence_tch : (s.setFence f v).tch = s.tch := (rfl)
@[simp] theorem State.setFence_hap : (s.setFence f v).hap = s.hap := (rfl)
@[simp] theorem State.setFence_aud : (s.setFence f v).aud = s.aud := (rfl)
@[simp] theorem State.setFence_evr : (s.setFence f v).evr = s.evr := (rfl)
@[simp] theorem State.setFence_pwr : (s.setFence f v).pwr = s.pwr := (rfl)
@[simp] theorem State.setFence_out : (s.setFence f v).out = s.out := (rfl)
@[simp] theorem State.setFence_pending : (s.setFence f v).pending = s.pending := (rfl)
@[simp] theorem State.setFence_reg (r : Nat) : (s.setFence f v).reg r = s.reg r := (rfl)
@[simp] theorem State.setFence_fld (r hi lo : Nat) : (s.setFence f v).fld r hi lo = s.fld r hi lo := (rfl)
@[simp] theorem State.setFence_bit (r z : Nat) : (s.setFence f v).bit r z = s.bit r z := (rfl)
end

section
variable (s : State) (n : Nat) (j : Jet)
@[simp] theorem State.setJet_regs : (s.setJet n j).regs = s.regs := (rfl)
@[simp] theorem State.setJet_hic : (s.setJet n j).hic = s.hic := (rfl)
@[simp] theorem State.setJet_clk : (s.setJet n j).clk = s.clk := (rfl)
@[simp] theorem State.setJet_pins : (s.setJet n j).pins = s.pins := (rfl)
@[simp] theorem State.setJet_tap : (s.setJet n j).tap = s.tap := (rfl)
@[simp] theorem State.setJet_fuses : (s.setJet n j).fuses = s.fuses := (rfl)
@[simp] theorem State.setJet_boot : (s.setJet n j).boot = s.boot := (rfl)
@[simp] theorem State.setJet_mem : (s.setJet n j).mem = s.mem := (rfl)
@[simp] theorem State.setJet_sec : (s.setJet n j).sec = s.sec := (rfl)
@[simp] theorem State.setJet_hp : (s.setJet n j).hp = s.hp := (rfl)
@[simp] theorem State.setJet_ctxs : (s.setJet n j).ctxs = s.ctxs := (rfl)
@[simp] theorem State.setJet_fences : (s.setJet n j).fences = s.fences := (rfl)
@[simp] theorem State.setJet_cmp : (s.setJet n j).cmp = s.cmp := (rfl)
@[simp] theorem State.setJet_hd : (s.setJet n j).hd = s.hd := (rfl)
@[simp] theorem State.setJet_im : (s.setJet n j).im = s.im := (rfl)
@[simp] theorem State.setJet_lo : (s.setJet n j).lo = s.lo := (rfl)
@[simp] theorem State.setJet_net : (s.setJet n j).net = s.net := (rfl)
@[simp] theorem State.setJet_tch : (s.setJet n j).tch = s.tch := (rfl)
@[simp] theorem State.setJet_hap : (s.setJet n j).hap = s.hap := (rfl)
@[simp] theorem State.setJet_aud : (s.setJet n j).aud = s.aud := (rfl)
@[simp] theorem State.setJet_evr : (s.setJet n j).evr = s.evr := (rfl)
@[simp] theorem State.setJet_pwr : (s.setJet n j).pwr = s.pwr := (rfl)
@[simp] theorem State.setJet_out : (s.setJet n j).out = s.out := (rfl)
@[simp] theorem State.setJet_pending : (s.setJet n j).pending = s.pending := (rfl)
@[simp] theorem State.setJet_reg (r : Nat) : (s.setJet n j).reg r = s.reg r := (rfl)
@[simp] theorem State.setJet_fld (r hi lo : Nat) : (s.setJet n j).fld r hi lo = s.fld r hi lo := (rfl)
@[simp] theorem State.setJet_bit (r z : Nat) : (s.setJet n j).bit r z = s.bit r z := (rfl)
end

section
variable (s : State) (n : Nat) (t : Str)
@[simp] theorem State.setStr_regs : (s.setStr n t).regs = s.regs := (rfl)
@[simp] theorem State.setStr_hic : (s.setStr n t).hic = s.hic := (rfl)
@[simp] theorem State.setStr_clk : (s.setStr n t).clk = s.clk := (rfl)
@[simp] theorem State.setStr_pins : (s.setStr n t).pins = s.pins := (rfl)
@[simp] theorem State.setStr_tap : (s.setStr n t).tap = s.tap := (rfl)
@[simp] theorem State.setStr_fuses : (s.setStr n t).fuses = s.fuses := (rfl)
@[simp] theorem State.setStr_boot : (s.setStr n t).boot = s.boot := (rfl)
@[simp] theorem State.setStr_mem : (s.setStr n t).mem = s.mem := (rfl)
@[simp] theorem State.setStr_sec : (s.setStr n t).sec = s.sec := (rfl)
@[simp] theorem State.setStr_hp : (s.setStr n t).hp = s.hp := (rfl)
@[simp] theorem State.setStr_ctxs : (s.setStr n t).ctxs = s.ctxs := (rfl)
@[simp] theorem State.setStr_fences : (s.setStr n t).fences = s.fences := (rfl)
@[simp] theorem State.setStr_cmp : (s.setStr n t).cmp = s.cmp := (rfl)
@[simp] theorem State.setStr_hd : (s.setStr n t).hd = s.hd := (rfl)
@[simp] theorem State.setStr_im : (s.setStr n t).im = s.im := (rfl)
@[simp] theorem State.setStr_lo : (s.setStr n t).lo = s.lo := (rfl)
@[simp] theorem State.setStr_net : (s.setStr n t).net = s.net := (rfl)
@[simp] theorem State.setStr_tch : (s.setStr n t).tch = s.tch := (rfl)
@[simp] theorem State.setStr_hap : (s.setStr n t).hap = s.hap := (rfl)
@[simp] theorem State.setStr_aud : (s.setStr n t).aud = s.aud := (rfl)
@[simp] theorem State.setStr_evr : (s.setStr n t).evr = s.evr := (rfl)
@[simp] theorem State.setStr_pwr : (s.setStr n t).pwr = s.pwr := (rfl)
@[simp] theorem State.setStr_out : (s.setStr n t).out = s.out := (rfl)
@[simp] theorem State.setStr_pending : (s.setStr n t).pending = s.pending := (rfl)
@[simp] theorem State.setStr_reg (r : Nat) : (s.setStr n t).reg r = s.reg r := (rfl)
@[simp] theorem State.setStr_fld (r hi lo : Nat) : (s.setStr n t).fld r hi lo = s.fld r hi lo := (rfl)
@[simp] theorem State.setStr_bit (r z : Nat) : (s.setStr n t).bit r z = s.bit r z := (rfl)
end

section
variable (s : State) (c sq : Nat) (f : JetJob → JetJob)
@[simp] theorem State.modJjob_regs : (s.modJjob c sq f).regs = s.regs := (rfl)
@[simp] theorem State.modJjob_hic : (s.modJjob c sq f).hic = s.hic := (rfl)
@[simp] theorem State.modJjob_clk : (s.modJjob c sq f).clk = s.clk := (rfl)
@[simp] theorem State.modJjob_pins : (s.modJjob c sq f).pins = s.pins := (rfl)
@[simp] theorem State.modJjob_tap : (s.modJjob c sq f).tap = s.tap := (rfl)
@[simp] theorem State.modJjob_fuses : (s.modJjob c sq f).fuses = s.fuses := (rfl)
@[simp] theorem State.modJjob_boot : (s.modJjob c sq f).boot = s.boot := (rfl)
@[simp] theorem State.modJjob_mem : (s.modJjob c sq f).mem = s.mem := (rfl)
@[simp] theorem State.modJjob_sec : (s.modJjob c sq f).sec = s.sec := (rfl)
@[simp] theorem State.modJjob_hp : (s.modJjob c sq f).hp = s.hp := (rfl)
@[simp] theorem State.modJjob_ctxs : (s.modJjob c sq f).ctxs = s.ctxs := (rfl)
@[simp] theorem State.modJjob_fences : (s.modJjob c sq f).fences = s.fences := (rfl)
@[simp] theorem State.modJjob_cmp : (s.modJjob c sq f).cmp = s.cmp := (rfl)
@[simp] theorem State.modJjob_hd : (s.modJjob c sq f).hd = s.hd := (rfl)
@[simp] theorem State.modJjob_im : (s.modJjob c sq f).im = s.im := (rfl)
@[simp] theorem State.modJjob_lo : (s.modJjob c sq f).lo = s.lo := (rfl)
@[simp] theorem State.modJjob_net : (s.modJjob c sq f).net = s.net := (rfl)
@[simp] theorem State.modJjob_tch : (s.modJjob c sq f).tch = s.tch := (rfl)
@[simp] theorem State.modJjob_hap : (s.modJjob c sq f).hap = s.hap := (rfl)
@[simp] theorem State.modJjob_aud : (s.modJjob c sq f).aud = s.aud := (rfl)
@[simp] theorem State.modJjob_evr : (s.modJjob c sq f).evr = s.evr := (rfl)
@[simp] theorem State.modJjob_pwr : (s.modJjob c sq f).pwr = s.pwr := (rfl)
@[simp] theorem State.modJjob_out : (s.modJjob c sq f).out = s.out := (rfl)
@[simp] theorem State.modJjob_pending : (s.modJjob c sq f).pending = s.pending := (rfl)
@[simp] theorem State.modJjob_reg (r : Nat) : (s.modJjob c sq f).reg r = s.reg r := (rfl)
@[simp] theorem State.modJjob_fld (r hi lo : Nat) : (s.modJjob c sq f).fld r hi lo = s.fld r hi lo := (rfl)
@[simp] theorem State.modJjob_bit (r z : Nat) : (s.modJjob c sq f).bit r z = s.bit r z := (rfl)
end

section
variable (s : State) (f : Jet → Jet)
@[simp] theorem State.mapJets_regs : (s.mapJets f).regs = s.regs := (rfl)
@[simp] theorem State.mapJets_hic : (s.mapJets f).hic = s.hic := (rfl)
@[simp] theorem State.mapJets_clk : (s.mapJets f).clk = s.clk := (rfl)
@[simp] theorem State.mapJets_pins : (s.mapJets f).pins = s.pins := (rfl)
@[simp] theorem State.mapJets_tap : (s.mapJets f).tap = s.tap := (rfl)
@[simp] theorem State.mapJets_fuses : (s.mapJets f).fuses = s.fuses := (rfl)
@[simp] theorem State.mapJets_boot : (s.mapJets f).boot = s.boot := (rfl)
@[simp] theorem State.mapJets_mem : (s.mapJets f).mem = s.mem := (rfl)
@[simp] theorem State.mapJets_sec : (s.mapJets f).sec = s.sec := (rfl)
@[simp] theorem State.mapJets_hp : (s.mapJets f).hp = s.hp := (rfl)
@[simp] theorem State.mapJets_ctxs : (s.mapJets f).ctxs = s.ctxs := (rfl)
@[simp] theorem State.mapJets_fences : (s.mapJets f).fences = s.fences := (rfl)
@[simp] theorem State.mapJets_cmp : (s.mapJets f).cmp = s.cmp := (rfl)
@[simp] theorem State.mapJets_hd : (s.mapJets f).hd = s.hd := (rfl)
@[simp] theorem State.mapJets_im : (s.mapJets f).im = s.im := (rfl)
@[simp] theorem State.mapJets_lo : (s.mapJets f).lo = s.lo := (rfl)
@[simp] theorem State.mapJets_net : (s.mapJets f).net = s.net := (rfl)
@[simp] theorem State.mapJets_tch : (s.mapJets f).tch = s.tch := (rfl)
@[simp] theorem State.mapJets_hap : (s.mapJets f).hap = s.hap := (rfl)
@[simp] theorem State.mapJets_aud : (s.mapJets f).aud = s.aud := (rfl)
@[simp] theorem State.mapJets_evr : (s.mapJets f).evr = s.evr := (rfl)
@[simp] theorem State.mapJets_pwr : (s.mapJets f).pwr = s.pwr := (rfl)
@[simp] theorem State.mapJets_out : (s.mapJets f).out = s.out := (rfl)
@[simp] theorem State.mapJets_pending : (s.mapJets f).pending = s.pending := (rfl)
@[simp] theorem State.mapJets_reg (r : Nat) : (s.mapJets f).reg r = s.reg r := (rfl)
@[simp] theorem State.mapJets_fld (r hi lo : Nat) : (s.mapJets f).fld r hi lo = s.fld r hi lo := (rfl)
@[simp] theorem State.mapJets_bit (r z : Nat) : (s.mapJets f).bit r z = s.bit r z := (rfl)
end

section
variable (s : State) (f : Str → Str)
@[simp] theorem State.mapStrs_regs : (s.mapStrs f).regs = s.regs := (rfl)
@[simp] theorem State.mapStrs_hic : (s.mapStrs f).hic = s.hic := (rfl)
@[simp] theorem State.mapStrs_clk : (s.mapStrs f).clk = s.clk := (rfl)
@[simp] theorem State.mapStrs_pins : (s.mapStrs f).pins = s.pins := (rfl)
@[simp] theorem State.mapStrs_tap : (s.mapStrs f).tap = s.tap := (rfl)
@[simp] theorem State.mapStrs_fuses : (s.mapStrs f).fuses = s.fuses := (rfl)
@[simp] theorem State.mapStrs_boot : (s.mapStrs f).boot = s.boot := (rfl)
@[simp] theorem State.mapStrs_mem : (s.mapStrs f).mem = s.mem := (rfl)
@[simp] theorem State.mapStrs_sec : (s.mapStrs f).sec = s.sec := (rfl)
@[simp] theorem State.mapStrs_hp : (s.mapStrs f).hp = s.hp := (rfl)
@[simp] theorem State.mapStrs_ctxs : (s.mapStrs f).ctxs = s.ctxs := (rfl)
@[simp] theorem State.mapStrs_fences : (s.mapStrs f).fences = s.fences := (rfl)
@[simp] theorem State.mapStrs_cmp : (s.mapStrs f).cmp = s.cmp := (rfl)
@[simp] theorem State.mapStrs_hd : (s.mapStrs f).hd = s.hd := (rfl)
@[simp] theorem State.mapStrs_im : (s.mapStrs f).im = s.im := (rfl)
@[simp] theorem State.mapStrs_lo : (s.mapStrs f).lo = s.lo := (rfl)
@[simp] theorem State.mapStrs_net : (s.mapStrs f).net = s.net := (rfl)
@[simp] theorem State.mapStrs_tch : (s.mapStrs f).tch = s.tch := (rfl)
@[simp] theorem State.mapStrs_hap : (s.mapStrs f).hap = s.hap := (rfl)
@[simp] theorem State.mapStrs_aud : (s.mapStrs f).aud = s.aud := (rfl)
@[simp] theorem State.mapStrs_evr : (s.mapStrs f).evr = s.evr := (rfl)
@[simp] theorem State.mapStrs_pwr : (s.mapStrs f).pwr = s.pwr := (rfl)
@[simp] theorem State.mapStrs_out : (s.mapStrs f).out = s.out := (rfl)
@[simp] theorem State.mapStrs_pending : (s.mapStrs f).pending = s.pending := (rfl)
@[simp] theorem State.mapStrs_reg (r : Nat) : (s.mapStrs f).reg r = s.reg r := (rfl)
@[simp] theorem State.mapStrs_fld (r hi lo : Nat) : (s.mapStrs f).fld r hi lo = s.fld r hi lo := (rfl)
@[simp] theorem State.mapStrs_bit (r z : Nat) : (s.mapStrs f).bit r z = s.bit r z := (rfl)
end

section
variable (s : State) (c sq : Nat) (f : Job → Job)
@[simp] theorem State.modJob_regs : (s.modJob c sq f).regs = s.regs := (rfl)
@[simp] theorem State.modJob_hic : (s.modJob c sq f).hic = s.hic := (rfl)
@[simp] theorem State.modJob_clk : (s.modJob c sq f).clk = s.clk := (rfl)
@[simp] theorem State.modJob_pins : (s.modJob c sq f).pins = s.pins := (rfl)
@[simp] theorem State.modJob_tap : (s.modJob c sq f).tap = s.tap := (rfl)
@[simp] theorem State.modJob_fuses : (s.modJob c sq f).fuses = s.fuses := (rfl)
@[simp] theorem State.modJob_boot : (s.modJob c sq f).boot = s.boot := (rfl)
@[simp] theorem State.modJob_mem : (s.modJob c sq f).mem = s.mem := (rfl)
@[simp] theorem State.modJob_sec : (s.modJob c sq f).sec = s.sec := (rfl)
@[simp] theorem State.modJob_hp : (s.modJob c sq f).hp = s.hp := (rfl)
@[simp] theorem State.modJob_fences : (s.modJob c sq f).fences = s.fences := (rfl)
@[simp] theorem State.modJob_ja : (s.modJob c sq f).ja = s.ja := (rfl)
@[simp] theorem State.modJob_cmp : (s.modJob c sq f).cmp = s.cmp := (rfl)
@[simp] theorem State.modJob_hd : (s.modJob c sq f).hd = s.hd := (rfl)
@[simp] theorem State.modJob_im : (s.modJob c sq f).im = s.im := (rfl)
@[simp] theorem State.modJob_lo : (s.modJob c sq f).lo = s.lo := (rfl)
@[simp] theorem State.modJob_net : (s.modJob c sq f).net = s.net := (rfl)
@[simp] theorem State.modJob_tch : (s.modJob c sq f).tch = s.tch := (rfl)
@[simp] theorem State.modJob_hap : (s.modJob c sq f).hap = s.hap := (rfl)
@[simp] theorem State.modJob_aud : (s.modJob c sq f).aud = s.aud := (rfl)
@[simp] theorem State.modJob_evr : (s.modJob c sq f).evr = s.evr := (rfl)
@[simp] theorem State.modJob_pwr : (s.modJob c sq f).pwr = s.pwr := (rfl)
@[simp] theorem State.modJob_out : (s.modJob c sq f).out = s.out := (rfl)
@[simp] theorem State.modJob_pending : (s.modJob c sq f).pending = s.pending := (rfl)
@[simp] theorem State.modJob_reg (r : Nat) : (s.modJob c sq f).reg r = s.reg r := (rfl)
@[simp] theorem State.modJob_fld (r hi lo : Nat) : (s.modJob c sq f).fld r hi lo = s.fld r hi lo := (rfl)
@[simp] theorem State.modJob_bit (r z : Nat) : (s.modJob c sq f).bit r z = s.bit r z := (rfl)
end

section
variable (s : State) (n : Nat) (f : Port → Port)
@[simp] theorem State.modPort_regs : (s.modPort n f).regs = s.regs := (rfl)
@[simp] theorem State.modPort_hic : (s.modPort n f).hic = s.hic := (rfl)
@[simp] theorem State.modPort_clk : (s.modPort n f).clk = s.clk := (rfl)
@[simp] theorem State.modPort_pins : (s.modPort n f).pins = s.pins := (rfl)
@[simp] theorem State.modPort_tap : (s.modPort n f).tap = s.tap := (rfl)
@[simp] theorem State.modPort_fuses : (s.modPort n f).fuses = s.fuses := (rfl)
@[simp] theorem State.modPort_boot : (s.modPort n f).boot = s.boot := (rfl)
@[simp] theorem State.modPort_mem : (s.modPort n f).mem = s.mem := (rfl)
@[simp] theorem State.modPort_sec : (s.modPort n f).sec = s.sec := (rfl)
@[simp] theorem State.modPort_ctxs : (s.modPort n f).ctxs = s.ctxs := (rfl)
@[simp] theorem State.modPort_fences : (s.modPort n f).fences = s.fences := (rfl)
@[simp] theorem State.modPort_ja : (s.modPort n f).ja = s.ja := (rfl)
@[simp] theorem State.modPort_cmp : (s.modPort n f).cmp = s.cmp := (rfl)
@[simp] theorem State.modPort_hd : (s.modPort n f).hd = s.hd := (rfl)
@[simp] theorem State.modPort_im : (s.modPort n f).im = s.im := (rfl)
@[simp] theorem State.modPort_lo : (s.modPort n f).lo = s.lo := (rfl)
@[simp] theorem State.modPort_net : (s.modPort n f).net = s.net := (rfl)
@[simp] theorem State.modPort_tch : (s.modPort n f).tch = s.tch := (rfl)
@[simp] theorem State.modPort_hap : (s.modPort n f).hap = s.hap := (rfl)
@[simp] theorem State.modPort_aud : (s.modPort n f).aud = s.aud := (rfl)
@[simp] theorem State.modPort_evr : (s.modPort n f).evr = s.evr := (rfl)
@[simp] theorem State.modPort_pwr : (s.modPort n f).pwr = s.pwr := (rfl)
@[simp] theorem State.modPort_out : (s.modPort n f).out = s.out := (rfl)
@[simp] theorem State.modPort_pending : (s.modPort n f).pending = s.pending := (rfl)
@[simp] theorem State.modPort_reg (r : Nat) : (s.modPort n f).reg r = s.reg r := (rfl)
@[simp] theorem State.modPort_fld (r hi lo : Nat) : (s.modPort n f).fld r hi lo = s.fld r hi lo := (rfl)
@[simp] theorem State.modPort_bit (r z : Nat) : (s.modPort n f).bit r z = s.bit r z := (rfl)
end

section
variable (s : State) (m : Nat) (x : Cvu)
@[simp] theorem State.setCvu_regs : (s.setCvu m x).regs = s.regs := (rfl)
@[simp] theorem State.setCvu_hic : (s.setCvu m x).hic = s.hic := (rfl)
@[simp] theorem State.setCvu_clk : (s.setCvu m x).clk = s.clk := (rfl)
@[simp] theorem State.setCvu_pins : (s.setCvu m x).pins = s.pins := (rfl)
@[simp] theorem State.setCvu_tap : (s.setCvu m x).tap = s.tap := (rfl)
@[simp] theorem State.setCvu_fuses : (s.setCvu m x).fuses = s.fuses := (rfl)
@[simp] theorem State.setCvu_boot : (s.setCvu m x).boot = s.boot := (rfl)
@[simp] theorem State.setCvu_mem : (s.setCvu m x).mem = s.mem := (rfl)
@[simp] theorem State.setCvu_sec : (s.setCvu m x).sec = s.sec := (rfl)
@[simp] theorem State.setCvu_hp : (s.setCvu m x).hp = s.hp := (rfl)
@[simp] theorem State.setCvu_ctxs : (s.setCvu m x).ctxs = s.ctxs := (rfl)
@[simp] theorem State.setCvu_fences : (s.setCvu m x).fences = s.fences := (rfl)
@[simp] theorem State.setCvu_ja : (s.setCvu m x).ja = s.ja := (rfl)
@[simp] theorem State.setCvu_cmp : (s.setCvu m x).cmp = s.cmp := (rfl)
@[simp] theorem State.setCvu_hd : (s.setCvu m x).hd = s.hd := (rfl)
@[simp] theorem State.setCvu_lo : (s.setCvu m x).lo = s.lo := (rfl)
@[simp] theorem State.setCvu_net : (s.setCvu m x).net = s.net := (rfl)
@[simp] theorem State.setCvu_tch : (s.setCvu m x).tch = s.tch := (rfl)
@[simp] theorem State.setCvu_hap : (s.setCvu m x).hap = s.hap := (rfl)
@[simp] theorem State.setCvu_aud : (s.setCvu m x).aud = s.aud := (rfl)
@[simp] theorem State.setCvu_evr : (s.setCvu m x).evr = s.evr := (rfl)
@[simp] theorem State.setCvu_pwr : (s.setCvu m x).pwr = s.pwr := (rfl)
@[simp] theorem State.setCvu_out : (s.setCvu m x).out = s.out := (rfl)
@[simp] theorem State.setCvu_pending : (s.setCvu m x).pending = s.pending := (rfl)
@[simp] theorem State.setCvu_reg (r : Nat) : (s.setCvu m x).reg r = s.reg r := (rfl)
@[simp] theorem State.setCvu_fld (r hi lo : Nat) : (s.setCvu m x).fld r hi lo = s.fld r hi lo := (rfl)
@[simp] theorem State.setCvu_bit (r z : Nat) : (s.setCvu m x).bit r z = s.bit r z := (rfl)
end

section
variable (s : State) (n : Nat) (x : ImHead)
@[simp] theorem State.setImHead_regs : (s.setImHead n x).regs = s.regs := (rfl)
@[simp] theorem State.setImHead_hic : (s.setImHead n x).hic = s.hic := (rfl)
@[simp] theorem State.setImHead_clk : (s.setImHead n x).clk = s.clk := (rfl)
@[simp] theorem State.setImHead_pins : (s.setImHead n x).pins = s.pins := (rfl)
@[simp] theorem State.setImHead_tap : (s.setImHead n x).tap = s.tap := (rfl)
@[simp] theorem State.setImHead_fuses : (s.setImHead n x).fuses = s.fuses := (rfl)
@[simp] theorem State.setImHead_boot : (s.setImHead n x).boot = s.boot := (rfl)
@[simp] theorem State.setImHead_mem : (s.setImHead n x).mem = s.mem := (rfl)
@[simp] theorem State.setImHead_sec : (s.setImHead n x).sec = s.sec := (rfl)
@[simp] theorem State.setImHead_hp : (s.setImHead n x).hp = s.hp := (rfl)
@[simp] theorem State.setImHead_ctxs : (s.setImHead n x).ctxs = s.ctxs := (rfl)
@[simp] theorem State.setImHead_fences : (s.setImHead n x).fences = s.fences := (rfl)
@[simp] theorem State.setImHead_ja : (s.setImHead n x).ja = s.ja := (rfl)
@[simp] theorem State.setImHead_cmp : (s.setImHead n x).cmp = s.cmp := (rfl)
@[simp] theorem State.setImHead_hd : (s.setImHead n x).hd = s.hd := (rfl)
@[simp] theorem State.setImHead_lo : (s.setImHead n x).lo = s.lo := (rfl)
@[simp] theorem State.setImHead_net : (s.setImHead n x).net = s.net := (rfl)
@[simp] theorem State.setImHead_tch : (s.setImHead n x).tch = s.tch := (rfl)
@[simp] theorem State.setImHead_hap : (s.setImHead n x).hap = s.hap := (rfl)
@[simp] theorem State.setImHead_aud : (s.setImHead n x).aud = s.aud := (rfl)
@[simp] theorem State.setImHead_evr : (s.setImHead n x).evr = s.evr := (rfl)
@[simp] theorem State.setImHead_pwr : (s.setImHead n x).pwr = s.pwr := (rfl)
@[simp] theorem State.setImHead_out : (s.setImHead n x).out = s.out := (rfl)
@[simp] theorem State.setImHead_pending : (s.setImHead n x).pending = s.pending := (rfl)
@[simp] theorem State.setImHead_reg (r : Nat) : (s.setImHead n x).reg r = s.reg r := (rfl)
@[simp] theorem State.setImHead_fld (r hi lo : Nat) : (s.setImHead n x).fld r hi lo = s.fld r hi lo := (rfl)
@[simp] theorem State.setImHead_bit (r z : Nat) : (s.setImHead n x).bit r z = s.bit r z := (rfl)
end

section
variable (s : State) (i : Nat) (x : LoSrc)
@[simp] theorem State.setSrc_regs : (s.setSrc i x).regs = s.regs := (rfl)
@[simp] theorem State.setSrc_hic : (s.setSrc i x).hic = s.hic := (rfl)
@[simp] theorem State.setSrc_clk : (s.setSrc i x).clk = s.clk := (rfl)
@[simp] theorem State.setSrc_pins : (s.setSrc i x).pins = s.pins := (rfl)
@[simp] theorem State.setSrc_tap : (s.setSrc i x).tap = s.tap := (rfl)
@[simp] theorem State.setSrc_fuses : (s.setSrc i x).fuses = s.fuses := (rfl)
@[simp] theorem State.setSrc_boot : (s.setSrc i x).boot = s.boot := (rfl)
@[simp] theorem State.setSrc_mem : (s.setSrc i x).mem = s.mem := (rfl)
@[simp] theorem State.setSrc_sec : (s.setSrc i x).sec = s.sec := (rfl)
@[simp] theorem State.setSrc_hp : (s.setSrc i x).hp = s.hp := (rfl)
@[simp] theorem State.setSrc_ctxs : (s.setSrc i x).ctxs = s.ctxs := (rfl)
@[simp] theorem State.setSrc_fences : (s.setSrc i x).fences = s.fences := (rfl)
@[simp] theorem State.setSrc_ja : (s.setSrc i x).ja = s.ja := (rfl)
@[simp] theorem State.setSrc_cmp : (s.setSrc i x).cmp = s.cmp := (rfl)
@[simp] theorem State.setSrc_hd : (s.setSrc i x).hd = s.hd := (rfl)
@[simp] theorem State.setSrc_im : (s.setSrc i x).im = s.im := (rfl)
@[simp] theorem State.setSrc_net : (s.setSrc i x).net = s.net := (rfl)
@[simp] theorem State.setSrc_tch : (s.setSrc i x).tch = s.tch := (rfl)
@[simp] theorem State.setSrc_hap : (s.setSrc i x).hap = s.hap := (rfl)
@[simp] theorem State.setSrc_aud : (s.setSrc i x).aud = s.aud := (rfl)
@[simp] theorem State.setSrc_evr : (s.setSrc i x).evr = s.evr := (rfl)
@[simp] theorem State.setSrc_pwr : (s.setSrc i x).pwr = s.pwr := (rfl)
@[simp] theorem State.setSrc_out : (s.setSrc i x).out = s.out := (rfl)
@[simp] theorem State.setSrc_pending : (s.setSrc i x).pending = s.pending := (rfl)
@[simp] theorem State.setSrc_reg (r : Nat) : (s.setSrc i x).reg r = s.reg r := (rfl)
@[simp] theorem State.setSrc_fld (r hi lo : Nat) : (s.setSrc i x).fld r hi lo = s.fld r hi lo := (rfl)
@[simp] theorem State.setSrc_bit (r z : Nat) : (s.setSrc i x).bit r z = s.bit r z := (rfl)
end

section
variable (s : State) (u : Nat) (x : LoUni)
@[simp] theorem State.setUni_regs : (s.setUni u x).regs = s.regs := (rfl)
@[simp] theorem State.setUni_hic : (s.setUni u x).hic = s.hic := (rfl)
@[simp] theorem State.setUni_clk : (s.setUni u x).clk = s.clk := (rfl)
@[simp] theorem State.setUni_pins : (s.setUni u x).pins = s.pins := (rfl)
@[simp] theorem State.setUni_tap : (s.setUni u x).tap = s.tap := (rfl)
@[simp] theorem State.setUni_fuses : (s.setUni u x).fuses = s.fuses := (rfl)
@[simp] theorem State.setUni_boot : (s.setUni u x).boot = s.boot := (rfl)
@[simp] theorem State.setUni_mem : (s.setUni u x).mem = s.mem := (rfl)
@[simp] theorem State.setUni_sec : (s.setUni u x).sec = s.sec := (rfl)
@[simp] theorem State.setUni_hp : (s.setUni u x).hp = s.hp := (rfl)
@[simp] theorem State.setUni_ctxs : (s.setUni u x).ctxs = s.ctxs := (rfl)
@[simp] theorem State.setUni_fences : (s.setUni u x).fences = s.fences := (rfl)
@[simp] theorem State.setUni_ja : (s.setUni u x).ja = s.ja := (rfl)
@[simp] theorem State.setUni_cmp : (s.setUni u x).cmp = s.cmp := (rfl)
@[simp] theorem State.setUni_hd : (s.setUni u x).hd = s.hd := (rfl)
@[simp] theorem State.setUni_im : (s.setUni u x).im = s.im := (rfl)
@[simp] theorem State.setUni_net : (s.setUni u x).net = s.net := (rfl)
@[simp] theorem State.setUni_tch : (s.setUni u x).tch = s.tch := (rfl)
@[simp] theorem State.setUni_hap : (s.setUni u x).hap = s.hap := (rfl)
@[simp] theorem State.setUni_aud : (s.setUni u x).aud = s.aud := (rfl)
@[simp] theorem State.setUni_evr : (s.setUni u x).evr = s.evr := (rfl)
@[simp] theorem State.setUni_pwr : (s.setUni u x).pwr = s.pwr := (rfl)
@[simp] theorem State.setUni_out : (s.setUni u x).out = s.out := (rfl)
@[simp] theorem State.setUni_pending : (s.setUni u x).pending = s.pending := (rfl)
@[simp] theorem State.setUni_reg (r : Nat) : (s.setUni u x).reg r = s.reg r := (rfl)
@[simp] theorem State.setUni_fld (r hi lo : Nat) : (s.setUni u x).fld r hi lo = s.fld r hi lo := (rfl)
@[simp] theorem State.setUni_bit (r z : Nat) : (s.setUni u x).bit r z = s.bit r z := (rfl)
end

section
variable (s : State) (p : Nat) (x : DmxPort)
@[simp] theorem State.setDmx_regs : (s.setDmx p x).regs = s.regs := (rfl)
@[simp] theorem State.setDmx_hic : (s.setDmx p x).hic = s.hic := (rfl)
@[simp] theorem State.setDmx_clk : (s.setDmx p x).clk = s.clk := (rfl)
@[simp] theorem State.setDmx_pins : (s.setDmx p x).pins = s.pins := (rfl)
@[simp] theorem State.setDmx_tap : (s.setDmx p x).tap = s.tap := (rfl)
@[simp] theorem State.setDmx_fuses : (s.setDmx p x).fuses = s.fuses := (rfl)
@[simp] theorem State.setDmx_boot : (s.setDmx p x).boot = s.boot := (rfl)
@[simp] theorem State.setDmx_mem : (s.setDmx p x).mem = s.mem := (rfl)
@[simp] theorem State.setDmx_sec : (s.setDmx p x).sec = s.sec := (rfl)
@[simp] theorem State.setDmx_hp : (s.setDmx p x).hp = s.hp := (rfl)
@[simp] theorem State.setDmx_ctxs : (s.setDmx p x).ctxs = s.ctxs := (rfl)
@[simp] theorem State.setDmx_fences : (s.setDmx p x).fences = s.fences := (rfl)
@[simp] theorem State.setDmx_ja : (s.setDmx p x).ja = s.ja := (rfl)
@[simp] theorem State.setDmx_cmp : (s.setDmx p x).cmp = s.cmp := (rfl)
@[simp] theorem State.setDmx_hd : (s.setDmx p x).hd = s.hd := (rfl)
@[simp] theorem State.setDmx_im : (s.setDmx p x).im = s.im := (rfl)
@[simp] theorem State.setDmx_net : (s.setDmx p x).net = s.net := (rfl)
@[simp] theorem State.setDmx_tch : (s.setDmx p x).tch = s.tch := (rfl)
@[simp] theorem State.setDmx_hap : (s.setDmx p x).hap = s.hap := (rfl)
@[simp] theorem State.setDmx_aud : (s.setDmx p x).aud = s.aud := (rfl)
@[simp] theorem State.setDmx_evr : (s.setDmx p x).evr = s.evr := (rfl)
@[simp] theorem State.setDmx_pwr : (s.setDmx p x).pwr = s.pwr := (rfl)
@[simp] theorem State.setDmx_out : (s.setDmx p x).out = s.out := (rfl)
@[simp] theorem State.setDmx_pending : (s.setDmx p x).pending = s.pending := (rfl)
@[simp] theorem State.setDmx_reg (r : Nat) : (s.setDmx p x).reg r = s.reg r := (rfl)
@[simp] theorem State.setDmx_fld (r hi lo : Nat) : (s.setDmx p x).fld r hi lo = s.fld r hi lo := (rfl)
@[simp] theorem State.setDmx_bit (r z : Nat) : (s.setDmx p x).bit r z = s.bit r z := (rfl)
end

section
variable (s : State) (c : Nat) (x : Composer)
@[simp] theorem State.setComp_regs : (s.setComp c x).regs = s.regs := (rfl)
@[simp] theorem State.setComp_hic : (s.setComp c x).hic = s.hic := (rfl)
@[simp] theorem State.setComp_clk : (s.setComp c x).clk = s.clk := (rfl)
@[simp] theorem State.setComp_pins : (s.setComp c x).pins = s.pins := (rfl)
@[simp] theorem State.setComp_tap : (s.setComp c x).tap = s.tap := (rfl)
@[simp] theorem State.setComp_fuses : (s.setComp c x).fuses = s.fuses := (rfl)
@[simp] theorem State.setComp_boot : (s.setComp c x).boot = s.boot := (rfl)
@[simp] theorem State.setComp_mem : (s.setComp c x).mem = s.mem := (rfl)
@[simp] theorem State.setComp_sec : (s.setComp c x).sec = s.sec := (rfl)
@[simp] theorem State.setComp_hp : (s.setComp c x).hp = s.hp := (rfl)
@[simp] theorem State.setComp_ctxs : (s.setComp c x).ctxs = s.ctxs := (rfl)
@[simp] theorem State.setComp_fences : (s.setComp c x).fences = s.fences := (rfl)
@[simp] theorem State.setComp_ja : (s.setComp c x).ja = s.ja := (rfl)
@[simp] theorem State.setComp_hd : (s.setComp c x).hd = s.hd := (rfl)
@[simp] theorem State.setComp_im : (s.setComp c x).im = s.im := (rfl)
@[simp] theorem State.setComp_lo : (s.setComp c x).lo = s.lo := (rfl)
@[simp] theorem State.setComp_net : (s.setComp c x).net = s.net := (rfl)
@[simp] theorem State.setComp_tch : (s.setComp c x).tch = s.tch := (rfl)
@[simp] theorem State.setComp_hap : (s.setComp c x).hap = s.hap := (rfl)
@[simp] theorem State.setComp_aud : (s.setComp c x).aud = s.aud := (rfl)
@[simp] theorem State.setComp_evr : (s.setComp c x).evr = s.evr := (rfl)
@[simp] theorem State.setComp_pwr : (s.setComp c x).pwr = s.pwr := (rfl)
@[simp] theorem State.setComp_out : (s.setComp c x).out = s.out := (rfl)
@[simp] theorem State.setComp_pending : (s.setComp c x).pending = s.pending := (rfl)
@[simp] theorem State.setComp_reg (r : Nat) : (s.setComp c x).reg r = s.reg r := (rfl)
@[simp] theorem State.setComp_fld (r hi lo : Nat) : (s.setComp c x).fld r hi lo = s.fld r hi lo := (rfl)
@[simp] theorem State.setComp_bit (r z : Nat) : (s.setComp c x).bit r z = s.bit r z := (rfl)
end

section
variable (s : State) (n : Nat) (x : Head)
@[simp] theorem State.setHead_regs : (s.setHead n x).regs = s.regs := (rfl)
@[simp] theorem State.setHead_hic : (s.setHead n x).hic = s.hic := (rfl)
@[simp] theorem State.setHead_clk : (s.setHead n x).clk = s.clk := (rfl)
@[simp] theorem State.setHead_pins : (s.setHead n x).pins = s.pins := (rfl)
@[simp] theorem State.setHead_tap : (s.setHead n x).tap = s.tap := (rfl)
@[simp] theorem State.setHead_fuses : (s.setHead n x).fuses = s.fuses := (rfl)
@[simp] theorem State.setHead_boot : (s.setHead n x).boot = s.boot := (rfl)
@[simp] theorem State.setHead_mem : (s.setHead n x).mem = s.mem := (rfl)
@[simp] theorem State.setHead_sec : (s.setHead n x).sec = s.sec := (rfl)
@[simp] theorem State.setHead_hp : (s.setHead n x).hp = s.hp := (rfl)
@[simp] theorem State.setHead_ctxs : (s.setHead n x).ctxs = s.ctxs := (rfl)
@[simp] theorem State.setHead_fences : (s.setHead n x).fences = s.fences := (rfl)
@[simp] theorem State.setHead_ja : (s.setHead n x).ja = s.ja := (rfl)
@[simp] theorem State.setHead_cmp : (s.setHead n x).cmp = s.cmp := (rfl)
@[simp] theorem State.setHead_im : (s.setHead n x).im = s.im := (rfl)
@[simp] theorem State.setHead_lo : (s.setHead n x).lo = s.lo := (rfl)
@[simp] theorem State.setHead_net : (s.setHead n x).net = s.net := (rfl)
@[simp] theorem State.setHead_tch : (s.setHead n x).tch = s.tch := (rfl)
@[simp] theorem State.setHead_hap : (s.setHead n x).hap = s.hap := (rfl)
@[simp] theorem State.setHead_aud : (s.setHead n x).aud = s.aud := (rfl)
@[simp] theorem State.setHead_evr : (s.setHead n x).evr = s.evr := (rfl)
@[simp] theorem State.setHead_pwr : (s.setHead n x).pwr = s.pwr := (rfl)
@[simp] theorem State.setHead_out : (s.setHead n x).out = s.out := (rfl)
@[simp] theorem State.setHead_pending : (s.setHead n x).pending = s.pending := (rfl)
@[simp] theorem State.setHead_reg (r : Nat) : (s.setHead n x).reg r = s.reg r := (rfl)
@[simp] theorem State.setHead_fld (r hi lo : Nat) : (s.setHead n x).fld r hi lo = s.fld r hi lo := (rfl)
@[simp] theorem State.setHead_bit (r z : Nat) : (s.setHead n x).bit r z = s.bit r z := (rfl)
end

section
variable (s : State) (u : Nat) (x : TchUnit)
@[simp] theorem State.setTchUnit_regs : (s.setTchUnit u x).regs = s.regs := (rfl)
@[simp] theorem State.setTchUnit_hic : (s.setTchUnit u x).hic = s.hic := (rfl)
@[simp] theorem State.setTchUnit_clk : (s.setTchUnit u x).clk = s.clk := (rfl)
@[simp] theorem State.setTchUnit_pins : (s.setTchUnit u x).pins = s.pins := (rfl)
@[simp] theorem State.setTchUnit_tap : (s.setTchUnit u x).tap = s.tap := (rfl)
@[simp] theorem State.setTchUnit_fuses : (s.setTchUnit u x).fuses = s.fuses := (rfl)
@[simp] theorem State.setTchUnit_boot : (s.setTchUnit u x).boot = s.boot := (rfl)
@[simp] theorem State.setTchUnit_mem : (s.setTchUnit u x).mem = s.mem := (rfl)
@[simp] theorem State.setTchUnit_sec : (s.setTchUnit u x).sec = s.sec := (rfl)
@[simp] theorem State.setTchUnit_hp : (s.setTchUnit u x).hp = s.hp := (rfl)
@[simp] theorem State.setTchUnit_ctxs : (s.setTchUnit u x).ctxs = s.ctxs := (rfl)
@[simp] theorem State.setTchUnit_fences : (s.setTchUnit u x).fences = s.fences := (rfl)
@[simp] theorem State.setTchUnit_ja : (s.setTchUnit u x).ja = s.ja := (rfl)
@[simp] theorem State.setTchUnit_cmp : (s.setTchUnit u x).cmp = s.cmp := (rfl)
@[simp] theorem State.setTchUnit_hd : (s.setTchUnit u x).hd = s.hd := (rfl)
@[simp] theorem State.setTchUnit_im : (s.setTchUnit u x).im = s.im := (rfl)
@[simp] theorem State.setTchUnit_lo : (s.setTchUnit u x).lo = s.lo := (rfl)
@[simp] theorem State.setTchUnit_net : (s.setTchUnit u x).net = s.net := (rfl)
@[simp] theorem State.setTchUnit_hap : (s.setTchUnit u x).hap = s.hap := (rfl)
@[simp] theorem State.setTchUnit_aud : (s.setTchUnit u x).aud = s.aud := (rfl)
@[simp] theorem State.setTchUnit_evr : (s.setTchUnit u x).evr = s.evr := (rfl)
@[simp] theorem State.setTchUnit_pwr : (s.setTchUnit u x).pwr = s.pwr := (rfl)
@[simp] theorem State.setTchUnit_out : (s.setTchUnit u x).out = s.out := (rfl)
@[simp] theorem State.setTchUnit_pending : (s.setTchUnit u x).pending = s.pending := (rfl)
@[simp] theorem State.setTchUnit_reg (r : Nat) : (s.setTchUnit u x).reg r = s.reg r := (rfl)
@[simp] theorem State.setTchUnit_fld (r hi lo : Nat) : (s.setTchUnit u x).fld r hi lo = s.fld r hi lo := (rfl)
@[simp] theorem State.setTchUnit_bit (r z : Nat) : (s.setTchUnit u x).bit r z = s.bit r z := (rfl)
end

section
variable (s : State) (m : Nat) (x : Ctl)
@[simp] theorem State.setCtl_regs : (s.setCtl m x).regs = s.regs := (rfl)
@[simp] theorem State.setCtl_hic : (s.setCtl m x).hic = s.hic := (rfl)
@[simp] theorem State.setCtl_clk : (s.setCtl m x).clk = s.clk := (rfl)
@[simp] theorem State.setCtl_pins : (s.setCtl m x).pins = s.pins := (rfl)
@[simp] theorem State.setCtl_tap : (s.setCtl m x).tap = s.tap := (rfl)
@[simp] theorem State.setCtl_fuses : (s.setCtl m x).fuses = s.fuses := (rfl)
@[simp] theorem State.setCtl_boot : (s.setCtl m x).boot = s.boot := (rfl)
@[simp] theorem State.setCtl_mem : (s.setCtl m x).mem = s.mem := (rfl)
@[simp] theorem State.setCtl_sec : (s.setCtl m x).sec = s.sec := (rfl)
@[simp] theorem State.setCtl_hp : (s.setCtl m x).hp = s.hp := (rfl)
@[simp] theorem State.setCtl_ctxs : (s.setCtl m x).ctxs = s.ctxs := (rfl)
@[simp] theorem State.setCtl_fences : (s.setCtl m x).fences = s.fences := (rfl)
@[simp] theorem State.setCtl_ja : (s.setCtl m x).ja = s.ja := (rfl)
@[simp] theorem State.setCtl_cmp : (s.setCtl m x).cmp = s.cmp := (rfl)
@[simp] theorem State.setCtl_hd : (s.setCtl m x).hd = s.hd := (rfl)
@[simp] theorem State.setCtl_im : (s.setCtl m x).im = s.im := (rfl)
@[simp] theorem State.setCtl_lo : (s.setCtl m x).lo = s.lo := (rfl)
@[simp] theorem State.setCtl_net : (s.setCtl m x).net = s.net := (rfl)
@[simp] theorem State.setCtl_hap : (s.setCtl m x).hap = s.hap := (rfl)
@[simp] theorem State.setCtl_aud : (s.setCtl m x).aud = s.aud := (rfl)
@[simp] theorem State.setCtl_evr : (s.setCtl m x).evr = s.evr := (rfl)
@[simp] theorem State.setCtl_pwr : (s.setCtl m x).pwr = s.pwr := (rfl)
@[simp] theorem State.setCtl_out : (s.setCtl m x).out = s.out := (rfl)
@[simp] theorem State.setCtl_pending : (s.setCtl m x).pending = s.pending := (rfl)
@[simp] theorem State.setCtl_reg (r : Nat) : (s.setCtl m x).reg r = s.reg r := (rfl)
@[simp] theorem State.setCtl_fld (r hi lo : Nat) : (s.setCtl m x).fld r hi lo = s.fld r hi lo := (rfl)
@[simp] theorem State.setCtl_bit (r z : Nat) : (s.setCtl m x).bit r z = s.bit r z := (rfl)
end

section
variable (s : State) (n : Nat) (x : HapCh)
@[simp] theorem State.setHapCh_hic : (s.setHapCh n x).hic = s.hic := (rfl)
@[simp] theorem State.setHapCh_clk : (s.setHapCh n x).clk = s.clk := (rfl)
@[simp] theorem State.setHapCh_pins : (s.setHapCh n x).pins = s.pins := (rfl)
@[simp] theorem State.setHapCh_tap : (s.setHapCh n x).tap = s.tap := (rfl)
@[simp] theorem State.setHapCh_fuses : (s.setHapCh n x).fuses = s.fuses := (rfl)
@[simp] theorem State.setHapCh_boot : (s.setHapCh n x).boot = s.boot := (rfl)
@[simp] theorem State.setHapCh_mem : (s.setHapCh n x).mem = s.mem := (rfl)
@[simp] theorem State.setHapCh_sec : (s.setHapCh n x).sec = s.sec := (rfl)
@[simp] theorem State.setHapCh_hp : (s.setHapCh n x).hp = s.hp := (rfl)
@[simp] theorem State.setHapCh_ctxs : (s.setHapCh n x).ctxs = s.ctxs := (rfl)
@[simp] theorem State.setHapCh_fences : (s.setHapCh n x).fences = s.fences := (rfl)
@[simp] theorem State.setHapCh_ja : (s.setHapCh n x).ja = s.ja := (rfl)
@[simp] theorem State.setHapCh_cmp : (s.setHapCh n x).cmp = s.cmp := (rfl)
@[simp] theorem State.setHapCh_hd : (s.setHapCh n x).hd = s.hd := (rfl)
@[simp] theorem State.setHapCh_im : (s.setHapCh n x).im = s.im := (rfl)
@[simp] theorem State.setHapCh_lo : (s.setHapCh n x).lo = s.lo := (rfl)
@[simp] theorem State.setHapCh_net : (s.setHapCh n x).net = s.net := (rfl)
@[simp] theorem State.setHapCh_tch : (s.setHapCh n x).tch = s.tch := (rfl)
@[simp] theorem State.setHapCh_aud : (s.setHapCh n x).aud = s.aud := (rfl)
@[simp] theorem State.setHapCh_evr : (s.setHapCh n x).evr = s.evr := (rfl)
@[simp] theorem State.setHapCh_pwr : (s.setHapCh n x).pwr = s.pwr := (rfl)
@[simp] theorem State.setHapCh_out : (s.setHapCh n x).out = s.out := (rfl)
@[simp] theorem State.setHapCh_pending : (s.setHapCh n x).pending = s.pending := (rfl)
end

section
variable (s : State) (v : Nat) (x : Voice)
@[simp] theorem State.setVoice_hic : (s.setVoice v x).hic = s.hic := (rfl)
@[simp] theorem State.setVoice_clk : (s.setVoice v x).clk = s.clk := (rfl)
@[simp] theorem State.setVoice_pins : (s.setVoice v x).pins = s.pins := (rfl)
@[simp] theorem State.setVoice_tap : (s.setVoice v x).tap = s.tap := (rfl)
@[simp] theorem State.setVoice_fuses : (s.setVoice v x).fuses = s.fuses := (rfl)
@[simp] theorem State.setVoice_boot : (s.setVoice v x).boot = s.boot := (rfl)
@[simp] theorem State.setVoice_mem : (s.setVoice v x).mem = s.mem := (rfl)
@[simp] theorem State.setVoice_sec : (s.setVoice v x).sec = s.sec := (rfl)
@[simp] theorem State.setVoice_hp : (s.setVoice v x).hp = s.hp := (rfl)
@[simp] theorem State.setVoice_ctxs : (s.setVoice v x).ctxs = s.ctxs := (rfl)
@[simp] theorem State.setVoice_fences : (s.setVoice v x).fences = s.fences := (rfl)
@[simp] theorem State.setVoice_ja : (s.setVoice v x).ja = s.ja := (rfl)
@[simp] theorem State.setVoice_cmp : (s.setVoice v x).cmp = s.cmp := (rfl)
@[simp] theorem State.setVoice_hd : (s.setVoice v x).hd = s.hd := (rfl)
@[simp] theorem State.setVoice_im : (s.setVoice v x).im = s.im := (rfl)
@[simp] theorem State.setVoice_lo : (s.setVoice v x).lo = s.lo := (rfl)
@[simp] theorem State.setVoice_net : (s.setVoice v x).net = s.net := (rfl)
@[simp] theorem State.setVoice_tch : (s.setVoice v x).tch = s.tch := (rfl)
@[simp] theorem State.setVoice_hap : (s.setVoice v x).hap = s.hap := (rfl)
@[simp] theorem State.setVoice_evr : (s.setVoice v x).evr = s.evr := (rfl)
@[simp] theorem State.setVoice_pwr : (s.setVoice v x).pwr = s.pwr := (rfl)
@[simp] theorem State.setVoice_out : (s.setVoice v x).out = s.out := (rfl)
@[simp] theorem State.setVoice_pending : (s.setVoice v x).pending = s.pending := (rfl)
end

section
variable (s : State) (k : Nat) (x : AesRx)
@[simp] theorem State.setAesRx_regs : (s.setAesRx k x).regs = s.regs := (rfl)
@[simp] theorem State.setAesRx_hic : (s.setAesRx k x).hic = s.hic := (rfl)
@[simp] theorem State.setAesRx_clk : (s.setAesRx k x).clk = s.clk := (rfl)
@[simp] theorem State.setAesRx_pins : (s.setAesRx k x).pins = s.pins := (rfl)
@[simp] theorem State.setAesRx_tap : (s.setAesRx k x).tap = s.tap := (rfl)
@[simp] theorem State.setAesRx_fuses : (s.setAesRx k x).fuses = s.fuses := (rfl)
@[simp] theorem State.setAesRx_boot : (s.setAesRx k x).boot = s.boot := (rfl)
@[simp] theorem State.setAesRx_mem : (s.setAesRx k x).mem = s.mem := (rfl)
@[simp] theorem State.setAesRx_sec : (s.setAesRx k x).sec = s.sec := (rfl)
@[simp] theorem State.setAesRx_hp : (s.setAesRx k x).hp = s.hp := (rfl)
@[simp] theorem State.setAesRx_ctxs : (s.setAesRx k x).ctxs = s.ctxs := (rfl)
@[simp] theorem State.setAesRx_fences : (s.setAesRx k x).fences = s.fences := (rfl)
@[simp] theorem State.setAesRx_ja : (s.setAesRx k x).ja = s.ja := (rfl)
@[simp] theorem State.setAesRx_cmp : (s.setAesRx k x).cmp = s.cmp := (rfl)
@[simp] theorem State.setAesRx_hd : (s.setAesRx k x).hd = s.hd := (rfl)
@[simp] theorem State.setAesRx_im : (s.setAesRx k x).im = s.im := (rfl)
@[simp] theorem State.setAesRx_lo : (s.setAesRx k x).lo = s.lo := (rfl)
@[simp] theorem State.setAesRx_tch : (s.setAesRx k x).tch = s.tch := (rfl)
@[simp] theorem State.setAesRx_hap : (s.setAesRx k x).hap = s.hap := (rfl)
@[simp] theorem State.setAesRx_aud : (s.setAesRx k x).aud = s.aud := (rfl)
@[simp] theorem State.setAesRx_evr : (s.setAesRx k x).evr = s.evr := (rfl)
@[simp] theorem State.setAesRx_pwr : (s.setAesRx k x).pwr = s.pwr := (rfl)
@[simp] theorem State.setAesRx_out : (s.setAesRx k x).out = s.out := (rfl)
@[simp] theorem State.setAesRx_pending : (s.setAesRx k x).pending = s.pending := (rfl)
@[simp] theorem State.setAesRx_reg (r : Nat) : (s.setAesRx k x).reg r = s.reg r := (rfl)
@[simp] theorem State.setAesRx_fld (r hi lo : Nat) : (s.setAesRx k x).fld r hi lo = s.fld r hi lo := (rfl)
@[simp] theorem State.setAesRx_bit (r z : Nat) : (s.setAesRx k x).bit r z = s.bit r z := (rfl)
end

end Sys2Proof.Machine
end

