-- ==== Sys2Proof/Laws/Regs.lean ====
section
/-! SUPPORT. The laws of the register file: a word, a field or a bit read after a write of the same, and after a write of
another register or of other bits. -/

namespace Sys2Proof.Machine

theorem bitsOf_lt (w hi lo : Nat) : bitsOf w hi lo < 2 ^ (hi + 1 - lo) := Nat.mod_lt _ (by positivity)

theorem b2n_lt (b : Bool) : b2n b < 2 := by cases b <;> decide

/-- Bit `i` of a word with the field [hi:lo] replaced: the new value's bit inside the field, the old bit outside. -/
theorem testBit_putBits (w hi lo v i : Nat) (h : lo ≤ hi) :
    (putBits w hi lo v).testBit i = if lo ≤ i ∧ i ≤ hi then v.testBit (i - lo) else w.testBit i := by
  have hx : putBits w hi lo v = 2 ^ lo * (2 ^ (hi + 1 - lo) * (w / 2 ^ (hi + 1)) + v % 2 ^ (hi + 1 - lo)) + w % 2 ^ lo := by
    have e : (2 : Nat) ^ (hi + 1) = 2 ^ lo * 2 ^ (hi + 1 - lo) := by rw [← pow_add]; congr 1; omega
    unfold putBits
    rw [e]
    ring
  rw [hx, Nat.testBit_two_pow_mul_add _ (Nat.mod_lt _ (by positivity))]
  split
  · rename_i hlt
    rw [if_neg (by omega), Nat.testBit_mod_two_pow]
    simp [hlt]
  · rename_i hge
    rw [Nat.testBit_two_pow_mul_add _ (Nat.mod_lt _ (by positivity))]
    split
    · rename_i hin
      rw [if_pos (by omega), Nat.testBit_mod_two_pow]
      simp [hin]
    · rename_i hout
      rw [if_neg (by omega), Nat.testBit_div_two_pow]
      congr 1
      omega

theorem bitsOf_testBit (w hi lo i : Nat) : (bitsOf w hi lo).testBit i = (decide (i < hi + 1 - lo) && w.testBit (lo + i)) := by
  unfold bitsOf
  rw [Nat.testBit_mod_two_pow, Nat.testBit_div_two_pow, Nat.add_comm i lo]

/-- A field just put reads as the value cut to its width. -/
theorem bitsOf_putBits (w hi lo v : Nat) (h : lo ≤ hi) : bitsOf (putBits w hi lo v) hi lo = v % 2 ^ (hi + 1 - lo) := by
  apply Nat.eq_of_testBit_eq
  intro i
  rw [bitsOf_testBit, testBit_putBits _ _ _ _ _ h, Nat.testBit_mod_two_pow]
  by_cases hi' : i < hi + 1 - lo
  · rw [if_pos (by omega)]; simp [hi']
  · simp [hi']

/-- Another field keeps its value. -/
theorem bitsOf_putBits_ne (w hi lo v hi' lo' : Nat) (h : lo ≤ hi) (d : hi' < lo ∨ hi < lo') :
    bitsOf (putBits w hi lo v) hi' lo' = bitsOf w hi' lo' := by
  apply Nat.eq_of_testBit_eq
  intro i
  rw [bitsOf_testBit, bitsOf_testBit, testBit_putBits _ _ _ _ _ h]
  by_cases hi2 : i < hi' + 1 - lo'
  · rw [if_neg (by omega)]
  · simp [hi2]

section
variable (t : State) {hic clk pins tap fuses boot mem sec hp ctxs fences ja cmp hd im lo net tch hap aud evr pwr out pending}

/-- A register of a state put together from another's register file and anything else. -/
@[simp] theorem State.reg_mk (k : Nat) : (State.mk t.regs hic clk pins tap fuses boot mem sec hp ctxs fences ja cmp hd im lo net tch hap aud evr pwr out pending).reg k = t.reg k := (rfl)
@[simp] theorem State.fld_mk (k h l : Nat) : (State.mk t.regs hic clk pins tap fuses boot mem sec hp ctxs fences ja cmp hd im lo net tch hap aud evr pwr out pending).fld k h l = t.fld k h l := (rfl)
@[simp] theorem State.bit_mk (k i : Nat) : (State.mk t.regs hic clk pins tap fuses boot mem sec hp ctxs fences ja cmp hd im lo net tch hap aud evr pwr out pending).bit k i = t.bit k i := (rfl)
end

theorem State.reg_lt (s : State) (k : Nat) : s.reg k < 2 ^ 32 := (spGet regReset s.regs k).isLt

@[simp] theorem State.setReg_reg (s : State) (k v : Nat) : (s.setReg k v).reg k = v % 2 ^ 32 := by
  simp [State.reg, State.setReg, spGet_spSet_same]

theorem State.setReg_reg_ne (s : State) (k v r : Nat) (h : r ≠ k) : (s.setReg k v).reg r = s.reg r := by
  simp [State.reg, State.setReg, spGet_spSet_ne _ _ _ _ _ h]

theorem putBits_lt (w hi lo v : Nat) (h : lo ≤ hi) (hh : hi < 32) (hw : w < 2 ^ 32) : putBits w hi lo v < 2 ^ 32 := by
  apply Nat.lt_pow_two_of_testBit
  intro i hi'
  rw [testBit_putBits _ _ _ _ _ h, if_neg (by omega)]
  exact Nat.testBit_lt_two_pow (lt_of_lt_of_le hw (Nat.pow_le_pow_right (by decide) hi'))

theorem State.setFld_reg (s : State) (k hi lo v : Nat) (h : lo ≤ hi) (hh : hi < 32) :
    (s.setFld k hi lo v).reg k = putBits (s.reg k) hi lo v := by
  rw [State.setFld, State.setReg_reg, Nat.mod_eq_of_lt (putBits_lt _ _ _ _ h hh (s.reg_lt k))]

theorem State.setFld_reg_ne (s : State) (k hi lo v r : Nat) (h : r ≠ k) : (s.setFld k hi lo v).reg r = s.reg r :=
  s.setReg_reg_ne _ _ _ h

theorem State.setBit_reg_ne (s : State) (k i : Nat) (b : Bool) (r : Nat) (h : r ≠ k) : (s.setBit k i b).reg r = s.reg r :=
  s.setReg_reg_ne _ _ _ h

/-- A field read after it is set. -/
theorem State.setFld_fld (s : State) (k hi lo v : Nat) (h : lo ≤ hi) (hh : hi < 32) :
    (s.setFld k hi lo v).fld k hi lo = v % 2 ^ (hi + 1 - lo) := by
  rw [State.fld, s.setFld_reg _ _ _ _ h hh, bitsOf_putBits _ _ _ _ h]

/-- A field of the same register beside the one set. -/
theorem State.setFld_fld_ne (s : State) (k hi lo v hi' lo' : Nat) (h : lo ≤ hi) (hh : hi < 32) (d : hi' < lo ∨ hi < lo') :
    (s.setFld k hi lo v).fld k hi' lo' = s.fld k hi' lo' := by
  rw [State.fld, s.setFld_reg _ _ _ _ h hh, bitsOf_putBits_ne _ _ _ _ _ _ h d, State.fld]

/-- A field of another register. -/
theorem State.setFld_fld_other (s : State) (k hi lo v r hi' lo' : Nat) (h : r ≠ k) :
    (s.setFld k hi lo v).fld r hi' lo' = s.fld r hi' lo' := by
  rw [State.fld, s.setFld_reg_ne _ _ _ _ _ h, State.fld]

theorem State.setFld_bit (s : State) (k hi lo v i : Nat) (h : lo ≤ hi) (hh : hi < 32) :
    (s.setFld k hi lo v).bit k i = if lo ≤ i ∧ i ≤ hi then v.testBit (i - lo) else s.bit k i := by
  rw [State.bit, s.setFld_reg _ _ _ _ h hh, testBit_putBits _ _ _ _ _ h, State.bit]

theorem State.setFld_bit_other (s : State) (k hi lo v r i : Nat) (h : r ≠ k) :
    (s.setFld k hi lo v).bit r i = s.bit r i := by
  rw [State.bit, s.setFld_reg_ne _ _ _ _ _ h, State.bit]

/-- A bit read after it is set. -/
theorem State.setBit_bit (s : State) (k i : Nat) (b : Bool) (h : i < 32) : (s.setBit k i b).bit k i = b := by
  rw [State.setBit, s.setFld_bit _ _ _ _ _ (le_refl i) h]
  cases b <;> simp [b2n]

/-- Another bit of the same register. -/
theorem State.setBit_bit_ne (s : State) (k i : Nat) (b : Bool) (j : Nat) (h : i < 32) (d : j ≠ i) :
    (s.setBit k i b).bit k j = s.bit k j := by
  rw [State.setBit, s.setFld_bit _ _ _ _ _ (le_refl i) h, if_neg (by omega)]

/-- A bit of another register. -/
theorem State.setBit_bit_other (s : State) (k i : Nat) (b : Bool) (r j : Nat) (h : r ≠ k) :
    (s.setBit k i b).bit r j = s.bit r j := s.setFld_bit_other _ _ _ _ _ _ h

/-- A field of the same register beside the bit set. -/
theorem State.setBit_fld_ne (s : State) (k i : Nat) (b : Bool) (hi lo : Nat) (h : i < 32) (d : hi < i ∨ i < lo) :
    (s.setBit k i b).fld k hi lo = s.fld k hi lo := s.setFld_fld_ne _ _ _ _ _ _ (le_refl i) h d

theorem State.setBit_fld_other (s : State) (k i : Nat) (b : Bool) (r hi lo : Nat) (h : r ≠ k) :
    (s.setBit k i b).fld r hi lo = s.fld r hi lo := s.setFld_fld_other _ _ _ _ _ _ _ h

/-- A fence, a context or an owner entry read after it is set. -/
theorem State.setReg_fld_other (s : State) (k v r hi lo : Nat) (h : r ≠ k) :
    (s.setReg k v).fld r hi lo = s.fld r hi lo := by rw [State.fld, s.setReg_reg_ne _ _ _ h, State.fld]

theorem State.setReg_bit_other (s : State) (k v r i : Nat) (h : r ≠ k) : (s.setReg k v).bit r i = s.bit r i := by
  rw [State.bit, s.setReg_reg_ne _ _ _ h, State.bit]

end Sys2Proof.Machine
end

