-- ==== Sys2Proof/Laws/Memory.lean ====
section
/-! SUPPORT. The laws of the memories: bytes read after they are stored, bytes elsewhere, the other memory, and what a write
to words with an uncorrectable error leaves (R170, R171). That every operation keeps the canonical form is said by `Keeps`
(KeepsCore.lean and the files after it). -/

namespace Sys2Proof.Machine

/-- A byte outside the range stored. -/
theorem spGet_putBytes_out (m : List Host.Cell) (a b : Nat) (bs : List Byte) (h : b < a ∨ a + bs.length ≤ b) :
    spGet zeroByte (putBytes m a bs) b = spGet zeroByte m b := by
  induction bs generalizing m a with
  | nil => rfl
  | cons c bs ih =>
    simp only [List.length_cons] at h
    rw [putBytes, ih _ _ (by omega), spGet_spSet_ne _ _ _ _ _ (by omega)]

/-- A byte inside the range stored. -/
theorem spGet_putBytes_in (m : List Host.Cell) (a i : Nat) (bs : List Byte) (h : i < bs.length) :
    spGet zeroByte (putBytes m a bs) (a + i) = bs[i] := by
  induction bs generalizing m a i with
  | nil => simp at h
  | cons c bs ih =>
    cases i with
    | zero =>
      rw [putBytes, spGet_putBytes_out _ _ _ _ (by omega), Nat.add_zero, spGet_spSet_same]
      rfl
    | succ i =>
      rw [putBytes, show a + (i + 1) = a + 1 + i by omega, ih _ _ _ (by simpa using h)]
      rfl

/-- Reading back the range stored. -/
theorem getBytes_eq (m : List Host.Cell) (a : Nat) (bs : List Byte) (h : ∀ i (hi : i < bs.length), spGet zeroByte m (a + i) = bs[i]) :
    getBytes m a bs.length = bs := by
  induction bs generalizing a with
  | nil => rfl
  | cons c bs ih =>
    rw [List.length_cons, getBytes]
    congr 1
    · exact h 0 (by simp)
    · refine ih (a + 1) fun i hi => ?_
      rw [show a + 1 + i = a + (i + 1) by omega]
      exact h (i + 1) (by simpa using hi)

theorem getBytes_putBytes (m : List Host.Cell) (a : Nat) (bs : List Byte) : getBytes (putBytes m a bs) a bs.length = bs :=
  getBytes_eq _ _ _ fun i hi => spGet_putBytes_in m a i bs hi

/-- One byte stored is read back. -/
theorem State.putByte_byte (s : State) (m : MemSel) (a : Nat) (b : Byte) : (s.putByte m a b).byte m a = b := by
  cases m <;> exact spGet_spSet_same _ _ _ _

/-- Every other byte of both memories stays. -/
theorem State.putByte_byte_ne (s : State) (m n : MemSel) (a c : Nat) (b : Byte) (h : n ≠ m ∨ c ≠ a) :
    (s.putByte m a b).byte n c = s.byte n c := by
  rcases h with h | h
  · cases m <;> cases n <;> first | exact absurd rfl h | rfl
  · cases m <;> cases n <;> first | rfl | exact spGet_spSet_ne _ _ _ _ _ h

theorem State.putByte_bad (s : State) (m : MemSel) (a : Nat) (b : Byte) : (s.putByte m a b).mem.bad = s.mem.bad := by
  cases m <;> rfl

theorem State.store_bad (s : State) (m : MemSel) (a0 n0 a : Nat) (bs : List Byte) : (s.store m a0 n0 a bs).mem.bad = s.mem.bad := by
  induction bs generalizing s a with
  | nil => rfl
  | cons b bs ih =>
    rw [State.store, ih]
    split
    · rfl
    · exact s.putByte_bad m a b

/-- Outside the stored range, and in the other memory, nothing changes. -/
theorem State.store_byte_out (s : State) (m n : MemSel) (a0 n0 a c : Nat) (bs : List Byte)
    (h : n ≠ m ∨ c < a ∨ a + bs.length ≤ c) : (s.store m a0 n0 a bs).byte n c = s.byte n c := by
  induction bs generalizing s a with
  | nil => rfl
  | cons b bs ih =>
    simp only [List.length_cons] at h
    rw [State.store, ih _ _ (h.imp_right (Or.imp (by omega) (by omega)))]
    split
    · rfl
    · exact s.putByte_byte_ne m n a c b (h.imp_right (Or.rec (by omega) (by omega)))

/-- Inside the stored range: the byte, unless its word holds an uncorrectable error and is covered in part only (R171). -/
theorem State.store_byte_in (s : State) (m : MemSel) (a0 n0 a i : Nat) (bs : List Byte) (h : i < bs.length) :
    (s.store m a0 n0 a bs).byte m (a + i) =
      if s.mem.bad.contains (m, (a + i) / 8) && !covers a0 n0 ((a + i) / 8) then s.byte m (a + i) else bs[i] := by
  induction bs generalizing s a i with
  | nil => simp at h
  | cons b bs ih =>
    cases i with
    | zero =>
      rw [State.store, State.store_byte_out _ _ _ _ _ _ _ _ (by omega)]
      simp only [Nat.add_zero, List.getElem_cons_zero]
      split
      · rfl
      · exact s.putByte_byte m a b
    | succ i =>
      rw [State.store, show a + (i + 1) = a + 1 + i by omega, ih _ _ _ (by simpa using h)]
      split
      · rename_i hc
        split <;> rfl
      · rw [s.putByte_bad, s.putByte_byte_ne m m a (a + 1 + i) b (by omega)]
        rfl

theorem State.heal_byte (s : State) (m n : MemSel) (a k c : Nat) : (s.heal m a k).byte n c = s.byte n c := by
  cases n <;> rfl

theorem State.initGranule_byte (s : State) (m n : MemSel) (a c : Nat) : (s.initGranule m a).byte n c = s.byte n c := by
  cases m
  · rfl
  · unfold State.initGranule; dsimp only; split
    · rfl
    · cases n <;> rfl

theorem State.initGranule_bad (s : State) (m : MemSel) (a : Nat) : (s.initGranule m a).mem.bad = s.mem.bad := by
  cases m
  · rfl
  · unfold State.initGranule; dsimp only; split <;> rfl

/-- What initialising granules leaves: every byte, and the words that hold an uncorrectable error. -/
theorem State.initRange_same (s : State) (m : MemSel) (a n : Nat) :
    (∀ o c, (s.initRange m a n).byte o c = s.byte o c) ∧ (s.initRange m a n).mem.bad = s.mem.bad := by
  unfold State.initRange
  generalize (List.range ((a + n - 1) / 65536 + 1 - a / 65536)).map (· + a / 65536) = l
  induction l generalizing s with
  | nil => exact ⟨fun _ _ => rfl, rfl⟩
  | cons i l ih =>
    obtain ⟨h1, h2⟩ := ih (s.initGranule m (65536 * i))
    exact ⟨fun o c => (h1 o c).trans (s.initGranule_byte _ _ _ _), h2.trans (s.initGranule_bad _ _)⟩

/-- A write leaves every byte outside its range alone. -/
theorem State.write_byte_out (s : State) (m n : MemSel) (a c : Nat) (bs : List Byte)
    (h : n ≠ m ∨ c < a ∨ a + bs.length ≤ c) : (s.write m a bs).byte n c = s.byte n c := by
  rw [State.write, State.heal_byte, State.store_byte_out _ _ _ _ _ _ _ _ h, (s.initRange_same _ _ _).1]

/-- A byte that a write stores is read back, where its word held no uncorrectable error or is covered whole. -/
theorem State.write_byte_in (s : State) (m : MemSel) (a i : Nat) (bs : List Byte) (h : i < bs.length)
    (hb : s.mem.bad.contains (m, (a + i) / 8) = false ∨ covers a bs.length ((a + i) / 8) = true) :
    (s.write m a bs).byte m (a + i) = bs[i] := by
  rw [State.write, State.heal_byte, State.store_byte_in _ _ _ _ _ _ _ h, (s.initRange_same _ _ _).2, if_neg]
  rcases hb with hb | hb <;> simp only [hb, Bool.not_true, Bool.and_false, Bool.false_and] <;> decide

/-- A byte discarded by R171 keeps what it read. -/
theorem State.write_byte_kept (s : State) (m : MemSel) (a i : Nat) (bs : List Byte) (h : i < bs.length)
    (hb : s.mem.bad.contains (m, (a + i) / 8) = true) (hc : covers a bs.length ((a + i) / 8) = false) :
    (s.write m a bs).byte m (a + i) = s.byte m (a + i) := by
  rw [State.write, State.heal_byte, State.store_byte_in _ _ _ _ _ _ _ h, (s.initRange_same _ _ _).2, if_pos (by simp only [hb, hc]; rfl),
    (s.initRange_same _ _ _).1]

/-- Storing bytes changes nothing but memory. -/
theorem State.store_frame (s : State) (m : MemSel) (a0 n0 a : Nat) (bs : List Byte) :
    s.store m a0 n0 a bs = { s with mem := (s.store m a0 n0 a bs).mem } := by
  induction bs generalizing s a with
  | nil => rfl
  | cons b bs ih =>
    rw [State.store]
    split
    · exact ih s _
    · rw [ih (s.putByte m a b)]
      cases m <;> rfl

/-- Initialising granules changes nothing but memory. -/
theorem State.initRange_frame (s : State) (m : MemSel) (a n : Nat) : s.initRange m a n = { s with mem := (s.initRange m a n).mem } := by
  unfold State.initRange
  generalize (List.range ((a + n - 1) / 65536 + 1 - a / 65536)).map (· + a / 65536) = l
  induction l generalizing s with
  | nil => rfl
  | cons i l ih =>
    simp only [State.each] at ih ⊢
    rw [ih (s.initGranule m (65536 * i))]
    cases m
    · rfl
    · unfold State.initGranule; dsimp only; split <;> rfl

/-- A write changes nothing but memory: every register, queue and block stays. -/
theorem State.write_frame (s : State) (m : MemSel) (a : Nat) (bs : List Byte) :
    s.write m a bs = { s with mem := (s.write m a bs).mem } := by
  rw [State.write, State.store_frame, s.initRange_frame m a bs.length]
  rfl

@[simp] theorem State.write_reg (s : State) (m : MemSel) (a k : Nat) (bs : List Byte) : (s.write m a bs).reg k = s.reg k := by
  rw [s.write_frame]; rfl

@[simp] theorem State.write_boot (s : State) (m : MemSel) (a : Nat) (bs : List Byte) : (s.write m a bs).boot = s.boot := by
  rw [s.write_frame]

@[simp] theorem State.write_evr (s : State) (m : MemSel) (a : Nat) (bs : List Byte) : (s.write m a bs).evr = s.evr := by
  rw [s.write_frame]

@[simp] theorem State.write_out (s : State) (m : MemSel) (a : Nat) (bs : List Byte) : (s.write m a bs).out = s.out := by
  rw [s.write_frame]

end Sys2Proof.Machine
end

