-- ==== Sys2Proof/Laws/Records.lean ====
section
/-! SUPPORT. What the recorder's operations and the event bits do, once each. -/

namespace Sys2Proof.Machine

/-- A raised vector changes registers and host ports alone. -/
theorem State.raiseVec_frame (s : State) (p v : Nat) : ∃ r h, s.raiseVec p v = { s with regs := r, hp := h } := by
  unfold State.raiseVec; split
  · exact ⟨s.regs, _, rfl⟩
  · exact ⟨_, s.hp, rfl⟩

/-- So does a bit that raises its vector. -/
theorem State.raiseFor_frame (s : State) (p v k b : Nat) : ∃ r h, s.raiseFor p v k b = { s with regs := r, hp := h } := by
  unfold State.raiseFor; split
  · exact s.raiseVec_frame p v
  · obtain ⟨r, h, e⟩ := (s.forgetCause k b).raiseVec_frame p v
    dsimp only; rw [e]; exact ⟨_, _, rfl⟩

/-- Setting an event bit changes registers and host ports alone. -/
theorem State.setEvent_frame (s : State) (a b c : Nat) : ∃ r h, s.setEvent a b c = { s with regs := r, hp := h } := by
  have e : ∃ r h, (if s.bit a c then s else s.forgetCause a c).setBit a c true = { s with regs := r, hp := h } := by
    split <;> exact ⟨_, _, rfl⟩
  obtain ⟨r, h, e⟩ := e
  simp only [State.setEvent, e, State.mgrIrq]; split
  · obtain ⟨r', h', e'⟩ := State.raiseFor_frame { s with regs := r, hp := h } (State.manager { s with regs := r, hp := h }) 1 a c
    exact ⟨r', h', e'⟩
  · exact ⟨r, h, rfl⟩

/-- Setting an event bit leaves the recorder alone. -/
theorem State.setEvent_evr (s : State) (a b c : Nat) : (s.setEvent a b c).evr = s.evr := by
  obtain ⟨r, h, e⟩ := s.setEvent_frame a b c; rw [e]

/-- Setting an event bit leaves the memories alone. -/
theorem State.setEvent_mem (s : State) (a b c : Nat) : (s.setEvent a b c).mem = s.mem := by
  obtain ⟨r, h, e⟩ := s.setEvent_frame a b c; rw [e]

/-- Setting an event bit leaves the clocks alone. -/
theorem State.setEvent_clk (s : State) (a b c : Nat) : (s.setEvent a b c).clk = s.clk := by
  obtain ⟨r, h, e⟩ := s.setEvent_frame a b c; rw [e]

/-- A raised vector changes no register below the MSI-X area. -/
theorem State.raiseVec_reg (s : State) (p v k : Nat) (h2 : k < 0x10000000) : (s.raiseVec p v).reg k = s.reg k := by
  simp only [State.raiseVec]; split
  · rfl
  · exact State.setBit_reg_ne _ _ _ _ _ (by simp only [Reg.MSIX_PBA]; omega)

/-- A bit that raises its vector changes no register below the MSI-X area. -/
theorem State.raiseFor_reg (s : State) (p v c b k : Nat) (h2 : k < 0x10000000) : (s.raiseFor p v c b).reg k = s.reg k := by
  unfold State.raiseFor; split
  · exact State.raiseVec_reg _ _ _ _ h2
  · exact State.raiseVec_reg (s.forgetCause c b) p v k h2

/-- Setting an event bit changes no other register below the MSI-X area. -/
theorem State.setEvent_reg (s : State) (a b c k : Nat) (h : k ≠ a) (h2 : k < 0x10000000) : (s.setEvent a b c).reg k = s.reg k := by
  have e : ∀ t : State, t.reg k = s.reg k →
      (if (t.setBit a c true).bit b c then (t.setBit a c true).mgrIrq a c else t.setBit a c true).reg k = s.reg k := by
    intro t ht
    have e1 := (State.setBit_reg_ne t a c true k h).trans ht
    split
    · exact (State.raiseFor_reg _ _ _ _ _ _ h2).trans e1
    · exact e1
  exact e _ (by split <;> rfl)

/-- The event bit is set. -/
theorem State.setEvent_bit (s : State) (a b c : Nat) (h2 : a < 0x10000000) (hc : c < 32) : (s.setEvent a b c).bit a c = true := by
  have e : ∀ t : State, (if (t.setBit a c true).bit b c then (t.setBit a c true).mgrIrq a c else t.setBit a c true).bit a c = true := by
    intro t
    have e1 := State.setBit_bit t a c true hc
    split
    · simp only [State.bit, State.mgrIrq, State.raiseFor_reg _ _ _ _ _ _ h2]; exact e1
    · exact e1
  exact e _

/-- `leBytes n` has `n` bytes. -/
theorem leBytes_length (n v : Nat) : (leBytes n v).length = n := by
  induction n generalizing v with
  | zero => rfl
  | succ n ih => simp [leBytes, ih]

/-- A record has 32 bytes. -/
theorem Rec.bytes_length (r : Rec) (q : Nat) : (r.bytes q).length = 32 := by simp [Rec.bytes, leBytes_length]

/-- Acceptance takes one number. -/
theorem State.accept1_next (s : State) (r : Rec) : (s.accept1 r).evr.next = s.evr.next + 1 := by
  simp only [State.accept1, State.evrSync]
  cases s.bit Reg.EVR_CTRL 0 <;> cases s.bit Reg.EVR_STATUS 30 <;> cases s.slotOf s.evr.next <;> simp [State.setEvent_evr, State.count, State.heal]

/-- Acceptance leaves the mode. -/
theorem State.accept1_mode (s : State) (r : Rec) : (s.accept1 r).evr.mode = s.evr.mode := by
  simp only [State.accept1, State.evrSync]
  cases s.bit Reg.EVR_CTRL 0 <;> cases s.bit Reg.EVR_STATUS 30 <;> cases s.slotOf s.evr.next <;> simp [State.setEvent_evr, State.count, State.heal]

/-- Acceptance takes nothing from the records that are offered. -/
theorem State.accept1_offered (s : State) (r : Rec) : (s.accept1 r).evr.offered = s.evr.offered := by
  simp only [State.accept1, State.evrSync]
  cases s.bit Reg.EVR_CTRL 0 <;> cases s.bit Reg.EVR_STATUS 30 <;> cases s.slotOf s.evr.next <;> simp [State.setEvent_evr, State.count, State.heal]

/-- An accepted record that has a slot is stored there, and nowhere else. -/
theorem State.accept1_stored (s : State) (r : Rec) (n : Nat) (he : s.bit Reg.EVR_CTRL 0 = true) (hh : s.bit Reg.EVR_STATUS 30 = false) (hs : s.slotOf s.evr.next = some n) :
    (s.accept1 r).mem.basin = putBytes s.mem.basin (s.fld (Reg.BSN_PART_BASE 5) 10 0 * 65536 + 32 * n) (r.bytes s.evr.next)
    ∧ (s.accept1 r).mem.dram = s.mem.dram := by
  simp only [State.accept1, State.evrSync, he, hh, hs, Bool.not_false, Bool.and_true, State.setReg64_mem, State.heal, and_self]

/-- A disabled recorder stores nothing. -/
theorem State.accept1_dropped (s : State) (r : Rec) (he : s.bit Reg.EVR_CTRL 0 = false) :
    (s.accept1 r).mem = s.mem := by
  simp [State.accept1, State.evrSync, he, State.setEvent_mem, State.count]

/-- The level check keeps number and mode, and takes no record away. -/
theorem State.levelCheck_next (s : State) : s.levelCheck.evr.next = s.evr.next ∧ s.levelCheck.evr.mode = s.evr.mode ∧ s.evr.offered.length ≤ s.levelCheck.evr.offered.length := by
  simp only [State.levelCheck]; split
  · simp [State.offer, State.setEvent_evr]
  · simp

/-- The level check leaves the memories alone. -/
theorem State.levelCheck_mem (s : State) : s.levelCheck.mem = s.mem := by
  simp only [State.levelCheck]; split
  · simp [State.offer, State.setEvent_mem]
  · rfl

/-- The level check changes no register but EVR_EVENT below the MSI-X area. -/
theorem State.levelCheck_reg (s : State) (k : Nat) (h : k ≠ Reg.EVR_EVENT) (h2 : k < 0x10000000) : s.levelCheck.reg k = s.reg k := by
  simp only [State.levelCheck]; split
  · exact State.setEvent_reg _ _ _ _ _ h h2
  · rfl

/-- The number registers are the only ones that follow the numbers. -/
theorem State.evrSync_reg (s : State) (k : Nat) (h : k ∉ [Reg.EVR_NEXT_LO, Reg.EVR_NEXT_HI, Reg.EVR_OLDEST_LO, Reg.EVR_OLDEST_HI, Reg.EVR_BASE_LO, Reg.EVR_BASE_HI]) : s.evrSync.reg k = s.reg k := by
  simp at h
  simp only [State.evrSync, State.setReg64]
  simp [State.setReg_reg_ne, h]

/-- A whole-register counter counts and saturates. -/
theorem State.count31 (s : State) (k n : Nat) : (s.count k 31 0 n).reg k = min (s.reg k + n) (2 ^ 32 - 1) := by
  have := s.reg_lt k
  have e : bitsOf (s.reg k) 31 0 = s.reg k := by simp only [bitsOf]; omega
  simp only [State.count, State.setFld, State.setReg_reg, State.fld, e, satAdd, putBits]
  omega

/-- A field depends on the registers alone. -/
theorem State.fld_congr {s t : State} (h : ∀ k, s.reg k = t.reg k) (k a b : Nat) : s.fld k a b = t.fld k a b := by simp only [State.fld, h]

/-- A bit depends on the registers alone. -/
theorem State.bit_congr {s t : State} (h : ∀ k, s.reg k = t.reg k) (k a : Nat) : s.bit k a = t.bit k a := by simp only [State.bit, h]

end Sys2Proof.Machine
end

