-- ==== Sys2Proof/WellFormed.lean ====
section
/-! DEFINITION. Which terms of `Instr` are commands a sender can form: registers, addresses, lengths and samples within their
widths. A meaning does not check this; it takes a value modulo its width. -/

namespace Sys2Proof

/-- A number of `n` bits. -/
def fits (n w : Nat) : Bool := decide (w < 2 ^ n)

/-- Host bytes that an access brings: addresses of host memory (Table 6.3). -/
def hostWf (h : List (Nat × Byte)) : Bool := h.all fun p => fits 62 p.1

/-- What a load meets: channels that exist, and a section type of 16 bits. -/
def LoadFacts.wf (f : LoadFacts) : Bool := f.trainFail.all (fun c => decide (c < 8)) && f.refuses.all (fits 16)

/-- An E1.31 packet: a kind it has, and fields of their widths. -/
def SacnPacket.wf (p : SacnPacket) : Bool :=
  decide (p.kind ≤ 2) && fits 128 p.cid && fits 8 p.priority && fits 8 p.seq && fits 16 p.sacn && fits 8 p.start
    && decide (p.slots.length ≤ 512)

/-- The command is one that a sender can form. -/
def Instr.wf (i : Instr) : Bool :=
  match i with
  | .registerWrite _ offset value size hwSet hwClear => fits 26 offset && fits 32 value && [1, 2, 4, 8].contains size && fits 32 hwSet && fits 32 hwClear
  | .apertureAccess offset _ value _ => decide (offset < 0x3000000) && fits 32 value
  | .bsnAptBaseWrite value => fits 32 value
  | .eccClearWrite _ value error => fits 32 value && error.all fun e => fits 33 e.1
  | .configRequest _ _ op => match op with
    | .setCompletionTimeout v => fits 4 v
    | .setBar _ v => fits 64 v
    | .setVfBar0 v => fits 64 v
    | .setVfEnable n => fits 16 n
    | .clearAer u c => fits 32 u && fits 32 c
    | _ => true
  | .pornAssert => true
  | .pornDeassert _ => true
  | .romCheckDone _ _ => true
  | .wellheadLoad _ slotA slotB steps => slotA.wf && slotB.wf && steps.all (fits 64)
  | .runEntry => true
  | .directoryWrite => true
  | .slotConfirm value => fits 32 value
  | .rebootKey value _ => fits 32 value
  | .flashRead => true
  | .flashErase => true
  | .flashProgram => true
  | .setTrial => true
  | .flashCmdEnd _ => true
  | .ownAssign _ _ _ => true
  | .ownRelease => true
  | .ownShare _ => true
  | .revokeKey _ => true
  | .otpKey _ => true
  | .otpImageKey => true
  | .secreqEnd => true
  | .memoryAccess _ _ _ addr write data len job _ _ => fits 62 addr && decide (0 < len) && (!write || data.length == len) && job.all fun j => fits 16 j.sq && fits 7 j.off
  | .ownerCacheMissFill _ _ => true
  | .ownerEntryRewrite granule => fits 21 granule
  | .eccWriteback _ word => fits 33 word
  | .patrolScrub errors => errors.all fun e => fits 33 e.1
  | .dramInitSweep granules => fits 21 granules
  | .dramInitDone => true
  | .dramRefresh _ => true
  | .mr4Read rates => rates.length == 8 && rates.all (fits 3)
  | .zqCalibration => true
  | .wckTracking => true
  | .showTimeEchoReload _ => true
  | .brownOut rails => rails.all fun r => fits 32 r.mv && fits 64 r.ns
  | .brownOutRecovery _ => true
  | .vrPgoodLow => true
  | .thermalTrip => true
  | .tapBypass => true
  | .tapIdcode => true
  | .tapExtest _ _ => true
  | .tapSamplePreload _ _ => true
  | .debugSel => true
  | .wdtKick value => fits 32 value
  | .wdtExpiry => true
  | .koroftRestarted _ => true
  | .secureClaimSet _ => true
  | .secureClaimClear _ => true
  | .secureRecordWrite code d0 d1 d2 => fits 16 code && fits 32 d0 && fits 32 d1 && fits 32 d2
  | .portDown _ _ => true
  | .completionTimeout _ tag => fits 10 tag
  | .linkRetrain _ gen width ltssm => decide (gen ≤ 6) && decide (width ≤ 16) && fits 8 ltssm
  | .busMasterEnableSet _ => true
  | .bmeClear _ => true
  | .flr _ => true
  | .vfEnableClear _ => true
  | .hostCompletionReceived _ tag _ => fits 10 tag
  | .malformedTlp _ => true
  | .poisonedBarWrite _ _ => true
  | .msixSend _ _ => true
  | .msixUnmask _ _ => true
  | .activate _ => true
  | .quiesce _ => true
  | .resume _ => true
  | .remove _ => true
  | .assign _ => true
  | .assignCtx _ arg => fits 32 arg
  | .unassignCtx _ arg => fits 32 arg
  | .grant _ _ index => fits 32 index
  | .revoke _ _ index => fits 32 index
  | .pdkCmdEnd => true
  | .paddockQuiesced _ => true
  | .selfQuiesce _ value => fits 32 value
  | .doorbellTail _ _ value => fits 32 value
  | .rein _ _ => true
  | .reinComplete _ => true
  | .restart _ _ => true
  | .restartDiscard _ _ => true
  | .reset _ _ => true
  | .descriptorFetched _ _ host => hostWf host
  | .renderPass _ => true
  | .compute _ => true
  | .copy _ => true
  | .copyFill _ => true
  | .copyDone _ host => hostWf host
  | .fenceWait _ => true
  | .fenceWaitSatisfied _ => true
  | .fenceSignal _ => true
  | .layerCommit _ => true
  | .lightWrite _ => true
  | .rdmTransaction _ host => hostWf host
  | .audioBufferPlay _ host => hostWf host
  | .audioBufferPlayDone _ => true
  | .audioBufferCapture _ => true
  | .audioCaptureDone _ => true
  | .hapticPlay _ => true
  | .cvuRun _ host => hostWf host
  | .cvuRunDone _ host => hostWf host
  | .eventMark _ => true
  | .completionHeadWrite _ _ value => fits 32 value
  | .runLimitExpiry _ => true
  | .fenceSet value => fits 32 value
  | .contextCfgWrite _ _ value => fits 32 value
  | .homeStringAssign => true
  | .drawRecordRead _ sq host => fits 16 sq && hostWf host
  | .vertexBatch _ sq host => fits 16 sq && hostWf host
  | .binPrimitive _ sq => fits 16 sq
  | .geometryPhaseEnd _ sq host => fits 16 sq && hostWf host
  | .roundEnd _ sq => fits 16 sq
  | .dispatch _ host _ => hostWf host
  | .siphonSteal _ host _ => hostWf host
  | .tileRetire _ fail => fail.all (fits 32)
  | .tileWritten _ host fail => hostWf host && fail.all (fits 32)
  | .jaCtrlWrite value => fits 32 value
  | .icacheFill _ _ sq line host => fits 16 sq && fits 24 line && hostWf host
  | .loadDataReturn _ _ _ => true
  | .jNop _ _ _ => true
  | .jBra _ _ _ => true
  | .jCall _ _ _ => true
  | .jRet _ _ _ => true
  | .jEnd _ _ _ _ => true
  | .jDrop _ _ _ => true
  | .jWsync _ _ _ => true
  | .jMvis _ _ _ => true
  | .jMov _ _ _ => true
  | .jIadd _ _ _ => true
  | .jIsub _ _ _ => true
  | .jImul _ _ _ => true
  | .jImulhi _ _ _ => true
  | .jUmulhi _ _ _ => true
  | .jImula _ _ _ => true
  | .jAnd _ _ _ => true
  | .jOr _ _ _ => true
  | .jXor _ _ _ => true
  | .jShl _ _ _ => true
  | .jShr _ _ _ => true
  | .jSar _ _ _ => true
  | .jMin _ _ _ => true
  | .jMax _ _ _ => true
  | .jBit _ _ _ => true
  | .jFadd _ _ _ => true
  | .jFsub _ _ _ => true
  | .jFmul _ _ _ => true
  | .jFma _ _ _ => true
  | .jFmin _ _ _ => true
  | .jFmax _ _ _ => true
  | .jFround _ _ _ => true
  | .jFfrac _ _ _ => true
  | .jHpadd _ _ _ => true
  | .jHpmul _ _ _ => true
  | .jHpfma _ _ _ => true
  | .jHpmin _ _ _ => true
  | .jHpmax _ _ _ => true
  | .jRcp _ _ _ => true
  | .jRsq _ _ _ => true
  | .jSqrt _ _ _ => true
  | .jExp2 _ _ _ => true
  | .jLog2 _ _ _ => true
  | .jSinpi _ _ _ => true
  | .jCospi _ _ _ => true
  | .jF2i _ _ _ => true
  | .jF2u _ _ _ => true
  | .jI2f _ _ _ => true
  | .jU2f _ _ _ => true
  | .jFpackh _ _ _ => true
  | .jHunpl _ _ _ => true
  | .jHunph _ _ _ => true
  | .jFcmp _ _ _ => true
  | .jIcmp _ _ _ => true
  | .jUcmp _ _ _ => true
  | .jPand _ _ _ => true
  | .jPor _ _ _ => true
  | .jPxor _ _ _ => true
  | .jPnot _ _ _ => true
  | .jPick _ _ _ => true
  | .jPget _ _ _ => true
  | .jPput _ _ _ => true
  | .jLxch _ _ _ => true
  | .jQdx _ _ _ => true
  | .jQdy _ _ _ => true
  | .jLred _ _ _ => true
  | .jLread _ _ _ => true
  | .jSrg _ _ _ => true
  | .jGld _ _ _ host => hostWf host
  | .jGst _ _ _ => true
  | .jGatom _ _ _ host => hostWf host
  | .jCld _ _ _ host => hostWf host
  | .jShld _ _ _ _ => true
  | .jShst _ _ _ => true
  | .jShatom _ _ _ _ => true
  | .jSmp _ _ _ host => hostWf host
  | .jSmpl _ _ _ host => hostWf host
  | .jSmpb _ _ _ host => hostWf host
  | .jSmpg _ _ _ host => hostWf host
  | .jSmpc _ _ _ host => hostWf host
  | .jTfetch _ _ _ host => hostWf host
  | .jTdim _ _ _ => true
  | .jTbld _ _ _ _ => true
  | .jTbst _ _ _ _ => true
  | .jVint _ _ _ => true
  | .jOut _ _ _ => true
  | .jZout _ _ _ => true
  | .workgroupRetire _ group => fits 32 group
  | .deadlineArbiterTick => true
  | .preemptRequestArrive _ => true
  | .graceLimit _ => true
  | .preemptSave _ => true
  | .lentJetReturn _ => true
  | .resumeRestore _ => true
  | .jetStallTimeout _ => true
  | .jetClockGate _ => true
  | .headCommit _ _ => true
  | .groupCommit _ _ => true
  | .cmpHoldWrite _ value => fits 32 value
  | .cmpLutDataWrite _ value => fits 32 value
  | .cmpCtrlWrite _ value => fits 32 value
  | .layerFetchReturn _ _ addr len => fits 62 addr && fits 32 len
  | .canvasLine _ line => fits 14 line
  | .writebackFrameDone _ => true
  | .frameStart _ => true
  | .lineMatch _ => true
  | .latchLine _ => true
  | .frameDone _ => true
  | .vblankStart _ => true
  | .underrun _ line pixel => fits 14 line && fits 14 pixel
  | .syncInEdge => true
  | .gaitRequest _ gait => fits 5 gait
  | .headPllLocked _ => true
  | .linkTrainingDone _ locked rate lanes => fits 4 rate && (!locked || [1, 2, 4].contains lanes)
  | .linkRetry _ => true
  | .hpdLow _ _ _ lanes _ => fits 32 lanes
  | .hpdRise _ => true
  | .auxNativeWrite _ _ => true
  | .auxNativeRead _ _ => true
  | .auxI2cWrite _ _ => true
  | .auxI2cRead _ _ => true
  | .auxI2cWriteMot _ _ => true
  | .auxI2cReadMot _ _ => true
  | .auxReply _ _ data => decide (data.length ≤ 16)
  | .hdCtrlWrite _ value => fits 32 value
  | .panelPowerOn _ => true
  | .panelPowerOff _ => true
  | .panelHpdTimeout _ => true
  | .panelBacklightOn _ => true
  | .panelBlOffElapsed _ => true
  | .panelCycleElapsed _ => true
  | .regionSignatureFinal _ _ => true
  | .safetySignatureFinal _ faults => faults.all fun f => fits 27 f.1
  | .imClear _ value => fits 32 value
  | .fallbackCheck _ => true
  | .cvuInit _ _ value => fits 32 value
  | .cvuData _ _ value => fits 32 value
  | .cvuDataB _ _ value => fits 32 value
  | .cvuCfgWrite _ _ _ value => fits 32 value
  | .cvuStale _ => true
  | .lightFrameStart => true
  | .lightHoldover => true
  | .lightDataArrive _ host => hostWf host
  | .mergeStart => true
  | .emissionStart => true
  | .sourceTimeout _ => true
  | .loLoad _ => true
  | .loSync _ => true
  | .loadEnd host _ => hostWf host
  | .lightCommit _ _ => true
  | .lightCommitChecked => true
  | .loCtrlWrite value => fits 32 value
  | .sacnPacketReceived _ packet => packet.wf
  | .sacnSenderTimeout _ cid => fits 128 cid
  | .sacnDiscoverySend => true
  | .sacnPacketSent _ => true
  | .dmxPacketEnd _ => true
  | .rdmResponseByte _ _ => true
  | .rdmResponseTimeout _ => true
  | .rdmTransactionEnd _ => true
  | .netLinkDown _ _ => true
  | .netLinkUp _ => true
  | .txdisPulseEnd _ => true
  | .ethernetFrameReceived _ frame => frame.vid.all (fits 12)
  | .arpRequest _ mac ipv4 target => fits 48 mac && fits 32 ipv4 && fits 32 target
  | .icmpEchoRequest _ source target data => fits 32 source && fits 32 target && decide (data.length ≤ 1472)
  | .igmpQuery _ _ group => fits 32 group
  | .ptpMessageReceived _ domain _ => fits 8 domain
  | .ptpMessageSend _ => true
  | .ptpReceiptTimeout _ => true
  | .ppsPulse => true
  | .aes67TxPacket _ => true
  | .aes67RxPacket _ _ seq stamp samples => fits 16 seq && fits 32 stamp && samples.all fun f => f.all fun x => decide (-8388608 ≤ x) && decide (x < 8388608)
  | .aesRxLoss _ => true
  | .sfpI2cTransaction _ value _ _ => fits 32 value
  | .touchFrameEnd raw _ => raw.all fun r => r.2.all (fits 16)
  | .stuckRelease _ => true
  | .keyHeldLong _ => true
  | .tchCtrlWrite value => fits 32 value
  | .touchCommit scope => fits 9 scope
  | .touchResync _ => true
  | .grazeScan raw => raw.all (fits 16)
  | .grazeSlideTimeout => true
  | .hapticControlTick acc => acc.length == 16
  | .hapFaultPin _ _ => true
  | .spurTrigger _ _ => true
  | .hapClearFault _ => true
  | .hapStop _ => true
  | .hapCommit scope => fits 16 scope
  | .hapCtrlWrite value => fits 32 value
  | .hapLibraryCheckDone => true
  | .audioBlockStart tdm _ => tdm.all fun r => r.2.all fun x => decide (-8388608 ≤ x) && decide (x < 8388608)
  | .realign _ => true
  | .audCommit _ _ => true
  | .audXpDataWrite value => fits 32 value
  | .audXpSync value => fits 32 value
  | .audXpSyncDone => true
  | .voiceStart _ => true
  | .voiceStop _ => true
  | .tdmLost _ => true
  | .audCtrlWrite value => fits 32 value
  | .clipCheckDone => true
  | .recordAccept => true
  | .rearm value => fits 32 value
  | .evrDisable value => fits 32 value
  | .evrAckWrite value => fits 32 value
  | .rateLimitIntervalEnd code _ => fits 16 code
  | .powerStateRequest value => fits 32 value
  | .blockHandshakeAnswer _ _ => true
  | .handshakeTimeout => true
  | .pcrGateWrite value => fits 32 value
  | .wakeSource _ _ => true
  | .stabledTimerExpiry _ => true
  | .wakeStepReady => true
  | .wakeStepTimeout => true
  | .pcrJetPointWrite value => fits 32 value
  | .dvfs => true
  | .thermalSample _ _ => true
  | .throttle => true
  | .avsTransactionEnd _ => true
  | .pcrReset value => fits 32 value
  | .chipResetEnd _ => true
  | .registerRead _ offset size => fits 26 offset && [1, 2, 4, 8].contains size
  | .allRailsGood _ => true
  | .moduleFaultRetry _ => true
  | .dvfsDeferralExpiry => true
  | .tdmLocked _ => true
  | .linkLockLost _ lanes => fits 32 lanes
  | .testLogicReset => true

end Sys2Proof
end

