-- ==== Sys2Proof/Tests/Slice0.lean ====
section
/-! SUPPORT. Tests: what `Instr.wf` refuses, states that meet the hypotheses of every statement, and steps with results taken
from the spec's tables and worked examples. -/

namespace Sys2Proof.Tests

set_option Elab.async false

open Sys2Proof Sys2Proof.Machine

/-! ### What `Instr.wf` refuses -/

theorem test_wf_refuses_0 : ([.registerWrite .p (2 ^ 26) 0 4 0 0,
    .registerWrite .p 0 (2 ^ 32) 4 0 0,
    .registerWrite .p 0 0 3 0 0,
    .registerWrite .p 0 0 4 (2 ^ 32) 0,
    .registerWrite .p 0 0 4 0 (2 ^ 32),
    .apertureAccess 0x3000000 true 0 .clean,
    .apertureAccess 0 true (2 ^ 32) .clean,
    .bsnAptBaseWrite (2 ^ 32),
    .eccClearWrite .dram (2 ^ 32) none,
    .eccClearWrite .dram 1 (some (2 ^ 33, true)),
    .wellheadLoad true ⟨[8], none⟩ ⟨[], none⟩ [],
    .wellheadLoad true ⟨[], none⟩ ⟨[], some 65536⟩ [],
    .wellheadLoad true ⟨[], none⟩ ⟨[], none⟩ [2 ^ 64],
    .slotConfirm (2 ^ 32),
    .rebootKey (2 ^ 32) 0,
    .memoryAccess .job 0 (some .dram) (2 ^ 62) false [] 8 none .clean,
    .memoryAccess .job 0 (some .dram) 0 false [] 0 none .clean] : List Instr).all (fun i => !i.wf) = true := by decide +kernel
theorem test_wf_refuses_1 : ([.memoryAccess .job 0 (some .dram) 0 true [0] 8 none .clean,
    .memoryAccess .job 0 (some .dram) 0 false [] 8 (some ⟨0, 65536, 0⟩) .clean,
    .memoryAccess .job 0 (some .dram) 0 false [] 8 (some ⟨0, 0, 128⟩) .clean,
    .ownerEntryRewrite (2 ^ 21),
    .eccWriteback .dram (2 ^ 33),
    .patrolScrub [(2 ^ 33, false)],
    .dramInitSweep (2 ^ 21),
    .mr4Read [0],
    .mr4Read [8, 0, 0, 0, 0, 0, 0, 0],
    .brownOut [⟨0, 2 ^ 32, 0⟩],
    .brownOut [⟨0, 0, 2 ^ 64⟩],
    .wdtKick (2 ^ 32),
    .secureRecordWrite 65536 0 0 0,
    .secureRecordWrite 0 (2 ^ 32) 0 0,
    .secureRecordWrite 0 0 (2 ^ 32) 0,
    .secureRecordWrite 0 0 0 (2 ^ 32)] : List Instr).all (fun i => !i.wf) = true := by decide +kernel
theorem test_wf_refuses_2 : ([.completionTimeout 0 1024,
    .configRequest 0 0 (.setCompletionTimeout 16),
    .configRequest 0 0 (.setBar 0 (2 ^ 64)),
    .configRequest 0 0 (.setVfBar0 (2 ^ 64)),
    .configRequest 0 0 (.setVfEnable 65536),
    .configRequest 0 0 (.clearAer (2 ^ 32) 0),
    .configRequest 0 0 (.clearAer 0 (2 ^ 32)),
    .linkRetrain 0 7 4 0,
    .linkRetrain 0 4 17 0,
    .linkRetrain 0 4 4 256,
    .hostCompletionReceived 0 1024 .poisoned,
    .assignCtx 0 (2 ^ 32),
    .unassignCtx 0 (2 ^ 32),
    .grant 0 0 (2 ^ 32),
    .revoke 0 0 (2 ^ 32),
    .selfQuiesce 0 (2 ^ 32),
    .doorbellTail 0 0 (2 ^ 32),
    .descriptorFetched 0 .poisoned [(2 ^ 62, 0)],
    .copyDone 0 [(2 ^ 62, 0)],
    .rdmTransaction 0 [(2 ^ 62, 0)],
    .audioBufferPlay 0 [(2 ^ 62, 0)],
    .cvuRun 0 [(2 ^ 62, 0)]] : List Instr).all (fun i => !i.wf) = true := by decide +kernel
theorem test_wf_refuses_3 : ([.cvuRunDone 0 [(2 ^ 62, 0)],
    .completionHeadWrite 0 0 (2 ^ 32),
    .fenceSet (2 ^ 32),
    .contextCfgWrite 0 .cfg (2 ^ 32),
    .drawRecordRead 0 (65536) [],
    .drawRecordRead 0 0 [(2 ^ 62, 0)],
    .vertexBatch 0 (65536) [],
    .vertexBatch 0 0 [(2 ^ 62, 0)],
    .binPrimitive 0 (65536),
    .geometryPhaseEnd 0 (65536) [],
    .geometryPhaseEnd 0 0 [(2 ^ 62, 0)],
    .roundEnd 0 (65536),
    .dispatch 0 [(2 ^ 62, 0)] false,
    .siphonSteal 0 [(2 ^ 62, 0)] false,
    .tileRetire 0 (some (2 ^ 32)),
    .tileWritten 0 [(2 ^ 62, 0)] none,
    .tileWritten 0 [] (some (2 ^ 32))] : List Instr).all (fun i => !i.wf) = true := by decide +kernel
theorem test_wf_refuses_4 : ([.jaCtrlWrite (2 ^ 32),
    .icacheFill 0 0 65536 0 [],
    .icacheFill 0 0 0 (2 ^ 24) [],
    .icacheFill 0 0 0 0 [(2 ^ 62, 0)],
    .jGld 0 0 false [(2 ^ 62, 0)],
    .jGatom 0 0 false [(2 ^ 62, 0)],
    .jCld 0 0 false [(2 ^ 62, 0)],
    .jSmp 0 0 false [(2 ^ 62, 0)],
    .jSmpl 0 0 false [(2 ^ 62, 0)],
    .jSmpb 0 0 false [(2 ^ 62, 0)],
    .jSmpg 0 0 false [(2 ^ 62, 0)],
    .jSmpc 0 0 false [(2 ^ 62, 0)],
    .jTfetch 0 0 false [(2 ^ 62, 0)],
    .workgroupRetire 0 (2 ^ 32),
    .cmpHoldWrite 0 (2 ^ 32),
    .cmpLutDataWrite 0 (2 ^ 32)] : List Instr).all (fun i => !i.wf) = true := by decide +kernel
theorem test_wf_refuses_5 : ([.cmpCtrlWrite 0 (2 ^ 32),
    .layerFetchReturn 0 0 (2 ^ 62) 64,
    .layerFetchReturn 0 0 0 (2 ^ 32),
    .canvasLine 0 16384,
    .underrun 0 16384 0,
    .underrun 0 0 16384,
    .gaitRequest 0 32,
    .linkTrainingDone 0 true 16 4,
    .linkTrainingDone 0 true 3 3,
    .hpdLow 0 0 0 (2 ^ 32) false,
    .auxReply 0 0 (List.replicate 17 0),
    .hdCtrlWrite 0 (2 ^ 32),
    .safetySignatureFinal 0 [(2 ^ 27, 0)],
    .imClear 0 (2 ^ 32),
    .cvuInit 0 .s (2 ^ 32),
    .cvuData 0 .s (2 ^ 32)] : List Instr).all (fun i => !i.wf) = true := by decide +kernel
theorem test_wf_refuses_6 : ([.cvuDataB 0 .s (2 ^ 32),
    .cvuCfgWrite 0 .s .ctrl (2 ^ 32),
    .lightDataArrive 0 [(2 ^ 62, 0)],
    .loadEnd [(2 ^ 62, 0)] false,
    .loCtrlWrite (2 ^ 32),
    .sacnPacketReceived 0 ⟨3, 0, 0, 0, false, false, 1, 0, []⟩,
    .sacnPacketReceived 0 ⟨0, 2 ^ 128, 0, 0, false, false, 1, 0, []⟩,
    .sacnPacketReceived 0 ⟨0, 0, 256, 0, false, false, 1, 0, []⟩,
    .sacnPacketReceived 0 ⟨0, 0, 0, 256, false, false, 1, 0, []⟩,
    .sacnPacketReceived 0 ⟨0, 0, 0, 0, false, false, 65536, 0, []⟩,
    .sacnPacketReceived 0 ⟨0, 0, 0, 0, false, false, 1, 256, []⟩,
    .sacnPacketReceived 0 ⟨0, 0, 0, 0, false, false, 1, 0, List.replicate 513 0⟩,
    .sacnSenderTimeout 0 (2 ^ 128),
    .ethernetFrameReceived 0 ⟨true, true, some 4096, .own, false, true⟩,
    .arpRequest 0 (2 ^ 48) 0 0,
    .arpRequest 0 0 (2 ^ 32) 0] : List Instr).all (fun i => !i.wf) = true := by decide +kernel
theorem test_wf_refuses_7 : ([.arpRequest 0 0 0 (2 ^ 32),
    .icmpEchoRequest 0 (2 ^ 32) 0 [],
    .icmpEchoRequest 0 0 (2 ^ 32) [],
    .icmpEchoRequest 0 0 0 (List.replicate 1473 0),
    .igmpQuery 0 true (2 ^ 32),
    .ptpMessageReceived 0 256 .management,
    .aes67RxPacket 0 0 65536 0 [],
    .aes67RxPacket 0 0 0 (2 ^ 32) [],
    .aes67RxPacket 0 0 0 0 [[8388608]],
    .sfpI2cTransaction 0 (2 ^ 32) false 0,
    .touchFrameEnd [(0, [65536])] [],
    .tchCtrlWrite (2 ^ 32),
    .touchCommit 512,
    .grazeScan [65536],
    .hapticControlTick [],
    .hapCommit 65536] : List Instr).all (fun i => !i.wf) = true := by decide +kernel
theorem test_wf_refuses_8 : ([.hapCtrlWrite (2 ^ 32),
    .audioBlockStart [(0, [8388608])] [],
    .audXpDataWrite (2 ^ 32),
    .audXpSync (2 ^ 32),
    .audCtrlWrite (2 ^ 32),
    .rearm (2 ^ 32),
    .evrDisable (2 ^ 32),
    .evrAckWrite (2 ^ 32),
    .rateLimitIntervalEnd 65536 0,
    .powerStateRequest (2 ^ 32),
    .pcrGateWrite (2 ^ 32),
    .pcrJetPointWrite (2 ^ 32),
    .pcrReset (2 ^ 32),
    .registerRead .p (2 ^ 26) 4,
    .registerRead .p 0 3,
    .linkLockLost 0 (2 ^ 32)] : List Instr).all (fun i => !i.wf) = true := by decide +kernel

/-! ### States that meet the hypotheses of the statements -/

/-- A state with registers set. -/
def withRegs (l : List (Nat × Nat)) (s : State) : State := l.foldl (fun s p => s.setReg p.1 p.2) s

/-- The state after reset, in another device state of Table 1.8. -/
def inState (n : Nat) : State := State.reset.setFld Reg.SYS_STATE 2 0 n

/-- A record interval. -/
def interval (count : Nat) : State :=
  { State.reset with evr := { State.reset.evr with rate := [⟨0x0501, 3, 1000, 2000, count, [(8, 3)], [], 7⟩] } }

/-- PORn low, or a rail that is not good. -/
def offPins (s : State) : State := { s with pins := { s.pins with porn := false } }
def railOut (s : State) : State := { s with pins := { s.pins with railsLow := [2] } }

/-- A device in RUN whose manager is paddock 0, ACTIVE on port 0, with paddock 1 in state `st` of Table 5.4; both functions
are present, master their port and have MSI-X on, and every signal group is live. -/
def dev (st : Nat) : State :=
  withRegs [(Reg.SYS_STATE, 3), (Reg.PDK_STATE 0, 0x72), (Reg.PDK_STATE 1, 0x70 + st)]
    { State.reset with
      boot := { State.reset.boot with hpWidth := [16, 16, 0, 0], hpVfs := [4, 4, 0, 0] }
      pins := { State.reset.pins with groupsSafe := List.replicate 10 false } }

/-- `dev` whose DRAM granule 5 belongs to paddock 1, its entry held by the check unit of bytes 0x50000 on. -/
def devMem : State :=
  let s := (dev 2).setOwner 5 0x4001
  { s with mem := { s.mem with ownerCache := [(s.unitOf .dram 0x50000, 5)] } }

theorem met_PornAndBootByTable :
    ((inState 0).devState = 0 ∧ (offPins (inState 0)).pins.porn = false ∧ (offPins (inState 0)).devState = 0
      ∧ (offPins (inState 0)).pins.railsLow = [])
    ∧ ((railOut (inState 0)).devState = 0 ∧ (railOut (inState 0)).pins.railsLow ≠ [] ∧ (railOut (inState 0)).pins.porn = true)
    ∧ (State.reset.devState = 1 ∧ State.reset.boot.resetCause = none) := by decide

theorem met_ResetsTapAndThermalTrip :
    (let x : RailSample := ⟨2, 679, 2000⟩;
      (inState 3).sysState ≠ 0 ∧ x.rail.val ∉ (inState 3).pins.maskedRails ∧ 10 * x.mv < (inState 3).railLimit x.rail.val ∧ 2000 ≤ x.ns
        ∧ (inState 3).devState = 3 ∧ (inState 3).pins.pgoodMasked = false ∧ 0xC4A5 % 2 ^ 16 = 0xC4A5)
    ∧ ((⟨2, 0, 499⟩ : RailSample).ns < 500 ∧ (inState 3).railLimit 2 ≤ 10 * 680
      ∧ 2 ∈ ({ State.reset with pins := { State.reset.pins with maskedRails := [2] } } : State).pins.maskedRails)
    ∧ (State.reset.pins.porn = true ∧ (offPins State.reset).pins.porn = false ∧ 3 ∉ State.reset.pins.railsLow
      ∧ 3 ∈ ({ State.reset with pins := { State.reset.pins with railsLow := [3] } } : State).pins.railsLow)
    ∧ ({ State.reset with boot := { State.reset.boot with resetCause := some 1 } } : State).boot.resetCause = some 1
    ∧ (({ State.reset with boot := { State.reset.boot with resetCause := some 4 } } : State).boot.resetCause = some 4 ∧ 4 ≠ 1 ∧ 4 < 256)
    ∧ (let s : State := { State.reset with fuses := { State.reset.fuses with partCode := 3, debugOff := false } };
      s.fuses.partCode = 3 ∧ s.fuses.debugOff = false ∧ s.boot.imageKeyRemoved = false)
    ∧ State.reset.fuses.partCode ≠ 3 := by decide

theorem met_StepRunsFrontCommand :
    ({ State.reset with pending := [.tapBypass, .pornAssert] } : State).pending = .tapBypass :: [.pornAssert]
    ∧ State.reset.pending = [] := by decide

theorem met_ShowTimeAdvancesAndEchoes :
    State.reset.clocked = true ∧ State.reset.fld Reg.PCR_STATUS 31 29 ≠ 3 ∧ State.reset.net.waiting = [] := by decide

/-- A recorder in SPLIT with one record offered. -/
def offered (regs : List (Nat × Nat)) : State :=
  withRegs regs { State.reset with evr := { State.reset.evr with offered := [⟨0x0501, 0, 1, 2, 3⟩] } }

theorem met_RecordsAreNumberedAndStored :
    (let s := offered [(Reg.EVR_CTRL, 1), (Reg.BSN_PART_SIZE 5, 4), (Reg.BSN_PART_BASE 5, 0x80)];
      s.evr.offered = [⟨0x0501, 0, 1, 2, 3⟩] ∧ s.evr.mode = 0 ∧ s.bit Reg.EVR_CTRL 0 = true ∧ s.bit Reg.EVR_STATUS 30 = false
        ∧ s.slotOf s.evr.next = some 0)
    ∧ (let s := offered [];
      s.evr.offered = [⟨0x0501, 0, 1, 2, 3⟩] ∧ s.evr.mode = 0 ∧ s.bit Reg.EVR_CTRL 0 = false) := by decide

theorem met_RearmDisableAndAcknowledge :
    ((3).testBit 1 = true ∧ (3).testBit 0 = true ∧ 0 < (withRegs [(Reg.BSN_PART_SIZE 5, 4)] State.reset).evrSlots)
    ∧ ((0).testBit 1 = false ∧ (0).testBit 0 = false)
    ∧ (let s := withRegs [(Reg.EVR_THRESH, 1)] State.reset;
      0 < 2 ^ 32 ∧ (s.evr.next + 2 ^ 32 - 0) % 2 ^ 32 < s.fld Reg.EVR_THRESH 17 0
        ∧ s.fld Reg.EVR_THRESH 17 0 ≤ (s.evr.next + 2 ^ 32 - (2 ^ 32 - 1)) % 2 ^ 32) := by decide

theorem met_RateLimitsAndSecureRecords :
    ((interval 2).evr.rate.find? (fun r => r.code == 0x0501 && r.unit == 3) = some ⟨0x0501, 3, 1000, 2000, 2, [(8, 3)], [], 7⟩)
    ∧ ((interval 0).evr.rate.find? (fun r => r.code == 0x0501 && r.unit == 3) = some ⟨0x0501, 3, 1000, 2000, 0, [(8, 3)], [], 7⟩)
    ∧ ((dev 2).koroftUp = true ∧ 0xFFFF < 2 ^ 16 ∧ 2 ^ 32 - 1 < 2 ^ 32) := by decide

/-- `devMem` whose owner table is SECURE, the entry of its first granule held by the check unit. -/
def devTable : State :=
  let s := devMem.setOwner 0x100020 0xC000
  { s with mem := { s.mem with ownerCache := [(s.unitOf .basin 0x20000A, granNo .basin (0x20000A / 65536))] } }

theorem met_MemoryAccessesUnderOwnerTable :
    (devMem.devState = 3 ∧ devMem.gatedWrite true none = false ∧ (∀ h ∈ devMem.mem.ownerWait, h.unit ≠ devMem.unitOf .dram 0x50000)
      ∧ devMem.actorOf 1 none none = 1 ∧ (devMem.unitOf .dram 0x50000, granNo .dram (0x50000 / 65536)) ∈ devMem.mem.ownerCache
      ∧ (∀ h ∈ devMem.mem.ownerHeld, h.granule ≠ granNo .dram (0x50000 / 65536)) ∧ devMem.mem.bad = []
      ∧ devMem.refusedIn .job 1 true .dram 0x50000 4 = none ∧ devMem.refusedIn .job 1 false .dram 0x50000 8 = none)
    ∧ (devTable.devState = 3 ∧ devTable.gatedWrite true none = false ∧ 0x20000A % 2 = 0 ∧ entryAt 0x20000A = some 0x100005
      ∧ (devTable.unitOf .basin 0x20000A, granNo .basin (0x20000A / 65536)) ∈ devTable.mem.ownerCache
      ∧ devTable.mem.ownerHeld = [] ∧ devTable.mem.ownerWait = [] ∧ devTable.mem.bad = []
      ∧ devTable.refusedIn .koroft (devTable.actorOf 0 none none) true .basin 0x20000A 2 = none)
    ∧ (Master.job ≠ .debug ∧ devMem.refusedIn .job (devMem.actorOf 0 none none) true .dram 0x50000 4 = some 5
      ∧ devMem.refusedIn .job (devMem.actorOf 0 none none) false .dram 0x50000 4 = some 5)
    ∧ devMem.mayMaster (devMem.actorOf 1 none none) = true := by decide

/-- A held request of paddock 1 for DRAM granule `g`. -/
def heldAt (u g : Nat) : HeldReq := ⟨u, g, .job, 1, .dram, 65536 * g, false, [], 8, none, .clean⟩

theorem met_OwnerUnitsAndScrubber :
    (let u := (dev 2).unitOf .dram 0x50000;
      (dev 2).devState = 3 ∧ Master.job ≠ .debug ∧ (dev 2).gatedWrite true none = false ∧ (u, granNo .dram (0x50000 / 65536)) ∉ (dev 2).mem.ownerCache
        ∧ (dev 2).mem.ownerWait = [] ∧ ((dev 2).misses u).length < 8
        ∧ (let s : State := { dev 2 with mem := { (dev 2).mem with ownerHeld := (List.range 8).map fun k => heldAt u (100 + k) } };
          8 ≤ (s.misses u).length ∧ 5 ∉ s.misses u))
    ∧ (let r : HeldReq := heldAt 2 5;
      let s : State := { dev 2 with mem := { (dev 2).mem with ownerHeld := [r] } };
      s.mem.ownerHeld = [r] ∧ r.unit = (2 : Fin 12).val ∧ s.mem.ownerCache = [] ∧ r.granule ∉ s.mem.ownerFailed
        ∧ s.mem.ownerWait = [] ∧ r.job = none ∧ r.write = false ∧ (MemSel.basin, ownerAt r.granule / 8) ∉ s.mem.bad)
    ∧ (scrubIndex 0 = (dev 2).mem.scrub ∧ 0 < 12582912 ∧ (dev 2).mem.scrub + 1 < 49152) := by decide

theorem met_DramUpkeep :
    ((dev 2).devState = 3 ∧ (dev 2).bit Reg.MEM_STATUS 4 = false)
    ∧ ((withRegs [(Reg.MEM_CH_STATUS 0, 0x10)] (dev 2)).bit (Reg.MEM_CH_STATUS 0) 4 = true
      ∧ (withRegs [(Reg.MEM_CH_STATUS 0, 0x10)] (dev 2)).bit (Reg.MEM_CH_STATUS 0) 8 = false)
    ∧ (∀ c < 8, (withRegs ((List.range 8).map fun c => (Reg.MEM_CH_STATUS c, 0x10)) (dev 2)).channelUp c = true)
    ∧ (dev 2).held 3 = false := by decide

/-- The aperture over pool granules of the manager. -/
def devApt : State := withRegs [(Reg.BSN_APT_BASE, 0x40)] ((dev 2).setOwner 0x100040 0x4000)

theorem met_ApertureAndEccRegisters :
    (devApt.reaches devApt.manager = true ∧ devApt.devState = 3 ∧ 0 < 0x3000000 ∧ devApt.mem.bad = []
      ∧ devApt.refusedIn .aperture devApt.manager true .basin (devApt.fld Reg.BSN_APT_BASE 10 0 * 65536 + 0) 4 = none
      ∧ devApt.refusedIn .aperture devApt.manager false .basin (devApt.fld Reg.BSN_APT_BASE 10 0 * 65536 + 0) 4 = none)
    ∧ (0x40 ≤ 0x40 ∧ 0x40 ≤ 0x300 ∧ 0x3F < 0x40 ∧ 0x300 < 0x301 ∧ 0x301 < 0x800) ∧ (1 : Nat).testBit 0 = true := by decide

/-- The hypotheses of a plain P-view write of `v` at `o`. -/
def plainAt (s : State) (o v : Nat) : Prop :=
  (s.viewRow .p o).elim False fun w => s.writeActs o v = none ∧ (s.rlLocked o = true → (s.reg o ^^^ v) &&& w.rl = 0)
    ∧ (s.reg o ^^^ v) &&& (w.img ||| protectedBits o) = 0

theorem met_RegisterAccessAndPairs_view :
    (dev 2).reaches (dev 2).manager = true ∧ (dev 2).devState = 3 ∧ (inState 4).reaches 0 = true := by decide

theorem met_RegisterAccessAndPairs_write : plainAt (dev 2) Reg.EVR_THRESH 0x3FFFF ∧ Reg.EVR_THRESH % 4 = 0
    ∧ Reg.EVR_THRESH < 0x1000000 ∧ Reg.EVR_THRESH ≠ Reg.CMP_CFG 8 ∧ Reg.EVR_THRESH ≠ Reg.CMP_CFG 9
    ∧ arrIx (Reg.AUD_TDM_CFG 0) 0x10 8 Reg.EVR_THRESH = none ∧ arrIx (Reg.NET_AES_RX_CFG 0) 0x20 8 Reg.EVR_THRESH = none
    ∧ arrIx (Reg.NET_AES_TX_CFG 0) 0x20 8 Reg.EVR_THRESH = none := by
  refine ⟨⟨?_, ?_, ?_⟩, ?_⟩ <;> decide

theorem met_RegisterAccessAndPairs_acts :
    ((dev 2).writeActs Reg.EVR_ACK 0).isSome = true ∧ (((dev 2).viewRow .p Reg.EVR_ACK).elim 1 (·.rl)) = 0
    ∧ ((dev 2).reg Reg.EVR_ACK ^^^ 0) &&& ((((dev 2).viewRow .p Reg.EVR_ACK).elim 1 (·.img)) ||| protectedBits Reg.EVR_ACK) = 0 := by decide +kernel

theorem met_RegisterAccessAndPairs_read :
    ((dev 2).capturedHi 64 Reg.EVR_THRESH = none ∧ (rowAt Reg.EVR_THRESH).any (·.pair) = false ∧ Reg.EVR_THRESH < 0x28000)
    ∧ ((dev 2).capturedHi 64 Reg.EVR_NEXT_LO = none ∧ (rowAt Reg.EVR_NEXT_LO).any (·.pair) = true ∧ Reg.EVR_NEXT_LO % 4 = 0
      ∧ Reg.EVR_NEXT_LO < 0x28000)
    ∧ ({ dev 2 with hic := [(64, Reg.EVR_NEXT_HI, 7)] } : State).capturedHi 64 Reg.EVR_NEXT_HI = some 7
    ∧ (rowAt 0x2B000 = none ∧ ¬(0x28000 ≤ 0x2B000 ∧ 0x2B000 < 0x2A000))
    ∧ (2 ≠ 4 ∨ 0 % 4 ≠ 0) ∧ (4 ≠ 4 ∨ 2 % 4 ≠ 0) := by decide +kernel

theorem met_UngrantedAccessReadsZeroAndIsRecorded :
    (dev 2).reaches 1 = true ∧ 0x8000 % 4 = 0 ∧ 0x8000 < 0x10000 ∧ (dev 2).granted 1 0x8000 = false
      ∧ (dev 2).granted 1 0xFFFC = false := by decide

/-- `dev` with port 0 down. -/
def portOut : State := { dev 2 with hp := { (dev 2).hp with ports := [{ down := true }, {}, {}, {}] } }

/-- `dev` with a read in flight on port 0. -/
def reading (orphaned : Bool) : State :=
  { dev 2 with hp := { (dev 2).hp with ports := [{ reads := [⟨9, 0, 0, 0, orphaned⟩] }, {}, {}, {}] } }

theorem met_ConfigurationRequests :
    ((inState 1).devState = 1 ∧ (inState 2).devState = 2)
    ∧ ((dev 2).devState = 3 ∧ (dev 2).reaches (16 * (0 : Fin 4).val + (1 : Fin 16).val) = true ∧ (dev 2).reaches (16 * (0 : Fin 4).val) = true
      ∧ 15 < 16 ∧ (dev 2).reaches (16 * (3 : Fin 4).val + (15 : Fin 16).val) = false ∧ (3 : Fin 4).val < (dev 2).hp.ports.length
      ∧ 16 * (0 : Fin 4).val = (dev 2).manager ∧ (0 : Fin 16).val = 0 ∧ (1 : Fin 16).val ≠ 0) := by decide

theorem met_PortErrorsAndDown :
    ((dev 2).portLives 0 = true ∧ (inState 0).portLives 3 = false ∧ (dev 2).portDown 0 = false ∧ 0 < (dev 2).hp.ports.length)
    ∧ ({ dev 2 with hp := { (dev 2).hp with ports := [{ ecrcChk := true }, {}, {}, {}] } } : State).hp.ports.getD 0 {} = { ecrcChk := true }
    ∧ ((reading false).hp.readWaits = [] ∧ (reading false).portDown 0 = false ∧ ∃ r ∈ ((reading false).hp.ports.getD 0 {}).reads, r.tag = 9)
    ∧ ((dev 2).pdkState 0 = 2 ∧ (dev 1).pdkState 1 ≠ 2) := by decide

theorem met_CompletionsAndMessages :
    (((reading false).hp.ports.getD 0 {}).reads.find? (fun r => r.tag == 9) = some ⟨9, 0, 0, 0, false⟩)
    ∧ (((reading true).hp.ports.getD 0 {}).reads.find? (fun r => r.tag == 9) = some ⟨9, 0, 0, 0, true⟩
      ∧ 0 < (reading true).hp.ports.length ∧ (reading true).hp.readWaits = [])
    ∧ (let w : ReadWait := ⟨0, 0, 64, 0x1000, 64⟩;
      let s : State := { reading false with hp := { (reading false).hp with readWaits := [w] } };
      s.hp.readWaits = [w] ∧ w.ctx = 0 ∧ portOf (s.ctxPaddock w.ctx) = 0 ∧ s.mayMaster (s.ctxPaddock w.ctx) = true ∧ 9 < 256
        ∧ ((s.hp.ports.getD 0 {}).reads.filter fun r => r.ctx == w.ctx).length ≤ 64)
    ∧ (let s : State := withRegs [(Reg.MSIX_TABLE 1 3, 0)] { dev 2 with hp := { (dev 2).hp with msix := [(1, 0)] } };
      (1, 0) ∈ s.hp.msix ∧ s.evr.offered = [] ∧ s.portDown (portOf 1) = false ∧ s.unmasked 1 0 = true ∧ s.mayMaster 1 = true)
    ∧ ((dev 2).reaches 1 = true ∧ (dev 2).bit (Reg.PDK_STATE 1) 6 = true ∧ ((dev 2).fn 1).fnMask = false) := by decide

theorem met_LinksAndFunctionResets :
    (7 < 8 ∧ 31 < 32 ∧ (dev 2).portDown 0 = false ∧ ((dev 2).hp.ports.getD 0 {}).wakeLow = false
      ∧ (let s : State := { dev 2 with hp := { (dev 2).hp with ports := [{ wakeLow := true }, {}, {}, {}] } };
        (s.hp.ports.getD 0 {}).wakeLow = true ∧ s.held 0 = false)) ∧ (portOut.portDown 0 = true ∧ 0 < portOut.hp.ports.length)
    ∧ ((dev 2).reaches 1 = true ∧ (dev 2).reaches (16 * (0 : Fin 4).val) = true) := by decide

theorem met_BusMasterEnableClear :
    (dev 2).reaches 1 = true ∧ (dev 2).bit (Reg.PDK_STATE 1) 5 = true ∧ 1 ≠ (dev 2).manager ∧ (dev 2).pdkState 1 = 2
      ∧ (dev 1).reaches 1 = true ∧ (dev 1).pdkState 1 ≠ 2
      ∧ (dev 2).reaches 0 = true ∧ (dev 2).bit (Reg.PDK_STATE 0) 5 = true ∧ 0 = (dev 2).manager := by decide

/-- The hypotheses that every command of `PaddockStateCommands` shares. -/
theorem met_PaddockStateCommands_all :
    (dev 1).devState = 3 ∧ (dev 1).bit Reg.PDK_CMD_STATUS 0 = false ∧ fnCarried (dev 1).boot.hpWidth (dev 1).boot.hpVfs 1 = true
      ∧ (dev 1).present 1 = true ∧ (dev 1).bit (Reg.PDK_STATE 1) 5 = true ∧ 1 ≠ (dev 1).manager := by decide

theorem met_PaddockStateCommands :
    (dev 0).pdkState 1 = 0 ∧ (dev 1).pdkState 1 = 1 ∧ (dev 2).pdkState 1 = 2 ∧ (dev 3).pdkState 1 = 3 ∧ (dev 4).pdkState 1 = 4
    ∧ (∀ c ∈ (dev 3).ctxsOf' 1, (dev 3).ctxState c = 0) ∧ (dev 2).pdkState 1 ≠ 3 ∧ ((dev 3).fn 1).resetting = false
    ∧ (({ dev 3 with hp := { (dev 3).hp with fns := [(1, { resetting := true })] } } : State).fn 1).resetting = true := by
  decide +kernel

/-- `dev` with context 0 in slot 0 of paddock 1, in state `c` of Table 6.14. -/
def ctxDev (st c : Nat) : State := withRegs [(Reg.CQ_CTX_OWNER 0, 0x10001), (Reg.CQ_CTX_STATUS 0, c)] (dev st)

theorem met_contexts : (ctxDev 3 4).ctxsOf' 1 = [0] ∧ (ctxDev 3 4).ctxState 0 = 4 := by decide +kernel

/-- `dev` whose paddock 1 may hold CVUs and one context. -/
def devLim (st : Nat) : State := withRegs [(Reg.PDK_LIMIT 1, 0x04000001)] (dev st)

theorem met_PaddockGrantsAndContexts :
    ((devLim 2).devState = 3 ∧ (devLim 2).bit Reg.PDK_CMD_STATUS 0 = false ∧ 15 < 4096 ∧ (devLim 2).pdkReason 8 1 1 15 = 0
      ∧ (devLim 2).holds 1 1 15 = false)
    ∧ (withRegs [(Reg.PDK_MISC 1, 0x8000)] (devLim 1)).pdkReason 9 1 1 15 = 0 ∧ (dev 2).pdkReason 6 0 1 0 = 3
    ∧ (dev 2).paddockOp (.assignCtx 1 0) = some (6, 0, 1, 0)
    ∧ ((withRegs [(Reg.PDK_CMD_STATUS, 1)] (dev 2)).bit Reg.PDK_CMD_STATUS 0 = true) := by decide +kernel

theorem met_PaddockGrantsAndContexts_ctx :
    (devLim 2).pdkReason 6 0 1 0 = 0 ∧ (ctxDev 1 0).pdkReason 7 0 1 0 = 0 := by decide +kernel

theorem met_PaddockRemoveAndEnd :
    ((dev 4).pdkState 1 = 4 ∧ 1 ≠ (dev 4).manager)
    ∧ (let s : State := { dev 4 with hp := { (dev 4).hp with cmd := some [4, 0, 1, 0, 0] } };
      1 < 64 ∧ s.hp.cmd = some [4, 0, 1, 0, 0] ∧ s.hp.layerChanges = [])
    ∧ (let l : LayerChange := ⟨0, 3, 1, true, true, true⟩;
      let s : State := { dev 2 with hp := { (dev 2).hp with cmd := some [8, 0, 1, 3, 1], layerChanges := [l] } };
      s.hp.cmd = some [8, 0, 1, 3, 1] ∧ (∀ l ∈ s.hp.layerChanges, l.paddock = 1 → l.applied = true))
    ∧ (let s : State := { dev 4 with hp := { (dev 4).hp with cmd := some [2, 0, 1, 0, 0] } };
      s.pdkState 1 = 4 ∧ s.hp.cmd = some [2, 0, 1, 0, 0])
    ∧ (let s : State := { dev 3 with hp := { (dev 3).hp with cmd := some [2, 0, 1, 0, 0] } };
      s.hp.cmd = some [2, 0, 1, 0, 0] ∧ s.pdkReady 2 1 = false)
    ∧ (let s : State := { dev 4 with hp := { (dev 4).hp with cmd := some [1, 0, 1, 0, 0] } };
      1 ≠ 2 ∧ 1 ≠ 4 ∧ 1 ≠ 8 ∧ 1 ≠ 9 ∧ s.hp.cmd = some [1, 0, 1, 0, 0]) := by decide

theorem met_SelfQuiesce :
    (dev 2).reaches 1 = true ∧ 1 ≠ (dev 2).manager ∧ (dev 2).pdkState 1 = 2 ∧ (dev 2).reaches 0 = true ∧ 0 = (dev 2).manager
      ∧ (1 ≠ (dev 4).manager ∧ (dev 4).pdkState 1 ≠ 2) ∧ 0x5155 < 2 ^ 32 ∧ 0x5154 ≠ 0x5155 := by
  decide

/-- A directory with slot A trying and slot B good, and a device in RUN that started from slot `slot`. -/
def aDir : Dir := ⟨1, 0, 2, 1, 0⟩
def flashDev (slot : Nat) : State :=
  withRegs [(Reg.WH_STATUS, slot), (Reg.WH_FLASH_ADDR, 0x4400000), (Reg.WH_FLASH_LEN, 16)]
    { dev 2 with boot := { (dev 2).boot with dir := some aDir } }

/-- A device whose flash holds directory `d` in copy 0. -/
def dirDev (d : Dir) (s : State) : State :=
  { s with boot := { s.boot with flash := (List.range 32).map fun i => (i, d.bytes.getD i 0) } }

theorem met_WellheadLoads : (inState 2).devState = 2 ∧ (inState 2).boot.loaded = none ∧ (inState 2).dirInForce = none
    ∧ (let d : Dir := ⟨1, 1, 2, 1, 0⟩;
      (dirDev d (inState 2)).dirInForce = some (0, d) ∧ d.preferred < 2 ∧ d.slotState d.preferred ≠ 0 ∧ d.slotState d.preferred ≠ 2)
    ∧ (inState 3).devState ≠ 2 := by decide +kernel

theorem met_ConfirmAndReboot :
    ((flashDev 0).devState = 3 ∧ (flashDev 0).bit Reg.WH_STATUS 3 = false ∧ (flashDev 0).boot.dir = some aDir
      ∧ aDir.slotState ((flashDev 0).fld Reg.WH_STATUS 1 0) ≠ 1 ∧ (flashDev 0).boot.advance = false
      ∧ (dirDev aDir (flashDev 0)).dirInForce = some (0, aDir))
    ∧ (let s : State := withRegs [(Reg.WH_SEC_VER, 0x10000)] (flashDev 1);
      ({ s with boot := { s.boot with advance := true } } : State).boot.advance = true ∧ s.bit Reg.WH_SEC_VER 16 = true)
    ∧ (aDir.slotState ((flashDev 1).fld Reg.WH_STATUS 1 0) = 1 ∧ (flashDev 1).bit Reg.WH_STATUS 3 = false)
    ∧ ((flashDev 8).devState = 3 ∧ (flashDev 8).bit Reg.WH_STATUS 3 = true)
    ∧ (inState 4).devState = 4 ∧ (inState 5).devState = 5 ∧ 0x5A3C < 2 ^ 32 ∧ 0xA5C3 ≠ 0x5A3C := by decide +kernel

theorem met_FlashCommands :
    (flashDev 0).flashRefusal 1 ((flashDev 0).reg Reg.WH_FLASH_ADDR) ((flashDev 0).fld Reg.WH_FLASH_LEN 8 0) = none
    ∧ (flashDev 0).flashRefusal 2 ((flashDev 0).reg Reg.WH_FLASH_ADDR) 65536 = none
    ∧ (flashDev 0).flashRefusal 3 ((flashDev 0).reg Reg.WH_FLASH_ADDR) ((flashDev 0).fld Reg.WH_FLASH_LEN 8 0) = none
    ∧ (∀ p ∈ (flashDev 0).boot.undef, p.1 ≠ (flashDev 0).reg Reg.WH_FLASH_ADDR / 65536)
    ∧ (flashDev 0).flashRefusal 4 ((flashDev 0).reg Reg.WH_FLASH_ADDR) 0 = none
    ∧ (flashDev 0).boot.confirmWaits = false ∧ (flashDev 0).boot.dirWrites = []
    ∧ (flashDev 0).fld Reg.WH_FLASH_STATUS 23 16 = 0
    ∧ (withRegs [(Reg.WH_FLASH_STATUS, 1)] (flashDev 0)).flashRefusal 1 0x4400000 16 ≠ none
    ∧ (let s : State := { flashDev 0 with boot := { (flashDev 0).boot with cmd := some (2, 0x4400000, 16) } };
      s.boot.cmd = some (2, 0x4400000, 16) ∧ 2 ≠ 4)
    ∧ (let s : State := { flashDev 0 with boot := { (flashDev 0).boot with cmd := some (4, 0, 0), dirWrites := [(1, aDir)] } };
      s.boot.cmd = some (4, 0, 0) ∧ s.boot.dir = some aDir ∧ s.boot.dirWrites = [(1, aDir)]) := by decide

/-- A device whose DRAM holds 16 granules. -/
def ownDev (st : Nat) : State := withRegs [(Reg.MEM_CAPACITY, 16), (Reg.SYS_SECREQ_FIRST, 4), (Reg.SYS_SECREQ_COUNT, 2)] (dev st)

theorem met_OwnershipRequests :
    (ownDev 2).secReason 1 ((ownDev 2).fld Reg.SYS_SECREQ_FIRST 20 0) (reqCount ((ownDev 2).fld Reg.SYS_SECREQ_COUNT 14 0)) 1 = 0
    ∧ (let s := ((ownDev 4).setOwner 4 0x4001).setOwner 5 0x4001;
      s.secReason 2 (s.fld Reg.SYS_SECREQ_FIRST 20 0) (reqCount (s.fld Reg.SYS_SECREQ_COUNT 14 0)) 0 = 0
        ∧ s.secReason 3 (s.fld Reg.SYS_SECREQ_FIRST 20 0) (reqCount (s.fld Reg.SYS_SECREQ_COUNT 14 0)) 0 = 0) := by decide

theorem met_KeysAndRefusals :
    (inState 5).secReason 5 0 1 3 = 0 ∧ (inState 5).secReason 6 0 1 0 = 0 ∧ (dev 2).secReason 4 0 1 63 = 2
      ∧ (inState 5).secReason 4 0 1 0 = 9 := by decide

theorem met_WatchdogAndClaims :
    ((dev 2).koroftUp = true ∧ (dev 2).sec.paused = false ∧ (dev 2).recent.length < 2 ∧ (dev 2).pwr.trans = none)
    ∧ (2 ≤ ({ dev 2 with sec := { (dev 2).sec with expiries := [0, 0] } } : State).recent.length)
    ∧ ((withRegs [(Reg.SEC_WDT_STATUS, 0x10000)] (dev 2)).bit Reg.SEC_WDT_STATUS 16 = true ∧ 0 < 2 ^ 32 ∧ 0 ≠ 0xC0DE)
    ∧ ((dev 2).pwr.wake = none ∧ (dev 2).power ≠ 3 ∧ (dev 2).power ≠ 4 ∧ (withRegs [(Reg.PCR_STATUS, 0x60000000)] (dev 2)).power = 3
      ∧ ∃ b < 19, claimBit b = some 8)
    ∧ execBase 0 + 0 ≤ 0x400000 := by decide

/-- A device whose Koroft is held in reset. -/
def heldDev : State := withRegs [(Reg.SEC_WDT_STATUS, 0x10000)] (dev 2)

/-- `heldDev` with a measured copy of no bytes, its anchor that copy's digest, or another by `d`. -/
def anchored (d : Nat) : State :=
  withRegs ((List.range 12).map fun n => (Reg.SEC_ANCHOR n, digestWord (Config.sha384 []) n + d)) heldDev

theorem withRegs_boot (l : List (Nat × Nat)) (s : State) : (withRegs l s).boot = s.boot := by
  induction l generalizing s with
  | nil => rfl
  | cons p l ih => exact (ih _).trans rfl

theorem withRegs_reg_ne (l : List (Nat × Nat)) (s : State) (k : Nat) (h : ∀ p ∈ l, k ≠ p.1) : (withRegs l s).reg k = s.reg k := by
  induction l generalizing s with
  | nil => rfl
  | cons p l ih =>
    exact (ih _ fun q hq => h q (List.mem_cons_of_mem _ hq)).trans (State.setReg_reg_ne _ _ _ _ (h p List.mem_cons_self))

/-- Where a copy of no bytes is measured, its digest is what the anchor holds, or not. -/
theorem anchored_reg (d n : Nat) (h : n < 12) : (anchored d).reg (Reg.SEC_ANCHOR n) = (digestWord (Config.sha384 []) n + d) % 2 ^ 32 := by
  interval_cases n <;> simp [anchored, withRegs, List.range, List.range.loop, State.setReg_reg_ne, Reg.SEC_ANCHOR]

theorem anchored_matches (d : Nat) : (anchored d).reloadKoroft.anchorMatches =
    (List.range 12).all fun n => (anchored d).reg (Reg.SEC_ANCHOR n) == digestWord (Config.sha384 []) n := by
  have b : (anchored d).reloadKoroft.boot.codeLen = 0 := by
    rw [State.reloadKoroft, State.write_boot]
    change (anchored d).boot.codeLen = 0
    rw [anchored, withRegs_boot]
    decide
  have m : (anchored d).reloadKoroft.measured = [] := by rw [State.measured, b]; rfl
  have q : ∀ k, (anchored d).reloadKoroft.reg k = (anchored d).reg k := fun k => by
    rw [State.reloadKoroft, State.write_reg, State.reg, State.reg]
  simp only [State.anchorMatches, m, q]

theorem met_WatchdogAndClaims_anchor :
    (∀ d, (anchored d).devState = 3 ∧ (anchored d).bit Reg.SEC_WDT_STATUS 16 = true)
      ∧ (anchored 0).reloadKoroft.anchorMatches = true ∧ (anchored 1).reloadKoroft.anchorMatches = false := by
  have w : ∀ n, digestWord (Config.sha384 []) n < 2 ^ 32 := fun n => Nat.mod_lt _ (by decide)
  have k : ∀ d r, (∀ n < 12, r ≠ Reg.SEC_ANCHOR n) → (anchored d).reg r = heldDev.reg r := by
    intro d r h
    refine withRegs_reg_ne _ _ _ fun p hp => ?_
    obtain ⟨n, hn, e⟩ := List.mem_map.mp hp
    rw [← e]
    exact h n (List.mem_range.mp hn)
  refine ⟨fun d => ⟨?_, ?_⟩, ?_, ?_⟩
  · have h := k d Reg.SYS_STATE fun n _ => by simp only [Reg.SYS_STATE, Reg.SEC_ANCHOR]; omega
    have b : (anchored d).boot = heldDev.boot := by rw [anchored, withRegs_boot]
    simp only [State.devState, State.sysState, State.fld, h, b]
    decide
  · have h := k d Reg.SEC_WDT_STATUS fun n _ => by simp only [Reg.SEC_WDT_STATUS, Reg.SEC_ANCHOR]; omega
    simp only [State.bit, h]
    decide
  · rw [anchored_matches]
    simp only [List.all_eq_true, List.mem_range, beq_iff_eq]
    exact fun n h => by rw [anchored_reg 0 n h, Nat.add_zero, Nat.mod_eq_of_lt (w n)]
  · rw [anchored_matches]
    refine Bool.eq_false_iff.mpr fun h => ?_
    have := beq_iff_eq.mp (List.all_eq_true.mp h 0 (by decide))
    have h0 := w 0
    rw [anchored_reg 1 0 (by decide)] at this
    omega

theorem met_WatchdogAndClaims_copy :
    (∀ d, ((anchored d).eccFind .basin false codeBase (anchored d).boot.codeLen .clean).2 = false)
      ∧ (let s : State := { heldDev with boot := { heldDev.boot with codeLen := 8 } };
        (s.eccFind .basin false codeBase s.boot.codeLen .uncorrectable).2 = true ∧ s.devState = 3 ∧ s.bit Reg.SEC_WDT_STATUS 16 = true) := by
  refine ⟨fun d => ?_, by decide +kernel⟩
  have b : (anchored d).boot.codeLen = 0 := by rw [anchored, withRegs_boot]; decide
  rw [b]
  rfl

/-- A descriptor of type `typ` with the bytes listed. -/
def desc (typ : Nat) (l : List (Nat × Byte)) : List Byte :=
  BitVec.ofNat 8 typ :: (List.range 63).map fun i => ((l.find? fun e => e.1 == i + 1).map (·.2)).getD 0

/-- Byte 7, and byte 2, of a buffer address in DRAM granule 5: bytes `o` to `o + 7` of a descriptor. -/
def dramAt (o : Nat) : List (Nat × Byte) := [(o + 2, 5), (o + 7, 0x40)]

/-- `devMem` with context 0 ACTIVE in slot 0 of paddock 1, rings of 16 and 32 entries, and the job listed. -/
def jobDev (jobs : List Job) : State :=
  (withRegs [(Reg.CQ_CTX_OWNER 0, 0x10001), (Reg.CQ_CTX_STATUS 0, 1)] devMem).setCtx 0
    { sqBase := 2 ^ 62 + 0x50000, cqBase := 0x1000, cfg := 0x504, jobs := jobs }

/-- A job of type `typ` that waits to start. -/
def waiting (typ : Nat) (l : List (Nat × Byte)) : Job := { sq := 0, raw := desc typ l }

theorem met_DoorbellsAndContextRegisters :
    (let s := withRegs [(Reg.CQ_CTX_STATUS 0, 0)] (jobDev []);
      s.reaches 1 = true ∧ s.ctxAt 1 0 = some 0 ∧ s.pdkState 1 = 2 ∧ (s.ctx 0).configured = true ∧ 15 < (s.ctx 0).sqSize
        ∧ s.ctxState 0 = 0 ∧ (s.ctx 0).sqHead ≠ 15 ∧ (s.ctx 0).faulting = none ∧ s.bit (Reg.CQ_CTX_STATUS 0) 3 = false
        ∧ (s.ctx 0).fenced = false ∧ (s.ctx 0).sqSize ≤ 16 ∧ 31 < (s.ctx 0).cqSize ∧ (s.ctx 0).held = []
        ∧ (s.ctx 0).cqHead < (s.ctx 0).cqSize ∧ ctxValueBad .cfg 0x504 = false ∧ CtxReg.cfg ≠ .cls ∧ CtxReg.cfg ≠ .limit
        ∧ s.ctxAssigned 0 = true ∧ s.reaches (s.ctxPaddock 0) = true ∧ s.reaches s.manager = true)
    ∧ ((jobDev []).ctxState 0 ≠ 0 ∧ (CtxReg.cls = .cls ∨ CtxReg.cls = .limit)) := by decide +kernel

theorem met_DoorbellsAndContextRegisters_dropped :
    ((ctxDev 3 0).reaches 1 = true ∧ (ctxDev 3 0).ctxAt 1 0 = some 0 ∧ (ctxDev 3 0).pdkState 1 ≠ 2)
    ∧ ((ctxDev 2 0).pdkState 1 = 2 ∧ ((ctxDev 2 0).ctx 0).configured = false)
    ∧ ((jobDev []).pdkState 1 = 2 ∧ ((jobDev []).ctx 0).configured = true ∧ ((jobDev []).ctx 0).sqSize ≤ 16)
    ∧ ((ctxDev 2 0).ctxState 0 = 0 ∧ (ctxDev 2 0).ctxAssigned 0 = true ∧ (ctxDev 2 0).reaches ((ctxDev 2 0).ctxPaddock 0) = true
      ∧ ctxValueBad .cfg 0xFFFFFFFF = true) := by decide +kernel

theorem met_ContextOperations :
    ((jobDev []).opReaches .paddock 0 = none ∧ (jobDev []).opReaches .manager 0 = none ∧ (jobDev []).ctxState 0 = 1
      ∧ ((jobDev []).ctx 0).faulting = none ∧ ((jobDev []).ctx 0).sqHead = ((jobDev []).ctx 0).tail)
    ∧ (withRegs [(Reg.CQ_CTX_STATUS 0, 4)] (jobDev [])).ctxState 0 = 4
    ∧ ((withRegs [(Reg.CQ_CTX_STATUS 0, 3)] (jobDev [])).ctxState 0 = 3 ∧ ((jobDev []).ctx 0).idleAfter = false
      ∧ ((jobDev []).ctx 0).resetAfter = false)
    ∧ (let s := (withRegs [(Reg.CQ_CTX_STATUS 0, 4)] (jobDev [])).setCtx 0 { (jobDev []).ctx 0 with tail := 1, resetAfter := true };
      s.opReaches .paddock 0 = none ∧ s.ctxState 0 = 4 ∧ (s.ctx 0).sqHead ≠ (s.ctx 0).tail ∧ (s.ctx 0).faulting = none
        ∧ s.bit (Reg.CQ_CTX_STATUS 0) 3 = false ∧ (s.ctx 0).fenced = false ∧ (s.ctx 0).resetAfter = true)
    ∧ ((ctxDev 3 0).ctxAssigned 0 = true ∧ (ctxDev 3 0).reaches ((ctxDev 3 0).ctxPaddock 0) = true
      ∧ (ctxDev 3 0).pdkState ((ctxDev 3 0).ctxPaddock 0) ≠ 2 ∧ (dev 2).reaches (dev 2).manager = true ∧ (dev 2).ctxAssigned 0 = false)
    := by decide +kernel

theorem met_FencesAndMarks :
    ((jobDev [waiting 4 []]).toStart 0 4 = some (waiting 4 []) ∧ (waiting 4 []).f 0x18 8 ≤ (jobDev []).fence ((waiting 4 []).f 0x10 2 % 4096))
    ∧ (let j := waiting 4 [(0x18, 1)];
      (jobDev [j]).toStart 0 4 = some j ∧ (jobDev [j]).fence (j.f 0x10 2 % 4096) < j.f 0x18 8)
    ∧ (let j : Job := { waiting 4 [] with started := true };
      ((jobDev [j]).ctx 0).jobs.find? (fun j => j.started && j.typ == 4) = some j)
    ∧ ((jobDev [waiting 5 []]).toStart 0 5 = some (waiting 5 []) ∧ (jobDev [waiting 12 []]).toStart 0 12 = some (waiting 12 []))
    ∧ ((2 ^ 31).testBit 31 = true ∧ (jobDev []).fence 0 ≤ (jobDev []).reg64 Reg.CQ_FENCE_SET_LO Reg.CQ_FENCE_SET_HI) := by
  decide +kernel

theorem met_JobEndWritesEntry :
    let s := jobDev [waiting 12 []];
    s.job 0 0 = some (waiting 12 []) ∧ s.jjob 0 0 = none ∧ s.cmp.commits = []
      ∧ spaceOf ((s.ctx 0).cqBase + 32 * (s.ctx 0).cqTail) = .host ∧ s.mayMaster (s.ctxPaddock 0) = true ∧ (s.ctx 0).held = []
      ∧ (s.ctx 0).cqUsed + 1 < (s.ctx 0).cqSize ∧ (s.ctx 0).cqTail + 1 < (s.ctx 0).cqSize := by decide +kernel

theorem met_DescriptorsAndJobStarts_fetch :
    let s := (({ jobDev [] with mem := { devMem.mem with dram := [(0x50000, 12)] } } : State)).setCtx 0
      { sqBase := 2 ^ 62 + 0x50000, cqBase := 0x1000, cfg := 0x504, tail := 1 };
    s.fetches 0 = true ∧ spaceOf ((s.ctx 0).sqBase + 64 * (s.ctx 0).sqHead) = .dram
      ∧ s.jobRefused 0 0 ((s.ctx 0).sqBase + 64 * (s.ctx 0).sqHead) 64 false = none
      ∧ s.poisonIn ((s.ctx 0).sqBase + 64 * (s.ctx 0).sqHead) 64 = none
      ∧ (match s.admitChks 0 (s.bytes .dram (localOf ((s.ctx 0).sqBase + 64 * (s.ctx 0).sqHead)) 64) (s.ctx 0).sqHead [] with
        | .ok none => true | _ => false) = true := by decide +kernel

theorem met_DescriptorsAndJobStarts_host :
    let s := (jobDev []).setCtx 0 { sqBase := 0x50000, cqBase := 0x1000, cfg := 0x504, tail := 1 };
    let bs := desc 12 [];
    s.fetches 0 = true ∧ spaceOf ((s.ctx 0).sqBase + 64 * (s.ctx 0).sqHead) = .host ∧ s.mayMaster (s.ctxPaddock 0) = true ∧ bs.length = 64
      ∧ (match s.admitChks 0 bs (s.ctx 0).sqHead [] with | .ok none => true | _ => false) = true := by decide +kernel

theorem met_DescriptorsAndJobStarts_copy :
    let j := waiting 3 (dramAt 0x10 ++ dramAt 0x18 ++ [(0x20, 64)]);
    (jobDev [j]).toStart 0 3 = some j ∧ ((jobDev [j]).copyReach 0 j).2 = none ∧ spaceOf (j.f 0x10 8) ≠ .host ∧ j.f 0x24 1 % 2 = 0
      ∧ (jobDev [waiting 1 []]).toStart 0 1 = some (waiting 1 []) ∧ (jobDev [waiting 2 []]).toStart 0 2 = some (waiting 2 [])
      ∧ (jobDev []).liveJets ≠ 0
      ∧ (let f := waiting 3 (dramAt 0x18 ++ [(0x20, 64), (0x24, 1)]);
        (jobDev [f]).toStart 0 3 = some f ∧ ((jobDev [f]).copyReach 0 f).2 = none ∧ f.f 0x24 1 % 2 = 1) := by decide +kernel

theorem met_DescriptorsAndJobStarts_engines :
    (let j := waiting 6 [];
      (withRegs [(Reg.CMP_STATUS 0, 2 ^ 31)] (jobDev [j])).toStart 0 6 = some j ∧ (jobDev [j]).cmp.waiting = []
        ∧ (jobDev [j]).padPending 1 0 = false ∧ (withRegs [(Reg.CMP_STATUS 0, 2 ^ 31)] (jobDev [j])).bit (Reg.CMP_STATUS 0) 31 = true)
    ∧ ((jobDev [waiting 7 []]).toStart 0 7 = some (waiting 7 []) ∧ (jobDev []).lo.jobs = [])
    ∧ (let j := waiting 8 (dramAt 0x18 ++ [(0x12, 24)]);
      (jobDev [j]).toStart 0 8 = some j ∧ ((jobDev [j]).reach 0 0x18 (j.f 0x18 8) (j.f 0x12 2) false).2 = none)
    ∧ (let j := waiting 9 (dramAt 0x18 ++ [(0x12, 1)]);
      (jobDev [j]).toStart 0 9 = some j ∧ (j.f 0x11 1).testBit 0 = false ∧ (jobDev [j]).aud.plays = [] ∧ spaceOf (j.f 0x18 8) ≠ .host
        ∧ (List.range 513).all (fun n => ((jobDev [j]).reach 0 0x18 (j.f 0x18 8) n false).2 == none) = true)
    ∧ (let j := waiting 9 [(0x11, 1)];
      (jobDev [j]).toStart 0 9 = some j ∧ (j.f 0x11 1).testBit 0 = true ∧ ((jobDev [j]).captBuf (j.f 0x10 1 % 64)).primed = false)
    ∧ ((jobDev [waiting 10 []]).toStart 0 10 = some (waiting 10 []) ∧ ((jobDev []).hapCh 0).fifo.length < 4)
    ∧ (let j := waiting 11 (dramAt 0x18);
      (jobDev [j]).toStart 0 11 = some j ∧ j.f 0x11 1 % 2 = 0 ∧ (jobDev [j]).bit (Reg.CVU_STATUS 0) 0 = false
        ∧ (jobDev [j]).im.jobs = [] ∧ spaceOf (j.f 0x18 8) ≠ .host) := by decide +kernel

theorem met_EnginesEndJobs :
    (let j : Job := { waiting 3 (dramAt 0x10 ++ dramAt 0x18 ++ [(0x20, 64)]) with started := true };
      ((jobDev [j]).ctx 0).jobs.find? (fun k => k.started && k.typ == 3 && !(jobDev [j]).readsWait 0 k.sq) = some j ∧ ((jobDev [j]).copyReach 0 j).2 = none)
    ∧ (let j : Job := { waiting 3 [] with started := true };
      let s : State := { jobDev [j] with clk := { (jobDev [j]).clk with stm := 10 ^ 12 } };
      (s.ctxState 0 = 1 ∨ s.ctxState 0 = 2)
        ∧ (s.ctx 0).jobs.find? (fun j => j.started && decide (s.runLimit 0 * 1000000 ≤ s.ranNs 0 j)) = some j)
    ∧ (let s : State := { jobDev [waiting 9 []] with aud := { (jobDev []).aud with plays := [⟨0, 0, 0, 0, []⟩], caps := [⟨0, 0, 0, 0, true⟩] } };
      s.aud.plays.find? (fun p => p.ctx == 0) = some ⟨0, 0, 0, 0, []⟩ ∧ s.aud.caps.find? (fun p => p.ctx == 0) = some ⟨0, 0, 0, 0, true⟩
        ∧ s.job 0 0 = some (waiting 9 []) ∧ (waiting 9 []).f 0x14 4 ≤ 0)
    ∧ (let j := waiting 11 (dramAt 0x18 ++ [(0x14, 8)]);
      let s : State := { jobDev [j] with im := { (jobDev []).im with jobs := [⟨0, 0, 0, true, 0⟩] } };
      s.im.jobs.find? (fun k => k.ctx == 0 && k.running) = some ⟨0, 0, 0, true, 0⟩ ∧ s.job 0 0 = some j
        ∧ (s.reach 0 0x18 (j.f 0x18 8) (j.f 0x14 4) false).2 = none ∧ (j.f 0x11 1).testBit 1 = false)
    ∧ (let j : Job := { waiting 3 (dramAt 0x10 ++ [(0x1A, 0x40), (0x1F, 0x80)]) with started := true };
      let s := (jobDev [j]).setOwner 0x100040 0x4001;
      j.f 0x24 1 % 2 = 0 ∧ s.mem.bad = [] ∧ spaceOf (j.f 0x10 8) = .dram ∧ spaceOf (j.f 0x18 8) = .basin
        ∧ s.refusedIn .job (s.ctxPaddock 0) true .basin (localOf (j.f 0x18 8)) 64 = none) := by decide +kernel

/-- A team of a stage at its first instruction, all sixteen lanes present. -/
def aTeam (stage : Nat) (regs : List (Nat × Nat)) : Team :=
  { stage := stage, entry := 0, pc := 0, present := 0xFFFF, regs := regs,
    quads := (List.range 4).map fun q => ⟨2 * q, 0, 0, [1, 1, 1, 1], []⟩ }

/-- The job that jet 0 runs: a writable buffer of 64 bytes and a texture of one texel in DRAM granule 5. -/
def aJob (stage : Nat) : JetJob :=
  { ctx := 0, sq := 0, render := stage != 3
    pass := { colours := [{ fmt := 0x02 }], varyings := 4, aw := 64, ah := 64 }
    prog := { addr := 2 ^ 62 + 0x50000, codeBytes := 64, constBytes := 64, entries := [{ stage := stage, vregs := 8, flags := 0xB, shared := 64 }] }
    slots := [.buffer true 64 (2 ^ 62 + 0x51000), .texture { fmt := 0x02, surf := 2 ^ 62 + 0x52000, stride := 64 }] }

/-- What the jet holds by stage. -/
def aHold (stage : Nat) : Holds :=
  match stage with
  | 1 => .batch 0 0
  | 2 => .tile { item := ⟨0, 0, true, 0, 0⟩ }
  | _ => .groups 0 0 [{ idx := 0, start := 0 }]

/-- A device whose jet 0 is about to issue the instruction `w` for a team with these registers. -/
def jetDev (stage w : Nat) (regs : List (Nat × Nat)) : State :=
  let s := withRegs [(Reg.JA_STATUS, 2 ^ 31)] (jobDev [{ waiting (if stage = 3 then 2 else 1) [] with started := true }])
  ({ s with ja := { s.ja with jobs := [aJob stage] } }).setJet 0
    { holds := aHold stage, teams := [(0, aTeam stage regs)], icache := [(0, 0, 0, leBytes 8 w ++ List.replicate 56 0)] }

/-- A legal word of opcode `op`, built from the fields of Table 9.8 by what Table 9.11 says that it takes. -/
def legalWord (op : Nat) : Nat :=
  match opSpec op with
  | none => 0
  | some sp =>
    let src := fun (k : Src) (v p : Nat) => match k with | .none => 0 | .gen => v | .p => p | .s => 0x81 | .v => 0
    let d := match sp.dst with | .none => 0 | .vs | .data => 2 | .p => 0xC1 | .s => 0x80
    let b := if op = 0x74 then 0x82 else src sp.b 6 0xC3
    op * 2 ^ 56 + (if sp.form = 2 then 2 ^ 51 else 0) + d * 2 ^ 40 + src sp.a 0 0xC2 * 2 ^ 32
      + (if sp.form = 2 then 0 else b * 2 ^ 24 + src sp.c 7 0xC4 * 2 ^ 16) + (if sp.slot = 2 then 1 else 0)

/-- The stage in which the opcode may stand. -/
def legalStage (op : Nat) : Nat := ((opSpec op).elim [] (·.stages)).headD 3

/-- The opcodes of Table 9.11. -/
def opcodes : List Nat := (List.range 256).filter fun op => (opSpec op).isSome

/-- `.go` for the team in slot 0 of jet 0. -/
def goes (op : Nat) : Bool :=
  match (jetDev (legalStage op) (legalWord op) []).ready 0 0 op false with
  | .go _ _ _ => true
  | _ => false

theorem met_jet_opcodes : opcodes.length = 86 := by decide +kernel

/-- Every instruction of Table 9.11 can issue: the hypothesis that the statements about jets share, and the only one of
JetIntegerInstructions, JetFloatInstructions and JetPredicateAndLaneInstructions. -/
theorem met_jets_ready : opcodes.all goes = true := by decide +kernel

/-- An instruction with bad check bits, one with a reserved opcode, and one that is not the team's. -/
theorem met_jets_waits :
    (jetDev 3 (legalWord 0x11) []).ready 0 0 0x11 true = .fetchError
    ∧ (jetDev 3 (0x08 * 2 ^ 56) []).ready 0 0 0 false = .illegal (aJob 3) (aTeam 3 []) 2
    ∧ (jetDev 3 (legalWord 0x11) []).ready 0 0 0x12 false = .no := by decide +kernel

/-- The instruction at hand. -/
def ins (op : Nat) : Ins := insOf (legalWord op)

theorem met_JetMemoryInstructions :
    (let s := jetDev 3 (legalWord 0x80) [];
      (aJob 3).bufferSlot (ins 0x80) = (2 ^ 62 + 0x51000, 64) ∧ accessBytes (ins 0x80).mod = 1
        ∧ (∀ l ∈ (aTeam 3 []).lanes (ins 0x80), (aTeam 3 []).offset (ins 0x80) 1 l + 1 ≤ 64)
        ∧ s.rangesStop 0 false (((aTeam 3 []).lanes (ins 0x80)).map fun l => (2 ^ 62 + 0x51000 + (aTeam 3 []).offset (ins 0x80) 1 l, 1)) = none
        ∧ s.rangesStop 0 true (((List.range 16).filter ((aTeam 3 []).active (ins 0x81))).map fun l =>
          (2 ^ 62 + 0x51000 + (aTeam 3 []).offset (ins 0x81) 1 l, 1)) = none ∧ s.mem.bad = [])
    ∧ (let t := aTeam 3 ((List.range 16).map fun l => (l, 64));
      (∀ l ∈ t.lanes (ins 0x80), 64 < t.offset (ins 0x80) 1 l + 1) ∧ t.lanes (ins 0x80) ≠ [] ∧ (aJob 3).rangeDone = false)
    ∧ (let t : Team := { aTeam 3 [] with present := 1 };
      t.lanes (ins 0x82) = [0] ∧ t.offset { ins 0x82 with mod := 2 } 4 0 + 4 ≤ 64 ∧ t.lanes (ins 0x92) = [0])
    ∧ (((jetDev 3 (legalWord 0x91) []).jet 0).holds = .groups 0 0 [{ idx := 0, start := 0 }]
      ∧ ∃ w ∈ [({ idx := 0, start := 0 } : Wg)], w.idx = (aTeam 3 []).wg)
    ∧ ((({ aTeam 3 [] with flights := [⟨[2], [(32, 1)]⟩] } : Team).flights[0]? = some ⟨[2], [(32, 1)]⟩) ∧ (aTeam 3 []).flights[0]? = none)
    := by decide +kernel

theorem met_JetTextureTileAndOutputInstructions :
    (let s := jetDev 2 (legalWord 0xA5) [];
      s.rangesStop 0 false (s.tapRanges [] ((aJob 2).texSlot (ins 0xA5)) (((aTeam 2 []).lanes (ins 0xA5)).filterMap
        ((aTeam 2 []).fetchTap (ins 0xA5) ((aJob 2).texSlot (ins 0xA5))))) = none)
    ∧ (let s := jetDev 2 (legalWord 0xB0) [];
      (s.jet 0).holds = .tile { item := ⟨0, 0, true, 0, 0⟩ } ∧ (s.jet 0).olderMeets 0 (aTeam 2 []) true = false
        ∧ ((aJob 2).entryOf 0).early = false ∧ ({ stage := 2 } : Entry).early = true)
    ∧ (ins 0xC0).x % 64 < (aJob 2).pass.varyings ∧ texAddr 0 4 3 = some 3 := by decide +kernel

theorem met_JetControlInstructions :
    ((∃ q ∈ (aTeam 2 []).dropped (ins 0x05), ∃ m ∈ q.cov, m ≠ 0) ∨ ∀ q ∈ (aTeam 2 []).dropped (ins 0x05), ∀ m ∈ q.cov, m = 0)
    ∧ (aTeam 3 []).stage = 3 ∧ (aTeam 1 []).stage = 1
    ∧ (∀ v ∈ ((jetDev 3 (legalWord 0x06) []).jet 0).teams, v.1 ≠ 0 → v.2.ended = true)
    ∧ (aTeam 3 []).active (ins 0x01) 0 = true := by decide +kernel

/-- Two teams of different primitives over the same pixels in a tile, the first still in flight. -/
def twoTeams : Jet := { holds := aHold 2, teams := [(0, aTeam 2 []), (1, { aTeam 2 [] with prim := 1 })] }

/-- More clauses of JetMemoryInstructions: a refused load and store, one lane's atomic, constants inside their area. -/
theorem met_jet_memory_more :
    (let s := jetDev 3 (legalWord 0x81) []; let t := aTeam 3 [];
      let runs := ((List.range 16).filter (t.active (ins 0x81))).map fun l => (2 ^ 62 + 0x51000 + t.offset (ins 0x81) 1 l, t.storeBytes (ins 0x81) 1 l)
      s.runsRefused 0 runs = none ∧ (s.jobRuns 0 runs).2 = none ∧ s.runsRefused 0 [(2 ^ 62 + 0x61000, [1])] ≠ none)
    ∧ (let s := jetDev 3 (legalWord 0x80) []; (s.rangesStop 0 false [(2 ^ 62 + 0x61000, 1)]).isSome = true)
    ∧ (let s := jetDev 3 (legalWord 0x82) []; s.rangesStop 0 true [(2 ^ 62 + 0x51000, 4)] = none ∧ s.rangesStop 0 false [(2 ^ 62 + 0x51000, 4)] = none)
    ∧ (let s := jetDev 3 (legalWord 0x83) []; let t := aTeam 3 [];
      (∀ l ∈ t.lanes (ins 0x83), t.offset (ins 0x83) 1 l + 1 ≤ (aJob 3).prog.constBytes) ∧ accessBytes (ins 0x83).mod = 1
      ∧ s.rangesStop 0 false ((t.lanes (ins 0x83)).map fun l => ((aJob 3).prog.addr + (aJob 3).prog.constOff + t.offset (ins 0x83) 1 l, 1)) = none)
    := by decide +kernel

/-- More clauses of JetTextureTileAndOutputInstructions. -/
theorem met_jet_tile_more :
    (let s := jetDev 2 (legalWord 0xA1) []; let x := (aJob 2).texSlot (ins 0xA1);
      let all := ((aTeam 2 []).lanes (ins 0xA1)).flatMap fun l => ((aTeam 2 []).taps (ins 0xA1) x .level l).getD []
      s.rangesStop 0 false (s.tapRanges [] x all) = none ∧ s.tapMalformed [] x all = [] ∧ all ≠ [])
    ∧ twoTeams.olderMeets 1 { aTeam 2 [] with prim := 1 } true = true ∧ twoTeams.olderMeets 1 { aTeam 2 [] with prim := 1 } false = true
    ∧ twoTeams.olderMeets 0 (aTeam 2 []) false = false
    ∧ (0 < 64 ∧ (aJob 2).pass.varyings ≤ ({ ins 0xC0 with x := 5 } : Ins).x % 64 ∧ (ins 0xC0).scalar = false) := by decide +kernel

/-- More clauses of JetControlInstructions. -/
theorem met_jet_control_more :
    (let s := jetDev 1 (legalWord 0x04) []; ∀ v ∈ (s.jet 0).teams, v.1 ≠ 0 → v.2.ended = true)
    ∧ (∃ v ∈ ({ teams := [(0, aTeam 1 []), (1, aTeam 1 [])] } : Jet).teams, v.1 ≠ 0 ∧ v.2.ended = false)
    ∧ (∃ v ∈ ({ teams := [(0, aTeam 3 []), (1, aTeam 3 [])] } : Jet).teams,
      v.1 ≠ 0 ∧ v.2.stage = 3 ∧ v.2.wg = (aTeam 3 []).wg ∧ v.2.waiting = false ∧ v.2.ended = false)
    ∧ (aJob 2).pass.depth = none ∧ (({ depth := some {} } : Pass).depth.isSome = true ∧ (aTeam 2 []).stage = 2) := by decide +kernel

/-- The job of stage 3's jets device with another record. -/
def jaDev (j : JetJob) (f : Ja → Ja) : State :=
  let s := withRegs [(Reg.JA_CTRL, 1), (Reg.JA_SIPHON, 1), (Reg.JA_SLACK_MIN, 8)] (jetDev 3 0 [])
  { s with ja := f { s.ja with jobs := [j], jets := List.replicate 64 {} } }

/-- A primitive on tile 0 of a 64 by 64 render area: the triangle of pixels (0, 0), (8, 0), (0, 8). -/
def aPrim : Prim :=
  { vs := [{}, { sx := 2048 }, { sy := 2048 }], draw := { x1 := 64, y1 := 64 } }

theorem met_JetGeometryPhase_home :
    (let j : JetJob := { aJob 1 with phase := 1 };
      let s := jaDev j id;
      s.ja.jobs = [j] ∧ j.home = none ∧ s.ctxClass j.ctx ≠ 2 ∧ s.jaOn = true ∧ s.bit Reg.JA_CTRL 0 = true ∧ s.power ≠ 2
        ∧ s.ja.strs.length = 8 ∧ (s.str 0).dry = false ∧ s.heldStr 0 = false)
    ∧ (let s := jaDev { aJob 1 with phase := 1 } fun a => { a with strs := a.strs.set 0 { dry := true } };
      (s.str 1).dry = false ∧ s.heldStr 1 = false ∧ ∀ m < 1, (s.str m).dry = true ∨ s.heldStr m = true)
    ∧ (jaDev { aJob 3 with phase := 4 } id).jaOn = true ∧ ∀ j ∈ (jaDev { aJob 3 with phase := 4 } id).ja.jobs, j.phase ≠ 1 := by
  decide +kernel

theorem met_JetGeometryPhase_draw :
    (let j : JetJob := { aJob 1 with phase := 2, home := some 0, pass := { (aJob 1).pass with draws := 2, draw := 2 ^ 62 + 0x53000 } };
      let s := jaDev j id;
      let rec' := fun (l : List Host.Cell) => parseDraw (({ s with mem := { s.mem with dram := l } } : State).bufRead [] (j.pass.draw + 32 * j.drawNo) 32);
      s.jjob 0 0 = some j ∧ j.drw = none ∧ j.drawNo < j.pass.draws ∧ s.rangesStop 0 false [(j.pass.draw + 32 * j.drawNo, 32)] = none
        ∧ (firstChk (drawChks { j with prog := { j.prog with entries := j.prog.entries ++ j.prog.entries } } (rec' [])) = none ∧ (rec' []).count = 0)
        ∧ (rec' [(0x53004, 3)]).count = 3 ∧ (firstChk (drawChks j (rec' [(0x53000, 9)]))).map (fun k => (k.reason, k.off)) = some (4, 0))
    ∧ (let d : Draw := { count := 50, flags := 1, index := 2 ^ 62 + 0x53000 };
      let j : JetJob := { aJob 1 with phase := 2, home := some 0, drw := some d };
      let s := jaDev j id;
      s.jjob 0 0 = some j ∧ j.spilling = false ∧ s.ja.jets.length = 64 ∧ (s.takers (s.serves (j.home.getD 0)) 0 0).head? = some 0
        ∧ j.batches = [] ∧ 0 < min 48 (d.count - j.vpos) ∧ (∃ v ∈ s.vertexIds [] d j.vpos 48, v ≠ none)
        ∧ s.rangesStop 0 false [(d.index + (d.first + j.vpos) * d.indexSize, 48 * d.indexSize)] = none) := by decide +kernel

theorem met_JetGeometryPhase_bins :
    (let j : JetJob := { aJob 1 with phase := 2, home := some 0, pend := [.ready aPrim], low := 0, high := 0x10000 };
      (jaDev j id).jjob 0 0 = some j ∧ j.prims.length < 2 ^ 24 ∧ j.pass.overlapped aPrim = [(0, false)]
        ∧ recordSize j.pass.varyings + 64 * ((j.pass.overlapped aPrim).filter fun t => (j.head t.1).opens).length ≤ j.high - j.low
        ∧ ({ j with high := 0 } : JetJob).high - j.low < recordSize j.pass.varyings)
    ∧ (let p : Pass := { (aJob 1).pass with aw := 32, ah := 32 };
      let j : JetJob := { aJob 1 with phase := 2, home := some 0, heads := [(0, ⟨[(0, false)], []⟩)], pass := p };
      let s := jaDev j id;
      s.jjob 0 0 = some j ∧ j.drw = none ∧ j.pass.draws ≤ j.drawNo ∧ j.render = true ∧ s.homeJob 0 = some j ∧ j.total = 1
        ∧ (∀ t < j.total, (j.head t).entries ≠ []) ∧ s.serves 0 < s.ja.strs.length)
    ∧ (let p : Pass := { (aJob 1).pass with aw := 32, ah := 32 };
      let j : JetJob := { aJob 1 with spilling := true, phase := 3, home := some 0, pass := p, written := [0] };
      j.roundDone = true) := by decide +kernel

theorem met_JetWorkItems_dispatch :
    (let i : Item := ⟨0, 0, false, 0, 0⟩;
      let s := jaDev { aJob 3 with phase := 4, home := some 0 } fun a => { a with strs := a.strs.set 0 { queue := [i] } };
      s.jaOn = true ∧ (s.str 0).queue = [i] ∧ s.takerOf 0 i = some 0 ∧ s.jjob 0 0 ≠ none)
    ∧ (let i : Item := ⟨0, 0, true, 0, 0⟩;
      let j : JetJob := { aJob 2 with phase := 3, home := some 0, pass := { (aJob 1).pass with colours := [{ fmt := 2, load := 1 }] } };
      let s := jaDev j fun a => { a with strs := a.strs.set 0 { queue := [i] } };
      s.takerOf 0 i = some 0 ∧ s.jjob 0 0 = some j ∧ ∀ a ∈ j.pass.atts, j.loadOp a.2 ≠ 0)
    ∧ (let q := (List.range 4).map fun n => (⟨0, 0, false, n, 0⟩ : Item);
      let s := jaDev { aJob 3 with phase := 4, home := some 1 } fun a => { a with strs := a.strs.set 1 { queue := q } };
      s.bit Reg.JA_SIPHON 0 = true ∧ s.jetIdle 0 = true ∧ (s.jet 0).lent = none ∧ (s.str 0).queue = [] ∧ (s.str 0).resume = []
        ∧ (s.str 0).dry = false ∧ s.victim 0 = some 1 ∧ q.drop (q.length - q.length / 2) = [⟨0, 0, false, 2, 0⟩, ⟨0, 0, false, 3, 0⟩]
        ∧ s.mayTake 0 ⟨0, 0, false, 2, 0⟩ = true) := by decide +kernel

theorem met_JetWorkItems_retire :
    (let run : TileRun := { item := ⟨0, 0, true, 0, 0⟩ };
      let s := (jaDev { aJob 2 with phase := 3, home := some 0 } id).setJet 0 { holds := .tile run };
      (s.jet 0).holds = .tile run ∧ (s.jet 0).teams = [] ∧ s.halves 0 < 2 ∧ (s.jet 0).retired = false ∧ s.jjob 0 0 ≠ none
        ∧ 58 ≤ s.liveJets ∧ 2 ≤ s.liveIn 0 ∧ s.serves (s.jet 0).origin < s.ja.strs.length)
    ∧ (let o : TileOut := { jet := 0, item := ⟨0, 0, true, 0, 0⟩, buf := [], dirty := [] };
      let p : Pass := { (aJob 2).pass with aw := 2, ah := 1, colours := [{ fmt := 0x02, surf := 2 ^ 62 + 0x50000, stride := 256 }] };
      let j : JetJob := { aJob 2 with phase := 3, home := some 0, todo := [1], pass := p };
      let s := jaDev j fun a => { a with strs := a.strs.set 0 { out := [o] } };
      let all := ((s.setStr 0 { s.str 0 with out := [] }).blockWrites [] j 0 o.buf o.dirty false).1 ++ j.rowWrites 0 o.buf false
        ++ ((s.setStr 0 { s.str 0 with out := [] }).blockWrites [] j 0 o.buf o.dirty false).2;
      (s.str 0).out = [o] ∧ s.jjob 0 0 = some j ∧ all.map (fun r => (r.1, r.2.length)) = [(2 ^ 62 + 0x50000, 4)]
        ∧ s.rangesStop 0 true (all.map fun r => (r.1, r.2.length)) = none)
    ∧ (let s := (jaDev { aJob 3 with phase := 4 } id).setJet 0
        { holds := .groups 0 0 [{ idx := 0, start := 0 }, { idx := 1, start := 0 }], teams := [(0, { aTeam 3 [] with ended := true }), (1, { aTeam 3 [] with wg := 1 })] };
      (∀ u ∈ (s.jet 0).teams, u.2.wg = 0 → u.2.ended = true) ∧ (∃ u ∈ (s.jet 0).teams, u.2.wg = 1 ∧ u.2.ended = false)) := by decide +kernel

theorem met_JetWorkItems_registers :
    State.reset.jaOn = false ∧ State.reset.ja.jobs = [] ∧ State.reset.reg Reg.JA_PRERETIRE_LO = 0 ∧ State.reset.reg Reg.JA_PRERETIRE_HI = 0
    ∧ (∃ j ∈ (jaDev { aJob 3 with phase := 4 } id).ja.jobs, 2 ≤ j.phase)
    ∧ (let s := jetDev 3 0 [];
      let j := aJob 3;
      (s.jet 0).holds.job = some (0, 0) ∧ s.jjob 0 0 = some j ∧ min 64 (j.prog.codeBytes - 64 * 0) = 64
        ∧ s.rangesStop 0 false [(j.prog.addr + j.prog.codeOff + 64 * 0, 64)] = none ∧ 7 / 8 = 0 ∧ 8 * (7 % 8) + 8 ≤ 64) := by decide +kernel

theorem met_DeadlineArbiter :
    (let j : JetJob := { aJob 3 with phase := 4, home := some 0, dl := some 5000, gx := 2 };
      let s := jaDev j id;
      s.ja.jobs = [j] ∧ s.clk.stm < 5000 ∧ s.pendingJob j = true ∧ 5000 - s.clk.stm < s.fld Reg.JA_SLACK_MIN 15 0 * 1000
        ∧ s.fld Reg.JA_SLACK_MIN 15 0 * 1000 ≤ 8000 - s.clk.stm ∧ s.pendingJob { j with phase := 5, next := j.total } = false)
    ∧ (let ws : List Wg := [{ idx := 0, start := 0, saving := true }];
      let s := (jaDev { aJob 3 with phase := 4 } id).setJet 0 { holds := .groups 0 0 ws, preempt := some { slot := 0, decided := 0 } };
      let t := s.setJet 0 { s.jet 0 with preempt := some { slot := 0, decided := 0, arrived := some 0 } };
      (s.jet 0).preempt = some { slot := 0, decided := 0 } ∧ (s.jet 0).holds = .groups 0 0 ws ∧ (∀ w ∈ ws, w.saving = true)
        ∧ (t.jet 0).preempt = some { slot := 0, decided := 0, arrived := some 0 } ∧ t.ja.strs.length = 8)
    ∧ (let s := (jaDev { aJob 3 with phase := 5, next := 1 } id).setJet 0 { lent := some (0, 0) };
      let t : State := { s with ja := { s.ja with target := some (0, 0) } };
      (s.jet 0).lent = some (0, 0) ∧ (s.jet 0).holds = .nothing ∧ s.ja.target ≠ some (0, 0) ∧ t.ja.target = some (0, 0)
        ∧ (t.jjob 0 0).all (fun j => t.undispatched j == 0) = true)
    ∧ (let v : Saved := ⟨0, 0, 0, [{ idx := 0, start := 0 }], []⟩;
      let s := jaDev { aJob 3 with phase := 4 } fun a => { a with strs := a.strs.set 0 { resume := [v] } };
      (s.str (0 / 8)).resume = [v] ∧ s.jaOn = true ∧ s.jetIdle 0 = true ∧ (s.jet 0).lent = none ∧ s.halves 0 = 0) := by decide +kernel

/-- The hypotheses about troughs, the index fetch and unstarted batches in JetGeometryPhase. -/
theorem met_JetGeometryPhase_troughs :
    (let j : JetJob := { aJob 1 with phase := 2, home := some 0, pend := [.ready aPrim], low := 0, high := 0x10000, batches := [⟨[some 0], some 0, none⟩] };
      let s := jaDev j id;
      s.troughBadWord ((j.pass.overlapped aPrim).map fun t => s.headRange j t.1) = none ∧ j.spilling = false ∧ (∀ b ∈ j.batches, b.jet ≠ none ∨ b.outs ≠ none)
        ∧ s.jobRefused 0 0x10 (2 ^ 62 + 0x53000) 6 false = none ∧ spaceOf 0x53000 = .host)
    ∧ (let j : JetJob := { aJob 1 with phase := 2, home := some 0, pend := [.ready aPrim], high := 0 };
      j.high - j.low < recordSize j.pass.varyings + 64 * ((j.pass.overlapped aPrim).filter fun t => (j.head t.1).opens).length) := by decide +kernel

/-- The hypotheses about write-out, retirement and errors in JetWorkItems. -/
theorem met_JetWorkItems_writes :
    (let o : TileOut := { jet := 0, item := ⟨0, 0, true, 0, 0⟩, buf := [], dirty := [] };
      let p : Pass := { (aJob 2).pass with aw := 2, ah := 1, colours := [{ fmt := 0x02, surf := 2 ^ 62 + 0x50000, stride := 256 }] };
      let j : JetJob := { aJob 2 with phase := 3, home := some 0, todo := [1], pass := p };
      let s := jaDev j fun a => { a with strs := a.strs.set 0 { out := [o] } };
      let all := ((s.setStr 0 { s.str 0 with out := [] }).blockWrites [] j 0 o.buf o.dirty false).1 ++ j.rowWrites 0 o.buf false
        ++ ((s.setStr 0 { s.str 0 with out := [] }).blockWrites [] j 0 o.buf o.dirty false).2;
      s.runsRefused 0 all = none ∧ (s.jobRuns 0 all).2 = none ∧ j.todo ≠ [] ∧ o.jet < s.ja.jets.length ∧ (s.str 1).out = [] ∧ s.ja.strs.length = 8)
    ∧ (let i : Item := ⟨0, 0, true, 0, 0⟩;
      let d : Att := { fmt := 0x30, load := 1 };
      let j : JetJob := { aJob 2 with phase := 3, home := some 0, pass := { (aJob 1).pass with colours := [], depth := some d } };
      let s := jaDev j fun a => { a with strs := a.strs.set 0 { queue := [i] } };
      s.takerOf 0 i = some 0 ∧ j.pass.depth ≠ none ∧ (∀ a ∈ j.pass.atts, j.loadOp a.2 ≠ 0) ∧ s.troughBadWord (s.troughRanges j 0) = none) := by decide +kernel

/-- The hypotheses about homes, contexts and save slots in DeadlineArbiter. -/
theorem met_DeadlineArbiter_more :
    (let j : JetJob := { aJob 3 with phase := 4, home := some 0, dl := some 5000, gx := 2 };
      let s := jaDev j id;
      j.home ≠ none ∧ s.ctxState 0 ≠ 3 ∧ (s.setReg (Reg.CQ_CTX_STATUS 0) 3).ctxState 0 = 3 ∧ ∀ k ∈ (jaDev (aJob 3) id).ja.jobs, k.dl = none)
    ∧ (let v : Saved := ⟨0, 0, 0, [{ idx := 0, start := 0 }], []⟩;
      let s := jaDev { aJob 3 with phase := 4 } fun a => { a with strs := a.strs.set 0 { resume := [v] } };
      (s.jjob 0 0).all (fun j => s.poisonIn (basinAddr (s.slotAt 0)) (j.saveBytes 1) == none) = true ∧ s.mem.bad = []) := by decide +kernel

/-- Head 0 and composer 0 enabled, the head in a frame, its gait number 3 of a list that holds gaits 3 and 5; composer 8 is enabled. -/
def hdDev : State :=
  let s := withRegs [(Reg.CMP_STATUS 0, 2 ^ 31), (Reg.CMP_STATUS 8, 2 ^ 31), (Reg.HD_STATUS 0, 2 ^ 31), (Reg.HD_GAIT 0, 3),
    (Reg.HD_GAITS 0, 3 + 5 * 2 ^ 6 + 63 * 2 ^ 12 + 63 * 2 ^ 18 + 63 * 2 ^ 24), (Reg.PDK_LAYERS 1 0, 1), (Reg.LO_CFG, 1), (Reg.HD_CTRL 0 + 0x12C, 1000),
    (Reg.HD_CTRL 1 + 0x12C, 1000)] devMem
  s.setHead 0 { begun := true, starts := 1 }

theorem met_ComposerCommits_arrive :
    hdDev.bit (Reg.CMP_COMMIT_STATUS 0) 0 = false ∧ hdDev.bit (Reg.CMP_STATUS 0) 31 = true ∧ hdDev.bit (Reg.CMP_STATUS 1) 31 = false
    ∧ (withRegs [(Reg.CMP_COMMIT_STATUS 0, 1)] hdDev).bit (Reg.CMP_COMMIT_STATUS 0) 0 = true
    ∧ (withRegs [(Reg.CMP_GROUP 0, 8)] hdDev).groupOf 0 = [0]
    ∧ hdDev.bit (Reg.CMP_HOLD 0) 0 = false ∧ (withRegs [(Reg.CMP_HOLD 0, 1)] hdDev).bit (Reg.CMP_HOLD 0) 0 = true := by decide +kernel

theorem met_ComposerCommits_pixels :
    (hdDev.fld (Reg.CMP_LUT_ADDR 0) 16 16 = 0 ∧ hdDev.fld (Reg.CMP_LUT_ADDR 0) 10 0 ≤ 1024 ∧ hdDev.fld (Reg.CMP_LUT_ADDR 0) 13 12 < 3
      ∧ hdDev.lutBusy 0 0 = true ∧ (withRegs [(Reg.CMP_CTRL 0 + 0x144, 2 ^ 6)] hdDev).lutBusy 0 0 = false)
    ∧ spaceOf (2 ^ 62 + 0x50000) = .dram ∧ hdDev.layerHolder 0 1 = none ∧ hdDev.layerHolder 0 0 = some 1
    ∧ hdDev.refusedIn .layer 64 false .dram (localOf (2 ^ 62 + 0x50000)) 64 = some 5
    ∧ hdDev.refusedIn .layer 1 false .dram (localOf (2 ^ 62 + 0x50000)) 64 = none
    ∧ hdDev.refusedIn .layer 1 false .dram (localOf (2 ^ 62 + 0x5FFC0)) 128 = some 6
    ∧ hdDev.poisonIn (2 ^ 62 + 0x50000) 64 = none ∧ (hdDev.layAct 0 0).layout ≠ 1
    ∧ (let s := withRegs [(Reg.CMP_CTRL 0 + 0x144, 4), (Reg.CMP_CTRL 0 + 0x14C, 2 * 65536 + 2)] hdDev;
      s.canvasOn 0 = true ∧ 0 ≠ s.loHead ∧ (s.head 0).begun = true ∧ (s.comp 0).lines = 0 ∧ 0 < (s.canvasRect 0).2.2.2)
    ∧ (hdDev.comp 0).wb = none ∧ ((hdDev.setComp 0 { wb := some (7, true) }).comp 0).wb = some (7, true) := by decide +kernel

theorem met_ComposerCommits_latch :
    (let x : Commit := { kind := 0, comp := 0, members := [0], arrival := 0, stamped := 0 };
      ({ hdDev with cmp := { hdDev.cmp with commits := [x] } } : State).checkCommit x = (0, 31))
    ∧ (let k := Reg.CMP_OUT 0;
      let x : Commit := { kind := 1, comp := 0, members := [0], arrival := 0, stamped := 0, words := [(k, 5)], latched := true };
      x.code = 0 ∧ x.late = 0 ∧ x.past = false ∧ compOfKey k = 0 ∧ actKey k = some (k + 0x100)
        ∧ k + 0x100 ≠ Reg.CMP_COMMIT_STATUS 0 ∧ k + 0x100 ≠ Reg.CMP_STATUS 0) := by decide +kernel

theorem met_HeadTimingAndGaits_frames :
    hdDev.headOn 0 = true ∧ hdDev.headOn 1 = false ∧ (hdDev.head 0).off = 0 ∧ hdDev.changing 0 = false ∧ hdDev.gaitPhase 0 = 0
    ∧ hdDev.cmp.commits = [] ∧ hdDev.cmp.waiting = [] ∧ hdDev.hp.layerChanges = [] ∧ hdDev.inFrame 0 = true
    ∧ hdDev.fld (Reg.HD_LINE_CMP 0) 13 0 < (hdDev.gait 0).vt
    ∧ (hdDev.gait 0).vt ≤ (withRegs [(Reg.HD_LINE_CMP 0, 0x3FFF)] hdDev).fld (Reg.HD_LINE_CMP 0) 13 0
    ∧ 0 < (hdDev.gait 0).va ∧ 0 < (hdDev.gait 0).ha ∧ (∀ f ∈ (hdDev.head 0).fills, f.1 ≠ 0)
    ∧ (∃ f ∈ ((hdDev.setHead 0 { fills := [(4, 8)] }).head 0).fills, f.1 = 4)
    ∧ hdDev.bit (Reg.CMP_HOLD 0) 0 = false ∧ hdDev.bit (Reg.CMP_HOLD 8) 0 = false ∧ hdDev.bit (Reg.CMP_HOLD 9) 0 = false := by decide +kernel

theorem met_HeadTimingAndGaits_gaits :
    (let s := withRegs [(Reg.HD_GAIT 0, 2 ^ 31 + 2 * 2 ^ 16)] hdDev;
      s.changing 0 = true ∧ s.gaitPhase 0 = 2 ∧ (s.gaitList 0).contains 3 = true)
    ∧ hdDev.gaitReason 0 3 = (0, 0, 0) ∧ hdDev.gaitReason 0 6 = (2, 0, 0) ∧ (hdDev.gaitList 0).contains 6 = false
    ∧ (withRegs [(Reg.HD_GAITS 1, 3), (Reg.CMP_STATUS 1, 2 ^ 31)] hdDev).gaitReason 1 3 = (0, 0, 0)
    ∧ (let s := withRegs [(Reg.HD_GAIT 0, 2 ^ 31 + 3 * 2 ^ 16)] hdDev;
      s.changing 0 = true ∧ s.gaitPhase 0 = 3 ∧ s.canTrain 0 = false
        ∧ (withRegs [(Reg.HD_STATUS 0, 2 ^ 31 + 2 ^ 29)] s).canTrain 0 = true)
    ∧ hdDev.edp 0 = false := by decide +kernel

/-- The hypotheses about stopped generators and held commits in HeadTimingAndGaits and ComposerCommits. -/
theorem met_HeadTiming_up :
    hdDev.headUp 0 = true ∧ hdDev.headUp 1 = false
    ∧ (withRegs [(Reg.HD_GAIT 0, 2 ^ 31 + 2 * 2 ^ 16)] hdDev).headOn 0 = true ∧ ((withRegs [(Reg.HD_GAIT 0, 2 ^ 31 + 2 * 2 ^ 16)] hdDev).head 0).off = 0
    ∧ (withRegs [(Reg.HD_GAIT 0, 2 ^ 31 + 3 * 2 ^ 16), (Reg.HD_STATUS 0, 0)] hdDev).headUp 0 = true
    ∧ (let s := withRegs [(Reg.CMP_GROUP 0, 8)] hdDev; s.groupOf 0 ≠ [] ∧ ∀ m ∈ s.groupOf 0, s.bit (Reg.CMP_COMMIT_STATUS m) 0 = false) ∧ hdDev.cmp.comps.length = 10
    ∧ hdDev.hd.heads.length = 8 := by decide +kernel

/-- `hdDev` with its link in state `st`, a plugged sink of four lanes at rate 7. -/
def linkDev (st : Nat) (l : List (Nat × Nat)) : State :=
  withRegs ([(Reg.HD_LINK_STATUS 0, st * 1024), (Reg.HD_STATUS 0, 2 ^ 31 + 2 ^ 29), (Reg.HD_LINK_CFG 0, 0x47)] ++ l) hdDev

theorem met_LinksAuxAndPanels_link :
    (linkDev 1 []).link 0 = 1 ∧ (linkDev 2 []).link 0 = 2 ∧ (linkDev 3 []).link 0 = 3 ∧ (linkDev 1 []).changing 0 = false
    ∧ 7 ≤ (linkDev 1 []).fld (Reg.HD_LINK_CFG 0) 3 0 ∧ 4 ≤ (linkDev 1 []).fld (Reg.HD_LINK_CFG 0) 6 4
    ∧ (linkDev 1 []).need 0 3 ≤ (linkDev 1 []).capacity 0 7 4 ∧ (linkDev 1 []).fld (Reg.HD_GAIT 0) 4 0 = 3
    ∧ (linkDev 3 []).canTrain 0 = true ∧ hdDev.canTrain 0 = false ∧ (linkDev 2 []).fld (Reg.HD_LINK_RETRAINS 0) 31 0 < 2 ^ 32 - 1
    ∧ (linkDev 2 []).hpd 0 = true ∧ (linkDev 2 []).edp 0 = false := by decide +kernel

theorem met_LinksAuxAndPanels_aux :
    hdDev.bit (Reg.HD_AUX_STATUS 0) 0 = false ∧ (linkDev 2 [(Reg.HD_AUX_STATUS 0, 1)]).bit (Reg.HD_AUX_STATUS 0) 0 = true
    ∧ (hdDev.head 0).auxRetries < 7 ∧ 7 ≤ ((hdDev.setHead 0 { auxRetries := 7 }).head 0).auxRetries
    ∧ (Instr.auxNativeWrite 0 3, 1) ∈ [(Instr.auxNativeWrite 0 3, 1), (.auxNativeRead 0 3, 2)] := by decide +kernel

theorem met_LinksAuxAndPanels_panel :
    (let s := linkDev 0 [(Reg.HD_LINK_CFG 0, 0x147), (Reg.HD_STATUS 0, 2 ^ 31)];
      s.edp 0 = true ∧ s.headOn 0 = true ∧ s.panel 0 = 0 ∧ s.cycled 0 = true ∧ s.hpd 0 = false ∧ (s.head 0).vdden = false)
    ∧ (let s := linkDev 0 [(Reg.HD_PANEL_STATUS 0, 3), (Reg.HD_LINK_CFG 0, 0x147), (Reg.HD_PANEL_CTRL 0, 2)];
      s.edp 0 = true ∧ s.panel 0 = 3 ∧ s.bit (Reg.HD_PANEL_CTRL 0) 1 = true)
    ∧ (linkDev 0 [(Reg.HD_PANEL_STATUS 0, 1)]).panel 0 = 1
    ∧ (let s := (linkDev 0 [(Reg.HD_PANEL_STATUS 0, 5)]).setHead 0 { off := 1 };
      s.panel 0 = 5 ∧ (s.head 0).off = 1 ∧ s.headOn 0 = true ∧ (withRegs [(Reg.HD_STATUS 0, 0)] s).headOn 0 = false)
    ∧ (let s := (linkDev 0 [(Reg.HD_PANEL_STATUS 0, 6)]).setHead 0 { wantOn := false };
      s.panel 0 = 6 ∧ (s.head 0).wantOn = false) := by decide +kernel

theorem met_IntegrityChecks :
    hdDev.evaluates 0 = true ∧ hdDev.evaluates 1 = false ∧ 0 < (hdDev.imHead 0).checks.length ∧ 18 < (hdDev.imHead 0).checks.length
    ∧ (let s := withRegs [(Reg.IM_R_CTRL_ACT 0 0, 1)] hdDev; (s.reg (Reg.IM_R_CTRL_ACT 0 0)).testBit 0 = true ∧ (s.reg (Reg.IM_R_CTRL_ACT 0 0)).testBit 1 = false)
    ∧ (let s := withRegs [(Reg.IM_R_CTRL_ACT 0 0, 0x103), (Reg.IM_R_WH_ACT 0 0, 0x10002)] hdDev;
      (s.reg (Reg.IM_R_CTRL_ACT 0 0)).testBit 1 = true ∧ s.regionSig 0 0 ≠ s.reg (Reg.IM_R_REF_ACT 0 0)
        ∧ s.regionUnderran 0 0 = false ∧ (s.chk 0 0).fails + 1 = max 1 (bitsOf (s.reg (Reg.IM_R_CTRL_ACT 0 0)) 11 8)
        ∧ (let t := withRegs [(Reg.IM_R_REF_ACT 0 0, s.regionSig 0 0)] s; t.regionSig 0 0 = t.reg (Reg.IM_R_REF_ACT 0 0)))
    ∧ (let s := withRegs [(Reg.CMP_S_CTRL_ACT 0, 1)] hdDev;
      let w := leBytes 4 (0xA5000000 + 0 * 65536 + s.fld (Reg.IM_S_ALIVE_ACT 0) 15 0) ++ s.safetyStream 0;
      (s.safetyAct 0).enable = true ∧ crc32c w ≠ s.reg (Reg.IM_S_SIG_ACT 0)
        ∧ crc32c w = (withRegs [(Reg.IM_S_SIG_ACT 0, crc32c w)] s).reg (Reg.IM_S_SIG_ACT 0))
    ∧ (∀ i < 17, hdDev.fbNamed 0 i = false)
    ∧ (let s := withRegs [(Reg.IM_R_FB 0 3, 1), (Reg.IM_R_WH_ACT 0 3, 0x10001)] hdDev;
      s.fbNamed 0 3 = true ∧ s.fbSig 0 3 ≠ (s.fallback 0 3).2.2) := by decide +kernel

theorem met_CheckValueUnits :
    (let s := withRegs [(Reg.PDK_MISC 1, 4)] hdDev; s.holds 1 1 2 = true ∧ s.holds 1 1 3 = false ∧ s.bit (Reg.CVU_STATUS 2) 0 = false
      ∧ 2 < s.im.cvus.length ∧ s.bit (Reg.CVU_CTRL 2) 4 = false ∧ (withRegs [(Reg.CVU_CTRL 2, 16)] s).bit (Reg.CVU_CTRL 2) 4 = true
      ∧ (withRegs [(Reg.CVU_STATUS 2, 1)] s).bit (Reg.CVU_STATUS 2) 0 = true)
    ∧ (let s := withRegs [(Reg.SEC_CVU_MASK, 4)] hdDev; s.bit Reg.SEC_CVU_MASK 2 = true ∧ s.koroftUp = true)
    ∧ hdDev.fld (Reg.CVU_PERIOD 2) 15 0 = 0 ∧ (withRegs [(Reg.CVU_PERIOD 2, 10)] hdDev).fld (Reg.CVU_PERIOD 2) 15 0 ≠ 0
    ∧ hdDev.bit (Reg.CVU_STATUS 2) 1 = false := by decide +kernel

/-- The hypotheses about legal links, waiting AUX groups and the spelled words in LinksAuxAndPanels. -/
theorem met_LinksAuxAndPanels_more :
    linkOk false 7 4 = true ∧ linkOk false 1 4 = false ∧ linkOk true 1 4 = true ∧ linkOk false 7 3 = false
    ∧ (linkDev 1 []).edp 0 = false ∧ linkOk ((linkDev 1 []).edp 0) 7 4 = true ∧ (linkDev 1 []).held 2 = false
    ∧ (linkDev 1 []).capacity 0 0 1 < (linkDev 1 []).need 0 3 := by decide +kernel

/-- The light engine enabled in FREE mode, one DRAM granule of the manager, and what `f` says of the engine. -/
def loDev (l : List (Nat × Nat)) (f : Lo → Lo) : State :=
  let s := withRegs ([(Reg.LO_STATUS, 2 ^ 31), (Reg.LO_CFG, 0x11), (Reg.LO_CTRL, 1)] ++ l) ((jobDev []).setOwner 6 0x4000)
  { s with lo := f s.lo }

theorem met_LightFramesAndCommits_frames :
    (loDev [] id).lightOn = true ∧ (loDev [] id).loFree = true ∧ (loDev [] id).lo.isOpen = false ∧ (loDev [] id).lo.jobs = []
    ∧ (loDev [] id).lo.commit = none ∧ (loDev [] id).bit Reg.LO_CTRL 0 = true ∧ (loDev [(Reg.LO_CTRL, 0)] id).bit Reg.LO_CTRL 0 = false
    ∧ (let s := loDev [(Reg.LO_CFG, 1)] id; s.loFree = false ∧ s.holdover = false ∧ s.headOn s.loHead = false)
    ∧ State.reset.lightOn = false ∧ (loDev [] fun l => { l with isOpen := true }).lo.isOpen = true
    ∧ [(0, 100, 7), (1, 100, 9)] ≠ ([] : List (Nat × Nat × Nat)) ∧ (loDev [] id).lo.ready = []
    ∧ (let s := loDev [] fun l => { l with ready := [(5, [])] }; s.lo.ready = [(5, [])] ∧ (∀ p < 8, s.dmxOn p = false) ∧ s.lo.tx = [])
    ∧ (loDev [] id).srcTimeout 2 = 0 ∧ (loDev [(Reg.LO_SRC_CFG_ACT 2, 5 * 65536)] id).srcTimeout 2 ≠ 0 := by decide +kernel

theorem met_LightFramesAndCommits_data :
    let j := waiting 7 (dramAt 0x18 ++ [(0x14, 1), (0x20, 3)]);
    let k : LoJob := ⟨1, 0, 0, true, 0, none, false⟩;
    let s := (loDev [] fun l => { l with jobs := [k] }).setCtx 0 ((jobDev [j]).ctx 0);
    s.lo.jobs = [k] ∧ s.job 0 0 = some j ∧ (s.reach 0 0x18 (j.loFrame 0).1 (j.loFrame 0).2 false).2 = none
      ∧ (∀ k ∈ s.lo.jobs, k.ctx ≠ 1 ∨ k.running = false ∨ k.next ≠ none) := by decide +kernel

theorem met_LightFramesAndCommits_loads :
    (loDev [] id).lo.load = none ∧ (loDev [] fun l => { l with load := some [2, 0, 0, 0, 0] }).lo.load ≠ none ∧ State.reset.mem.bad = []
    ∧ (let s := loDev [(Reg.LO_LOAD_FIRST, 62), (Reg.LO_LOAD_COUNT, 2), (Reg.LO_LOAD_SRC_LO, 0x60000), (Reg.LO_LOAD_SRC_HI, 0x40000000)] id;
      62 + s.fld Reg.LO_LOAD_COUNT 18 0 ≤ s.loCount 2 ∧ 0 < s.fld Reg.LO_LOAD_COUNT 18 0
        ∧ s.reg64 Reg.LO_LOAD_SRC_LO Reg.LO_LOAD_SRC_HI = 2 ^ 62 + 0x60000
        ∧ s.mgrDenied (s.reg64 Reg.LO_LOAD_SRC_LO Reg.LO_LOAD_SRC_HI) (2 * loElem 2) = false)
    ∧ (loDev [] id).fld Reg.LO_LOAD_COUNT 18 0 = 0 := by decide +kernel

theorem met_LightFramesAndCommits_commits :
    let m : LoCommit := { switch := true, target := none };
    let s := loDev [] fun l => { l with commit := some m };
    s.lo.commit = some m ∧ m.checked = false ∧ s.lightCheck (1 - s.loBank) m.words = (0, 0)
      ∧ s.lightCheck (1 - s.loBank) [(Reg.LO_EMIT, 65536)] = (1, 0) := by decide +kernel

/-- A packet of universe 7 from sender 99. -/
def aPacket (seq : Nat) : SacnPacket := ⟨0, 99, 100, seq, false, false, 7, 0, [1, 2]⟩

/-- The light engine whose input record 0 takes universe 7 on port 0, with this sender live. -/
def rxDev (xs : List Sender) : State :=
  let s := loDev [] fun l => { l with rx := spSet (fun _ => []) l.rx 0 xs }
  s.write .basin (s.loRegion 4 s.loBank) [7, 0, 3]

theorem met_SacnAndDmx :
    (let x : LoPacket := ⟨0, 5, 1, []⟩;
      let s := withRegs [(Reg.NET_CTRL, 1), (Reg.NETP_STATUS 0, 2 ^ 31)] (loDev [] fun l => { l with tx := [x] });
      s.lo.tx = [x] ∧ s.netOn 0 = true ∧ s.netUp 0 = true ∧ s.netOn 1 = false ∧ ∀ y ∈ s.lo.tx, y.port ≠ 1)
    ∧ (loDev [(Reg.LO_TX_CFG, 1)] id).bit Reg.LO_TX_CFG 0 = true ∧ (loDev [] id).bit Reg.LO_TX_CFG 0 = false
    ∧ (rxDev []).lightOn = true ∧ (rxDev []).inRecords 7 0 = [0] ∧ (rxDev []).inRecords 7 1 = [] ∧ ({ aPacket 1 with start := 0xDD }).start ≠ 0
    ∧ (aPacket 1).kind = 0 ∧ (aPacket 1).start = 0 ∧ (aPacket 1).preview = false ∧ (aPacket 1).terminated = false ∧ (rxDev []).senders 0 = []
    ∧ (loDev [] id).dmxSending 1 = false ∧ (loDev [(Reg.LO_DMX_STATUS 1, 1)] id).dmxSending 1 = true ∧ (loDev [] id).dmxOn 1 = false
    ∧ (loDev [(Reg.LO_DMX_CFG 1, 2)] id).dmxOn 1 = true ∧ ((loDev [] id).dmx 1).rdm = none ∧ ((loDev [] id).dmx 1).queue = []
    ∧ ((loDev [] id).dmx 1).due = false
    ∧ (let j := waiting 8 (dramAt 0x20 ++ [(0x14, 4)]);
      let r : Rdm := { ctx := 0, sq := 0, req := [], listening := true };
      let s := (loDev [] fun l => { l with dmx := l.dmx.set 1 { rdm := some r } }).setCtx 0 ((jobDev [j]).ctx 0);
      (s.dmx 1).rdm = some r ∧ s.job 0 0 = some j ∧ r.got < j.f 0x14 2 ∧ (s.reach 0 0x20 (j.f 0x20 8 + r.got) 1 true).2 = none)
    := by decide +kernel

/-- A difference of 1, of 0, of −19 and of −20 (R381). -/
theorem met_SacnSequenceRule :
    (let x : Sender := ⟨99, 100, 5, 0, [], 0⟩;
      (rxDev [x]).lightOn = true ∧ (rxDev [x]).inRecords 7 0 = [0] ∧ (rxDev [x]).senders 0 = [x] ∧ x.cid = (aPacket 6).cid ∧ x.seq < 256)
    ∧ [6, 5, 242, 241].map (fun q => signedOf 8 ((q % 256 + 256 - 5) % 256)) = [1, 0, -19, -20] := by decide +kernel

/-- Port 0 enabled and up, or down. -/
def netDev (l : List (Nat × Nat)) : State :=
  withRegs ([(Reg.NET_CTRL, 1), (Reg.NETP_STATUS 0, 2 ^ 31)] ++ l) devMem

theorem met_NetworkPorts :
    (netDev []).netOn 0 = true ∧ (netDev []).netOn 1 = false ∧ (netDev []).netUp 0 = true ∧ (netDev [(Reg.NETP_STATUS 0, 0)]).netUp 0 = false
    ∧ (netDev []).ptpRole = 0 ∧ NetFault.los ≠ .txflt ∧ (netDev [(Reg.NETP_STATUS 0, 2 ^ 27)]).bit (Reg.NETP_STATUS 0) 27 = true
    ∧ (netDev [(Reg.NETP_STATUS 0, 2 ^ 28)]).bit (Reg.NETP_STATUS 0) 28 = true ∧ (netDev []).bit (Reg.NETP_STATUS 0) 28 = false
    ∧ (netDev []).bit (Reg.NETP_STATUS 0) 27 = false ∧ (netDev []).bit (Reg.NETP_CFG 0) 16 = false ∧ (netDev []).net.igmpV2.length = 2
    ∧ (netDev []).bit (Reg.NETP_I2C 0) 30 = false ∧ 5 ≠ (netDev []).reg (Reg.NETP_IP 0)
    ∧ 0xE00000FB ∈ (netDev [(Reg.NET_AES_RX_CFG 0, 2 ^ 31 + 2 ^ 28), (Reg.NET_AES_RX_GROUP 0, 0xE00000FB)]).joined 0 := by decide +kernel

/-- `netDev` as a PTP follower on port 0 that knows its leader, in state `st` of the show-time counter. -/
def ptpDev (role st : Nat) (l : List (Nat × Nat)) : State :=
  let s := netDev ([(Reg.NET_PTP_CFG, role * 2 ^ 20), (Reg.STM_STATUS, st), (Reg.STM_CFG, 0x640001)] ++ l)
  { s with net := { s.net with leader := some ⟨1, ⟨1, 1, 1, 1, 1, 1, 0⟩, 2, 0⟩, synced := true, req := some (7, 100), pair := some (50, 90) } }

theorem met_PtpAndAes67 :
    (ptpDev 1 2 []).netOn 0 = true ∧ (ptpDev 1 2 []).ptpPort = 0 ∧ (ptpDev 1 2 []).ptpRole = 1 ∧ (ptpDev 2 2 []).ptpRole = 2
    ∧ 0 = (ptpDev 1 2 []).fld Reg.NET_PTP_CFG 31 24 ∧ (netDev []).ptpRole = 0 ∧ (ptpDev 1 2 []).net.foreign = []
    ∧ (ptpDev 1 2 []).net.synced = true ∧ (ptpDev 1 2 []).stmState = 2 ∧ (ptpDev 1 4 []).stmState = 4 ∧ (ptpDev 1 2 []).p2p = false
    ∧ (ptpDev 1 2 [(Reg.NET_PTP_CFG, 0x110000)]).p2p = true ∧ (ptpDev 3 2 []).ptpRole = 3
    ∧ [-2000, 0, 2000].map (fun o : Int => ((ptpDev 1 2 []).clk.stm : Int) - (o + (ptpDev 1 2 []).pathDelay + (ptpDev 1 2 []).asym
        + ((ptpDev 1 2 []).stmOfs : Int))) = [2000, 0, -2000]
    ∧ (ptpDev 1 2 []).fld Reg.STM_CFG 15 0 * 1000 = 1000 ∧ (ptpDev 1 2 []).net.seqs = [0, 0, 0] ∧ (ptpDev 1 2 []).net.pair ≠ none
    ∧ (netDev []).bit Reg.STM_PPS 0 = false ∧ (netDev [(Reg.STM_PPS, 1)]).bit Reg.STM_PPS 0 = true
    ∧ ((netDev []).reg (Reg.NET_AES_TX_CFG 3)).testBit 31 = false ∧ ((netDev [(Reg.NET_AES_TX_CFG 3, 2 ^ 31)]).reg (Reg.NET_AES_TX_CFG 3)).testBit 31 = true
    ∧ (let s := netDev [(Reg.NET_AES_RX_CFG 2, 2 ^ 31 + 2 ^ 28)];
      s.aesRxOn 2 0 = true ∧ s.aesRxOn 2 1 = false ∧ s.netPair = false ∧ (s.aesRx 2).last = none ∧ (s.aesRx 2).seen = [] ∧ (s.aesRx 2).missing = []
        ∧ [100, 961, 2 ^ 32 - 1].map (fun p : Nat => s.mediaNow + signedOf 32 ((((p % 2 ^ 32 : Nat) : Int) - s.mediaNow) % 2 ^ 32).toNat
          + (s.fld (Reg.NET_AES_RX_DELAY 2) 9 0 : Int) - s.mediaNow) = [100, 961, -1])
    ∧ (netDev []).bit (Reg.NET_AES_RX_STATUS 2) 31 = false ∧ (netDev [(Reg.NET_AES_RX_STATUS 2, 2 ^ 31)]).bit (Reg.NET_AES_RX_STATUS 2) 31 = true
    := by decide +kernel

/-- The hypotheses about a free wire, pairs of ports, universes and check words in the light, DMX and network statements. -/
theorem met_light_and_network_more :
    ((netDev []).held 1 = false ∧ (netDev []).net.waiting = [] ∧ (netDev []).lo.tx = [] ∧ (netDev []).net.wire.length = 2
      ∧ (netDev []).net.wire.getD 0 0 ≤ (netDev []).clk.stm)
    ∧ ((netDev []).held 9 = false ∧ State.reset.held 9 = true)
    ∧ (let s := netDev [(Reg.NET_AES_RX_CFG 2, 2 ^ 31 + 2 ^ 28), (Reg.NET_CFG, 2 ^ 8)]; s.netPair = true ∧ s.netOn 0 = true ∧ s.aesRxOn 2 0 = true)
    ∧ (let x : AesRx := { seen := [(5, 1)] }; x.missing = [] ∧ x.seen.length ≤ 1024 ∧ (5 % 65536, 1 - 0) ∈ x.seen)
    ∧ ((ptpDev 2 2 [(Reg.NET_PTP_STATUS, 6 * 2 ^ 24)]).ptpLeads = true ∧ (ptpDev 1 2 []).ptpLeads = false ∧ (netDev []).bit Reg.AUD_STATUS 31 = false)
    ∧ (loDev [] id).eccIn true (2 ^ 62 + 0x50000) 1 = none ∧ (loDev [] id).loFree = true ∧ (loDev [] id).poisonIn (2 ^ 62 + 0x60000) 64 = none
    ∧ (let k : LoJob := ⟨1, 0, 0, true, 0, none, false⟩; k.due = false ∧ k.running = true) ∧ (aPacket 1).kind = 0
    ∧ (let f : EthFrame := ⟨true, true, none, .own, false, true⟩; f.fcsOk = true ∧ f.known = true) := by decide +kernel

/-- Field 0 of 4 × 4 nodes at TX 0 and sense 0, its first plan in state `st` (Table 16.1) with these captures, and its partition of one granule. -/
def tchDev (st : Nat) (l : List (Nat × Nat)) (caps : List Capt) : State :=
  let s := withRegs ([(Reg.TCH_F_LINES 0, 0x03000400), (Reg.BSN_PART_SIZE 8, 1), (Reg.TCH_SCAN, 300), (tchStatus 0, st * 2 ^ 30)] ++ l) devMem
  s.setTchUnit 0 { begun := st != 0, caps := caps }

theorem met_TouchFramesAndKeys_units :
    (let s := tchDev 0 [] [];
      s.fld Reg.TCH_CTRL 8 0 = 0 ∧ s.tch.commit = none ∧ (s.tchUnit 0).begun = false ∧ s.tchConflict 0 = false ∧ s.tchConflict 1 = true)
    ∧ (let c : Capt := ⟨0, [(0, 5)], 2, true⟩;
      let s := tchDev 1 [(Reg.TCH_CTRL, 1)] [c];
      s.fld Reg.TCH_CTRL 8 0 = 2 ^ 0 ∧ (s.tchUnit 0).contacts = [] ∧ s.tch.lost = [] ∧ s.tch.resync = [] ∧ s.safetyPaddock = none
        ∧ (∀ v < 9, v ≠ 0 → (s.tchUnit v).begun = false) ∧ (s.tchUnit 0).begun = true ∧ s.plans 0 ≠ 0 ∧ s.reg Reg.TCH_FRAME % 16 ≠ 15
        ∧ s.fld (tchStatus 0) 31 30 = 1 ∧ s.planNow 0 = 0 ∧ (s.tchUnit 0).caps = [c])
    ∧ (let c : Capt := ⟨0, [(0, 5)], 3, true⟩; (((tchDev 1 [(Reg.TCH_CTRL, 1)] [c]).tchUnit 0).caps = [c]))
    ∧ (3 < (fieldGrid 2 2 0).size ∧ [10, 20, 30, 40].getD 3 0 < 65536) := by decide +kernel

theorem met_TouchFramesAndKeys_controls :
    (let s := tchDev 0 [(Reg.TCH_CTL_CFG 5, 1), (Reg.TCH_CTL_THRESH_ACT 5, 20 * 65536 + 40)] [];
      s.fld (Reg.TCH_CTL_CFG 5) 1 0 = 1 ∧ s.pkOf 5 = none ∧ s.bit (Reg.TCH_CTL_ACT_ACT 5) 13 = false ∧ (s.ctl 5).pressed = false
        ∧ (bitsOf (s.reg (Reg.TCH_CTL_THRESH_ACT 5)) 15 0 : Int) ≤ [40, 3].foldl max 0 ∧ max 1 (bitsOf (s.reg (Reg.TCH_CTL_KEY_ACT 5)) 3 0) ≤ (s.ctl 5).run + 1
        ∧ [39].foldl max 0 < (bitsOf (s.reg (Reg.TCH_CTL_THRESH_ACT 5)) 15 0 : Int)
        ∧ ((s.setCtl 5 { pressed := true }).ctl 5).pressed = true ∧ [19].foldl max 0 < (bitsOf (s.reg (Reg.TCH_CTL_THRESH_ACT 5)) 31 16 : Int)
        ∧ (bitsOf (s.reg (Reg.TCH_CTL_THRESH_ACT 5)) 31 16 : Int) ≤ [20].foldl max 0)
    ∧ (let o : Still := ⟨0, 1, 1, 50⟩;
      let c : Contact := ⟨3, 1, 1, 0, 0, (0, 0), 50, 1, [0], o⟩;
      let s := tchDev 2 [(Reg.TCH_STUCK_TIMEOUT_ACT, 2), (Reg.TCH_CTL_CFG 5, 1)] [];
      let t : State := { (s.setTchUnit 0 { contacts := [c] }).setCtl 5 { pressed := true, still := some o } with clk := { s.clk with stm := 2000000000 } };
      (t.tchUnit 0).contacts.find? (fun c => c.ident == 3) = some c ∧ t.stuck o = true ∧ s.stuck o = false ∧ t.fieldHolder 0 = none
        ∧ (s.tchUnit 0).contacts.find? (fun c => c.ident == 3) = none
        ∧ (t.ctl 5).pressed = true ∧ t.pkOf 5 = none ∧ (t.ctl 5).still = some o ∧ t.ctlHolder 5 = none) := by decide +kernel

theorem met_TouchFramesAndKeys_keys :
    (let s := tchDev 0 [(Reg.TCH_CTL_CFG 5, 0x15), (Reg.TCH_CTL_KEY_ACT 5, 3 * 65536)] [];
      let t : State := { s.setCtl 5 { pressed := true } with clk := { s.clk with stm := 3000000000 } };
      (s.pkOf 5).isSome = true ∧ s.ctlOfPk 2 = some 5 ∧ s.ctlOfPk 1 = none ∧ s.fld (Reg.TCH_CTL_KEY_ACT 5) 31 16 = 3 ∧ (s.ctl 5).pressed = false
        ∧ (t.ctl 5).pressed = true ∧ t.bit Reg.TCH_PK_LONG 2 = false ∧ (t.ctl 5).pressT + 3 * 1000000000 ≤ t.clk.stm ∧ t.safetyPaddock = none)
    ∧ (dev 2).reaches 1 = true ∧ (dev 2).reaches 9 = false ∧ (tchDev 0 [] []).tch.commit = none ∧ (tchDev 0 [] []).touchCheck 0 = 0
    ∧ (tchDev 0 [(Reg.TCH_HOP, 65536)] []).touchCheck 0 = 1
    ∧ (let s := tchDev 0 [(Reg.PCR_STATUS, 3 * 2 ^ 29), (Reg.TCH_GRAZE, 40 * 65536 + 512), (Reg.PCR_WAKE_CFG, 1), (Reg.TCH_GRAZE_ZONE, 0x400)] [];
      let t : State := { s with tch := { s.tch with graze := { s.tch.graze with frames := 4, base := List.replicate 64 100 } } };
      s.grazing = true ∧ s.tch.graze.frames < 4 ∧ t.grazing = true ∧ 4 ≤ t.tch.graze.frames ∧ t.fld Reg.TCH_GRAZE 10 9 = 1 ∧ 0 < t.zoneGrid.size
        ∧ (t.fld Reg.TCH_GRAZE 31 16 : Int) ≤ (deltas t.tch.graze.base [60]).getD 0 0 ∧ t.devState = 3 ∧ t.bit Reg.PCR_WAKE_CFG 0 = true ∧ t.pwr.trans = none
        ∧ (∀ i < t.zoneGrid.size, (deltas t.tch.graze.base (List.replicate 64 100)).getD i 0 < (t.fld Reg.TCH_GRAZE 31 16 : Int)))
    ∧ (tchDev 0 [] []).grazing = false := by decide +kernel

/-- The haptic block enabled with its library checked: every effect is valid but effect 5, which is empty. -/
def hapDev (l : List (Nat × Nat)) (f : Hap → Hap) : State :=
  let s := withRegs ([(Reg.HAP_STATUS, 2 ^ 31 + 65536), (Reg.BSN_PART_SIZE 7, 1), (Reg.HAPC_CFG_ACT 2, 1)] ++ l) (dev 2)
  { s with hap := f { s.hap with enabledOnce := true, lib := (List.replicate 256 1).set 5 0 } }

/-- Effect 1 has one sample of 0 at unit 64, with its CRC. -/
def effDev : State :=
  let s := hapDev [(Reg.HAP_STATUS, 2 ^ 31), (Reg.HAPC_LIMIT_ACT 2, 0x20643232)] id
  s.write .basin (s.hapBase + 16) ([64, 0, 1, 0, 0, 0, 0, 0] ++ leBytes 4 (crc32c [0, 0]))

theorem met_HapticEffectsAndFaults_library :
    State.reset.hap.enabledOnce = false ∧ effDev.hap.enabledOnce = true ∧ effDev.bit Reg.HAP_STATUS 16 = false ∧ effDev.effect 5 2 2 = 0
    ∧ effDev.effectCheck 1 = 1 ∧ State.reset.bit Reg.HAP_STATUS 31 = false
    ∧ (let s := hapDev [(Reg.HAPC_CFG_ACT 2, 0)] id;
      s.bit Reg.HAP_STATUS 31 = true ∧ s.bit Reg.HAP_COMMIT_STATUS 0 = false ∧ s.hap.arrivals = [] ∧ s.hap.waits = [] ∧ s.hap.chans.length = 16
        ∧ ∀ n < 16, s.hapOn n = false ∧ s.hapState n = 0 ∧ (s.hapCh n).words = [] ∧ (s.hapCh n).play = none ∧ (s.hapCh n).fifo = []
          ∧ 64 ≤ (s.hapCh n).zeroTicks ∧ (s.hapCh n).drive = 0)
    ∧ (hapDev [(Reg.HAPC_DRIVE 2, 9 * 2 ^ 24)] id).fld (Reg.HAPC_DRIVE 2) 31 24 ≠ 0 ∧ (hapDev [] id).openLoop 2 = false
    ∧ (hapDev [(Reg.HAPC_STATUS 2, 2 ^ 28)] id).openLoop 2 = true := by decide +kernel

/-- An effect of three samples in its plays goes on, ends, and is cut by the limit of 50 × 80 drive ticks. -/
theorem met_HapticEffectsAndFaults_play :
    (let s := effDev.write .basin (effDev.hapBase + 16) [64, 0, 3];
      let p : Play := { trig := ⟨1, false, 255, none⟩ };
      p.i + 1 < s.effectLen p.trig.effect ∧ s.effectLen p.trig.effect ≤ ({ p with i := 2 } : Play).i + 1
        ∧ ((s.hapCh 2).counted s.hap.tick true).on < s.fld (Reg.HAPC_LIMIT_ACT 2) 15 8 * 80
        ∧ ((s.hapCh 2).counted s.hap.tick true).duty s.hap.tick < s.dutyBound 2
        ∧ s.fld (Reg.HAPC_LIMIT_ACT 2) 15 8 * 80 ≤ ((({ on := 4000 } : HapCh)).counted s.hap.tick true).on)
    ∧ (let s := hapDev [] id;
      s.hapOn 2 = true ∧ s.bit Reg.HAP_STATUS 16 = true ∧ s.hapState 2 ≠ 4 ∧ s.effectOk 1 = true ∧ s.resting 2 = false
        ∧ (s.hapCh 2).fifo.length < 4 ∧ s.hapOn 3 = false) := by decide +kernel

theorem met_HapticEffectsAndFaults_faults :
    (let s := hapDev [(Reg.HAPC_STATUS 3, 4 * 2 ^ 29)] id;
      s.hapState 3 = 4 ∧ s.hapState 2 ≠ 4 ∧ (s.hapCh 2).play = none ∧ (s.hapCh 2).fifo = [] ∧ (s.hapCh 2).drive = 0 ∧ (s.hapCh 3).fltLow = false
        ∧ s.openLoop 2 = false)
    ∧ (let p : Play := { trig := ⟨1, false, 255, none⟩ };
      let s := hapDev [] fun h => { h with chans := h.chans.set 2 { play := some p } };
      (s.hapCh 2).play = some p ∧ ∀ t ∈ (s.hapCh 2).fifo, t.job = none)
    ∧ (let s := hapDev [(Reg.HAP_SPUR_CFG 1, 2 ^ 31 + 2 ^ 30)] id;
      let w := s.reg (Reg.HAP_SPUR_CFG 1);
      w.testBit 31 = true ∧ w.testBit 30 = true ∧ s.devState = 3 ∧ s.bit Reg.HAP_STATUS 31 = true
        ∧ ({ s with pins := { s.pins with spur := 2 } } : State).pins.spur.testBit 1 ≠ false)
    ∧ (hapDev [(Reg.HAP_COMMIT_STATUS, 1)] id).bit Reg.HAP_COMMIT_STATUS 0 = true ∧ (hapDev [] id).bit Reg.HAP_COMMIT_STATUS 0 = false
    ∧ (hapDev [] id).hapCheck ((List.range 16).filter (Nat.testBit 4)) ≠ 0 ∧ (hapDev [] id).hapCheck ((List.range 16).filter (Nat.testBit 0)) = 0
    ∧ (∀ n < 16, ((hapDev [] id).hapCh n).drive = 0) := by decide +kernel

/-- The audio block enabled, and disabled. -/
def audDev (l : List (Nat × Nat)) (f : Aud → Aud) : State :=
  let s := withRegs ([(Reg.AUD_STATUS, 2 ^ 31)] ++ l) devMem
  { s with aud := f { s.aud with enabledOnce := true } }

theorem met_AudioBlocksAndMatrix_blocks :
    State.reset.bit Reg.AUD_STATUS 31 = false ∧ State.reset.aud.enabledOnce = false ∧ State.reset.mem.bad = []
    ∧ (let s := audDev [] id;
      s.bit Reg.AUD_STATUS 31 = true ∧ s.aud.inBlock = false ∧ s.aud.ready = [] ∧ s.aud.commit = none ∧ s.aud.asks = [] ∧ s.aud.voices = []
        ∧ s.aud.plays = [] ∧ s.aud.caps = [] ∧ (∀ i < 128, s.fld (Reg.AUD_IN_CFG_ACT i) 26 24 ≠ 3))
    ∧ (audDev [] id).tdmLocked 1 = false
    ∧ (let s := audDev [(Reg.AUD_TDM_CFG 1, 1), (Reg.AUD_TDM_STATUS 1, 2 ^ 31)] id;
      s.tdmLocked 1 = true ∧ s.bit (Reg.AUD_TDM_CFG 1) 1 = false ∧ s.bit (Reg.AUD_TDM_CFG 1) 0 = true) := by decide +kernel

theorem met_AudioBlocksAndMatrix_voices :
    (let s := audDev [(Reg.AUD_VOICE_CFG_ACT 4, 7)] fun a => { a with clips := (List.replicate 256 1).set 0 3, voices := spSet (fun _ => {}) a.voices 4 { pos := some 9 } };
      s.aud.clips.getD (s.voiceClip 4) 0 = 1 ∧ 4 < s.voicesOn ∧ 2 ≤ s.aud.clips.getD (s.voiceClip 5) 0 ∧ (s.voice 4).pos = some 9 ∧ s.aud.clips ≠ [])
    ∧ (audDev [] id).aud.clips = [] ∧ (audDev [] id).aud.sync = none ∧ (audDev [] fun a => { a with sync := some 1 }).aud.sync = some 1
    ∧ (audDev [] id).audCheck = 0 ∧ (audDev [(Reg.AUD_SINK 3, 2 ^ 31)] id).audCheck ≠ 0
    ∧ (let m : AudCommit := ⟨true, some 50, []⟩;
      (audDev [] fun a => { a with commit := some m }).clk.stm < 50 ∧ ∀ g, ({ m with target := none } : AudCommit).target = some g → g ≤ 0)
    ∧ (audDev [] id).mclkIn = false ∧ (audDev [(Reg.AUD_STATUS, 2 ^ 31 + 2 ^ 29)] id).mclkIn = true := by
  refine ⟨by decide +kernel, by decide +kernel, by decide +kernel, by decide +kernel, by decide +kernel, by decide +kernel, ⟨by decide +kernel, ?_⟩,
    by decide +kernel, by decide +kernel⟩
  intro g h; cases h

/-- A transition to `n` in which these blocks have not accepted; in RUN. -/
def pwrDev (power : Nat) (l : List (Nat × Nat)) (f : Pwr → Pwr) : State :=
  let s := withRegs ([(Reg.PCR_STATUS, power * 2 ^ 29)] ++ l) (dev 2)
  { s with pwr := f s.pwr }

theorem met_PowerStatesAndRunEntry_requests :
    State.reset.devState ≠ 3 ∧ (dev 2).devState = 3
    ∧ (let s := pwrDev 0 [(Reg.PCR_CFG, 2 ^ 31 + 2 ^ 30)] id;
      s.pwr.trans = none ∧ s.power = 0 ∧ s.bit Reg.PCR_CFG 30 = true ∧ s.bit Reg.PCR_CFG 31 = true)
    ∧ (pwrDev 0 [(Reg.PCR_CFG, 0)] id).bit Reg.PCR_CFG 30 = false
    ∧ (let s := pwrDev 0 [(Reg.SEC_CLAIM, 1)] fun p => { p with trans := some (3, [0, 10]) };
      s.pwr.trans = some (3, [0, 10]) ∧ s.answerOf 0 3 .accept = .refuse 1 ∧ 11 ∉ [0, 10] ∧ s.answerOf 10 3 .accept = .accept ∧ [0, 10].erase 10 ≠ [])
    ∧ (let s := pwrDev 0 [] fun p => { p with trans := some (2, [10]) };
      s.answerOf 10 2 .accept = .accept ∧ [10].erase 10 = [] ∧ ∀ k < 19, s.claimed k = false)
    ∧ (let s := jobDev [waiting 3 []]; s.answerOf 19 3 .accept = .delay) := by decide +kernel

theorem met_PowerStatesAndRunEntry_gates :
    (let g := fun l => pwrDev 0 ([(Reg.PCR_GATE, 0)] ++ l) id;
      let l := fun s : State => (List.range 23).filter (fun b => Nat.testBit 1 b && !s.bit Reg.PCR_GATE b);
      (l (g [(Reg.SEC_CLAIM, 1)])).find? (g [(Reg.SEC_CLAIM, 1)]).claimed = some 0
        ∧ (∀ b ∈ l (g [(Reg.HD_CTRL 0, 1)]), (g [(Reg.HD_CTRL 0, 1)]).claimed b = false) ∧ (∃ b ∈ l (g [(Reg.HD_CTRL 0, 1)]), (g [(Reg.HD_CTRL 0, 1)]).blockOn b = true)
        ∧ l (g []) = [0] ∧ ∀ b ∈ l (g []), (g []).claimed b = false ∧ (g []).blockOn b = false) := by decide +kernel

theorem met_PowerStatesAndRunEntry_wake :
    (pwrDev 3 [(Reg.PCR_WAKE_CFG, 3)] id).bit Reg.PCR_WAKE_CFG 1 = true ∧ (pwrDev 3 [] id).power = 3 ∧ (pwrDev 3 [] id).pwr.wake = none
    ∧ (pwrDev 4 [] id).power = 4 ∧ (pwrDev 3 [] id).pwr.trans = none
    ∧ (let s := pwrDev 4 [(Reg.PCR_WAKE_CFG, 8), (Reg.PCR_STABLED_TIMER, 5)] id;
      s.devState = 3 ∧ s.power = 4 ∧ s.bit Reg.PCR_WAKE_CFG 3 = true ∧ s.reg Reg.PCR_STABLED_TIMER ≠ 0)
    ∧ (pwrDev 3 [] fun p => { p with wake := some (1, 4, 100) }).pwr.wake = some (1, 4, 100) ∧ (pwrDev 3 [] id).pwr.back < 8
    ∧ (pwrDev 3 [] id).tch.graze.woke = none
    ∧ (let s : State := { inState 2 with boot := { State.reset.boot with loaded := some 0 } };
      s.devState = 2 ∧ s.boot.loaded ≠ none ∧ s.bit Reg.JA_CTRL 0 = false ∧ (∀ n < 8, s.bit (Reg.HD_CTRL n) 0 = false ∧ s.bit (Reg.LO_DMX_CFG n) 1 = false)
        ∧ s.bit Reg.LO_CTRL 0 = false ∧ s.reg Reg.NET_CTRL % 4 = 0 ∧ s.reg Reg.TCH_CTRL % 512 = 0 ∧ s.bit Reg.HAP_CTRL 0 = false
        ∧ s.bit Reg.AUD_CTRL 0 = false ∧ s.clk.stm < 65536000000) := by decide +kernel

theorem met_JetPointsAndThrottle :
    (let s := pwrDev 1 [] fun p => { p with dvfs := some 3 };
      s.pwr.dvfs = some 3 ∧ s.pwr.moving = none ∧ s.power ≤ 1 ∧ s.bit Reg.JA_PREEMPT_STATUS 31 = false)
    ∧ (dev 2).pwr.dvfs = none ∧ (withRegs [(Reg.JA_PREEMPT_STATUS, 2 ^ 31)] (dev 2)).bit Reg.JA_PREEMPT_STATUS 31 = true
    ∧ (dev 2).pwr.avs = []
    ∧ (let s := pwrDev 0 [] fun p => { p with moving := some 3, avs := [(0, 0, 670, 2)] }; s.pwr.avs = (0, 0, 670, 2) :: [] ∧ pointMv 3 = 670 ∧ s.pwr.moving = some 3)
    ∧ (let s := pwrDev 0 [(Reg.PCR_TEMP, 1600), (Reg.PCR_THERMAL, 0x64FF), (Reg.PCR_JET_STATE, 3 * 2 ^ 24)] id;
      16 * (s.fld Reg.PCR_THERMAL 15 8 : Int) ≤ signedOf 16 (s.fld Reg.PCR_TEMP 15 0) ∧ 0 < s.fld Reg.PCR_JET_STATE 26 24
        ∧ s.fld Reg.PCR_TEMP 31 16 < 90 * s.fld Reg.PCR_THERMAL 7 0 ∧ signedOf 16 1519 < 16 * ((s.fld Reg.PCR_THERMAL 15 8 : Int) - 5)
        ∧ 16 * ((s.fld Reg.PCR_THERMAL 15 8 : Int) - 5) ≤ signedOf 16 1520 ∧ signedOf 16 1520 < 16 * (s.fld Reg.PCR_THERMAL 15 8 : Int)) := by decide +kernel

theorem met_StepKeepsMemoriesSizesFusesAndQueue : devMem.memWf = true ∧ devMem.mem.owner.length = 1 := by decide +kernel

theorem met_StepKeeps_sized : State.reset.sized := by
  refine ⟨rfl, ?_⟩
  simp [State.reset]

theorem met_ResetIsWellKept : Reg.EVR_CTRL ≠ Reg.PCR_CORE ∧ Reg.EVR_CTRL ≠ Reg.SEC_OTP_STATUS := by decide

/-- The hypotheses about RECOVERY, held groups, held words and the AVSBus queue. -/
theorem met_power_and_audio_more :
    (inState 4).devState = 4 ∧ (inState 4).pins.spur.testBit 1 = false ∧ (audDev [] id).held 7 = false ∧ (dev 2).held 9 = false
    ∧ (∀ i < 128, bitsOf ((audDev [] id).oldWord (Reg.AUD_IN_CFG_ACT i)) 26 24 ≠ 3)
    ∧ (let s := pwrDev 2 [] fun p => { p with trans := some (1, [10]), avs := [(1, 0, 600, 0)] };
      s.answerOf 10 1 .accept = .accept ∧ [10].erase 10 = [] ∧ s.power = 2 ∧ s.pwr.avs ≠ [])
    ∧ (let s := pwrDev 2 [] fun p => { p with trans := some (2, [10]) }; s.pwr.avs = [] ∧ s.held 9 = false)
    ∧ (let s := pwrDev 3 [] fun p => { p with trans := some (3, [14]) }; s.pwr.trans = some (3, [14]))
    ∧ (let s := pwrDev 0 [] fun p => { p with avs := [(0, 0, 550, 0)] }; s.pwr.avs = (0, 0, 550, 0) :: [] ∧ s.pwr.moving = none)
    ∧ (let s := pwrDev 3 [] fun p => { p with wake := some (1, 4, 100), back := 0 }; s.pwr.back ≠ 2 ∧ s.tch.graze.woke = none) := by decide +kernel

/-! ### Steps, with results from the spec -/

/-- The state after a command. -/
def after (c : Instr) (s : State) : State :=
  match exec c s with
  | .next t => t
  | _ => s

/-- Worked example of spec/00: STM_TIME_LO captures the high word that STM_TIME_HI then reads. -/
theorem test_register_read_pair :
    (let s : State := { dev 2 with clk := { (dev 2).clk with stm := 0x1FFFFFFF8 } };
      let t := after (.registerRead .p Reg.STM_TIME_LO 4) s;
      let u : State := { t with clk := { t.clk with stm := 0x200000020 } };
      (after (.registerRead .p Reg.STM_TIME_HI 4) u).out.map (fun e => match e with | .regRead _ _ _ v => v | _ => 0)) = [1, 0xFFFFFFF8] := by
  decide +kernel

/-- R59: the IDCODE. -/
theorem test_tap_idcode : (after .tapIdcode State.reset).out = [.tapShift 0x1A8F6D01] := by decide

/-- Table 1.9: PORn goes to OFF, and back to BOOT. -/
theorem test_porn : (after .pornAssert (dev 2)).devState = 0 ∧ (after (.pornDeassert 0) (after .pornAssert (dev 2))).devState = 1 := by decide +kernel

/-- Worked example of spec/21: the items of UNDERRUN (Table 12.10). -/
theorem test_record_items :
    mkRec 0x0803 [(8, 2), (16, 0x1234), (16, 1620), (32, 3)] 7 = { code := 0x0803, time := 7, d0 := 0x123402, d1 := 0x654, d2 := 3 } := by decide

/-- Worked example of spec/19: slots of a ring of 65,536 slots in SPLIT with keep_k 4. -/
theorem test_slot_of :
    (let s : State := { withRegs [(Reg.BSN_PART_SIZE 5, 32)] State.reset with evr := { State.reset.evr with mode := 0, keepK := 4, base := 0 } };
      s.evrSlots = 65536 ∧ s.slotOf 100000 = some 35488 ∧ s.slotOf 164512 = some 35488 ∧ s.slotOf 1023 = some 1023) := by decide +kernel

/-- Worked example of spec/03: 32 layers of 2.115 GB/s are not below 45 % of the peak of four channels at 8,533 MT/s, 24 are. -/
def desk (basinOnly : Nat) : State :=
  withRegs ((List.range 32).map (fun i => (Reg.CMP_L_DECL (i / 4) (i % 4), 3840 + 2160 * 2 ^ 14 + 2 * 2 ^ 28 + (if i < basinOnly then 2 ^ 31 else 0)))
    ++ (List.range 8).map fun n => (Reg.HD_GAITS n, 18 + 63 * 2 ^ 6 + 63 * 2 ^ 12 + 63 * 2 ^ 18 + 63 * 2 ^ 24)) State.reset

theorem test_scan_read : (desk 0).scanRead = 32 * 2115072000 ∧ (desk 8).scanRead = 24 * 2115072000 := by decide +kernel

/-- The detail of code 0x15 in the worked example of spec/03. -/
theorem test_bandwidth_detail : (desk 0).bandwidthBad [15, 0, 0x55, 0x21] = some 4957 ∧ (desk 8).bandwidthBad [15, 0, 0x55, 0x21] = none := by decide +kernel

theorem test_bandwidth_limit : ¬(desk 0).scanRead < 45 / 100 * (4 * 4 * 8533 * 1000000 : ℚ) ∧ (desk 8).scanRead < 45 / 100 * (4 * 4 * 8533 * 1000000 : ℚ) := by
  decide +kernel

/-- Worked example of spec/07: a block of 8 × 8 RGBA8 elements, encoded and read back. -/
def edgeBlock : List Nat := (List.range 64).map fun n => 0xFF008000 + (0x20 + n % 8) + (0x10 + (n + 5) % 16) * 65536

theorem test_bbc_header :
    (bbcEncode 4 edgeBlock).1 = [0x11, 0, 0, 0, 0x03, 0x04, 0, 0, 0x20, 0x80, 0x10, 0xFF, 0, 0, 0, 0] ∧ (bbcEncode 4 edgeBlock).2.length = 64 := by
  decide +kernel

theorem test_bbc_round_trip :
    (List.range 64).map (bbcDecode 4 0 (bbcEncode 4 edgeBlock).1 ((bbcEncode 4 edgeBlock).2 ++ List.replicate 192 0)) = edgeBlock ∧ edgeBlock.getD 5 0 / 65536 % 256 = 0x1A := by
  decide +kernel

/-- CRC-32C of "123456789" (the algorithm's check value, Table 13.6). -/
theorem test_crc32c : crc32c [0x31, 0x32, 0x33, 0x34, 0x35, 0x36, 0x37, 0x38, 0x39] = 0xE3069283 := by decide +kernel

/-- Worked example of spec/13: the alive word. -/
theorem test_alive_word : aliveWord 5 0x123 = [0x23, 0x01, 0x05, 0xA5] := by decide

/-- Worked example of spec/08: bytes of a primitive record with 8 varyings. -/
theorem test_record_size : recordSize 8 = 192 := by decide

/-- Worked example of spec/01: an idle jet steals the younger half of nine items and starts the oldest of them. -/
theorem test_siphon_steal :
    (let q := (List.range 9).map fun n => (⟨0, 0, false, n, 0⟩ : Item);
      let s := jaDev { aJob 3 with phase := 5, home := some 3, gx := 9, next := 9 } fun a => { a with strs := a.strs.set 3 { queue := q } };
      let t := after (.siphonSteal 40 [] false) s;
      ((t.str 3).queue.map (·.idx), (t.str 5).queue.map (·.idx), (t.jet 40).holds == .groups 0 0 [{ idx := 5, start := 0 }])
        = ([0, 1, 2, 3, 4], [6, 7, 8], true)) := by decide +kernel

/-- Worked example of spec/10: workgroups that a jet may hold. -/
theorem test_per_jet : ({ aJob 3 with prog := { entries := [{ stage := 3, teams := 4, vregs := 32, shared := 16384 }] } } : JetJob).perJet = 4 := by decide

/-- Worked example of spec/10: tile 1,234 of a 2560 × 1600 pass. -/
theorem test_tile_rect : ({ aw := 2560, ah := 1600 } : Pass).tileRect 1234 = (1088, 480, 1120, 512) := by decide +kernel

/-- Worked example of spec/09: the fields of FMA v8, v4, s0, v8, sat. -/
theorem test_fma_fields :
    (insOf 0x2304080480080000).op = 0x23 ∧ (insOf 0x2304080480080000).d = 8 ∧ (insOf 0x2304080480080000).a = 4 ∧ (insOf 0x2304080480080000).b = 0x80
    ∧ (insOf 0x2304080480080000).c = 8 ∧ (insOf 0x2304080480080000).mod = 4 ∧ (insOf 0x2304080480080000).gn = false ∧ (insOf 0x2304080480080000).imm = false := by
  decide

/-- Worked example of spec/11: a destination past the output fails with code 0x06. -/
theorem test_layer_check :
    (let g := fun (x : Nat) (o : Nat) => if o = 0 then 0x08000001 else if o = 0xC then 0x40000000 else if o = 8 then 0x50000 else if o = 0x18 then 5632 else
        if o = 0x1C ∨ o = 0x24 ∨ o = 0x2C then 600 * 65536 + 1400 else if o = 0x28 then x else 0;
      ((hdDev.checkLayer (g 2560) 0 1 3840 2160), (hdDev.checkLayer (g 2440) 0 1 3840 2160) != 6)) = (6, true) := by decide +kernel

/-- Worked example of spec/12: need and capacity of HBR3 on four lanes with FEC at 12 bpp. -/
theorem test_link_capacity :
    (let s := withRegs [(Reg.HD_LINK_CFG 4, 0x1047), (Reg.HD_DSC_CFG 4, 192 * 65536)] State.reset;
      s.need 4 22 = 14256000 ∧ s.capacity 4 7 4 = 25297920) := by decide +kernel

/-- Worked example of spec/11: the latch line of G18 begins 15.985 ms after the frame start. -/
theorem test_latch_offset : (withRegs [(Reg.HD_GAIT 3, 18), (Reg.HD_LATCH_GUARD_ACT 3, 2)] State.reset).latchOffset 3 = 15985185 := by decide +kernel

/-- Worked example of spec/14: slot 7 of LU0 before and after the operator releases S1. -/
theorem test_merge_slot :
    (mergeSlot false {} [(0, 100, 0xC0), (1, 120, 0x00), (2, 100, 0x80)] 0).2 = some 0x00
    ∧ (mergeSlot false {} [(0, 100, 0xC0), (2, 100, 0x80)] 0).2 = some 0xC0 := by decide

/-- Worked example of spec/15: a leader 2.5 ms behind grows STM_OFS. -/
theorem test_ptp_offset :
    (let s := ptpDev 1 2 [(Reg.STM_CFG, 200 * 65536 + 1000)];
      let t := after (.ptpMessageReceived 0 0 (.sync 1 9 false 0)) { s with clk := { s.clk with stm := 2500000 } };
      (t.stmOfs, t.clk.stm)) = (2500000, 2500000) := by decide +kernel

/-- Worked example of spec/16: grid, stride and plans of a field of 48 TX lines at 400 us; the baselines take 23,040 bytes. -/
theorem test_touch_plans :
    (let s := withRegs [(Reg.TCH_F_LINES 0, 79 * 2 ^ 24 + 48 * 256), (Reg.TCH_SCAN, 400), (Reg.TCH_F_CFG 0, 2)] State.reset;
      (s.gridFreqs, s.stride 0, s.plans 0, 2 * (s.unitGrid 0).size * s.plans 0)) = (181, 3, 3, 23040) := by decide +kernel

/-- Worked example of spec/17: u_max at 6.0 V of 12.0 V. -/
theorem test_u_max : (withRegs [(Reg.HAPC_LIMIT_ACT 2, 60 * 2 ^ 24), (Reg.HAPC_DRIVE 2, 120 * 2 ^ 24)] State.reset).uMax 2 = 512 := by decide +kernel

/-- Worked example of spec/18: law 1 on four and on three live inputs. -/
theorem test_autoscale : factorOf 6 4 = (2, 4) ∧ factorOf 6 3 = (2, 3) := by decide

end Sys2Proof.Tests
end

section
/-! An access through the U view to a resource that is not granted to the paddock (R14). -/

namespace Sys2Proof.Machine

/-! ### The commands REGISTER_WRITE and REGISTER_READ, and the answer of a read -/

theorem exec_registerWrite (view : View) (o v size hw hc : Nat) (s : State) :
    exec (.registerWrite view o v size hw hc) s = .next (s.registerWrite view o (v % 2 ^ 32) size hw) := (rfl)

theorem exec_registerRead (view : View) (o size : Nat) (s : State) :
    exec (.registerRead view o size) s = .next (s.registerRead view o size) := (rfl)

@[simp] theorem State.emit_out (s : State) (e : Emit) : (s.emit e).out = e :: s.out := (rfl)

/-- An answer through a U window names view 0 and the paddock of the window (Table 21.1). -/
theorem State.answer_u (s : State) (p : Fin 64) (o v : Nat) : s.answer (.u p) o v = s.emit (.regRead 0 p.val o v) := (rfl)

/-! ### The record NOT_GRANTED -/

section
variable (s : State) (p off : Nat)

/-- NOT_GRANTED changes what its port has logged in AER (R117) and the records that are offered, and nothing else. -/
theorem State.notGranted_frame :
    s.notGranted p off = { s with hp := (s.notGranted p off).hp, evr := (s.notGranted p off).evr } := (rfl)

@[simp] theorem State.notGranted_regs : (s.notGranted p off).regs = s.regs := by rw [s.notGranted_frame]

@[simp] theorem State.notGranted_mem : (s.notGranted p off).mem = s.mem := by rw [s.notGranted_frame]

@[simp] theorem State.notGranted_out : (s.notGranted p off).out = s.out := by rw [s.notGranted_frame]

/-- The record comes after those already offered, with the paddock and the offset as its items. -/
@[simp] theorem State.notGranted_offered :
    (s.notGranted p off).evr.offered = s.evr.offered ++ [mkRec 0x0002 [(8, p), (32, off)] s.clk.stm] := (rfl)
end

/-! ### Ungranted accesses -/

/-- An access through U window `p` reaches the device where the function answers and the offset is one of the window's
(R26, R28). -/
theorem State.viewReaches_u (s : State) (p : Fin 64) (o : Nat) :
    s.viewReaches (.u p) o = true ↔ s.reaches p.val = true ∧ o < 0x10000 := by
  simp [State.viewReaches]

/-- Every offset of a U window decodes: RECOVERY cuts the P view only (R87). -/
@[simp] theorem State.viewDecodes_u (s : State) (p : Fin 64) (o : Nat) : s.viewDecodes (.u p) o = true := (rfl)

section
variable {s : State} {p : Fin 64} {o : Nat} (hr : s.reaches p.val = true) (ha : o % 4 = 0) (ho : o < 0x10000)
  (hg : s.granted p.val o = false)
include hr ha ho hg

/-- An aligned word written where nothing is granted is discarded, and leaves the record. -/
theorem State.registerWrite_ungranted (v hw : Nat) : s.registerWrite (.u p) o v 4 hw = s.notGranted p.val o := by
  have reached := (s.viewReaches_u p o).2 ⟨hr, ho⟩
  simp [State.registerWrite, reached, ha, hg]

/-- An aligned word read where nothing is granted answers zero, and leaves the record. -/
theorem State.registerRead_ungranted :
    s.registerRead (.u p) o 4 = (s.emit (.regRead 0 p.val o 0)).notGranted p.val o := by
  have reached := (s.viewReaches_u p o).2 ⟨hr, ho⟩
  simp [State.registerRead, State.answer_u, reached, ha, hg]
end

/-- Settles O13: an ungranted write is the record alone, and an ungranted read the answer zero and the record. -/
theorem ungrantedAccessReadsZeroAndIsRecorded : Obligations.UngrantedAccessReadsZeroAndIsRecorded := by
  intro s p o v hw hc hr ha ho hg
  constructor
  · refine ⟨s.notGranted p.val o, ?_, by simp⟩
    rw [exec_registerWrite, State.registerWrite_ungranted hr ha ho hg]
  · refine ⟨(s.emit (.regRead 0 p.val o 0)).notGranted p.val o, ?_, by simp⟩
    rw [exec_registerRead, State.registerRead_ungranted hr ha ho hg]

end Sys2Proof.Machine
end

section
/-! The quiescing of a paddock and the rein of its contexts (R125, R126, R128, R130): what each operation leaves in the
registers, and the commands BME_CLEAR and SELF_QUIESCE by them. -/

namespace Sys2Proof.Machine

/-! ### What a rein of a context leaves in the registers -/

/-- What every step of a loop keeps, the loop keeps. -/
theorem State.each_of_step {α : Type} (P : State → Prop) {f : α → State → State} {s : State} (l : List α)
    (hf : ∀ a t, P t → P (f a t)) (h : P s) : P (State.each f l s) := by
  induction l generalizing s with
  | nil => exact h
  | cons a l ih => exact ih (hf a s h)

/-- The status words of the jets stand in their own block: no register below it changes. -/
theorem State.jaSync_reg (s : State) (k : Nat) (h : k < 0x70000) : s.jaSync.reg k = s.reg k := by
  have strings : ∀ t : State, (t.each (fun n u => u.setReg (Reg.JA_STR_STATUS n) (s.strStatus n)) (List.range 8)).reg k = t.reg k :=
    fun t => State.each_of_step (fun u => u.reg k = t.reg k) _
      (fun n u hu => (u.setReg_reg_ne _ _ _ (by simp only [Reg.JA_STR_STATUS]; omega)).trans hu) rfl
  have fields : ∀ (t : State) (r hi lo v : Nat), 0x70000 ≤ r → (t.setFld r hi lo v).reg k = t.reg k :=
    fun t r hi lo v hr => t.setFld_reg_ne _ _ _ _ _ (by omega)
  unfold State.jaSync
  dsimp only
  split <;> simp only [State.setBit, fields _ Reg.JA_STATUS _ _ _ (by decide), fields _ Reg.JA_FAIL _ _ _ (by decide),
    fields _ Reg.JA_PREEMPT_STATUS _ _ _ (by decide), strings]

theorem State.jetsCalm_reg (s : State) (c k : Nat) (h : k < 0x70000) : (s.jetsCalm c).reg k = s.reg k := by
  unfold State.jetsCalm
  split
  · rw [State.jaSync_reg _ _ h, State.reg_mk]
  · rfl

/-- A rein writes the status word of its context, and no other register below the jets' block. -/
theorem State.reinCtx_reg (s : State) (c src k : Nat) (h : k < 0x70000) (hk : k ≠ Reg.CQ_CTX_STATUS c) :
    (s.reinCtx c src).reg k = s.reg k := by
  unfold State.reinCtx
  split
  · rw [State.jetsCalm_reg _ _ _ h, State.setCtxState, State.setFld_reg_ne _ _ _ _ _ _ hk, State.setCtx_reg]
  · rfl

theorem State.ctxState_congr {s t : State} {c : Nat} (h : t.reg (Reg.CQ_CTX_STATUS c) = s.reg (Reg.CQ_CTX_STATUS c)) :
    t.ctxState c = s.ctxState c := by
  simp only [State.ctxState, State.fld, h]

/-- A rein takes its context from IDLE, ACTIVE or WAITING to REINING, and leaves every other one in its state (Table 6.2). -/
theorem State.reinCtx_ctxState (s : State) (d src : Nat) {c : Nat} (hc : c < 1024) :
    (s.reinCtx d src).ctxState c = if c = d ∧ s.ctxState c ≤ 2 then 3 else s.ctxState c := by
  by_cases hd : c = d
  · subst hd
    unfold State.reinCtx
    split
    · next hle =>
      rw [if_pos ⟨rfl, hle⟩, State.ctxState_congr (State.jetsCalm_reg _ _ _ (by simp only [Reg.CQ_CTX_STATUS]; omega))]
      exact State.setFld_fld _ _ _ _ _ (by decide) (by decide)
    · next hle => rw [if_neg fun h => hle h.2]
  · rw [if_neg fun h => hd h.1]
    exact State.ctxState_congr (s.reinCtx_reg _ _ _ (by simp only [Reg.CQ_CTX_STATUS]; omega)
      (by simp only [Reg.CQ_CTX_STATUS]; omega))

/-- A quiesce reins a context that is ACTIVE or WAITING, and leaves every other one in its state (R128). -/
theorem State.reinBusy_ctxState (s : State) (d : Nat) {c : Nat} (hc : c < 1024) :
    (if s.ctxState d = 1 ∨ s.ctxState d = 2 then s.reinCtx d 2 else s).ctxState c
      = if c = d ∧ (s.ctxState c = 1 ∨ s.ctxState c = 2) then 3 else s.ctxState c := by
  by_cases busy : s.ctxState d = 1 ∨ s.ctxState d = 2
  · rw [if_pos busy, State.reinCtx_ctxState _ _ _ hc]
    refine if_congr (and_congr_right ?_) rfl rfl
    rintro rfl
    exact ⟨fun _ => busy, by omega⟩
  · rw [if_neg busy, if_neg]
    rintro ⟨rfl, h⟩
    exact busy h

/-- A loop that reins each context of a list that is in one of the states `P`, REINING not among them. -/
theorem State.each_ctxState {f : Nat → State → State} (P : Nat → Prop) [DecidablePred P] {c : Nat} (h3 : ¬ P 3)
    (hf : ∀ d t, (f d t).ctxState c = if c = d ∧ P (t.ctxState c) then 3 else t.ctxState c) (l : List Nat) (s : State) :
    (s.each f l).ctxState c = if c ∈ l ∧ P (s.ctxState c) then 3 else s.ctxState c := by
  induction l generalizing s with
  | nil => simp [State.each]
  | cons d l ih =>
    rw [State.each, ih, hf]
    rcases eq_or_ne c d with rfl | hne
    · by_cases hP : P (s.ctxState c) <;> simp [hP, h3]
    · simp [hne]

/-! ### The contexts of a paddock -/

theorem State.lt_of_mem_ctxsOf' {s : State} {p c : Nat} (h : c ∈ s.ctxsOf' p) : c < 1024 := by
  rw [State.ctxsOf', List.mem_filter, List.mem_range] at h
  exact h.1

/-- Whose a context is stands in its owner word. -/
theorem State.ctxsOf'_congr {s t : State} (p : Nat)
    (h : ∀ c, c < 1024 → t.reg (Reg.CQ_CTX_OWNER c) = s.reg (Reg.CQ_CTX_OWNER c)) : t.ctxsOf' p = s.ctxsOf' p := by
  refine List.filter_congr fun c hc => ?_
  simp only [State.ctxAssigned, State.ctxPaddock, State.bit, State.fld, h c (List.mem_range.1 hc)]

/-! ### A transition of a paddock -/

theorem State.pdkCause_reg (s : State) (p b k : Nat) (h : k < 0x10000000) : (s.pdkCause p b).reg k = s.reg k := by
  rw [State.pdkCause, State.raiseFor_reg _ _ _ _ _ _ h]
  exact s.setBit_reg_ne _ _ _ _ (by simp only [Reg.PDK_U_CAUSE]; omega)

theorem State.mgrIrqSticky_reg (s : State) (k : Nat) (h : k < 0x10000000) : s.mgrIrqSticky.reg k = s.reg k := by
  rw [State.mgrIrqSticky, State.raiseVec_reg _ _ _ _ h]
  split <;> rfl

/-- A transition writes the state field of the paddock, and no other register below the U windows. -/
theorem State.movePdk_reg (s : State) (p st k : Nat) (h : k < 0x10000000) :
    (s.movePdk p st).reg k = (s.setFld (Reg.PDK_STATE p) 2 0 st).reg k := by
  rw [State.movePdk, State.mgrIrqSticky_reg _ _ h, State.pdkCause_reg _ _ _ _ h, State.offer_reg]

/-! ### Quiescing -/

theorem State.quiesce_of_inactive {s : State} {p : Nat} (h : s.pdkState p ≠ 2) (cause : Nat) : s.quiesce p cause = s :=
  if_neg h

/-- An ACTIVE paddock once it has entered QUIESCING, before its contexts rein. -/
def State.quiescing (s : State) (p cause : Nat) : State := (s.setFld (Reg.PDK_STATE p) 15 8 cause).movePdk p 3

theorem State.quiescing_reg_ne (s : State) (p cause k : Nat) (h : k < 0x10000000) (hk : k ≠ Reg.PDK_STATE p) :
    (s.quiescing p cause).reg k = s.reg k := by
  rw [State.quiescing, State.movePdk_reg _ _ _ _ h, State.setFld_reg_ne _ _ _ _ _ _ hk, State.setFld_reg_ne _ _ _ _ _ _ hk]

section
variable {s : State} {p : Nat} (active : s.pdkState p = 2) (cause : Nat)
include active

theorem State.quiesce_of_active : s.quiesce p cause =
    (s.quiescing p cause).each (fun c s => if s.ctxState c = 1 ∨ s.ctxState c = 2 then s.reinCtx c 2 else s)
      ((s.quiescing p cause).ctxsOf' p) :=
  if_pos active

/-- Below the registers of the contexts, quiescing writes the paddock's state and its cause. -/
theorem State.quiesce_reg (k : Nat) (h : k < 0x54000) :
    (s.quiesce p cause).reg k = ((s.setFld (Reg.PDK_STATE p) 15 8 cause).setFld (Reg.PDK_STATE p) 2 0 3).reg k := by
  rw [State.quiesce_of_active active, ← State.movePdk_reg _ _ _ _ (by omega)]
  refine State.each_of_step (fun t => t.reg k = (s.quiescing p cause).reg k) _ (fun c t ht => ?_) rfl
  split
  · exact (t.reinCtx_reg _ _ _ (by omega) (by simp only [Reg.CQ_CTX_STATUS]; omega)).trans ht
  · exact ht

variable (hp : p < 64)
include hp

theorem State.quiesce_fld (hi lo : Nat) : (s.quiesce p cause).fld (Reg.PDK_STATE p) hi lo =
    ((s.setFld (Reg.PDK_STATE p) 15 8 cause).setFld (Reg.PDK_STATE p) 2 0 3).fld (Reg.PDK_STATE p) hi lo := by
  rw [State.fld, State.quiesce_reg active cause _ (by simp only [Reg.PDK_STATE]; omega), State.fld]

theorem State.quiesce_pdkState : (s.quiesce p cause).pdkState p = 3 :=
  (State.quiesce_fld active _ hp _ _).trans (State.setFld_fld _ _ _ _ _ (by decide) (by decide))

theorem State.quiesce_cause : (s.quiesce p cause).fld (Reg.PDK_STATE p) 15 8 = cause % 2 ^ 8 := by
  rw [State.quiesce_fld active _ hp, State.setFld_fld_ne _ _ _ _ _ _ _ (by decide) (by decide) (by decide),
    State.setFld_fld _ _ _ _ _ (by decide) (by decide)]

/-- A bit outside the two fields keeps its value. -/
theorem State.quiesce_bit {i : Nat} (hst : 2 < i) (hc : i < 8) :
    (s.quiesce p cause).bit (Reg.PDK_STATE p) i = s.bit (Reg.PDK_STATE p) i := by
  rw [State.bit, State.quiesce_reg active cause _ (by simp only [Reg.PDK_STATE]; omega), ← State.bit,
    State.setFld_bit _ _ _ _ _ _ (by decide) (by decide), State.setFld_bit _ _ _ _ _ _ (by decide) (by decide),
    if_neg (by omega), if_neg (by omega)]

/-- The contexts that were ACTIVE or WAITING rein (R128). -/
theorem State.quiesce_ctxState {c : Nat} (hc : c ∈ s.ctxsOf' p) (busy : s.ctxState c = 1 ∨ s.ctxState c = 2) :
    (s.quiesce p cause).ctxState c = 3 := by
  have hlt := State.lt_of_mem_ctxsOf' hc
  have owners : (s.quiescing p cause).ctxsOf' p = s.ctxsOf' p := State.ctxsOf'_congr p fun d hd =>
    s.quiescing_reg_ne _ _ _ (by simp only [Reg.CQ_CTX_OWNER]; omega) (by simp only [Reg.CQ_CTX_OWNER, Reg.PDK_STATE]; omega)
  have before : (s.quiescing p cause).ctxState c = s.ctxState c := State.ctxState_congr
    (s.quiescing_reg_ne _ _ _ (by simp only [Reg.CQ_CTX_STATUS]; omega)
      (by simp only [Reg.CQ_CTX_STATUS, Reg.PDK_STATE]; omega))
  rw [State.quiesce_of_active active,
    State.each_ctxState (fun n => n = 1 ∨ n = 2) (by decide) (fun d t => t.reinBusy_ctxState d hlt), owners, before,
    if_pos ⟨hc, busy⟩]
end

/-! ### Bus Master Enable -/

section
variable (s : State) (p : Nat)

/-- `s` once Bus Master Enable of the function of paddock `p` is clear. -/
def State.bmeOff : State := s.setBit (Reg.PDK_STATE p) 5 false

theorem State.bmeOff_bit : (s.bmeOff p).bit (Reg.PDK_STATE p) 5 = false := s.setBit_bit _ _ _ (by decide)

theorem State.bmeOff_pdkState : (s.bmeOff p).pdkState p = s.pdkState p :=
  s.setBit_fld_ne _ _ _ _ _ (by decide) (by decide)

theorem State.bmeOff_cause : (s.bmeOff p).fld (Reg.PDK_STATE p) 15 8 = s.fld (Reg.PDK_STATE p) 15 8 :=
  s.setBit_fld_ne _ _ _ _ _ (by decide) (by decide)

theorem State.bmeOff_ctxsOf' : (s.bmeOff p).ctxsOf' p = s.ctxsOf' p :=
  State.ctxsOf'_congr p fun _ _ => s.setBit_reg_ne _ _ _ _ (by simp only [Reg.CQ_CTX_OWNER, Reg.PDK_STATE]; omega)

theorem State.bmeOff_ctxState {p : Nat} (hp : p < 64) (c : Nat) : (s.bmeOff p).ctxState c = s.ctxState c :=
  State.ctxState_congr (s.setBit_reg_ne _ _ _ _ (by simp only [Reg.CQ_CTX_STATUS, Reg.PDK_STATE]; omega))
end

theorem exec_bmeClear {s : State} {p : Fin 64} (hr : s.reaches p.val = true) (hb : s.bit (Reg.PDK_STATE p.val) 5 = true) :
    exec (.bmeClear p) s = if p.val = s.manager
      then .next ((s.bmeOff p.val).each (fun c s => s.reinCtx c 2) ((s.bmeOff p.val).ctxsOf' p.val))
      else .next ((s.bmeOff p.val).quiesce p.val 4) :=
  if_pos (by rw [hr, hb]; rfl)

/-- The manager's contexts rein, and below them the registers are as Bus Master Enable left them (R126). -/
theorem State.bmeOff_reins_reg (s : State) (p k : Nat) (l : List Nat) (h : k < 0x54000) :
    ((s.bmeOff p).each (fun c s => s.reinCtx c 2) l).reg k = (s.bmeOff p).reg k :=
  State.each_of_step (fun t => t.reg k = (s.bmeOff p).reg k) l
    (fun c t ht => (t.reinCtx_reg _ _ _ (by omega) (by simp only [Reg.CQ_CTX_STATUS]; omega)).trans ht) rfl

/-- They rein from every state that a rein reaches, IDLE too (R126). -/
theorem State.bmeOff_reins_ctxState (s : State) (p : Nat) (l : List Nat) {c : Nat} (hc : c < 1024) :
    ((s.bmeOff p).each (fun c s => s.reinCtx c 2) l).ctxState c
      = if c ∈ l ∧ (s.bmeOff p).ctxState c ≤ 2 then 3 else (s.bmeOff p).ctxState c :=
  State.each_ctxState (· ≤ 2) (by decide) (fun d t => t.reinCtx_ctxState d 2 hc) l _

/-- Settles O18: a non-manager paddock quiesces where it is ACTIVE, and the contexts of the manager rein. -/
theorem busMasterEnableClear : Obligations.BusMasterEnableClear := by
  constructor
  · intro s p hr hb hm
    refine ⟨(s.bmeOff p.val).quiesce p.val 4, by rw [exec_bmeClear hr hb, if_neg hm], ?_⟩
    have state := s.bmeOff_pdkState p.val
    by_cases active : (s.bmeOff p.val).pdkState p.val = 2
    · refine ⟨?_, fun _ => ⟨State.quiesce_pdkState active 4 p.isLt, State.quiesce_cause active 4 p.isLt⟩,
        fun h => absurd (state ▸ active) h⟩
      rw [State.quiesce_bit active 4 p.isLt (by decide) (by decide), State.bmeOff_bit]
    · rw [State.quiesce_of_inactive active]
      exact ⟨s.bmeOff_bit _, fun h => absurd (state.trans h) active, fun _ => ⟨state, s.bmeOff_cause _⟩⟩
  · intro s p hr hb hm
    refine ⟨_, by rw [exec_bmeClear hr hb, if_pos hm], ?_⟩
    have same := s.bmeOff_reins_reg p.val (Reg.PDK_STATE p.val) ((s.bmeOff p.val).ctxsOf' p.val)
      (by simp only [Reg.PDK_STATE]; omega)
    refine ⟨?_, ?_, fun c hc hle => ?_⟩
    · rw [State.bit, same]; exact s.bmeOff_bit _
    · rw [State.pdkState, State.fld, same]; exact s.bmeOff_pdkState _
    · rw [State.bmeOff_reins_ctxState _ _ _ (State.lt_of_mem_ctxsOf' hc), s.bmeOff_ctxsOf', s.bmeOff_ctxState p.isLt,
        if_pos ⟨hc, hle⟩]

/-! ### PDK_U_QUIESCE -/

theorem exec_selfQuiesce (s : State) (p : Fin 64) (v : Nat) :
    exec (.selfQuiesce p v) s = .next (if s.reaches p.val then s.selfQuiesce p.val v else s) := (rfl)

/-- The key on a paddock that is not the manager quiesces it; the manager's write leaves a record alone (R130). -/
theorem State.selfQuiesce_key (s : State) (p : Nat) :
    s.selfQuiesce p 0x5155 = if p = s.manager then s.offer 0x0104 [(8, p)] else s.quiesce p 2 := (rfl)

/-- Another value changes nothing, nor does the key on a paddock that is not ACTIVE and not the manager's. -/
theorem State.selfQuiesce_idle {s : State} {p v : Nat} (hv : v < 2 ^ 32)
    (h : v ≠ 0x5155 ∨ (p ≠ s.manager ∧ s.pdkState p ≠ 2)) : s.selfQuiesce p v = s := by
  by_cases key : v = 0x5155
  · obtain ⟨hm, inactive⟩ := h.resolve_left (not_not_intro key)
    rw [key, State.selfQuiesce_key, if_neg hm, State.quiesce_of_inactive inactive]
  · exact if_pos (by rwa [Nat.mod_eq_of_lt hv])

/-- Settles O22: the key quiesces an ACTIVE paddock with cause SELF, leaves the manager a record, and is idle elsewhere. -/
theorem selfQuiesce : Obligations.SelfQuiesce := by
  refine ⟨fun s p hr hm active => ?_, fun s p hr hm => ?_, fun s p v hv h => ?_⟩
  · refine ⟨s.quiesce p.val 2, by rw [exec_selfQuiesce, if_pos hr, State.selfQuiesce_key, if_neg hm], ?_⟩
    exact ⟨State.quiesce_pdkState active 2 p.isLt, State.quiesce_cause active 2 p.isLt,
      fun c hc busy => State.quiesce_ctxState active 2 p.isLt hc busy⟩
  · refine ⟨s.offer 0x0104 [(8, p.val)], by rw [exec_selfQuiesce, if_pos hr, State.selfQuiesce_key, if_pos hm], ?_⟩
    exact ⟨rfl, rfl, rfl, rfl⟩
  · exact ⟨s, by rw [exec_selfQuiesce, State.selfQuiesce_idle hv h, ite_self], rfl⟩

end Sys2Proof.Machine
end

section
/-! The reception of sACN data (R379–R381): what setting the senders of an input universe or discarding a packet leaves in
the state, what a packet of a live sender does, and the command SACN_PACKET_RECEIVED by them. -/

namespace Sys2Proof.Machine

/-! ### The senders of an input universe and their status register -/

section
variable (s : State) (i : Nat) (l : List Sender)

/-- LO_RX_i_STATUS is all that follows the senders. -/
@[simp] theorem State.rxSync_lo : (s.rxSync i).lo = s.lo := (rfl)

theorem State.rxSync_reg_ne {r : Nat} (h : r ≠ Reg.LO_RX_STATUS i) : (s.rxSync i).reg r = s.reg r := by
  unfold State.rxSync
  rw [State.setFld_reg_ne _ _ _ _ _ _ h, State.setFld_reg_ne _ _ _ _ _ _ h, State.setFld_reg_ne _ _ _ _ _ _ h]

@[simp] theorem State.setSenders_senders : (s.setSenders i l).senders i = l :=
  spGet_spSet_same _ _ _ _

theorem State.setSenders_sameRegs : SameRegs s (s.setSenders i l) [Reg.LO_RX_STATUS i] := fun _ hr =>
  State.rxSync_reg_ne _ i (List.ne_of_not_mem_cons hr)

/-- A discarded packet leaves the light engine's own state alone. -/
@[simp] theorem State.rxDiscard_lo : (s.rxDiscard i).lo = s.lo := (rfl)

theorem State.rxDiscard_sameRegs : SameRegs s (s.rxDiscard i) [Reg.LO_RX_STATUS i] := fun _ hr =>
  s.setFld_reg_ne _ _ _ _ _ (List.ne_of_not_mem_cons hr)

/-- The count of discarded packets wraps at its 10 bits. -/
theorem State.rxDiscard_count :
    (s.rxDiscard i).fld (Reg.LO_RX_STATUS i) 9 0 = (s.fld (Reg.LO_RX_STATUS i) 9 0 + 1) % 1024 :=
  s.setFld_fld _ _ _ _ (by decide) (by decide)
end

/-! ### A packet of a live sender -/

/-- The sequence rule in the words of R381. -/
theorem seqOk_iff (new last : Nat) :
    seqOk new last = true ↔
      0 < signedOf 8 ((new + 256 - last) % 256) ∨ signedOf 8 ((new + 256 - last) % 256) ≤ -20 := by
  simp [seqOk]

section
variable {s : State} {i : Nat} {k : SacnPacket} {x : Sender}
  (live : s.senders i = [x]) (cid : x.cid = k.cid)
include live cid

/-- Out of sequence: the packet is discarded, terminated or not. -/
theorem State.rxPacket_outOfSequence (bad : seqOk (k.seq % 256) x.seq = false) :
    s.rxPacket i x.port k = s.rxDiscard i := by
  simp [State.rxPacket, live, cid, bad]

/-- In sequence and terminated: the sender ends (R379). -/
theorem State.rxPacket_terminated (good : seqOk (k.seq % 256) x.seq = true) (term : k.terminated = true) :
    s.rxPacket i x.port k = s.setSenders i [] := by
  simp [State.rxPacket, live, cid, good, term]

/-- In sequence: the sender holds what the packet carries. -/
theorem State.rxPacket_accepted (good : seqOk (k.seq % 256) x.seq = true) (data : k.terminated = false) :
    s.rxPacket i x.port k =
      s.setSenders i [{ x with prio := k.priority, seq := k.seq % 256, slots := (k.slots.take 512).map (·.toNat) }] := by
  simp [State.rxPacket, live, cid, good, data]
end

/-! ### SACN_PACKET_RECEIVED -/

theorem exec_sacnPacketReceived (p : Fin 2) (k : SacnPacket) (s : State) :
    exec (.sacnPacketReceived p k) s = execSacnPacketReceived p k s := (rfl)

/-- A data packet that one input record takes. -/
theorem exec_sacnPacketReceived_data {s : State} {p : Fin 2} {k : SacnPacket} {i : Nat} (on : s.lightOn = true)
    (record : s.inRecords k.sacn p.val = [i]) (kind : k.kind = 0) (start : k.start = 0) (preview : k.preview = false) :
    exec (.sacnPacketReceived p k) s = .next (s.rxPacket i p.val k) := by
  simp [exec_sacnPacketReceived, execSacnPacketReceived, State.each, on, record, kind, start, preview]

/-- Settles O51: by the sequence rule the packet of a live sender replaces it, ends it, or is discarded and counted. -/
theorem sacnSequenceRule : Obligations.SacnSequenceRule := by
  intro s p k i x d on record kind start preview live cid port _ hd
  have step := exec_sacnPacketReceived_data on record kind start preview
  rw [← port] at step
  have rule : seqOk (k.seq % 256) x.seq = true ↔ 0 < d ∨ d ≤ -20 := hd ▸ seqOk_iff _ _
  refine ⟨fun accepted data => ?_, fun accepted term => ?_, fun above below => ?_⟩
  · rw [State.rxPacket_accepted live cid (rule.2 accepted) data] at step
    exact ⟨_, step, State.setSenders_senders .., State.setSenders_sameRegs _ _ _⟩
  · rw [State.rxPacket_terminated live cid (rule.2 accepted) term] at step
    exact ⟨_, step, State.setSenders_senders ..⟩
  · have bad : seqOk (k.seq % 256) x.seq = false := by
      rw [Bool.eq_false_iff, ne_eq, rule]
      omega
    rw [State.rxPacket_outOfSequence live cid bad] at step
    exact ⟨_, step, State.rxDiscard_lo .., State.rxDiscard_sameRegs _ _, State.rxDiscard_count ..⟩

end Sys2Proof.Machine
end
